-- ==== Sys2Proof/Inputs.lean ====
section
/-!
DEFINITION. What a command of the block carries from outside: results that the host, the link, a sensor or a self-test
supplies and that no rule of the spec computes.
-/
namespace Sys2Proof

/-- How a host read completes (Table 12.3). -/
inductive HostResult where
  /-- data -/
  | data (bytes : List Byte)
  /-- Unsupported Request, including an IOMMU fault -/
  | ur
  /-- Completer Abort -/
  | ca
  /-- poisoned completion -/
  | poisoned
  deriving DecidableEq, Repr

/-- The fields of the configuration space that the host writes and the device obeys (R307, R310), Bus Master Enable
apart. -/
structure PciConf where
  /-- Memory Space Enable (R315) -/
  memSpace : Bool
  /-- Max Payload Size in bytes: 128, 256 or 512 (Table 12.1) -/
  mps : Nat
  /-- Completion Timeout Value and Disable of Device Control 2 (R319) -/
  cplRange : Nat
  cplOff : Bool
  /-- bits [31:0] of BAR0 and BAR2 as written -/
  bar0 : W32
  bar2 : W32
  /-- AER: Uncorrectable Error Mask and Severity, and whether Poisoned TLP Egress Blocking is on (R314) -/
  aerMask : W32
  aerSeverity : W32
  egressBlock : Bool
  deriving DecidableEq, Repr

/-- The configuration space after a conventional or function level reset (R327), as PCI Express gives it (PRESUMED, log entry
68): under AER internal errors and blocked egress are masked, and the errors of the link's own protocol are fatal. -/
def PciConf.reset : PciConf := ⟨false, 128, 0, false, 0, 0, 0x04400000, 0x00462030, false⟩

/-- What the data link comes up with (R307, R308), and the configuration that the host gives the function before its first
access. -/
structure LinkInfo where
  /-- 1 to 7: 2.5 to 128 GT/s -/
  rate : Nat
  /-- lanes in use: 4, 8 or 16 -/
  width : Nat
  flit : Bool
  bme : Bool
  conf : PciConf
  deriving DecidableEq, Repr

/-- An access of the host other than one through the gangway, at an offset and of a number of bytes: to BAR0 (R311) or to the
configuration space (R307), whose writes name the fields they set, because their places are open. -/
inductive HostAccess where
  /-- of BAR0: the value written -/
  | write (data : Nat)
  | read
  /-- the host sets the configuration, and clears bits of the AER Uncorrectable Error Status -/
  | configWrite (bme : Bool) (conf : PciConf) (aerClear : W32)
  /-- the host sets MSI-X Enable and the Function Mask (R320) -/
  | msixWrite (on mask : Bool)
  /-- of the 4-byte word of the configuration space that holds the offset -/
  | configRead
  deriving DecidableEq, Repr

/-- MM_ACC_FLUSH: its queue, and where a residue fault strikes it, when one does (R101). -/
structure FlushArg where
  q : QId
  flt : Option (Fin 8)
  deriving DecidableEq, Repr

/-- What fails in the management core (R329). -/
inductive CoreFaultKind where
  | sram
  | residue
  deriving DecidableEq, Repr

/-- The outcome of a self-test (R387), with the spare lane chosen where the unit is a pseudo-channel (R385). -/
structure QualResult where
  pass : Bool
  /-- the lane replaced by the spare, if any -/
  spared : Option (Fin 37)
  deriving DecidableEq, Repr

/-- A temperature sensor (Table 16.4). -/
inductive Sensor where
  | compute
  | hub
  | stackCore (s : Fin 8)
  | stackBase (s : Fin 8)
  | package (p : Fin 24)
  deriving DecidableEq, Repr

/-- What the arbiter measures over one 10 µs window (R399): input power in mW, input voltage in mV, energy in mJ, and
the temperature of every sensor that reports, in °C. -/
structure PowerSample where
  mw : Nat
  mv : Nat
  mj : Nat
  temps : List (Sensor × Int)
  deriving DecidableEq, Repr

/-- The values of a configuration record verified and applied at start-up step 4 (R432, R433) whose bytes the model
does not hold: the record the factory left in flash. -/
structure FactoryRecord where
  version : W32
  serial : W64
  /-- Vendor ID, Device ID, Subsystem Vendor ID, Subsystem ID -/
  pciId : List W16
  /-- section 7, coded as FAB_ID_CFG; absent: VALID is 0 -/
  fabricId : Option W16
  /-- section 4: logical groups that are not home, with their targets -/
  repairMap : List (Fin 2048 × Fin 9)
  /-- the check value of section 5 (R357), when the record carries helper data -/
  check : Option (List Byte)
  /-- SHAKE256 of the record -/
  measurement : List Byte
  /-- the signer certificate -/
  cert : List Byte
  deriving DecidableEq, Repr

/-- The outcome of start-up steps 4 and 5 (Table 16.7): the factory record, when the active slot holds it and it
verifies; units that fail qualification or training (R379, R385); spare lanes used. -/
structure StartResult where
  record : Option FactoryRecord
  clusters : List (Fin 64)
  groups : List (Fin 2112)
  pcs : List (Fin 512)
  packages : List (Fin 24)
  /-- pseudo-channels with a spared lane -/
  spared : List (Fin 512 × Fin 37)
  /-- spare lanes switched in, by package -/
  pkgSpares : List (Fin 24 × Fin 5)
  /-- intake decode lanes out of service -/
  lanesOut : List (Fin 32)
  deriving DecidableEq, Repr

end Sys2Proof
end

