-- ==== Sys2Proof/Syntax.lean ====
section
/-!
DEFINITION. The commands the block takes: one constructor per row of spec/opcode_table.json, with the operands the row
names (a queue, a unit, a port, an offset and data). Rows whose event carries data from outside carry it as an operand.
-/
namespace Sys2Proof

/-- A command of the ZT2048-M50: an indivisible step of the device, commanded from outside or due by its own rules. -/
inductive Instr where
  /-- NOP (R45): Common command that does nothing except honour its tokens and FENCE. -/
  | nop (q : QId)
  /-- WRITE_IMM (R45): Writes an 8-byte immediate value at an engine address in any space. -/
  | writeImm (q : QId)
  /-- TOKEN_SET (R45): Sets a token counter unconditionally and re-tests every wait on it. -/
  | tokenSet (q : QId)
  /-- SLIP_ACQUIRE (R48): Producer waits until fill F has a free slipway slot. -/
  | slipAcquire (q : QId)
  /-- SLIP_PUBLISH (R48): Producer publishes fill F, making its bytes visible and advancing TAIL. -/
  | slipPublish (q : QId)
  /-- SLIP_WAIT (R48): Consumer waits until fill C is published. -/
  | slipWait (q : QId)
  /-- SLIP_RELEASE (R48): Consumer frees the slot of fill C and advances HEAD. -/
  | slipRelease (q : QId)
  /-- MM_PRODUCT (R103): Matrix product D = A x B + C split into work items with exact block summation. -/
  | mmProduct (q : QId)
  /-- MM_COMBINE (R104): Ordered combine of S FP32 partials in memory into D. -/
  | mmCombine (q : QId)
  /-- MM_ACC_OPEN (R97): Binds an accumulator handle to a free cluster slot, zeroed or initialised. -/
  | mmAccOpen (q : QId)
  /-- MM_ACC_FLUSH (R99): Stores, adds, zeroes, releases or discards an accumulator handle. -/
  | mmAccFlush (q : FlushArg)
  /-- VX_CONVERT (R120): Converts each element of the source rows into the destination format. -/
  | vxConvert (q : QId)
  /-- VX_ELTWISE (R121): Element-wise operation selected by the operation code over X, Y, Z and s. -/
  | vxEltwise (q : QId)
  /-- VX_REDUCE (R122): Fixed-order row or column reduction (sum, sumsq, max, min, argmax, argmin). -/
  | vxReduce (q : QId)
  /-- VX_NORM (R123): Layer or RMS normalisation of each row with optional statistics output. -/
  | vxNorm (q : QId)
  /-- VX_SOFTMAX (R124): Masked softmax of each row with optional log-sum-exp output. -/
  | vxSoftmax (q : QId)
  /-- VX_OPT_DELAYED (R129): Delayed optimizer update of two-slot chunks with descriptor commit. -/
  | vxOptDelayed (q : QId)
  /-- VEC_ROW_ISSUE (R113): A row, chunk or column of a vector command is issued to a free quadrant. -/
  | vecRowIssue (d : Fin 4)
  /-- VEC_ROW_END (R113): A quadrant finishes a row, chunk or column and writes its results. -/
  | vecRowEnd (d : Fin 4) (flt : Option (Fin 9))
  /-- QUADRANT_WAKE (R114): A gated vector quadrant completes its wake before taking work. -/
  | quadrantWake (d : Fin 4)
  /-- NB_FERRY (R205): Broadcasts a short near-bank program over a range of rows in selected stacks. -/
  | nbFerry (q : QId)
  /-- NB_OPTIMIZE (R211): In-place optimizer row operation over a parameter shard. -/
  | nbOptimize (q : QId)
  /-- NB_ATTEND (R216): Attention of broadcast queries over a key-value cache near the banks. -/
  | nbAttend (q : QId)
  /-- NB_REPAIR (R220): Copies a logical group's bank-aligned rows to a new target and switches the map. -/
  | nbRepair (q : QId)
  /-- ROW_INDEX_ISSUE (R201): The base die issues the next row index to every selected unit of a stack. -/
  | rowIndexIssue (st : Fin 8)
  /-- ROW_OPERATION_END (R197): A unit completes a row operation and releases the bank hold. -/
  | rowOperationEnd (u : Fin 16384) (flt : Option (Fin 8))
  /-- REPAIR_MAP_SWITCH (R220): After the repair copy ends, the group's map entry switches in one step. -/
  | repairMapSwitch (st : Fin 8)
  /-- TT_COPY (R186): Copies SIZE bytes unchanged between any address spaces. -/
  | ttCopy (q : QId)
  /-- TT_FILL (R186): Writes an 8-byte pattern repeatedly over SIZE bytes. -/
  | ttFill (q : QId)
  /-- TT_REGION_SET (R156): Creates a region with its descriptor, tag and placement. -/
  | ttRegionSet (q : QId)
  /-- TT_REGION_CLEAR (R187): Removes a region and releases its charges and rows. -/
  | ttRegionClear (q : QId)
  /-- TT_REGION_HINT (R187): Changes a region's placement hint and places pinned pages. -/
  | ttRegionHint (q : QId)
  /-- TT_PLACE (R188): Moves named pages to a tier, skipping those that may not move. -/
  | ttPlace (q : QId)
  /-- TT_TOLL_SET (R170): Sets a context's page grant in a tier. -/
  | ttTollSet (q : QId)
  /-- TT_TOLL_CLOSE (R170): Sets a context's grant in a tier to none. -/
  | ttTollClose (q : QId)
  /-- TT_FORD_SET (R171): Configures a weight-streaming window from a layer table. -/
  | ttFordSet (q : QId)
  /-- TT_FORD_STEP (R172): Moves the ford window and completes once layer L is resident. -/
  | ttFordStep (q : QId)
  /-- TT_FORD_END (R174): Empties a ford window, leaving its pages in place. -/
  | ttFordEnd (q : QId)
  /-- TT_COMPRESS (R176): Packs the named pages of a compressible region losslessly. -/
  | ttCompress (q : QId) (flt : Bool)
  /-- TT_RETIRE (R182): Retires a 64 KiB frame by copying it into a spare and remapping. -/
  | ttRetire (q : QId)
  /-- TT_TIDE (R142): Folds tide statistics into history, chooses next gradient formats and patches sites. -/
  | ttTide (q : QId) (flt : Bool)
  /-- BACKGROUND_MOVE_START (R163): The tier manager begins a background page move under the hints and rate limit. -/
  | backgroundMoveStart (page : Fin 1048576)
  /-- PAGE_MOVE_SWITCH (R166): A page copy ends and the map entries of page and victim switch in one step. -/
  | pageMoveSwitch (page : Fin 1048576)
  /-- ACCESS_COUNTER_HALVING (R165): At the end of each TIR_EPOCH interval every page access counter halves. -/
  | accessCounterHalving
  /-- XC_REDUCE (R233): Dense all-reduce or reduce-scatter in ascending rank order. -/
  | xcReduce (q : QId) (flt : Bool)
  /-- XC_REDUCE_COMP (R234): Compressed reduction with error feedback residuals. -/
  | xcReduceComp (q : QId) (flt : Bool)
  /-- XC_GATHER (R242): Delivers every rank's gather-source shard to every rank. -/
  | xcGather (q : QId)
  /-- XC_BROADCAST (R244): Copies bytes from the root rank to every rank. -/
  | xcBroadcast (q : QId)
  /-- XC_ATTN_COMBINE (R245): Folds partial attention records over ranks in ascending rank. -/
  | xcAttnCombine (q : QId) (flt : Bool)
  /-- XC_RANK_SET (R226): Defines an exchange group's rank table, queue, channel and epoch. -/
  | xcRankSet (q : QId)
  /-- PEER_TIMEOUT (R248): An awaited segment does not arrive within XCH_PEER_TIMEOUT and the collective fails. -/
  | peerTimeout (g : Fin 16)
  /-- IK_BATCH (R279): Decodes, transforms and places one batch of samples and writes its manifest. -/
  | ikBatch (q : QId)
  /-- IK_VOCAB_LOAD (R290): Replaces the tokenisation vocabulary. -/
  | ikVocabLoad (q : QId)
  /-- IK_CACHE_FLUSH (R301): Empties the decoded-sample cache. -/
  | ikCacheFlush (q : QId)
  /-- DECODE_START (R295): A free decode lane takes the lowest-numbered sample inside the reorder window. -/
  | decodeStart (lane : Fin 32)
  /-- DECODE_END (R297): A lane finishes, fails or exceeds the budget on a sample. -/
  | decodeEnd (lane : Fin 32)
  /-- STAGING_RESERVE (R296): A lane is granted staging space in ascending sample order. -/
  | stagingReserve (lane : Fin 32)
  /-- TRANSFORM_SAMPLE (R291): The transform stage takes the next sample in order and writes its slot. -/
  | transformSample (flt : Bool)
  /-- ROI_POLL (R293): Every 1 us a waiting record re-reads the region-of-interest SEQ. -/
  | roiPoll
  /-- ENTRY_TAKE (R28): The front end finds a posted ring entry with the expected stamp and takes it. -/
  | entryTake (q : QId)
  /-- HOST_RING_POLL (R32): Every CQF_POLL interval the front end reads the expected slot of an idle host ring. -/
  | hostRingPoll (q : QId)
  /-- LIST_FETCH (R38): Once a taken list's wait token is met, its first command is fetched. -/
  | listFetch (q : QId)
  /-- COMMAND_DISPATCH (R43): A ready current command is dispatched to a free execution resource. -/
  | commandDispatch (q : QId)
  /-- COMMAND_COMPLETE (R38): A dispatched command completes and its reply is written in list order. -/
  | commandComplete (q : QId)
  /-- QUEUE_TIMEOUT (R40): A command's time as current command exceeds CQF_Qn_TIMEOUT and the queue stops. -/
  | queueTimeout (q : QId)
  /-- RESUME_NEXT (R39): Queue action continuing a stopped queue after the failed step. -/
  | resumeNext (q : QId)
  /-- DROP_LIST (R39): Queue action abandoning the rest of the current list. -/
  | dropList (q : QId)
  /-- QUEUE_RESET (R39): Queue action abandoning the queue and leaving it DISABLED. -/
  | queueReset (q : QId)
  /-- QUEUE_ENABLE (R41): ENABLE <- 1 on a queue, refused or setting HEAD and REPLY_SEQ to zero. -/
  | queueEnable (q : QId)
  /-- QUEUE_DISABLE (R41): ENABLE <- 0 stops a queue from taking entries and drains it. -/
  | queueDisable (q : QId)
  /-- DISPATCH_HOLD (R44): Writing CQF_CTL.DISPATCH_EN stops or resumes all dispatch. -/
  | dispatchHold (en : Bool)
  /-- CQF_PEAK_CLR (R416): Action bit clearing every PEAK field in CQF. -/
  | cqfPeakClr
  /-- SLIPWAY_ENABLE (R46): Writing a slipway ENABLE checks its configuration and resets HEAD and TAIL. -/
  | slipwayEnable (sl : Fin 64) (en : Bool)
  /-- BERTH_OPEN (R50): OPEN <- 1 on a channel checks reservations and opens the berth. -/
  | berthOpen (b : Fin 4096)
  /-- BERTH_CLOSE (R53): OPEN <- 0 closes a channel and frees its buffers unless queues are bound. -/
  | berthClose (b : Fin 4096)
  /-- LANDING_BUFFER_GRANT (R51): A queued landing buffer request is granted in arrival order. -/
  | landingBufferGrant
  /-- TRANSFER_TAG_GRANT (R57): A request waiting on an empty tag pool receives the next freed tag. -/
  | transferTagGrant (pool : Fin 22)
  /-- WORK_ITEM_ISSUE (R91): A freed cluster is given the next work item of a dispatched matrix command. -/
  | workItemIssue (c : Fin 64)
  /-- WORK_ITEM_COMPLETE (R92): A cluster completes a work item and delivers its partial or result. -/
  | workItemComplete (c : Fin 64) (flt : Option (Fin 10))
  /-- CLUSTER_WAKE (R110): A gated cluster completes its wake before starting a work item. -/
  | clusterWake (c : Fin 64)
  /-- MAT_NF_CLR (R416): Action bit clearing every matrix non-finite count. -/
  | matNfClr
  /-- VEC_NF_CLR (R416): Action bit clearing every vector non-finite count. -/
  | vecNfClr
  /-- NBU_NF_CLR (R416): Action bit clearing every near-bank non-finite count. -/
  | nbuNfClr
  /-- XCH_NF_CLR (R416): Action bit clearing the exchange non-finite count. -/
  | xchNfClr
  /-- ITK_NF_CLR (R416): Action bit clearing the intake non-finite count. -/
  | itkNfClr
  /-- ITK_PEAK_CLR (R416): Action bit clearing the intake reorder window peak. -/
  | itkPeakClr
  /-- ITK_CACHE_REGION_WRITE (R301): A change of the cache region empties the cache, or is refused while samples are in the pipeline. -/
  | itkCacheRegionWrite (data : W32)
  /-- FRAME_TRANSMIT (R254): Each 8 ns a port sends a data, idle or control frame with ACK and credits. -/
  | frameTransmit (p : Fin 12)
  /-- FRAME_RECEIVE (R263): A frame arrives and is decoded, checked and accepted or discarded with NAK. -/
  | frameReceive (p : Fin 12) (bytes : List Byte)
  /-- REPLAY_TIMEOUT (R263): 1 us without ACK progress makes the sender replay from its oldest frame. -/
  | replayTimeout (p : Fin 12)
  /-- NAK_REPEAT (R263): The receiver repeats its NAK every 1 us until the expected frame arrives. -/
  | nakRepeat (p : Fin 12)
  /-- LOCK_LOSS (R264): Loss of lane lock or sixteen replays without progress put the port in RETRAINING. -/
  | lockLoss (p : Fin 12)
  /-- RETRAIN_DONE (R264): A retrain completes and the port returns to ACTIVE or enters FAILED. -/
  | retrainDone (p : Fin 12) (ok : Bool)
  /-- RETRAIN_TIMEOUT (R264): A retrain not complete within 1 ms sends the port to FAILED. -/
  | retrainTimeout (p : Fin 12)
  /-- PORT_LOCK (R265): A training port gains lock on four lanes. -/
  | portLock (p : Fin 12)
  /-- TRAINING_TIMEOUT (R265): 100 ms without lock sends a training port to FAILED. -/
  | trainingTimeout (p : Fin 12)
  /-- FAILED_RETRY (R265): Every 100 ms a FAILED port with ENABLE set retrains. -/
  | failedRetry (p : Fin 12)
  /-- VERSION_RETRY (R265): A port with no common major retries negotiation every 100 ms. -/
  | versionRetry (p : Fin 12)
  /-- VERSION_OFFER (R265): Control message offering serial, port and protocol versions. -/
  | versionOffer (p : Fin 12)
  /-- VERSION_ACCEPT (R265): Control message answering an offer; the version is chosen. -/
  | versionAccept (p : Fin 12)
  /-- LINK_NOTICE (R273): Control message making the neighbour's port enter DRAINING at once. -/
  | linkNotice (p : Fin 12)
  /-- DRAIN_TIMEOUT (R273): After 100 us of draining, unacknowledged frames are lost and the port retrains. -/
  | drainTimeout (p : Fin 12)
  /-- WRITE (R259): Peer write packet accepted or refused at its destination channel. -/
  | write (p : Fin 12)
  /-- READ (R259): Peer read packet accepted or refused at its destination channel. -/
  | read (p : Fin 12)
  /-- COMPLETION (R258): Completion packet returning read data or acknowledging a write, freeing its tag. -/
  | completion (p : Fin 12)
  /-- REFUSAL (R259): Refusal packet completing the source command with its status. -/
  | refusal (p : Fin 12)
  /-- SEGMENT (R228): Exchange segment received, discarded, held or consumed by its collective. -/
  | segment (p : Fin 12) (flt : Bool)
  /-- ABORT_SEGMENT (R248): An abort segment ends the local collective at the next block boundary. -/
  | abortSegment (p : Fin 12)
  /-- NOTICE (R274): Notice packet telling a module that a peer is resetting or powering down. -/
  | notice (p : Fin 12)
  /-- LSA (R266): Link-state advertisement stored and flooded when newer. -/
  | lsa (p : Fin 12)
  /-- ID_GRANT (R267): The leader's grant of a fabric ID to a module without one. -/
  | idGrant (p : Fin 12)
  /-- CPL_TIMEOUT (R275): A peer access without completion within FAB_CPL_TIMEOUT fails with PEER_UNREACHABLE. -/
  | cplTimeout (tag : Fin 16384)
  /-- LSA_REFRESH (R266): Every FAB_LSA_REFRESH the module resends its own LSA. -/
  | lsaRefresh
  /-- LSA_EXPIRY (R266): An LSA not refreshed within three periods is removed. -/
  | lsaExpiry (serial : W64)
  /-- DATABASE_SETTLED (R266): The database stays unchanged for FAB_SETTLE and is settled. -/
  | databaseSettled
  /-- FAB_RT_SHADOW_WRITE (R269): Writes a shadow routing entry and increments FAB_RT_IDX. -/
  | fabRtShadowWrite (data : W32)
  /-- SWAP (R272): Exchanges active and shadow routing tables and admits PROBATION ports. -/
  | swap
  /-- COPY (R272): Starts copying the active routing table into the shadow. -/
  | copy
  /-- COPY_DONE (R272): The routing table copy finishes and BUSY clears. -/
  | copyDone
  /-- PORT_RESET (R273): FAB_Pn_CTL.RESET sends LINK_NOTICE and drains and retrains the port. -/
  | portReset (p : Fin 12)
  /-- FAB_ID_CFG_WRITE (R267): A change of the configured fabric ID is re-advertised at once. -/
  | fabIdCfgWrite (data : W32)
  /-- GANGWAY_READ (R314): A BAR2 read reaches the unified range through the movable window. -/
  | gangwayRead (off : Nat) (len : Nat)
  /-- GANGWAY_WRITE (R314): A BAR2 write reaches the unified range through the movable window. -/
  | gangwayWrite (off : Nat) (bytes : List Byte)
  /-- HIF_GW_BASE_HI_WRITE (R312): Commits the whole gangway base, or refuses it beyond the range. -/
  | hifGwBaseHiWrite (data : W32)
  /-- HIF_LL_TIMEOUT_WRITE (R312): Sets the link-loss timeout, ignoring and flagging out-of-range values. -/
  | hifLlTimeoutWrite (data : W32)
  /-- HOST_COMPLETION (R319): A completion for an engine or front-end host read arrives and ends as Table 12.3 gives. -/
  | hostCompletion (q : QId) (res : HostResult)
  /-- HOST_COMPLETION_TIMEOUT (R319): A host read completion timeout fails the command with TIMEOUT. -/
  | hostCompletionTimeout (q : QId)
  /-- MSIX_ENABLE (R320): Enabling MSI-X delivers the interrupts pending in the PBA. -/
  | msixEnable
  /-- DL_DOWN (R322): The data link goes down and the link-loss timer starts. -/
  | dlDown
  /-- DL_UP (R322): The data link comes up, arming or clearing the link-loss timer. -/
  | dlUp (link : LinkInfo)
  /-- LINK_LOSS_TIMEOUT (R324): The link-loss timer reaches HIF_LL_TIMEOUT and a module self-reset begins. -/
  | linkLossTimeout
  /-- PERST_ASSERT (R325): Assertion of PERST# performs a module self-reset at once. -/
  | perstAssert
  /-- PERST_DEASSERT (R326): Release of PERST#; the function answers normally within 1.0 s. -/
  | perstDeassert
  /-- HOT_RESET (R325): A hot reset on the link is treated as PERST#. -/
  | hotReset
  /-- LINK_DISABLE (R325): A Link Disable on the link is treated as PERST#. -/
  | linkDisable
  /-- FUNCTION_LEVEL_RESET (R327): Resets configuration space, MSI-X, gangway base, queues and host channels. -/
  | functionLevelReset
  /-- D3HOT_ENTRY (R406): The host writes D3hot; the device enters slack water and quiesces the function. -/
  | d3hotEntry
  /-- D3HOT_EXIT (R406): The host writes D0; the device leaves slack water and restores dispatch. -/
  | d3hotExit
  /-- MAILBOX_TAKE (R332): The firmware takes a posted mailbox request whose SEQ matches the expected sequence. -/
  | mailboxTake
  /-- TOWPATH_REQUEST (R353): A management message arrives over MCTP on the I3C sideband. -/
  | towpathRequest (bytes : List Byte)
  /-- ENTDAA (R351): The module obtains its I3C dynamic address. -/
  | entdaa (addr : Fin 128)
  /-- SET_ENDPOINT_ID (R352): MCTP control message assigning the endpoint ID. -/
  | setEndpointId (eid : Fin 256)
  /-- GET_ENDPOINT_ID (R352): MCTP control message returning the endpoint ID. -/
  | getEndpointId
  /-- GET_MCTP_VERSION_SUPPORT (R352): MCTP control message returning supported versions. -/
  | getMctpVersionSupport (type : Fin 256)
  /-- GET_MESSAGE_TYPE_SUPPORT (R352): MCTP control message returning supported message types. -/
  | getMessageTypeSupport
  /-- GET_VENDOR_DEFINED_MSG_SUPPORT (R352): MCTP control message returning vendor-defined message support. -/
  | getVendorDefinedMsgSupport (sel : Fin 256)
  /-- ECHO (R337): Returns the request payload unchanged. -/
  | echo
  /-- ATTACH (R338): Negotiates the five interface versions and switches them at once. -/
  | attach
  /-- GET_INFO (R337): Returns serial, versions and management state. -/
  | getInfo
  /-- SUPPLEMENT_LOAD (R342): Verifies and activates a signed firmware supplement. -/
  | supplementLoad
  /-- SUPPLEMENT_STATUS (R337): Returns the supplement state and measurement. -/
  | supplementStatus
  /-- FW_RESTART (R345): Requests a firmware restart, optionally discarding the supplement. -/
  | fwRestart
  /-- LOG_READ (R337): Returns log ring entries from FIRST. -/
  | logRead
  /-- TELEMETRY (R409): Returns power, thermal and arbiter telemetry assembled at one instant. -/
  | telemetry
  /-- ATTEST_REPORT (R366): ATTEST OP 0 signs a report of the measurements with the device key. -/
  | attestReport
  /-- ATTEST_EXTEND (R364): ATTEST OP 1 extends M_PROG with the hash of program bytes. -/
  | attestExtend
  /-- ATTEST_CLEAR (R365): ATTEST OP 2 clears M_PROG. -/
  | attestClear
  /-- CERT_READ (R367): Returns part of the root key or a certificate. -/
  | certRead
  /-- POWER_STATE_RUN (R405): POWER_STATE 0 leaves slack water and powers the domains again. -/
  | powerStateRun
  /-- POWER_STATE_SLACK_WATER (R405): POWER_STATE 1 enters slack water. -/
  | powerStateSlackWater
  /-- POWER_STATE_DEEP_OFF (R407): POWER_STATE 3 requests deep off. -/
  | powerStateDeepOff
  /-- DEEP_OFF_BEGIN (R407): 1 ms after the reply, rails except standby switch off. -/
  | deepOffBegin
  /-- POWER_LIMIT (R408): Sets the arbiter's power limit. -/
  | powerLimit
  /-- ERR_HISTORY_READ (R384): Returns persistent error history entries. -/
  | errHistoryRead
  /-- ERR_HISTORY_ADD (R384): Adds a retirement or repair entry to the persistent history. -/
  | errHistoryAdd
  /-- HISTORY_WRITE_DONE (R383): A flash write of a history entry completes. -/
  | historyWriteDone
  /-- MARGIN (R386): Margins one lane on its monitor sampler and reports the steps passed. -/
  | margin (lo : Nat) (hi : Nat)
  /-- CONFIG_UPDATE (R434): Verifies and writes a configuration record into the inactive slot and commits the marker. -/
  | configUpdate
  /-- WATCHDOG_EXPIRY (R403): TIM_WDT_PERIOD passes without a kick and a firmware restart follows. -/
  | watchdogExpiry
  /-- MGT_RESTART (R345): Action bit MGT_CTL.RESTART requesting a firmware restart. -/
  | mgtRestart (discard : Bool)
  /-- CORE_FAULT (R329): An uncorrectable SRAM word or residue mismatch in the core causes a firmware restart. -/
  | coreFault (kind : CoreFaultKind)
  /-- FIRMWARE_RESTART_DONE (R346): The ROM restart ends, the supplement is checked and the mailbox resumes. -/
  | firmwareRestartDone
  /-- WDT_KICK (R403): The management core restarts the watchdog. -/
  | wdtKick
  /-- SCRUB_READ (R375): The scrubber reads the next codeword and corrects or poisons it. `upset`: what that word has suffered
  since it was last read (symbol, XOR value); `elsewhere`: what other words have (a local offset in the word, symbol, XOR). -/
  | scrubRead (cap : Bool) (upset : List (Nat × Byte)) (elsewhere : List (Nat × Nat × Byte))
  /-- CRC_SCAN (R426): Each millisecond the configuration CRC is computed and compared. -/
  | crcScan
  /-- CFG_CRC_REF_HI_WRITE (R427): Commits the CRC reference and clears DIRTY. -/
  | cfgCrcRefHiWrite (data : W32)
  /-- ADOPT (R427): Action bit making the device adopt the next clean scan as reference. -/
  | adopt
  /-- VOTE_SCAN (R423): Each millisecond every triplicated field is voted and repaired. `upset`: what register bits have
  suffered since the last scan (BAR0 offset, copy, XOR value). -/
  | voteScan (upset : List (Nat × Fin 3 × W16))
  /-- QUAL_WRITE (R379): Writing ERR_CTL.QUAL enters or leaves qualification mode, or is refused. -/
  | qualWrite (on : Bool)
  /-- OUT (R389): Service action taking the named unit out of service. -/
  | out (unit : W16)
  /-- REQUALIFY (R389): Service action starting requalification of the named unit. -/
  | requalify (unit : W16)
  /-- ADMIT (R389): Service action returning a unit from probation to service. -/
  | admitUnit (unit : W16)
  /-- REQUALIFICATION_END (R387): A unit's self-test passes or fails, moving it to probation or out of service. -/
  | requalificationEnd (unit : W16) (res : QualResult)
  /-- PSEUDO_CHANNEL_LOCK_LOSS (R388): A fast-tier pseudo-channel loses lock and fails to retrain within 1 ms. -/
  | pseudoChannelLockLoss (n : Fin 512)
  /-- POWER_ON (R392): The input rises past 38 V and start-up begins. -/
  | powerOn (puf : List Byte)
  /-- BROWN_OUT (R392): Input below 36 V for 100 us shuts the module down. -/
  | brownOut
  /-- OVER_VOLTAGE (R392): Input above 63 V for 10 us shuts the module down. -/
  | overVoltage
  /-- INPUT_LOW (R392): Input between 36 V and 40 V lowers the limit to 900 W. -/
  | inputLow
  /-- INPUT_HIGH (R392): Input between 60 V and 63 V sets INPUT_HIGH. -/
  | inputHigh
  /-- THERMAL_TRIP (R397): A junction above its trip threshold shuts the module down. -/
  | thermalTrip (sensor : Sensor) (temp : Int)
  /-- ARBITER_WINDOW (R399): At each 10 us window the arbiter takes a reduction or relaxation step. -/
  | arbiterWindow (m : PowerSample)
  /-- PWR_SETPOINT_WRITE (R395): Sets the requested core setpoint, ignoring invalid values. -/
  | pwrSetpointWrite (data : W32)
  /-- PWR_LIMIT_WRITE (R398): Sets the arbiter limit, ignoring out-of-range values. -/
  | pwrLimitWrite (data : W32)
  /-- POSTED_WRITE_APPLY (R430): A posted register write reaches its slow domain and BUSY clears. -/
  | postedWriteApply (blk : Fin 3)
  /-- ENGINE_RESET (R412): A PWR_RST_CMD bit resets one engine, stopping its commands. -/
  | engineReset (mask : BitVec 6)
  /-- ENGINE_RESET_DONE (R412): Every command of the reset engine has ended and PWR_RST_BUSY clears. -/
  | engineResetDone (e : Fin 6)
  /-- READY (R411): PWR_CTL.READY makes the module ready without a supplement. -/
  | ready
  /-- TIER_SELF_REFRESH_RETURN (R405): In slack water a woken tier returns to self-refresh after 1 ms without access. -/
  | tierSelfRefreshReturn (cap : Bool)
  /-- OSCILLATOR_FAIL (R401): The reference stops or drifts and TIM switches to the internal oscillator. -/
  | oscillatorFail
  /-- STATUS_SEQ_CLEAR (R419): A write to an RS register clears masked event bits if SEQ matches, else sets STALE. -/
  | statusSeqClear (off : Nat) (data : W32)
  /-- COUNT_SEQ_CLEAR (R421): A write to an RC register zeroes the count if SEQ matches. -/
  | countSeqClear (off : Nat) (data : W32)
  /-- REGISTER_WRITE (R415): Masked write to a control register that has no behaviour of its own. -/
  | registerWrite (off size : Nat) (acc : HostAccess)
  /-- PORT_ENABLE_WRITE (R265): A write of FAB_Pn_CTL.ENABLE sends a port from DISABLED into TRAINING, powering its port group, or back to DISABLED. -/
  | portEnableWrite (p : Fin 12) (en : Bool)
  /-- MSIX_UNMASK (R320): A host write that clears a vector's mask bit or the Function Mask sends the message pending in the PBA. -/
  | msixUnmask (vec : Option (Fin 2048))
  /-- START_UP_END (R326): Start-up after power-on or a module self-reset finishes training and qualification, the device adopts its CRC reference and answers configuration requests normally. -/
  | startUpEnd (res : StartResult)
  /-- INPUT_RESTORED (R392): The input returns from 36 to 40 V into the specified range and the arbiter limit goes back to PWR_LIMIT. -/
  | inputRestored
  /-- HOT_C_REACHED (R397): A stack or package temperature reaches FTC_CTL.HOT_C or CTC_CTL.HOT_C, setting PSTAT.HOT and raising the summary interrupt. -/
  | hotCReached (sensor : Sensor) (temp : Int)
  /-- WEIR_WRITE (R54): Writing CQF_Bn_WEIR below the current occupancy sets the WEIR flag at once and may raise the interrupt. -/
  | weirWrite (b : Fin 4096) (data : W32)
  /-- CQF_CONFIG_WRITE (R42): A write to C-marked queue, slipway or berth configuration is applied, or ignored with REFUSED set while the object is not disabled or closed. -/
  | cqfConfigWrite (off : Nat) (data : W32)
  /-- INTAKE_DOMAIN_WAKE (R394): The gated intake domain completes its 5 us wake before the pipeline takes a batch. -/
  | intakeDomainWake
  deriving DecidableEq, Repr

end Sys2Proof
end

