-- ==== Sys2Proof/Machine/Bytes.lean ====
section
/-!
DEFINITION. Bytes, little-endian words and bit fields (R7), and the small arithmetic on them that every chapter uses:
signed differences modulo 2^32 (R37, R48), alignment, saturation.
-/
namespace Sys2Proof.Machine

/-- The unsigned value of little-endian bytes (R7). -/
def leNat : List Byte → Nat
  | [] => 0
  | b :: bs => b.toNat + 256 * leNat bs

/-- `n` little-endian bytes of a value (R7). -/
def leBytes : Nat → Nat → List Byte
  | 0, _ => []
  | n + 1, v => BitVec.ofNat 8 v :: leBytes n (v / 256)

/-- Bits [hi:lo] of a value (R7: a bit range includes both ends). -/
def fld (v hi lo : Nat) : Nat := v / 2 ^ lo % 2 ^ (hi + 1 - lo)

/-- One bit of a value. -/
def bitAt (v i : Nat) : Bool := v / 2 ^ i % 2 == 1

/-- A field value placed at bit `lo`. -/
def put (v lo : Nat) : Nat := v * 2 ^ lo

/-- A Boolean as a bit. -/
def b2n (b : Bool) : Nat := if b then 1 else 0

/-- The lowest set bit of `v` at or above bit `i`, looking at `fuel` bits. -/
def lowBitFrom : Nat → Nat → Nat → Option Nat
  | 0, _, _ => none
  | f + 1, i, v => if bitAt v i then some i else lowBitFrom f (i + 1) v

/-- The lowest set bit of a 64-bit value under a mask (R61, R33, R34: the lowest offending bit). -/
def lowBit (v mask : Nat) : Option Nat := lowBitFrom 64 0 (v &&& mask)

/-- The mask of bits [hi:lo]. -/
def bmask (hi lo : Nat) : Nat := (2 ^ (hi + 1 - lo) - 1) * 2 ^ lo

/-- A multiple of `a`. -/
def aligned (v a : Nat) : Bool := v % a == 0

/-- Count up by `n`, stopping at `max`. -/
def satAdd (max v n : Nat) : Nat := min max (v + n)

/-- The next 8-byte words of a byte string. -/
def wordsOf : Nat → List Byte → List Nat
  | 0, _ => []
  | n + 1, bs => leNat (bs.take 8) :: wordsOf n (bs.drop 8)

/-- The little-endian bytes of 8-byte words. -/
def wordBytes (ws : List Nat) : List Byte := ws.flatMap (leBytes 8)

/-- (a − b) modulo 2^32 read as a signed 32-bit number is zero or positive (R37, R48). -/
def geMod (a b : W32) : Bool := !(a - b).msb

/-- (a − b) modulo 2^32 read as a signed 32-bit number is positive (R37). -/
def gtMod (a b : W32) : Bool := !(a - b).msb && a != b

/-- Text of a name as bytes. -/
def ascii (s : String) : List Byte := s.toList.map fun c => BitVec.ofNat 8 c.toNat

/-- The number of ones of a list of flags. -/
def countTrue (l : List Bool) : Nat := l.foldl (fun n b => if b then n + 1 else n) 0

/-- Round up to a multiple of `a`. -/
def alignUp (v a : Nat) : Nat := (v + a - 1) / a * a

/-- Split a list into pieces of `n`, with `fuel` pieces at most. -/
def chunksF {α : Type} : Nat → Nat → List α → List (List α)
  | 0, _, _ => []
  | _ + 1, _, [] => []
  | f + 1, n, l => l.take n :: chunksF f n (l.drop n)

/-- Split a list into pieces of `n`. -/
def chunks {α : Type} (n : Nat) (l : List α) : List (List α) := chunksF l.length n l

/-- Extend a byte string with zeros to `n` bytes. -/
def padTo (n : Nat) (l : List Byte) : List Byte := l ++ List.replicate (n - l.length) 0

end Sys2Proof.Machine
end

