-- ==== Sys2Proof/Machine/ImgBase.lean ====
section
/-!
DEFINITION. What the image and text decoders of the intake engine share (R281, R297): work units charged before they are
performed, the two ways a decode stops, readers of bytes and of bits, decoded images.
-/
namespace Sys2Proof.Machine

/-- Why a decode stops (R297): CORRUPT with a reason of Table 11.7, or OVERBUDGET. -/
inductive Stop where
  | corrupt (reason : Nat)
  | over
  deriving DecidableEq, Repr

/-- A decoder's place: work units charged and the budget; the bytes not yet taken and how many have been; bits of the
last byte not yet used; the reason of the stop when the bytes run out. -/
structure Rd where
  used : Nat
  budget : Nat
  src : List Byte
  taken : Nat
  bits : List Bool
  eof : Nat

/-- A decoder. -/
abbrev Dec := EStateM Stop Rd

/-- Charge one work unit (R297). -/
def charge : Dec Unit := do
  let r ← get
  if r.budget < r.used + 1 then throw .over
  set { r with used := r.used + 1 }

/-- Charge n work units. -/
def chargeN : Nat → Dec Unit
  | 0 => pure ()
  | n + 1 => do
    charge
    chargeN n

/-- Stop as CORRUPT. -/
def corrupt {α : Type} (reason : Nat) : Dec α := throw (.corrupt reason)

/-- Require a condition, else CORRUPT. -/
def need (b : Bool) (reason : Nat) : Dec Unit := if b then pure () else corrupt reason

/-- The bits of a byte, least significant first. -/
def bitsUp (b : Byte) : List Bool := (List.range 8).map fun i => b.getLsbD i
/-- The bits of a byte, most significant first. -/
def bitsDown (b : Byte) : List Bool := (bitsUp b).reverse

/-- Take the next byte of a stream that costs one unit for each `n` bytes. -/
def takeByte (n : Nat) : Dec Byte := do
  let r ← get
  match r.src with
  | [] => corrupt r.eof
  | b :: l =>
    if r.taken % n = 0 then charge
    modify fun r => { r with src := l, taken := r.taken + 1 }
    pure b

/-- The next bit of a stream that gives each byte's bits as `f` orders them. -/
def takeBit (next : Dec Byte) (f : Byte → List Bool) : Dec Bool := do
  let r ← get
  match r.bits with
  | b :: l =>
    set { r with bits := l }
    pure b
  | [] =>
    let b ← next
    match f b with
    | x :: l =>
      modify fun r => { r with bits := l }
      pure x
    | [] => pure false

/-- n bits as a number, the first bit the least significant. -/
def bitsLow (one : Dec Bool) : Nat → Dec Nat
  | 0 => pure 0
  | n + 1 => do
    let b ← one
    let v ← bitsLow one n
    pure (b2n b + 2 * v)

/-- n bits as a number, the first bit the most significant. -/
def bitsHigh (one : Dec Bool) : Nat → Nat → Dec Nat
  | 0, v => pure v
  | n + 1, v => do
    let b ← one
    bitsHigh one n (2 * v + b2n b)

/-- A prefix code with lengths in canonical order: for each length from 1 on, the symbols that have it. -/
structure Huff where
  byLen : List (List Nat)

/-- Decode a canonical prefix code bit by bit: `first` is the first code of the length. -/
def huffGo (one : Dec Bool) (bad : Nat) : List (List Nat) → Nat → Nat → Dec Nat
  | [], _, _ => corrupt bad
  | syms :: l, code, first => do
    let b ← one
    let c := 2 * code + b2n b
    let f := 2 * first
    if f ≤ c ∧ c - f < syms.length then pure (syms.getD (c - f) 0)
    else huffGo one bad l c (f + syms.length)

/-- The next symbol of a prefix code. -/
def huffNext (one : Dec Bool) (h : Huff) : Dec Nat := huffGo one 2 h.byLen 0 0

/-- Codes of each length fit (no more codes than the length allows). -/
def huffFits : List (List Nat) → Nat → Bool
  | [], _ => true
  | s :: l, room => decide (s.length ≤ 2 * room) && huffFits l (2 * room - s.length)

/-- A decoded image: width, height, channels (1 or 3), and the samples of each channel row by row (R282). -/
structure Img where
  w : Nat
  h : Nat
  ch : Nat
  px : List Byte
  deriving DecidableEq, Repr

/-- The limits of R281. -/
def sizeOk (w h : Nat) : Bool := decide (1 ≤ w) && decide (1 ≤ h) && decide (w ≤ 32768) && decide (h ≤ 32768) && decide (w * h ≤ 2 ^ 28)
/-- A size beyond the limits is CORRUPT with reason 4; an empty one is malformed. -/
def sizeCheck (w h : Nat) : Dec Unit := do
  need (decide (1 ≤ w) && decide (1 ≤ h)) 2
  need (sizeOk w h) 4

/-- A big-endian number. -/
def beNat (bs : List Byte) : Nat := bs.foldl (fun v b => 256 * v + b.toNat) 0

/-- What a decode gives: its outcome and the units charged. -/
def runDec {α : Type} (d : Dec α) (budget : Nat) (src : List Byte) : Except Stop α × Nat :=
  match d ⟨0, budget, src, 0, [], 2⟩ with
  | .ok a r => (.ok a, r.used)
  | .error e r => (.error e, r.used)

end Sys2Proof.Machine
end

