-- ==== Sys2Proof/Machine/Num.lean ====
section
/-!
DEFINITION. Exact values and the one rounding of the device (R73): a finite value is a fraction times a power of two, so
every sum, product and quotient that a rule rounds once is first formed exactly.
-/
namespace Sys2Proof.Machine

/-- A value: NaN, an infinity, or (−1)^neg × (n / d) × 2^e with d at least 1. Zero keeps its sign (R64). -/
inductive Val where
  | nan
  | inf (neg : Bool)
  | fin (neg : Bool) (n d : Nat) (e : Int)
  deriving DecidableEq, Repr

/-- +0. -/
def Val.zero : Val := .fin false 0 1 0
/-- 1. -/
def Val.one : Val := .fin false 1 1 0
/-- An integer. -/
def Val.ofInt (i : Int) : Val := .fin (decide (i < 0)) i.natAbs 1 0
/-- A natural number. -/
def Val.ofNat (n : Nat) : Val := .fin false n 1 0

/-- The value is NaN or infinite (R81). -/
def Val.nonFinite : Val → Bool
  | .fin _ _ _ _ => false
  | _ => true
/-- The value is NaN. -/
def Val.isNan : Val → Bool
  | .nan => true
  | _ => false
/-- The sign bit; NaN has none. -/
def Val.sign : Val → Bool
  | .nan => false
  | .inf s => s
  | .fin s _ _ _ => s
/-- The value is a zero. -/
def Val.isZero : Val → Bool
  | .fin _ n _ _ => n == 0
  | _ => false

/-- Negate. -/
def Val.neg : Val → Val
  | .nan => .nan
  | .inf s => .inf (!s)
  | .fin s n d e => .fin (!s) n d e
/-- Magnitude. -/
def Val.abs : Val → Val
  | .nan => .nan
  | .inf _ => .inf false
  | .fin _ n d e => .fin false n d e

/-- 2^i for a natural part of an exponent. -/
def pow2 (i : Int) : Nat := 2 ^ i.toNat

/-- The exact sum. A sum of opposite values is +0; −0 + −0 is −0. -/
def Val.add : Val → Val → Val
  | .nan, _ => .nan
  | _, .nan => .nan
  | .inf a, .inf b => if a = b then .inf a else .nan
  | .inf a, _ => .inf a
  | _, .inf b => .inf b
  | .fin s1 n1 d1 e1, .fin s2 n2 d2 e2 =>
    let e := min e1 e2
    let a := n1 * pow2 (e1 - e) * d2
    let b := n2 * pow2 (e2 - e) * d1
    let d := d1 * d2
    if s1 = s2 then .fin s1 (a + b) d e
    else if a = b then .fin false 0 1 0
    else if b < a then .fin s1 (a - b) d e
    else .fin s2 (b - a) d e

/-- The exact difference. -/
def Val.sub (a b : Val) : Val := a.add b.neg

/-- The exact product; infinity × 0 is NaN (R70). -/
def Val.mul : Val → Val → Val
  | .nan, _ => .nan
  | _, .nan => .nan
  | .inf a, .inf b => .inf (a != b)
  | .inf a, .fin s n _ _ => if n = 0 then .nan else .inf (a != s)
  | .fin s n _ _, .inf b => if n = 0 then .nan else .inf (s != b)
  | .fin s1 n1 d1 e1, .fin s2 n2 d2 e2 => .fin (s1 != s2) (n1 * n2) (d1 * d2) (e1 + e2)

/-- The exact quotient; 0/0 and ∞/∞ are NaN, x/0 is an infinity. -/
def Val.div : Val → Val → Val
  | .nan, _ => .nan
  | _, .nan => .nan
  | .inf _, .inf _ => .nan
  | .inf a, .fin s _ _ _ => .inf (a != s)
  | .fin s _ _ _, .inf b => .fin (s != b) 0 1 0
  | .fin s1 n1 d1 e1, .fin s2 n2 d2 e2 =>
    if n2 = 0 then (if n1 = 0 then .nan else .inf (s1 != s2))
    else .fin (s1 != s2) (n1 * d2) (d1 * n2) (e1 - e2)

/-- The value times 2^i. -/
def Val.scale (i : Int) : Val → Val
  | .fin s n d e => .fin s n d (e + i)
  | v => v

/-- Compare two values that are not NaN: −0 equals +0. -/
def Val.cmp (a b : Val) : Ordering :=
  match a, b with
  | .inf s, .inf t => if s = t then .eq else if s then .lt else .gt
  | .inf s, _ => if s then .lt else .gt
  | _, .inf t => if t then .gt else .lt
  | a, b =>
    match a.sub b with
    | .fin s n _ _ => if n = 0 then .eq else if s then .lt else .gt
    | _ => .eq

/-- a < b; false when either is NaN. -/
def Val.lt (a b : Val) : Bool := !a.isNan && !b.isNan && a.cmp b == .lt
/-- a ≤ b; false when either is NaN. -/
def Val.le (a b : Val) : Bool := !a.isNan && !b.isNan && a.cmp b != .gt
/-- a = b; false when either is NaN. -/
def Val.eq (a b : Val) : Bool := !a.isNan && !b.isNan && a.cmp b == .eq

/-- ⌊log2 (n/d × 2^e)⌋ of a positive value. -/
def floorLog2 (n d : Nat) (e : Int) : Int :=
  let g : Int := (Nat.log2 n : Int) - Nat.log2 d
  let ok := if 0 ≤ g then d * pow2 g ≤ n else d ≤ n * pow2 (-g)
  (if ok then g else g - 1) + e

/-- The nearest integer to n/d, ties to even (R73). -/
def rneDiv (n d : Nat) : Nat :=
  let q := n / d
  let r := n % d
  if 2 * r < d then q else if d < 2 * r then q + 1 else if q % 2 = 0 then q else q + 1

/-- The nearest integer to n/d × 2^i. -/
def rneScaled (n d : Nat) (i : Int) : Nat :=
  if 0 ≤ i then rneDiv (n * pow2 i) d else rneDiv n (d * pow2 (-i))

/-- Round a positive value to `mb` fraction bits with unbounded exponent above and quantum 2^qmin below: the result
is k × 2^q (R73). -/
def roundBin (mb : Nat) (qmin : Int) (n d : Nat) (e : Int) : Nat × Int :=
  let q := max qmin (floorLog2 n d e - mb)
  (rneScaled n d (e - q), q)

/-- The nearest integer to a finite value, ties to even (R73). -/
def Val.toIntRne : Val → Int
  | .fin s n d e => let k := rneScaled n d e
    if s then -(k : Int) else k
  | _ => 0

/-! Binary floating-point formats (R62, Table 3.3). -/

/-- A float format: exponent and mantissa bits, bias, whether the all-ones exponent holds infinity and NaN; `nanTop`
marks E4M3, whose only special is the all-ones pattern; `maxM`, `maxE` give the largest finite value. -/
structure FloatFmt where
  eb : Nat
  mb : Nat
  bias : Nat
  ieee : Bool
  nanTop : Bool
  deriving DecidableEq, Repr

def fmtFP32 : FloatFmt := ⟨8, 23, 127, true, false⟩
def fmtBF16 : FloatFmt := ⟨8, 7, 127, true, false⟩
def fmtFP16 : FloatFmt := ⟨5, 10, 15, true, false⟩
def fmtE4M3 : FloatFmt := ⟨4, 3, 7, false, true⟩
def fmtE5M2 : FloatFmt := ⟨5, 2, 15, true, false⟩
def fmtE3M2 : FloatFmt := ⟨3, 2, 3, false, false⟩
def fmtE2M3 : FloatFmt := ⟨2, 3, 1, false, false⟩
def fmtE2M1 : FloatFmt := ⟨2, 1, 1, false, false⟩

/-- The largest exponent field of a finite value and the largest mantissa with it. -/
def FloatFmt.maxE (f : FloatFmt) : Nat := if f.ieee then 2 ^ f.eb - 2 else 2 ^ f.eb - 1
def FloatFmt.maxM (f : FloatFmt) : Nat := if f.nanTop then 2 ^ f.mb - 2 else 2 ^ f.mb - 1
/-- The code of the largest finite magnitude. -/
def FloatFmt.maxCode (f : FloatFmt) : Nat := f.maxE * 2 ^ f.mb + f.maxM
/-- The code of infinity (formats with infinities). -/
def FloatFmt.infCode (f : FloatFmt) : Nat := (2 ^ f.eb - 1) * 2 ^ f.mb
/-- The canonical NaN (R63). -/
def FloatFmt.nanCode (f : FloatFmt) : Nat :=
  if f.nanTop then (2 ^ f.eb - 1) * 2 ^ f.mb + (2 ^ f.mb - 1) else (2 ^ f.eb - 1) * 2 ^ f.mb + 2 ^ (f.mb - 1)
/-- The sign bit of a code. -/
def FloatFmt.signBit (f : FloatFmt) : Nat := 2 ^ (f.eb + f.mb)
/-- The quantum of subnormals. -/
def FloatFmt.qmin (f : FloatFmt) : Int := 1 - (f.bias : Int) - f.mb

/-- The value of a code (R62, R63). -/
def FloatFmt.decode (f : FloatFmt) (c : Nat) : Val :=
  let s := bitAt c (f.eb + f.mb)
  let e := c / 2 ^ f.mb % 2 ^ f.eb
  let m := c % 2 ^ f.mb
  if f.ieee ∧ e = 2 ^ f.eb - 1 then (if m = 0 then .inf s else .nan)
  else if f.nanTop ∧ e = 2 ^ f.eb - 1 ∧ m = 2 ^ f.mb - 1 then .nan
  else if e = 0 then .fin s m 1 f.qmin
  else .fin s (2 ^ f.mb + m) 1 ((e : Int) - f.bias - f.mb)

/-- The code of k × 2^q, where q is the format's quantum at k (0 ≤ k ≤ 2^(mb+1)); it may exceed the largest finite. -/
def FloatFmt.magCode (f : FloatFmt) (k : Nat) (q : Int) : Nat :=
  (q - f.qmin).toNat * 2 ^ f.mb + k

/-- The outcome of rounding a magnitude into a format: a finite code, or beyond the largest finite (R74). -/
inductive Rounded where
  | code (c : Nat)
  | over
  deriving DecidableEq, Repr

/-- Round a magnitude n/d × 2^e into a format (R73, R74). -/
def FloatFmt.roundMag (f : FloatFmt) (n d : Nat) (e : Int) : Rounded :=
  if n = 0 then .code 0
  else
    let r := roundBin f.mb f.qmin n d e
    let c := f.magCode r.1 r.2
    if f.maxCode < c then .over else .code c

/-- Encode a value: `sat` is the saturate mode of Table 3.9 for a format with infinities (or for E4M3, NaN). -/
def FloatFmt.encode (f : FloatFmt) (sat : Bool) (v : Val) : Nat :=
  match v with
  | .nan => f.nanCode
  | .inf s => (if s then f.signBit else 0) + (if sat then f.maxCode else if f.ieee then f.infCode else 0)
  | .fin s n d e =>
    match f.roundMag n d e with
    | .code c => (if s then f.signBit else 0) + c
    | .over => (if s then f.signBit else 0) + (if sat then f.maxCode else if f.ieee then f.infCode else 0)

/-! FP32 arithmetic of the engines: every operation forms its exact result and rounds once (R73). -/

/-- The value of an FP32 word. -/
def f32 (w : W32) : Val := fmtFP32.decode w.toNat
/-- Round a value to FP32; overflow gives infinity, NaN is canonical (R63, R73). -/
def toF32 (v : Val) : W32 := BitVec.ofNat 32 (fmtFP32.encode false v)
/-- Round a value to FP32 and back. -/
def rnd (v : Val) : Val := f32 (toF32 v)

def f32add (a b : W32) : W32 := toF32 ((f32 a).add (f32 b))
def f32sub (a b : W32) : W32 := toF32 ((f32 a).sub (f32 b))
def f32mul (a b : W32) : W32 := toF32 ((f32 a).mul (f32 b))
def f32div (a b : W32) : W32 := toF32 ((f32 a).div (f32 b))
/-- a × b + c with one rounding. -/
def f32fma (a b c : W32) : W32 := toF32 (((f32 a).mul (f32 b)).add (f32 c))

/-- FP32 constants. -/
def f32zero : W32 := 0
def f32one : W32 := 0x3F800000
def f32nan : W32 := 0x7FC00000
def f32inf : W32 := 0x7F800000
def f32ninf : W32 := 0xFF800000
/-- A NaN word made canonical (R63). -/
def f32canon (w : W32) : W32 := if (f32 w).isNan then f32nan else w

/-- A positive, finite, normal FP32 word (R61: TSCALE). -/
def f32normalPos (w : W32) : Bool := decide (0x00800000 ≤ w.toNat) && decide (w.toNat < 0x7F800000)

/-- ⌊√n⌋ by bits, from bit i down. -/
def isqrtF : Nat → Nat → Nat → Nat
  | 0, r, _ => r
  | i + 1, r, n => let t := r + 2 ^ i
    if t * t ≤ n then isqrtF i t n else isqrtF i r n
/-- ⌊√n⌋. -/
def isqrt (n : Nat) : Nat := isqrtF (Nat.log2 n / 2 + 1) 0 n

/-- A value within a relative 2^−62 below the square root of n/d × 2^e, on the same side of every tie and of every
representable value: an exact root, or the root with a sticky low bit. -/
def sqrtVal (n d : Nat) (e : Int) : Val :=
  let e2 := e % 2
  let m := n * d * pow2 e2 * 2 ^ 160
  let r := isqrt m
  let t := if r * r = m then 2 * r else 2 * r + 1
  .fin false t d ((e - e2) / 2 - 81)

/-- The correctly rounded square root (R73); of a negative value NaN, of −0 −0. -/
def f32sqrt (a : W32) : W32 :=
  match f32 a with
  | .nan => f32nan
  | .inf s => if s then f32nan else f32inf
  | .fin s n d e => if n = 0 then a else if s then f32nan else toF32 (sqrtVal n d e)

end Sys2Proof.Machine
end

