-- ==== Sys2Proof/Machine/ImgJpeg.lean ====
section
/-!
DEFINITION. Baseline JPEG (R281 to R284, Table 11.6). What ITU-T T.81 says is PRESUMED from general knowledge of it (log
entry 60); the inverse transform and the colour conversion are R283's own.
-/
namespace Sys2Proof.Machine

/-- K[x][u] (R283): the FP32 value nearest (C(u)/2) × cos((2x + 1)uπ/16). -/
def idctK : List (List W32) := [
  [0x3EB504F3, 0x3EFB14BE, 0x3EEC835E, 0x3ED4DB31, 0x3EB504F3, 0x3E8E39DA, 0x3E43EF15, 0x3DC7C5C2],
  [0x3EB504F3, 0x3ED4DB31, 0x3E43EF15, 0xBDC7C5C2, 0xBEB504F3, 0xBEFB14BE, 0xBEEC835E, 0xBE8E39DA],
  [0x3EB504F3, 0x3E8E39DA, 0xBE43EF15, 0xBEFB14BE, 0xBEB504F3, 0x3DC7C5C2, 0x3EEC835E, 0x3ED4DB31],
  [0x3EB504F3, 0x3DC7C5C2, 0xBEEC835E, 0xBE8E39DA, 0x3EB504F3, 0x3ED4DB31, 0xBE43EF15, 0xBEFB14BE],
  [0x3EB504F3, 0xBDC7C5C2, 0xBEEC835E, 0x3E8E39DA, 0x3EB504F3, 0xBED4DB31, 0xBE43EF15, 0x3EFB14BE],
  [0x3EB504F3, 0xBE8E39DA, 0xBE43EF15, 0x3EFB14BE, 0xBEB504F3, 0xBDC7C5C2, 0x3EEC835E, 0xBED4DB31],
  [0x3EB504F3, 0xBED4DB31, 0x3E43EF15, 0x3DC7C5C2, 0xBEB504F3, 0x3EFB14BE, 0xBEEC835E, 0x3E8E39DA],
  [0x3EB504F3, 0xBEFB14BE, 0x3EEC835E, 0xBED4DB31, 0x3EB504F3, 0xBE8E39DA, 0x3E43EF15, 0xBDC7C5C2]]

/-- The nearest integer to an FP32 value, clamped to 0 to 255. -/
def clamp8 (w : W32) : Nat := min 255 (f32 w).toIntRne.toNat

/-- The transform of one block of dequantised coefficients, by v × 8 + u; the samples row by row (R283). -/
def idct (c : List Int) : List Nat :=
  let f := c.toArray.map fun i => toF32 (Val.ofInt i)
  let g : Array (Array W32) := (idctK.map fun k =>
    ((List.range 8).map fun v => (k.mapIdx fun u x => (x, f.getD (8 * v + u) 0)).foldl (fun a p => f32fma p.1 p.2 a) f32zero).toArray).toArray
  idctK.flatMap fun k => (List.range 8).map fun x =>
    let gx := g.getD x #[]
    clamp8 (f32add ((k.mapIdx fun v y => (y, gx.getD v 0)).foldl (fun a p => f32fma p.1 p.2 a) f32zero) (toF32 (Val.ofNat 128)))

/-- R, G, B of a pixel (R283). -/
def ycc (y cb cr : Nat) : List Byte :=
  let w (i : Int) : W32 := toF32 (Val.ofInt i)
  let b := w ((cb : Int) - 128)
  let r := w ((cr : Int) - 128)
  [f32fma 0x3FB374BC r (w y), f32fma 0xBF36D19E r (f32fma 0xBEB03298 b (w y)), f32fma 0x3FE2D0E5 b (w y)].map fun v =>
    BitVec.ofNat 8 (clamp8 v)

/-- The place v × 8 + u of each coefficient in zigzag order. -/
def zigzag : List Nat :=
  [0, 1, 8, 16, 9, 2, 3, 10, 17, 24, 32, 25, 18, 11, 4, 5, 12, 19, 26, 33, 40, 48, 41, 34, 27, 20, 13, 6, 7, 14, 21, 28, 35, 42,
   49, 56, 57, 50, 43, 36, 29, 22, 15, 23, 30, 37, 44, 51, 58, 59, 52, 45, 38, 31, 39, 46, 53, 60, 61, 54, 47, 55, 62, 63]

/-- A component of a frame: identifier, sampling factors, quantisation table. -/
structure JComp where
  id : Nat
  h : Nat
  v : Nat
  tq : Nat

/-- What the markers have set so far; `planes`: the samples of each component decoded, with the width of its plane. -/
structure JState where
  qt : List (Nat × List Nat)
  dc : List (Nat × Huff)
  ac : List (Nat × Huff)
  w : Nat
  h : Nat
  comps : List JComp
  ri : Nat
  planes : List (Nat × Nat × Array Nat)

/-- Nothing has been set. -/
def JState.start : JState := ⟨[], [], [], 0, 0, [], 0, []⟩

/-- The largest sampling factors. -/
def JState.hmax (j : JState) : Nat := j.comps.foldl (fun a c => max a c.h) 1
def JState.vmax (j : JState) : Nat := j.comps.foldl (fun a c => max a c.v) 1
/-- MCUs across and down. -/
def JState.mcuW (j : JState) : Nat := (j.w + 8 * j.hmax - 1) / (8 * j.hmax)
def JState.mcuH (j : JState) : Nat := (j.h + 8 * j.vmax - 1) / (8 * j.vmax)

/-! Entropy-coded data. -/

/-- The next byte of entropy-coded data: 0xFF is followed by a stuffed zero; a marker ends the data. -/
def jByte : Dec Byte := do
  let r ← get
  match r.src with
  | a :: b :: _ => if a = 0xFF ∧ b ≠ 0 then corrupt 2
  | [a] => if a = 0xFF then corrupt 2
  | [] => corrupt 2
  let b ← takeByte 16
  if b = 0xFF then
    let _ ← takeByte 16
  pure b
def jBit : Dec Bool := takeBit jByte bitsDown

/-- A signed value of n bits. -/
def jExtend (n : Nat) : Dec Int := do
  let v ← bitsHigh jBit n 0
  pure (if n = 0 then 0 else if v < 2 ^ (n - 1) then (v : Int) - (2 ^ n - 1) else v)

/-- AC coefficients from zigzag index k on. -/
def jAc (h : Huff) : Nat → Nat → List (Nat × Int) → Dec (List (Nat × Int))
  | 0, _, acc => pure acc
  | f + 1, k, acc => do
    if 64 ≤ k then pure acc
    else
      let rs ← huffNext jBit h
      let r := rs / 16
      let n := rs % 16
      if n = 0 then
        if r = 15 then
          need (decide (k + 16 ≤ 64)) 2
          jAc h f (k + 16) acc
        else
          need (r == 0) 2
          pure acc
      else
        need (decide (k + r ≤ 63) && decide (n ≤ 10)) 2
        let v ← jExtend n
        jAc h f (k + r + 1) ((k + r, v) :: acc)

/-- One block of a component: the new predictor and its samples; its transform is one unit (Table 11.6). -/
def jBlock (dc ac : Huff) (q : List Nat) (pred : Int) : Dec (Int × List Nat) := do
  let t ← huffNext jBit dc
  need (decide (t ≤ 11)) 2
  let d ← jExtend t
  let cs ← jAc ac 64 1 [(0, pred + d)]
  charge
  let z := (List.range 64).map fun p =>
    match (cs.find? fun c => zigzag.getD c.1 0 == p) with
    | some c => c.2 * ((q.getD c.1 0 : Nat) : Int)
    | none => 0
  pure (pred + d, idct z)

/-- Put a block into a plane of width `s` at block (bx, by). -/
def putBlock (s bx by_ : Nat) (l : List Nat) (a : Array Nat) : Array Nat :=
  (l.zip (List.range 64)).foldl (fun a p => a.setIfInBounds ((8 * by_ + p.2 / 8) * s + 8 * bx + p.2 % 8) p.1) a

/-- A component in a scan: its index, tables, blocks per MCU, plane. -/
structure JPart where
  idx : Nat
  dc : Huff
  ac : Huff
  q : List Nat
  bw : Nat
  bh : Nat
  pred : Int
  stride : Nat
  plane : Array Nat

/-- The blocks of one MCU for a component. -/
def jBlocks (mx my : Nat) : Nat → JPart → Dec JPart
  | 0, p => pure p
  | n + 1, p => do
    let i := p.bw * p.bh - (n + 1)
    let r ← jBlock p.dc p.ac p.q p.pred
    jBlocks mx my n { p with pred := r.1, plane := putBlock p.stride (mx * p.bw + i % p.bw) (my * p.bh + i / p.bw) r.2 p.plane }

/-- Fill bytes 0xFF before a marker are passed over. -/
def skipFill : List Byte → List Byte
  | 0xFF :: 0xFF :: l => skipFill (0xFF :: l)
  | l => l

/-- The MCUs of a scan, with restart markers every `ri`. -/
def jMcus (across total ri : Nat) : Nat → List JPart → Dec (List JPart)
  | 0, ps => pure ps
  | n + 1, ps => do
    let k := total - (n + 1)
    let ps ← (do
      if ri ≠ 0 ∧ k ≠ 0 ∧ k % ri = 0 then
        let r ← get
        let src := skipFill r.src
        need (decide (src.take 2 = [0xFF, BitVec.ofNat 8 (0xD0 + (k / ri - 1) % 8)])) 2
        set { r with src := src.drop 2, bits := [] }
        pure (ps.map fun p => { p with pred := 0 })
      else pure ps)
    let ps ← ps.mapM fun p => jBlocks (k % across) (k / across) (p.bw * p.bh) p
    jMcus across total ri n ps

/-! Marker segments. -/

/-- Quantisation tables (8-bit elements). -/
def jDqt : Nat → List Byte → JState → Dec JState
  | 0, _, _ => corrupt 2
  | f + 1, bs, j =>
    match bs with
    | [] => pure j
    | t :: l => do
      need (decide (t.toNat / 16 = 0)) (if t.toNat / 16 = 1 then 3 else 2)
      need (decide (t.toNat < 4) && decide (64 ≤ l.length)) 2
      jDqt f (l.drop 64) { j with qt := (t.toNat, (l.take 64).map (·.toNat)) :: j.qt }

/-- Symbols of each length from counts. -/
def jLens : List Nat → List Byte → List (List Nat)
  | [], _ => []
  | n :: ns, bs => (bs.take n).map (·.toNat) :: jLens ns (bs.drop n)

/-- Huffman tables. -/
def jDht : Nat → List Byte → JState → Dec JState
  | 0, _, _ => corrupt 2
  | f + 1, bs, j =>
    match bs with
    | [] => pure j
    | t :: l => do
      let ns := (l.take 16).map (·.toNat)
      let n := ns.sum
      need (decide (t.toNat / 16 ≤ 1) && decide (t.toNat % 16 < 2) && decide (16 + n ≤ l.length) && decide (n ≤ 256)) 2
      let h : Huff := ⟨jLens ns (l.drop 16)⟩
      need (huffFits h.byLen 1) 2
      let i := t.toNat % 16
      jDht f (l.drop (16 + n)) (if t.toNat / 16 = 0 then { j with dc := (i, h) :: j.dc } else { j with ac := (i, h) :: j.ac })

/-- The frame header of a baseline frame. -/
def jSof (d : List Byte) (j : JState) : Dec JState := do
  let g (i : Nat) : Nat := (d.getD i 0).toNat
  let n := g 5
  need (decide (6 ≤ d.length) && j.comps.isEmpty) 2
  need (decide (g 0 = 8)) 3
  need (n == 1 || n == 3) 3
  need (decide (d.length = 6 + 3 * n)) 2
  let h := beNat ((d.drop 1).take 2)
  let w := beNat ((d.drop 3).take 2)
  need (decide (h ≠ 0)) 3
  sizeCheck w h
  let cs := (List.range n).map fun i => JComp.mk (g (6 + 3 * i)) (g (7 + 3 * i) / 16) (g (7 + 3 * i) % 16) (g (8 + 3 * i))
  need (cs.all fun c => decide (1 ≤ c.h) && decide (c.h ≤ 4) && decide (1 ≤ c.v) && decide (c.v ≤ 4)) 2
  need (cs.all fun c => decide (c.h ≤ 2) && decide (c.v ≤ 2)) 3
  pure { j with w := w, h := h, comps := cs }

/-- A component of a scan header. -/
def jPart (j : JState) (one : Bool) (cid tabs : Nat) : Dec JPart := do
  match j.comps.findIdx? fun c => c.id == cid with
  | none => corrupt 2
  | some i =>
    let c := j.comps.getD i ⟨0, 1, 1, 0⟩
    match (j.dc.find? fun t => t.1 == tabs / 16), (j.ac.find? fun t => t.1 == tabs % 16), (j.qt.find? fun t => t.1 == c.tq) with
    | some d, some a, some q =>
      need (!(j.planes.any fun p => p.1 == i)) 2
      let s := 8 * j.mcuW * c.h
      pure ⟨i, d.2, a.2, q.2, if one then 1 else c.h, if one then 1 else c.v, 0, s, Array.replicate (s * 8 * j.mcuH * c.v) 0⟩
    | _, _, _ => corrupt 2

/-- A scan: its header, then its data; the planes it completes. -/
def jScan (d : List Byte) (j : JState) : Dec JState := do
  let g (i : Nat) : Nat := (d.getD i 0).toNat
  let n := g 0
  need (decide (1 ≤ n) && decide (n ≤ j.comps.length) && decide (d.length = 4 + 2 * n)) 2
  need (decide (g (1 + 2 * n) = 0) && decide (g (2 + 2 * n) = 63) && decide (g (3 + 2 * n) = 0)) 2
  let ps ← (List.range n).mapM fun i => jPart j (n == 1) (g (1 + 2 * i)) (g (2 + 2 * i))
  let across := if n = 1 then
      let c := j.comps.getD ((ps.map (·.idx)).headD 0) ⟨0, 1, 1, 0⟩
      ((j.w * c.h + j.hmax - 1) / j.hmax + 7) / 8
    else j.mcuW
  let down := if n = 1 then
      let c := j.comps.getD ((ps.map (·.idx)).headD 0) ⟨0, 1, 1, 0⟩
      ((j.h * c.v + j.vmax - 1) / j.vmax + 7) / 8
    else j.mcuH
  modify fun r => { r with bits := [] }
  let ps ← jMcus across (across * down) j.ri (across * down) ps
  modify fun r => { r with bits := [] }
  pure { j with planes := j.planes ++ ps.map fun p => (p.idx, p.stride, p.plane) }

/-- Marker segments from the reader's place on; `stop`: return at the frame header. -/
def jMarkers (stop : Bool) : Nat → JState → Dec JState
  | 0, _ => corrupt 2
  | f + 1, j => do
    let r ← get
    match r.src with
    | a :: m :: l =>
      need (decide (a = 0xFF)) 2
      if m = 0xFF then
        set { r with src := m :: l }
        jMarkers stop f j
      else if m = 0xD9 then
        set { r with src := l }
        pure j
      else
        let n := beNat (l.take 2)
        need (decide (2 ≤ n) && decide (n ≤ l.length)) 2
        let d := (l.drop 2).take (n - 2)
        set { r with src := l.drop n }
        let mv := m.toNat
        if mv = 0xDB then jMarkers stop f (← jDqt 8 d j)
        else if mv = 0xC4 then jMarkers stop f (← jDht 16 d j)
        else if mv = 0xC0 then
          let j ← jSof d j
          if stop then pure j else jMarkers stop f j
        else if mv = 0xDD then
          need (decide (n = 4)) 2
          jMarkers stop f { j with ri := beNat d }
        else if mv = 0xDA then
          need (!j.comps.isEmpty) 2
          jMarkers stop f (← jScan d j)
        else if (0xE0 ≤ mv ∧ mv ≤ 0xEF) ∨ mv = 0xFE then jMarkers stop f j
        else if (0xC1 ≤ mv ∧ mv ≤ 0xCF) ∨ mv = 0xDC ∨ mv = 0xDE ∨ mv = 0xDF ∨ 0xF0 ≤ mv then corrupt 3
        else corrupt 2
    | _ => corrupt 2

/-- SOI. -/
def jSoi : Dec Unit := do
  let r ← get
  need (decide (r.src.take 2 = [0xFF, 0xD8])) 2
  set { r with src := r.src.drop 2 }

/-- The width, height and channels a JPEG announces (R296). -/
def jpegSize (bs : List Byte) : Dec (Nat × Nat × Nat) := do
  jSoi
  let j ← jMarkers true (bs.length + 1) JState.start
  need (!j.comps.isEmpty) 2
  pure (j.w, j.h, j.comps.length)

/-- The sample of a component for a pixel: planes are upsampled by replication (R282). -/
def JState.sample (j : JState) (i x y : Nat) : Nat :=
  let c := j.comps.getD i ⟨0, 1, 1, 0⟩
  match j.planes.find? fun p => p.1 == i with
  | some (_, s, a) => a.getD (y * c.v / j.vmax * s + x * c.h / j.hmax) 0
  | none => 0

/-- Decode a JPEG. -/
def jpegDecode (bs : List Byte) : Dec Img := do
  jSoi
  let j ← jMarkers false (bs.length + 1) JState.start
  need (!j.comps.isEmpty && decide (j.planes.length = j.comps.length)) 2
  let xy := (List.range (j.w * j.h)).map fun i => (i % j.w, i / j.w)
  if j.comps.length = 1 then pure ⟨j.w, j.h, 1, xy.map fun p => BitVec.ofNat 8 (j.sample 0 p.1 p.2)⟩
  else
    let px := xy.map fun p => ycc (j.sample 0 p.1 p.2) (j.sample 1 p.1 p.2) (j.sample 2 p.1 p.2)
    pure ⟨j.w, j.h, 3, (List.range 3).flatMap fun c => px.map fun q => q.getD c 0⟩

end Sys2Proof.Machine
end

