-- ==== Sys2Proof/Machine/ImgPng.lean ====
section
/-!
DEFINITION. PNG with deflate (R281, R282, R284, Table 11.6). What the standards named there say is PRESUMED from general
knowledge of PNG, RFC 1950 and RFC 1951 (log entry 60).
-/
namespace Sys2Proof.Machine

/-- CRC-32 of PNG chunks (R284). -/
def crcStep32 : Nat → W32 → W32
  | 0, r => r
  | n + 1, r => crcStep32 n (if r.getLsbD 0 then (r >>> 1) ^^^ 0xEDB88320 else r >>> 1)
def crc32 (bs : List Byte) : W32 :=
  (bs.foldl (fun r b => crcStep32 8 (r ^^^ b.setWidth 32)) 0xFFFFFFFF) ^^^ 0xFFFFFFFF
/-- Adler-32 of the zlib stream (R284). -/
def adler32 (bs : List Byte) : Nat :=
  let r := bs.foldl (fun (p : Nat × Nat) b => ((p.1 + b.toNat) % 65521, (p.2 + p.1 + b.toNat) % 65521)) (1, 0)
  r.2 * 65536 + r.1

/-! Inflate. -/

/-- The next bit of a zlib stream. -/
def zBit : Dec Bool := takeBit (takeByte 16) bitsUp
/-- n bits of it. -/
def zBits (n : Nat) : Dec Nat := bitsLow zBit n

/-- A prefix code from the code lengths of its symbols. -/
def huffOf (maxLen : Nat) (lens : List Nat) : Huff :=
  ⟨(List.range maxLen).map fun l => (lens.mapIdx fun i n => (i, n)).filterMap fun p => if p.2 = l + 1 then some p.1 else none⟩

/-- Base and extra bits of a length symbol 257 + i. -/
def lenBase : List (Nat × Nat) :=
  [(3, 0), (4, 0), (5, 0), (6, 0), (7, 0), (8, 0), (9, 0), (10, 0), (11, 1), (13, 1), (15, 1), (17, 1), (19, 2), (23, 2), (27, 2),
   (31, 2), (35, 3), (43, 3), (51, 3), (59, 3), (67, 4), (83, 4), (99, 4), (115, 4), (131, 5), (163, 5), (195, 5), (227, 5), (258, 0)]
/-- Base and extra bits of a distance symbol. -/
def distBase : List (Nat × Nat) :=
  [(1, 0), (2, 0), (3, 0), (4, 0), (5, 1), (7, 1), (9, 2), (13, 2), (17, 3), (25, 3), (33, 4), (49, 4), (65, 5), (97, 5), (129, 6),
   (193, 6), (257, 7), (385, 7), (513, 8), (769, 8), (1025, 9), (1537, 9), (2049, 10), (3073, 10), (4097, 11), (6145, 11),
   (8193, 12), (12289, 12), (16385, 13), (24577, 13)]

/-- Copy n bytes from distance d back. -/
def copyBack (d : Nat) : Nat → Array Byte → Array Byte
  | 0, o => o
  | n + 1, o => copyBack d n (o.push (o.getD (o.size - d) 0))

/-- Symbols of a compressed block until its end; `lim` bounds the output. -/
def zSymbols (lit dist : Huff) (lim : Nat) : Nat → Array Byte → Dec (Array Byte)
  | 0, o => pure o
  | f + 1, o => do
    let s ← huffNext zBit lit
    if s < 256 then
      need (decide (o.size < lim)) 2
      zSymbols lit dist lim f (o.push (BitVec.ofNat 8 s))
    else if s = 256 then pure o
    else
      need (decide (s ≤ 285)) 2
      let lb := lenBase.getD (s - 257) (0, 0)
      let x ← zBits lb.2
      let ds ← huffNext zBit dist
      need (decide (ds < 30)) 2
      let db := distBase.getD ds (0, 0)
      let y ← zBits db.2
      let d := db.1 + y
      let n := lb.1 + x
      need (decide (d ≤ o.size) && decide (o.size + n ≤ lim)) 2
      zSymbols lit dist lim f (copyBack d n o)

/-- The fixed codes. -/
def fixedLit : Huff := huffOf 9 (List.replicate 144 8 ++ List.replicate 112 9 ++ List.replicate 24 7 ++ List.replicate 8 8)
def fixedDist : Huff := huffOf 5 (List.replicate 30 5)

/-- Code lengths coded by the code-length code (RFC 1951). -/
def zLens (h : Huff) (total : Nat) : Nat → List Nat → Dec (List Nat)
  | 0, acc => pure acc
  | f + 1, acc => do
    if total ≤ acc.length then
      need (decide (acc.length = total)) 2
      pure acc
    else
      let s ← huffNext zBit h
      if s < 16 then zLens h total f (acc ++ [s])
      else if s = 16 then
        need (!acc.isEmpty) 2
        let n ← zBits 2
        zLens h total f (acc ++ List.replicate (3 + n) (acc.getLastD 0))
      else if s = 17 then
        let n ← zBits 3
        zLens h total f (acc ++ List.replicate (3 + n) 0)
      else
        let n ← zBits 7
        zLens h total f (acc ++ List.replicate (11 + n) 0)

/-- n three-bit lengths. -/
def zThree : Nat → Dec (List Nat)
  | 0 => pure []
  | n + 1 => do
    let v ← zBits 3
    let l ← zThree n
    pure (v :: l)

/-- n bytes of a stored block. -/
def zStored : Nat → Array Byte → Dec (Array Byte)
  | 0, o => pure o
  | n + 1, o => do
    let b ← takeByte 16
    zStored n (o.push b)

/-- One block. -/
def zBlock (type lim : Nat) (o : Array Byte) : Dec (Array Byte) := do
  if type = 0 then
    modify fun r => { r with bits := [] }
    let a ← takeByte 16
    let b ← takeByte 16
    let c ← takeByte 16
    let d ← takeByte 16
    let n := leNat [a, b]
    need (decide (n + leNat [c, d] = 65535) && decide (o.size + n ≤ lim)) 2
    zStored n o
  else if type = 1 then zSymbols fixedLit fixedDist lim (lim + 2) o
  else if type = 2 then
    let hl ← zBits 5
    let hd ← zBits 5
    let hc ← zBits 4
    need (decide (hl ≤ 29) && decide (hd ≤ 29)) 2
    let cl ← zThree (hc + 4)
    let order := [16, 17, 18, 0, 8, 7, 9, 6, 10, 5, 11, 4, 12, 3, 13, 2, 14, 1, 15]
    let lens := (List.range 19).map fun s => ((order.zip cl).find? fun p => p.1 == s).map (·.2) |>.getD 0
    let ch := huffOf 7 lens
    need (huffFits ch.byLen 1) 2
    let all ← zLens ch (hl + 257 + hd + 1) 400 []
    let lit := huffOf 15 (all.take (hl + 257))
    let dist := huffOf 15 (all.drop (hl + 257))
    need (huffFits lit.byLen 1 && huffFits dist.byLen 1 && all.getD 256 0 != 0) 2
    zSymbols lit dist lim (lim + 2) o
  else corrupt 2

/-- Blocks until the last. -/
def zBlocks (lim : Nat) : Nat → Array Byte → Dec (Array Byte)
  | 0, _ => corrupt 2
  | f + 1, o => do
    let last ← zBit
    let type ← zBits 2
    let o ← zBlock type lim o
    if last then pure o else zBlocks lim f o

/-- A zlib stream that must give exactly n bytes, its Adler-32 checked (R284). -/
def inflate (n : Nat) : Dec (List Byte) := do
  let a ← takeByte 16
  let b ← takeByte 16
  need (a.toNat % 16 == 8 && decide (a.toNat / 16 ≤ 7) && (256 * a.toNat + b.toNat) % 31 == 0 && !b.getLsbD 5) 2
  let r ← get
  let o ← zBlocks n (8 * r.src.length + 8) #[]
  need (decide (o.size = n)) 2
  modify fun r => { r with bits := [] }
  let c ← takeByte 16
  let d ← takeByte 16
  let e ← takeByte 16
  let f ← takeByte 16
  need (decide (beNat [c, d, e, f] = adler32 o.toList)) 9
  pure o.toList

/-! Chunks. -/

/-- IHDR, PLTE and the zlib bytes of a file, and the reason found after them, if any. -/
structure PngFile where
  w : Nat
  h : Nat
  depth : Nat
  color : Nat
  inter : Nat
  plte : List Byte
  idat : List Byte
  bad : Option Nat

/-- A chunk type may be skipped: ancillary. -/
def ancillary (t : List Byte) : Bool := (t.getD 0 0).getLsbD 5

/-- Walk the chunks after IHDR; the first fault ends the walk (R284). `st`: 0 before IDAT, 1 within, 2 after. -/
def pngWalk : Nat → Nat → List Byte → PngFile → PngFile
  | 0, _, _, p => { p with bad := some 2 }
  | f + 1, st, bs, p =>
    let n := beNat (bs.take 4)
    if bs.length < 12 + n ∨ 2 ^ 31 ≤ n then { p with bad := some 2 }
    else
      let t := (bs.drop 4).take 4
      let d := (bs.drop 8).take n
      let rest := bs.drop (12 + n)
      if (crc32 (t ++ d)).toNat ≠ beNat ((bs.drop (8 + n)).take 4) then { p with bad := some 9 }
      else if t = ascii "IDAT" then
        if st = 2 then { p with bad := some 2 } else pngWalk f 1 rest { p with idat := p.idat ++ d }
      else
        let st := if st = 1 then 2 else st
        if t = ascii "IEND" then p
        else if t = ascii "PLTE" then
          if st ≠ 0 ∨ n % 3 ≠ 0 ∨ n = 0 ∨ 768 < n then { p with bad := some 2 } else pngWalk f st rest { p with plte := d }
        else if ancillary t then pngWalk f st rest p
        else { p with bad := some (if t = ascii "IHDR" then 2 else 3) }

/-- Signature and IHDR. -/
def pngHead (bs : List Byte) : Except Nat PngFile :=
  if bs.take 8 ≠ [0x89, 0x50, 0x4E, 0x47, 0x0D, 0x0A, 0x1A, 0x0A] then .error 2
  else
    let c := bs.drop 8
    if c.length < 25 ∨ beNat (c.take 4) ≠ 13 ∨ (c.drop 4).take 4 ≠ ascii "IHDR" then .error 2
    else if (crc32 ((c.drop 4).take 17)).toNat ≠ beNat ((c.drop 21).take 4) then .error 9
    else
      let d := c.drop 8
      let g (i : Nat) : Nat := (d.getD i 0).toNat
      .ok ⟨beNat (d.take 4), beNat ((d.drop 4).take 4), g 8, g 9, g 12 + 256 * (g 10 + g 11), [], [], none⟩

/-- Samples of a pixel by colour type. -/
def pngSamples (color : Nat) : Nat :=
  match color with
  | 2 => 3
  | 4 => 2
  | 6 => 4
  | _ => 1

/-- Bit depths PNG allows for a colour type. -/
def pngDepthOk (color depth : Nat) : Bool :=
  match color with
  | 0 => [1, 2, 4, 8, 16].contains depth
  | 3 => [1, 2, 4, 8].contains depth
  | 2 => depth == 8 || depth == 16
  | 4 => depth == 8 || depth == 16
  | 6 => depth == 8 || depth == 16
  | _ => false

/-- The Paeth predictor. -/
def paeth (a b c : Nat) : Nat :=
  let p : Int := (a : Int) + b - c
  let pa := (p - a).natAbs
  let pb := (p - b).natAbs
  let pc := (p - c).natAbs
  if pa ≤ pb ∧ pa ≤ pc then a else if pb ≤ pc then b else c

/-- Undo a filter on one row: `prev` the row above, `n` bytes of a pixel. -/
def unfilter (type n : Nat) (prev : List Byte) (row : List Byte) : List Byte :=
  ((row.zip prev).foldl (fun (o : Array Byte) p =>
    let i := o.size
    let a := if n ≤ i then (o.getD (i - n) 0).toNat else 0
    let c := if n ≤ i then (prev.getD (i - n) 0).toNat else 0
    let b := p.2.toNat
    let q := match type with
      | 0 => 0
      | 1 => a
      | 2 => b
      | 3 => (a + b) / 2
      | _ => paeth a b c
    o.push (p.1 + BitVec.ofNat 8 q)) #[]).toList

/-- Rows of the unfiltered image, one unit for each 16 bytes of output (Table 11.6). `done` counts bytes. -/
def pngRows (rb n : Nat) : Nat → Nat → List Byte → List Byte → Dec (List (List Byte))
  | 0, _, _, _ => pure []
  | h + 1, done, prev, bs => do
    match bs with
    | [] => corrupt 2
    | t :: l =>
      need (decide (t.toNat ≤ 4)) 2
      chargeN ((done + rb + 15) / 16 - (done + 15) / 16)
      let row := unfilter t.toNat n prev (l.take rb)
      let rest ← pngRows rb n h (done + rb) row (l.drop rb)
      pure (row :: rest)

/-- The samples of a row at a bit depth. -/
def pngSplit (depth : Nat) (row : List Byte) : List Nat :=
  if depth = 8 then row.map (·.toNat)
  else if depth = 16 then (chunks 2 row).map beNat
  else row.flatMap fun b => (List.range (8 / depth)).map fun i => b.toNat / 2 ^ (8 - depth * (i + 1)) % 2 ^ depth

/-- A sample as 8 bits (R282): narrow grey scaled exactly, 16 bits to the nearest of v / 257. -/
def scale8 (depth v : Nat) : Byte :=
  BitVec.ofNat 8 (match depth with
    | 1 => v * 255
    | 2 => v * 85
    | 4 => v * 17
    | 8 => v
    | _ => (v + 128) / 257)

/-- The channels of a pixel's samples (R282): palettes expand, alpha is dropped. -/
def pngPixel (p : PngFile) (s : List Nat) : Dec (List Byte) := do
  match p.color with
  | 3 =>
    let i := s.getD 0 0
    need (decide (3 * i + 3 ≤ p.plte.length)) 2
    pure ((p.plte.drop (3 * i)).take 3)
  | c => pure ((s.take (if c = 2 ∨ c = 6 then 3 else 1)).map (scale8 p.depth))

/-- The width, height and channels a PNG announces (R296). -/
def pngSize (bs : List Byte) : Dec (Nat × Nat × Nat) :=
  match pngHead bs with
  | .error r => corrupt r
  | .ok p => do
    need (decide (1 ≤ p.w) && decide (1 ≤ p.h)) 2
    need (pngDepthOk p.color p.depth && decide (p.inter ≤ 1)) 2
    need (p.inter == 0) 3
    sizeCheck p.w p.h
    pure (p.w, p.h, if p.color = 0 ∨ p.color = 4 then 1 else 3)

/-- Decode a PNG. -/
def pngDecode (bs : List Byte) : Dec Img := do
  let sz ← pngSize bs
  match pngHead bs with
  | .error r => corrupt r
  | .ok p0 =>
    let p := pngWalk bs.length 0 (bs.drop 33) p0
    let ns := pngSamples p.color
    let rb := (p.w * ns * p.depth + 7) / 8
    need (p.color != 3 || !p.plte.isEmpty || p.bad.isSome) 2
    modify fun r => { r with src := p.idat, taken := 0, bits := [], eof := p.bad.getD 2 }
    let raw ← inflate (p.h * (rb + 1))
    let rows ← pngRows rb (max 1 (ns * p.depth / 8)) p.h 0 (List.replicate rb 0) raw
    match p.bad with
    | some r => corrupt r
    | none =>
      let px ← (rows.flatMap fun row => ((chunks ns ((pngSplit p.depth row).take (p.w * ns))))).mapM (pngPixel p)
      pure ⟨p.w, p.h, sz.2.2, (List.range sz.2.2).flatMap fun c => px.map fun q => q.getD c 0⟩

end Sys2Proof.Machine
end

