-- ==== Sys2Proof/Machine/ImgTiff.lean ====
section
/-!
DEFINITION. TIFF with compression 1 and Group 4 (R281, R282, R284, Table 11.6). What TIFF 6.0 and ITU-T T.6 say is PRESUMED
from general knowledge of them (log entry 60).
-/
namespace Sys2Proof.Machine

/-! Run-length codes of T.6. A code is written as a number whose leading 1 stands before its bits, so that 0x35 = 1 10101
is the code 10101. -/

/-- White runs of 0 to 63, black runs of 0 to 63. -/
def whiteTerm : List Nat :=
  [0x135, 0x47, 0x17, 0x18, 0x1b, 0x1c, 0x1e, 0x1f, 0x33, 0x34, 0x27, 0x28, 0x48, 0x43, 0x74, 0x75, 0x6a, 0x6b, 0xa7,
   0x8c, 0x88, 0x97, 0x83, 0x84, 0xa8, 0xab, 0x93, 0xa4, 0x98, 0x102, 0x103, 0x11a, 0x11b, 0x112, 0x113, 0x114, 0x115,
   0x116, 0x117, 0x128, 0x129, 0x12a, 0x12b, 0x12c, 0x12d, 0x104, 0x105, 0x10a, 0x10b, 0x152, 0x153, 0x154, 0x155, 0x124,
   0x125, 0x158, 0x159, 0x15a, 0x15b, 0x14a, 0x14b, 0x132, 0x133, 0x134]
def blackTerm : List Nat :=
  [0x437, 0xa, 0x7, 0x6, 0xb, 0x13, 0x12, 0x23, 0x45, 0x44, 0x84, 0x85, 0x87, 0x104, 0x107, 0x218, 0x417, 0x418, 0x408,
   0x867, 0x868, 0x86c, 0x837, 0x828, 0x817, 0x818, 0x10ca, 0x10cb, 0x10cc, 0x10cd, 0x1068, 0x1069, 0x106a, 0x106b,
   0x10d2, 0x10d3, 0x10d4, 0x10d5, 0x10d6, 0x10d7, 0x106c, 0x106d, 0x10da, 0x10db, 0x1054, 0x1055, 0x1056, 0x1057,
   0x1064, 0x1065, 0x1052, 0x1053, 0x1024, 0x1037, 0x1038, 0x1027, 0x1028, 0x1058, 0x1059, 0x102b, 0x102c, 0x105a,
   0x1066, 0x1067]
/-- Make-up runs of 64, 128, … 1,728, white and black. -/
def whiteMake : List Nat :=
  [0x3b, 0x32, 0x57, 0xb7, 0x136, 0x137, 0x164, 0x165, 0x168, 0x167, 0x2cc, 0x2cd, 0x2d2, 0x2d3, 0x2d4, 0x2d5, 0x2d6,
   0x2d7, 0x2d8, 0x2d9, 0x2da, 0x2db, 0x298, 0x299, 0x29a, 0x58, 0x29b]
def blackMake : List Nat :=
  [0x40f, 0x10c8, 0x10c9, 0x105b, 0x1033, 0x1034, 0x1035, 0x206c, 0x206d, 0x204a, 0x204b, 0x204c, 0x204d, 0x2072, 0x2073,
   0x2074, 0x2075, 0x2076, 0x2077, 0x2052, 0x2053, 0x2054, 0x2055, 0x205a, 0x205b, 0x2064, 0x2065]
/-- Make-up runs of 1,792, 1,856, … 2,560 of either colour. -/
def bothMake : List Nat :=
  [0x808, 0x80c, 0x80d, 0x1012, 0x1013, 0x1014, 0x1015, 0x1016, 0x1017, 0x101c, 0x101d, 0x101e, 0x101f]

/-- The run a complete code stands for. -/
def runOf (black : Bool) (c : Nat) : Option Nat :=
  match (if black then blackTerm else whiteTerm).idxOf? c with
  | some i => some i
  | none => match (if black then blackMake else whiteMake).idxOf? c with
    | some i => some (64 * (i + 1))
    | none => (bothMake.idxOf? c).map fun i => 1792 + 64 * i

/-- The next bit of coded data: one unit for each 4 bytes (Table 11.6). -/
def fBit : Dec Bool := takeBit (takeByte 4) bitsDown

/-- Bits until `hit` knows the code; `bad` is the reason when `fuel` bits do not make one. -/
def fCode {α : Type} (hit : Nat → Option α) : Nat → Nat → Dec α
  | 0, _ => corrupt 2
  | f + 1, c => do
    let b ← fBit
    let c := 2 * c + b2n b
    match hit c with
    | some a => pure a
    | none => fCode hit f c

/-- A run: make-up codes, then a terminating code; `room` bounds it. -/
def fRun (black : Bool) (room : Nat) : Nat → Nat → Dec Nat
  | 0, _ => corrupt 2
  | f + 1, n => do
    let r ← fCode (runOf black) 13 1
    need (decide (n + r ≤ room)) 2
    if r < 64 then pure (n + r) else fRun black room f (n + r)

/-- The modes of T.6: pass, horizontal, vertical by −3 to 3, and the extension this decoder does not support. -/
inductive FMode where
  | pass
  | horiz
  | vert (d : Int)
  | ext

/-- The mode a complete code stands for. -/
def fMode (c : Nat) : Option FMode :=
  match c with
  | 0b11 => some (.vert 0)
  | 0b1011 => some (.vert 1)
  | 0b1010 => some (.vert (-1))
  | 0b1001 => some .horiz
  | 0b10001 => some .pass
  | 0b1000011 => some (.vert 2)
  | 0b1000010 => some (.vert (-2))
  | 0b10000011 => some (.vert 3)
  | 0b10000010 => some (.vert (-3))
  | 0b10000001 => some .ext
  | _ => none

/-- Record a change at x; a second change at the same place cancels the first. -/
def addChange (x : Nat) : List Nat → List Nat
  | y :: l => if x = y then l else x :: y :: l
  | [] => [x]

/-- b1 and b2 (T.6): the first change of the reference row right of a0 that changes to the other colour than a0's, and the
change after it. -/
def refChanges (w : Nat) (a0 : Int) : Bool → List Nat → Nat × Nat
  | _, [] => (w, w)
  | same, x :: l => if !same && decide (a0 < (x : Int)) then (x, l.headD w) else refChanges w a0 (!same) l

/-- One row: its changes in descending order, from those of the row above in ascending order. -/
def fRow (w : Nat) (ref : List Nat) : Nat → Int → Bool → List Nat → Dec (List Nat)
  | 0, _, _, _ => corrupt 2
  | f + 1, a0, black, out => do
    if (w : Int) ≤ a0 then pure out
    else
      let b := refChanges w a0 black ref
      match ← fCode fMode 7 1 with
      | .pass => fRow w ref f b.2 black out
      | .vert d =>
        let a1 : Int := b.1 + d
        need (decide (a0 < a1) && decide (a1 ≤ w)) 2
        fRow w ref f a1 (!black) (addChange a1.toNat out)
      | .horiz =>
        let x := a0.toNat
        let r ← fRun black (w - x) 64 0
        let r2 ← fRun (!black) (w - x - r) 64 0
        fRow w ref f (x + r + r2 : Nat) black (addChange (x + r + r2) (addChange (x + r) out))
      | .ext => corrupt 3

/-- The bits of a row from its changes: 0 for white runs. -/
def fPixels (w : Nat) (changes : List Nat) : List Nat :=
  let r := changes.foldl (fun (p : List Nat × Nat × Nat) x => (p.1 ++ List.replicate (x - p.2.1) p.2.2, x, 1 - p.2.2)) ([], 0, 0)
  r.1 ++ List.replicate (w - r.2.1) r.2.2

/-- n rows, one unit each. -/
def fRows (w : Nat) : Nat → List Nat → Dec (List (List Nat))
  | 0, _ => pure []
  | n + 1, ref => do
    charge
    let r ← get
    let row ← fRow w ref (8 * r.src.length + 16) (-1) false []
    let c := row.reverse
    let rest ← fRows w n c
    pure (fPixels w c :: rest)

/-! Directories. -/

/-- A file of either byte order. -/
structure TiffFile where
  big : Bool
  bs : List Byte

/-- An n-byte number at an offset; none beyond the file. -/
def TiffFile.num (t : TiffFile) (off n : Nat) : Option Nat :=
  let b := (t.bs.drop off).take n
  if b.length < n then none else some (if t.big then beNat b else leNat b)

/-- An entry: tag, type, count, offset of its value field. -/
structure TiffEntry where
  tag : Nat
  type : Nat
  count : Nat
  at_ : Nat

/-- The entries of the directory at an offset, and the offset of the next. -/
def TiffFile.dir (t : TiffFile) (off : Nat) : Option (List TiffEntry × Nat) := do
  let n ← t.num off 2
  let es ← (List.range n).mapM fun i => do
    let o := off + 2 + 12 * i
    pure (TiffEntry.mk (← t.num o 2) (← t.num (o + 2) 2) (← t.num (o + 4) 4) (o + 8))
  let nx ← t.num (off + 2 + 12 * n) 4
  pure (es, nx)

/-- Directory `page`. -/
def TiffFile.page (t : TiffFile) : Nat → Nat → Option (List TiffEntry)
  | n, off => if off = 0 then none else
      match n with
      | 0 => (t.dir off).map (·.1)
      | n + 1 => match t.dir off with
        | some d => t.page n d.2
        | none => none

/-- Bytes of a value of a type (BYTE, SHORT, LONG). -/
def tiffWidth (type : Nat) : Option Nat :=
  match type with
  | 1 => some 1
  | 3 => some 2
  | 4 => some 4
  | _ => none

/-- The first values of a tag, at most `lim`; none when they are malformed. -/
def TiffFile.values (t : TiffFile) (es : List TiffEntry) (tag lim : Nat) (dflt : List Nat) : Option (List Nat) :=
  match es.find? fun e => e.tag == tag with
  | none => some dflt
  | some e => do
    let k ← tiffWidth e.type
    let at_ ← if e.count * k ≤ 4 then some e.at_ else t.num e.at_ 4
    (List.range (min lim e.count)).mapM fun i => t.num (at_ + k * i) k

/-- What the directory says of the image. -/
structure TiffImage where
  file : TiffFile
  w : Nat
  h : Nat
  bps : Nat
  spp : Nat
  comp : Nat
  photo : Nat
  rps : Nat
  offs : List Nat
  lens : List Nat

/-- A part that must be present. -/
def have' {α : Type} (o : Option α) : Dec α :=
  match o with
  | some a => pure a
  | none => corrupt 2

/-- Read directory `page` (R281). -/
def tiffHead (page : Nat) (bs : List Byte) : Dec TiffImage := do
  let big := decide (bs.take 2 = [0x4D, 0x4D])
  need (big || decide (bs.take 2 = [0x49, 0x49])) 2
  let t : TiffFile := ⟨big, bs⟩
  let magic ← have' (t.num 2 2)
  need (magic == 42) 2
  let first ← have' (t.num 4 4)
  let es ← have' (t.page page first)
  let one (tag : Nat) (d : List Nat) : Dec Nat := do
    let l ← have' (t.values es tag 1 d)
    have' l.head?
  need (!es.any fun e => decide (322 ≤ e.tag) && decide (e.tag ≤ 325)) 3
  let w ← one 256 []
  let h ← one 257 []
  let comp ← one 259 [1]
  need (comp == 1 || comp == 4) 3
  let photo ← one 262 []
  need (decide (photo ≤ 2)) 3
  let fill ← one 266 [1]
  need (fill == 1) 3
  let spp ← one 277 [1]
  need (spp == 1 || (spp == 3 && comp == 1)) 3
  need (decide ((photo = 2) ↔ (spp = 3))) 3
  let bpss ← have' (t.values es 258 spp (List.replicate spp 1))
  let bps := bpss.headD 0
  need (decide (bpss.length = spp)) 2
  need ((bps == 1 || (bps == 8 && comp == 1)) && bpss.all (· == bps)) 3
  let planar ← one 284 [1]
  need (planar == 1) 3
  let opts ← one 293 [0]
  need (comp == 1 || !bitAt opts 1) 3
  sizeCheck w h
  let rps0 ← one 278 [h]
  need (decide (0 < rps0)) 2
  let rps := min rps0 h
  let n := (h + rps - 1) / rps
  let offs ← have' (t.values es 273 n [])
  let lens ← have' (t.values es 279 n [])
  need (decide (offs.length = n) && decide (lens.length = n)) 2
  pure ⟨t, w, h, bps, spp, comp, photo, rps, offs, lens⟩

/-- The width, height and channels a TIFF directory announces (R296). -/
def tiffSize (page : Nat) (bs : List Byte) : Dec (Nat × Nat × Nat) := do
  let t ← tiffHead page bs
  pure (t.w, t.h, t.spp)

/-- n bytes of strip data, one unit for each 16 (Table 11.6). -/
def tiffBytes : Nat → Dec (List Byte)
  | 0 => pure []
  | n + 1 => do
    let b ← takeByte 16
    let l ← tiffBytes n
    pure (b :: l)

/-- The samples of each row of a strip of n rows. -/
def TiffImage.strip (t : TiffImage) (n : Nat) : Dec (List (List Nat)) :=
  if t.comp = 4 then fRows t.w n []
  else do
    let rb := (t.w * t.spp * t.bps + 7) / 8
    let bs ← tiffBytes (n * rb)
    pure ((chunks rb bs).map fun row => (pngSplit t.bps row).take (t.w * t.spp))

/-- The strips in order. -/
def TiffImage.strips (t : TiffImage) : Nat → List (Nat × Nat) → Dec (List (List Nat))
  | _, [] => pure []
  | left, (o, len) :: l => do
    need (decide (o + len ≤ t.file.bs.length)) 2
    modify fun r => { r with src := (t.file.bs.drop o).take len, bits := [] }
    let rows ← t.strip (min t.rps left)
    let rest ← t.strips (left - t.rps) l
    pure (rows ++ rest)

/-- Decode directory `page` of a TIFF: white is 255 under its photometric interpretation (R282). -/
def tiffDecode (page : Nat) (bs : List Byte) : Dec Img := do
  let t ← tiffHead page bs
  let rows ← t.strips t.h (t.offs.zip t.lens)
  let px := (rows.flatMap fun r => r).map fun v =>
    let b := scale8 t.bps v
    if t.photo = 0 then 255 - b else b
  if t.spp = 1 then pure ⟨t.w, t.h, 1, px⟩
  else
    let a := px.toArray
    pure ⟨t.w, t.h, 3, (List.range 3).flatMap fun c => (List.range (t.w * t.h)).map fun i => a.getD (3 * i + c) 0⟩

end Sys2Proof.Machine
end

