-- ==== Sys2Proof/Machine/Gf.lean ====
section
/-!
DEFINITION. Reed–Solomon codes over GF(2^8) with field polynomial x^8 + x^4 + x^3 + x^2 + 1 and α = 2 (R370, R255), and
the CRCs of the device: CRC-32C (R425) and CRC-64/XZ (R255).
-/
namespace Sys2Proof.Machine

/-- Multiply by α. -/
def gfDouble (a : Byte) : Byte := if a.msb then (a <<< 1) ^^^ 0x1D else a <<< 1

/-- Multiply a by the low `n` bits of b, b's bit i standing at position i. -/
def gfMulF : Nat → Byte → Nat → Byte
  | 0, _, _ => 0
  | n + 1, a, b => (if b % 2 = 1 then a else 0) ^^^ gfMulF n (gfDouble a) (b / 2)

/-- The product in GF(2^8). -/
def gfMul (a b : Byte) : Byte := gfMulF 8 a b.toNat

/-- Powers of an element. -/
def gfPow (a : Byte) : Nat → Byte
  | 0 => 1
  | n + 1 => gfMul a (gfPow a n)

/-- α^i. -/
def gfAlpha (i : Nat) : Byte := gfPow 2 (i % 255)

/-- Syndrome i of an error pattern over a codeword of n symbols: symbol j has degree n − 1 − j (R370). -/
def syndrome (n : Nat) (e : List (Nat × Byte)) (i : Nat) : Byte :=
  e.foldl (fun s x => s ^^^ gfMul x.2 (gfAlpha (i * (n - 1 - x.1)))) 0

/-- Every syndrome of a pattern is zero: the pattern is a codeword. -/
def isCode (n c : Nat) (e : List (Nat × Byte)) : Bool := (List.range c).all fun i => syndrome n e i == 0

/-- The XOR of two sparse patterns. -/
def patXor (a b : List (Nat × Byte)) : List (Nat × Byte) :=
  (List.range 72).filterMap fun j =>
    let v := ((a ++ b).filter fun x => x.1 == j).foldl (fun s x => s ^^^ x.2) (0 : Byte)
    if v = 0 then none else some (j, v)

/-- The single-symbol error that turns a pattern into a codeword, if there is one. -/
def singleFix (n c : Nat) (e : List (Nat × Byte)) : Option (Nat × Byte) :=
  let v := syndrome n e 0
  if v = 0 then none
  else (List.range n).findSome? fun j => if isCode n c (patXor e [(j, v)]) then some (j, v) else none

/-- How a read of a codeword ends (R372). -/
inductive WordRead where
  /-- no error, or an error pattern that is itself a codeword: the stored data as they are -/
  | good (pat : List (Nat × Byte))
  /-- one symbol corrected; the pattern left after correction -/
  | corrected (pat : List (Nat × Byte))
  /-- poisoned: the low and the high poison unit -/
  | poisoned (low high : Bool)
  | uncorrectable
  deriving DecidableEq, Repr

/-- The error pattern of check bytes lo to hi − 1 XOR 0xFF. -/
def ffPat (lo hi : Nat) : List (Nat × Byte) := (List.range (hi - lo)).map fun i => (lo + i, 0xFF)

/-- Decode a 36-symbol codeword (32 data, 4 check) from its error pattern: poison first, then normally (R372). -/
def decode32 (e : List (Nat × Byte)) : WordRead :=
  if e = [] then .good []
  else if isCode 36 4 (patXor e (ffPat 32 36)) then .poisoned true true
  else if isCode 36 4 e then .good e
  else match singleFix 36 4 e with
    | some x => .corrected (patXor e [x])
    | none => .uncorrectable

/-- Decode a 72-symbol codeword (64 data, 8 check) from its error pattern (R372). -/
def decode64 (e : List (Nat × Byte)) : WordRead :=
  if e = [] then .good []
  else if isCode 72 8 (patXor e (ffPat 64 68)) then .poisoned true false
  else if isCode 72 8 (patXor e (ffPat 68 72)) then .poisoned false true
  else if isCode 72 8 (patXor e (ffPat 64 72)) then .poisoned true true
  else if isCode 72 8 e then .good e
  else match singleFix 72 8 e with
    | some x => .corrected (patXor e [x])
    | none => .uncorrectable

/-- One bit-step of a reflected CRC of width w. -/
def crcBits (w : Nat) (poly : BitVec w) : Nat → BitVec w → BitVec w
  | 0, r => r
  | n + 1, r => crcBits w poly n (if r.getLsbD 0 then (r >>> 1) ^^^ poly else r >>> 1)

/-- A reflected CRC over bytes: initial value and final XOR all ones. -/
def crcReflected (w : Nat) (poly : BitVec w) (bs : List Byte) : BitVec w :=
  let ones := BitVec.allOnes w
  (bs.foldl (fun r b => crcBits w poly 8 (r ^^^ b.setWidth w)) ones) ^^^ ones

/-- CRC-32C: polynomial 0x1EDC_6F41, reflected (R425). -/
def crc32c (bs : List Byte) : W32 := crcReflected 32 0x82F63B78 bs

/-- CRC-64/XZ: polynomial 0x42F0_E1EB_A9EA_3693, reflected. -/
def crc64xz (bs : List Byte) : W64 := crcReflected 64 0xC96C5795D7870F42 bs

end Sys2Proof.Machine
end

