-- ==== Sys2Proof/Config.lean ====
section
/-!
DEFINITION. What the spec leaves open and what an implementation fixes: constants without a body. Nothing in Lean can
evaluate them, so no statement can lean on a value.
-/
namespace Sys2Proof.Config
open Sys2Proof

/-- A byte the spec leaves undefined (R156, R186, R181, R19): draw number and address. -/
opaque freeByte : Nat → Nat → Byte

/-- BEATS of a status reply (Table 2.5): beats the engine spent, which follow timing (Table 1.2): draw number. -/
opaque beats : Nat → W64

/-- Any other value the spec leaves open: draw number. -/
opaque freeWord : Nat → W32

/-- The ROM's version word (Table 13.4). -/
opaque romVersion : W32

/-- M_ROM, the SHAKE256 of the ROM (Table 14.3): byte i. -/
opaque romMeasurement : Nat → Byte

/-- The hash of the root public key held in the ROM (R360): byte i. -/
opaque romRootHash : Nat → Byte

/-- The root public key in module flash (R360): byte i of 1,952. -/
opaque rootKey : Nat → Byte

/-- The device certificate in module flash (R359, R361): byte i of 5,325. -/
opaque deviceCert : Nat → Byte

/-- Tokenisation once WORK has been written (R290): draw number and field. -/
opaque freeTokens : Nat → List Byte → List W32

/-- FILLED of a deskewed pixel whose source point is not finite (R291): C_DSK and S_DSK. -/
opaque filledOpen : W32 → W32 → Bool

/-- Is a trace point of the firmware passed (R350), its severity and its four arguments: number of the firmware's act and of
the point. -/
opaque traceEntry : Nat → Nat → Option (BitVec 2 × W32 × W32 × W32 × W32)

/-- Does the configuration of the module with this serial number give it a fabric ID (R267)? -/
opaque idConfigured : W64 → Bool

/-- What a configuration slot reads back after its write (R434): draw number and size; the offset of the first differing byte,
or none when it reads back as written. -/
opaque flashBad : Nat → Nat → Option Nat

/-- Where a capability structure lies in the configuration space: its 4-byte word number (R307). -/
opaque pciCap : Nat → W16

/-- Words of the configuration space that the spec leaves open: word number. -/
opaque pciWord : Nat → W32

/-- GLB_ID.CSTEP and HSTEP: the die steppings. -/
opaque stepping : W16

/-- ML-DSA-65 verification as FIPS 204 defines it (R356): public key, message, signature. -/
opaque mldsaVerify : List Byte → List Byte → List Byte → Bool

/-- The ML-DSA-65 public key generated from ξ (R357): byte i. -/
opaque mldsaPublic : List Byte → Nat → Byte

/-- The deterministic ML-DSA-65 signature under the key generated from ξ (R356, R366): ξ, message, byte i. -/
opaque mldsaSign : List Byte → List Byte → Nat → Byte

end Sys2Proof.Config
end

