-- ==== Sys2Proof/Machine/RegMap.lean ====
section
/-!
DEFINITION. The register maps of BAR0, one row per register, read off the register tables of every chapter: the
offset, the fields with their access codes (R8, Table 0.4), their reset values and the resets they are kept across
(R414). Everything the common register rules (R415 to R430, R435) need is computed from these rows.
-/
namespace Sys2Proof.Machine

/-- The resets a field is kept across, as its Kept across column names them (R414). -/
structure Kept where
  msr : Bool
  flr : Bool
  fwr : Bool
  er : Bool
  deriving DecidableEq, Repr

/-- Kept across nothing. -/
def k0 : Kept := ⟨false, false, false, false⟩
/-- FWR. -/
def kF : Kept := ⟨false, false, true, false⟩
/-- FWR, ER. -/
def kFE : Kept := ⟨false, false, true, true⟩
/-- FWR, FLR. -/
def kFL : Kept := ⟨false, true, true, false⟩
/-- FWR, ER, FLR. -/
def kFEL : Kept := ⟨false, true, true, true⟩
/-- MSR, FWR. -/
def kMF : Kept := ⟨true, false, true, false⟩
/-- MSR, FLR, FWR. -/
def kMLF : Kept := ⟨true, true, true, false⟩
/-- MSR, FLR, FWR, ER. -/
def k4 : Kept := ⟨true, true, true, true⟩

/-- A field of a control register. `rst n` is its reset value in instance n of a repeated register. -/
structure Fld where
  hi : Nat
  lo : Nat
  rst : Nat → Nat
  /-- covered by the configuration CRC (C) -/
  c : Bool
  /-- stored in triplicate (T) -/
  t : Bool
  /-- an action field (R416): reads 0, never stored -/
  act : Bool
  kept : Kept

/-- A field coded RM or WP without C. -/
def fm (hi lo r : Nat) (k : Kept) : Fld := ⟨hi, lo, fun _ => r, false, false, false, k⟩
/-- A field coded C. -/
def fc (hi lo r : Nat) (k : Kept) : Fld := ⟨hi, lo, fun _ => r, true, false, false, k⟩
/-- A field coded C with a reset value for each instance. -/
def fcn (hi lo : Nat) (r : Nat → Nat) (k : Kept) : Fld := ⟨hi, lo, r, true, false, false, k⟩
/-- A field coded C and T. -/
def fct (hi lo r : Nat) (k : Kept) : Fld := ⟨hi, lo, fun _ => r, true, true, false, k⟩
/-- A field coded T without C. -/
def ft (hi lo r : Nat) (k : Kept) : Fld := ⟨hi, lo, fun _ => r, false, true, false, k⟩
/-- An action field (R416). -/
def fa (hi lo : Nat) : Fld := ⟨hi, lo, fun _ => 0, false, false, true, k0⟩

/-- The kinds of register (R415, R419, R421). -/
inductive RegKind where
  /-- a control register with masked writes; `wp` when its fields are posted (R430) -/
  | ctl (wp : Bool)
  /-- a sequence-cleared status register (R419) with these event bits (STALE, bit 23, included) -/
  | stat (events : Nat) (kept : Kept)
  /-- a sequence-cleared count (R421) -/
  | rc (kept : Kept)
  /-- a read-only count the device holds at this offset: 64-bit or 32-bit -/
  | cnt (w64 : Bool) (kept : Kept)
  /-- a read-only register computed from other state -/
  | view (w64 : Bool)
  deriving DecidableEq, Repr

/-- A register: offset within one instance of its group, kind, fields of its payload. -/
structure RegDef where
  name : String
  off : Nat
  kind : RegKind
  flds : List Fld

/-- A group of registers repeated `count` times at `stride` from the BAR0 offset `base`. `owner n` is the engine
whose engine reset applies to instance n (R412); `anyEr` marks the PWR block, where any engine reset counts. -/
structure RegGroup where
  base : Nat
  stride : Nat
  count : Nat
  owner : Nat → Option Nat
  anyEr : Bool
  regs : List RegDef

/-- A control register. -/
def rm (n : String) (o : Nat) (l : List Fld) : RegDef := ⟨n, o, .ctl false, l⟩
/-- A posted control register. -/
def rwp (n : String) (o : Nat) (l : List Fld) : RegDef := ⟨n, o, .ctl true, l⟩
/-- A status register. -/
def rs (n : String) (o ev : Nat) (k : Kept) : RegDef := ⟨n, o, .stat (ev ||| 0x800000) k, []⟩
/-- A 32-bit count. -/
def rc32 (n : String) (o : Nat) (k : Kept) : RegDef := ⟨n, o, .cnt false k, []⟩
/-- A 64-bit count. -/
def rc64 (n : String) (o : Nat) (k : Kept) : RegDef := ⟨n, o, .cnt true k, []⟩
/-- A 32-bit computed register. -/
def rv (n : String) (o : Nat) : RegDef := ⟨n, o, .view false, []⟩
/-- A 64-bit computed register. -/
def rv64 (n : String) (o : Nat) : RegDef := ⟨n, o, .view true, []⟩

/-- One instance, no engine's. -/
def once (base : Nat) (regs : List RegDef) : RegGroup := ⟨base, 0x100000, 1, fun _ => none, false, regs⟩
/-- One instance, of an engine's block. -/
def onceOf (e base : Nat) (regs : List RegDef) : RegGroup := ⟨base, 0x100000, 1, fun _ => some e, false, regs⟩

/-- GLB (chapter 17). -/
def grpGlb : List RegGroup := [
  once 0x000000 [
    rv "GLB_ID" 0x0, rv64 "GLB_SERIAL" 0x8, rv "GLB_VERSIONS0" 0x10, rv "GLB_VERSIONS1" 0x14, rv "GLB_VERSIONS2" 0x18,
    rv "GLB_VERSIONS3" 0x1C, rv "GLB_VERSIONS4" 0x20, rv "GLB_VERSIONS5" 0x24, rv "GLB_VERSIONS6" 0x28,
    rv "GLB_VERSIONS7" 0x2C,
    rm "GLB_CTL" 0x30 [fc 0 0 1 k4], rs "GLB_STAT" 0x34 0x3 k4, ⟨"GLB_VOTE_REPAIRS", 0x38, .rc k4, []⟩,
    rv "GLB_BLOCK_STAT" 0x3C],
  ⟨0x000040, 4, 16, fun _ => none, false, [rm "GLB_MOOR" 0x0 [fm 15 0 0 k4]]⟩]

/-- CFG (chapter 17). -/
def grpCfg : List RegGroup := [
  once 0x100000 [
    rv "CFG_REC_VERSION" 0x0, rv "CFG_REC_STATE" 0x4, rm "CFG_CRC_CTL" 0x8 [fa 0 0],
    rm "CFG_CRC_ACTION" 0xC [fct 1 0 1 k4], rm "CFG_CRC_REF_LO" 0x10 [ft 15 0 0 kF], rm "CFG_CRC_REF_HI" 0x14 [ft 15 0 0 kF],
    rv "CFG_CRC_LIVE" 0x18, rc32 "CFG_CRC_SCANS" 0x1C k4, rv "CFG_CRC_STATE" 0x20, rs "CFG_CRC_STAT" 0x24 0x3 k4,
    rv "CFG_I3C" 0x28]]

/-- PWR (chapter 16); ER here means any engine reset. -/
def grpPwr : List RegGroup := [
  ⟨0x200000, 0x100000, 1, fun _ => none, true, [
    rs "PWR_PSTAT" 0x0 0x2 kF, rm "PWR_CTL" 0x4 [fc 0 0 1 k4, fa 1 1], rs "PWR_STAT" 0x8 0x7F k4,
    rwp "PWR_SETPOINT" 0xC [fc 9 0 750 k4], rwp "PWR_LIMIT" 0x10 [fc 10 0 1200 k4],
    rwp "PWR_ARB" 0x14 [fc 7 0 32 k4, fc 12 8 8 k4], rwp "PWR_HYST" 0x18 [fc 7 0 30 k4],
    rwp "PWR_TEMP_THR" 0x1C [fc 7 0 95 k4, fc 15 8 100 k4], rv "PWR_STATE" 0x20, rv "PWR_EFFECTIVE" 0x24,
    rv "PWR_ARB_STATE" 0x28, rv "PWR_VIN" 0x2C, rv "PWR_PIN" 0x30, rv "PWR_DOM_ON0" 0x34, rv "PWR_DOM_ON1" 0x38,
    rv "PWR_DOM_ON2" 0x3C, rm "PWR_RST_CMD" 0x40 [fa 5 0], rv "PWR_RST_BUSY" 0x44, rv "PWR_START" 0x48,
    rv "PWR_STARTS" 0x4C, rc64 "PWR_ENERGY" 0x50 k4, rc64 "PWR_LIMITED_NS" 0x58 k4]⟩]

/-- TIM (chapter 16). -/
def grpTim : List RegGroup := [
  once 0x300000 [
    rm "TIM_CTL" 0x0 [fc 0 0 1 k4], rs "TIM_STAT" 0x4 0x1 k4, rv64 "TIM_TIME" 0x8, rm "TIM_WDT_PERIOD" 0x10 [fct 15 0 100 k4],
    rm "TIM_WDT_KICK" 0x14 [fa 0 0], rv "TIM_WDT_REMAIN" 0x18, rv "TIM_OSC" 0x1C]]

/-- HIF (chapter 12). -/
def grpHif : List RegGroup := [
  once 0x400000 [
    rm "HIF_CTL" 0x0 [fc 0 0 0 kFL, fc 1 1 1 kFL], rs "HIF_STAT" 0x4 0x7FF kMF, rv "HIF_LINK" 0x8,
    rm "HIF_GW_BASE_LO" 0xC [fc 15 0 0 kMF], rm "HIF_GW_BASE_HI" 0x10 [fc 4 0 0 kMF],
    rm "HIF_LL_TIMEOUT" 0x14 [fct 15 0 200 kMLF], rv "HIF_LL_ELAPSED" 0x18, rc32 "HIF_SELF_RESETS" 0x1C kMLF,
    rc64 "HIF_HOST_RD_BYTES" 0x20 kMLF, rc64 "HIF_HOST_WR_BYTES" 0x28 kMLF, rc64 "HIF_GW_RD_BYTES" 0x30 kMLF,
    rc64 "HIF_GW_WR_BYTES" 0x38 kMLF, rc32 "HIF_CPL_TIMEOUTS" 0x40 kMLF, rc32 "HIF_HOST_REFUSALS" 0x44 kMLF],
  ⟨0x410000, 4, 403, fun _ => none, false, [rm "HIF_IRQ_MAP" 0x0 [fcn 10 0 (fun s => s) kF, fc 15 15 1 kF]]⟩]

/-- Reset of a value of a berth: channel 0 opens at start (R50). -/
def bn (v0 : Nat) : Nat → Nat := fun n => if n = 0 then v0 else 0

/-- CQF (chapter 2). Berths are kept as R58 says, not by these flags. -/
def grpCqf : List RegGroup := [
  once 0x500000 [
    rm "CQF_CTL" 0x0 [fc 0 0 1 kF, fa 1 1], rm "CQF_POLL" 0x4 [fc 15 0 10 kF], rs "CQF_STAT" 0x8 0xF kF,
    rv "CQF_LANDING" 0xC, rv "CQF_LANDING_RESV" 0x10, rm "CQF_TOKEN_SEL" 0x14 [fm 11 0 0 kF], rv "CQF_TOKEN_VAL" 0x18],
  ⟨0x500020, 4, 12, fun _ => none, false, [rv "CQF_Q_STOPPED" 0x0]⟩,
  ⟨0x500100, 4, 22, fun _ => none, false, [rv "CQF_TAGUSE" 0x0]⟩,
  ⟨0x510000, 0x40, 384, fun n => some (n / 64), false, [
    rm "CQF_Qn_CTL" 0x0 [fc 0 0 0 kF, fc 1 1 1 kFE, fc 2 2 1 kFE], rm "CQF_Qn_SIZE" 0x4 [fc 4 0 0 kFE],
    rm "CQF_Qn_BASE_A0" 0x8 [fc 15 12 0 kFE], rm "CQF_Qn_BASE_A1" 0xC [fc 15 0 0 kFE],
    rm "CQF_Qn_BASE_A2" 0x10 [fc 15 0 0 kFE], rm "CQF_Qn_CHAN" 0x14 [fc 11 0 0 kFE],
    rm "CQF_Qn_TIMEOUT" 0x18 [fc 15 0 1000 kFE], rm "CQF_Qn_STSIZE" 0x1C [fc 4 0 0 kFE],
    rm "CQF_Qn_STBASE_A0" 0x20 [fc 15 5 0 kFE], rm "CQF_Qn_STBASE_A1" 0x24 [fc 15 0 0 kFE],
    rm "CQF_Qn_STBASE_A2" 0x28 [fc 15 0 0 kFE], rm "CQF_Qn_CMD" 0x2C [fa 1 0], rv "CQF_Qn_HEAD" 0x30,
    rv "CQF_Qn_STATE" 0x34, rs "CQF_Qn_STAT" 0x38 0xF kFE, rv "CQF_Qn_ERRTAG" 0x3C]⟩,
  ⟨0x520000, 0x40, 64, fun _ => none, false, [
    rm "CQF_SLn_CFG" 0x0 [fc 4 0 0 kFE], rm "CQF_SLn_SLOTSZ" 0x4 [fc 10 0 0 kFE],
    rm "CQF_SLn_BASE_A0" 0x8 [fc 15 12 0 kFE], rm "CQF_SLn_BASE_A1" 0xC [fc 15 0 0 kFE],
    rm "CQF_SLn_BASE_A2" 0x10 [fc 8 0 0 kFE], rm "CQF_SLn_PROD" 0x14 [fc 8 0 0 kFE], rm "CQF_SLn_CONS" 0x18 [fc 8 0 0 kFE],
    rm "CQF_SLn_CTL" 0x1C [fm 0 0 0 kF], rv "CQF_SLn_TAIL" 0x20, rv "CQF_SLn_HEAD" 0x24, rs "CQF_SLn_STAT" 0x28 0x3 kF]⟩,
  ⟨0x540000, 0x40, 4096, fun _ => none, false, [
    rm "CQF_Bn_CTL" 0x0 [fcn 0 0 (bn 1) kFE, fc 2 1 0 kFE, fc 3 3 0 kFE], rm "CQF_Bn_CONTEXT" 0x4 [fc 11 0 0 kFE],
    rm "CQF_Bn_PEER" 0x8 [fc 13 0 0 kFE], rm "CQF_Bn_RESERVE" 0xC [fcn 13 0 (bn 256) kFE],
    rm "CQF_Bn_CEILING" 0x10 [fcn 13 0 (bn 1024) kFE], rm "CQF_Bn_WEIR" 0x14 [fc 13 0 0 kFE],
    rm "CQF_Bn_TOKBASE" 0x18 [fc 11 0 0 kFE], rm "CQF_Bn_TOKCNT" 0x1C [fcn 13 0 (bn 4096) kFE], rv "CQF_Bn_OCC" 0x20,
    rs "CQF_Bn_STAT" 0x24 0xF kFE, rc64 "CQF_Bn_OVERLOAD" 0x28 kFE, rc64 "CQF_Bn_RX_BYTES" 0x30 kFE]⟩]

/-- MAT (chapter 4). -/
def grpMat : List RegGroup := [
  onceOf 0 0x600000 [
    rm "MAT_CTL" 0x0 [fc 0 0 1 kFEL, fc 1 1 0 kFE, fa 2 2], rs "MAT_STAT" 0x4 0xF kFE, rv "MAT_SVC_LO" 0x8, rv "MAT_SVC_HI" 0xC,
    rv "MAT_SVC_CNT" 0x10, rv "MAT_HANDLES" 0x14, rc64 "MAT_NF_TOTAL" 0x18 kFEL, rc32 "MAT_RES_TOTAL" 0x20 kFEL],
  ⟨0x610000, 0x20, 64, fun _ => some 0, false, [
    rv "MAT_Cn_STATE" 0x0, rc32 "MAT_Cn_NF" 0x4 kFEL, rc32 "MAT_Cn_RESFLT" 0x8 kFEL, rc64 "MAT_Cn_ITEMS" 0x10 kFEL,
    rc64 "MAT_Cn_BUSYB" 0x18 kFEL]⟩,
  ⟨0x620000, 4, 192, fun _ => some 0, false, [rv "MAT_Hh" 0x0]⟩]

/-- VEC (chapter 5). -/
def grpVec : List RegGroup := [
  onceOf 1 0x700000 [
    rm "VEC_CTL" 0x0 [fc 0 0 1 kFEL, fa 1 1], rs "VEC_STAT" 0x4 0xF kFE, rc64 "VEC_NF_TOTAL" 0x8 kFEL,
    rc32 "VEC_RES_TOTAL" 0x10 kFEL, rc64 "VEC_OPT_COMMITS" 0x18 kFEL],
  ⟨0x710000, 0x20, 4, fun _ => some 1, false, [
    rv "VEC_QDn_STATE" 0x0, rc32 "VEC_QDn_NF" 0x4 kFEL, rc32 "VEC_QDn_RESFLT" 0x8 kFEL, rc64 "VEC_QDn_BUSYB" 0x10 kFEL]⟩]

/-- TIR (chapter 7). -/
def grpTir : List RegGroup := [
  onceOf 3 0x800000 [
    rm "TIR_CTL" 0x0 [fc 0 0 1 k4], rs "TIR_STAT" 0x4 0x1F kFE, rm "TIR_MIG_RATE" 0x8 [fc 15 0 64 k4],
    rm "TIR_EPOCH" 0xC [fc 15 0 100 k4], rm "TIR_THRESH" 0x10 [fc 7 0 32 k4, fc 15 8 16 k4],
    rm "TIR_TIDE_BASE_A0" 0x14 [fct 15 10 0 k4], rm "TIR_TIDE_BASE_A1" 0x18 [fct 15 0 0 k4],
    rm "TIR_TIDE_BASE_A2" 0x1C [fct 8 0 0 k4], rv "TIR_PAGES_FAST" 0x20, rv "TIR_PAGES_CAP" 0x24, rv "TIR_PINNED_FAST" 0x28,
    rc64 "TIR_MIGRATIONS" 0x30 k4, rc64 "TIR_WRITE_WAITS" 0x38 k4, rv "TIR_REMAP" 0x40,
    rm "TIR_TOLL_SEL" 0x44 [fm 11 0 0 kF, fm 12 12 0 kF], rv "TIR_TOLL_GRANT" 0x48, rv "TIR_TOLL_USED" 0x4C,
    rm "TIR_REG_SEL" 0x50 [fm 11 0 0 kF], rv64 "TIR_REG_BASE" 0x58, rv64 "TIR_REG_DESC" 0x60, rv64 "TIR_REG_TAG" 0x68,
    rv64 "TIR_REG_IDX" 0x70, rm "TIR_PAGE_SEL_A0" 0x78 [fm 15 0 0 kF], rm "TIR_PAGE_SEL_A1" 0x7C [fm 3 0 0 kF],
    rv "TIR_PAGE_INFO" 0x80],
  ⟨0x810000, 0x10, 8, fun _ => some 3, false, [rv "TIR_FORDn_STATE" 0x0]⟩]

/-- FTC (chapter 7). -/
def grpFtc : List RegGroup := [
  once 0x900000 [
    rs "FTC_PSTAT" 0x0 0x6 kF, rwp "FTC_CTL" 0x4 [fc 0 0 0 kMLF, fc 15 8 95 kMLF]],
  ⟨0x910000, 0x40, 8, fun _ => none, false, [
    rv "FTC_Sn_STATE" 0x0, rv "FTC_Sn_REPAIR" 0x4, rc32 "FTC_Sn_CE" 0x8 kMLF, rc32 "FTC_Sn_UE" 0xC kMLF,
    rv "FTC_Sn_TEMP" 0x10]⟩]

/-- NBU (chapter 8). -/
def grpNbu : List RegGroup := [
  onceOf 2 0xA00000 [
    rm "NBU_CTL" 0x0 [fa 0 0], rs "NBU_STAT" 0x4 0x3F kFE, rm "NBU_CAP" 0x8 [fc 7 0 64 k4, fc 8 8 0 k4],
    rc64 "NBU_NF_TOTAL" 0x10 k4, rc32 "NBU_RES_TOTAL" 0x18 k4, rc32 "NBU_POISONED" 0x1C k4,
    rm "NBU_MAP_SEL" 0x20 [fm 10 0 0 kF], rv "NBU_MAP" 0x24],
  ⟨0xA00040, 8, 8, fun _ => some 2, false, [rv64 "NBU_SHARD_PROGn" 0x0]⟩,
  ⟨0xA10000, 0x20, 8, fun _ => some 2, false, [
    rv "NBU_Sn_STATE" 0x0, rc64 "NBU_Sn_ROWS" 0x8 k4, rc64 "NBU_Sn_COLB" 0x10 k4, rc64 "NBU_Sn_HELDT" 0x18 k4]⟩,
  ⟨0xA20000, 0x10, 2112, fun _ => some 2, false, [
    rv "NBU_Gn_STATE" 0x0, rc32 "NBU_Gn_NF" 0x4 k4, rc32 "NBU_Gn_RESFLT" 0x8 k4, rc32 "NBU_Gn_CE" 0xC k4]⟩]

/-- CTC (chapter 7). -/
def grpCtc : List RegGroup := [
  once 0xB00000 [
    rs "CTC_PSTAT" 0x0 0x6 kF, rwp "CTC_CTL" 0x4 [fc 0 0 0 kMLF, fc 15 8 85 kMLF]],
  ⟨0xB10000, 0x40, 24, fun _ => none, false, [
    rv "CTC_Pn_STATE" 0x0, rc32 "CTC_Pn_CE" 0x4 kMLF, rc32 "CTC_Pn_UE" 0x8 kMLF, rv "CTC_Pn_TEMP" 0xC]⟩]

/-- XCH (chapter 9). -/
def grpXch : List RegGroup := [
  onceOf 4 0xC00000 [
    rm "XCH_CTL" 0x0 [fa 0 0, fc 1 1 1 kFEL], rs "XCH_STAT" 0x4 0x1F kFE, rm "XCH_PEER_TIMEOUT" 0x8 [fc 15 0 100 kFEL],
    rm "XCH_SRING_BASE_A0" 0xC [fc 15 6 0 k4], rm "XCH_SRING_BASE_A1" 0x10 [fc 15 0 0 k4],
    rm "XCH_SRING_BASE_A2" 0x14 [fc 8 0 0 k4], rm "XCH_SRING_SIZE" 0x18 [fc 4 0 0 k4], rc32 "XCH_SRING_SEQ" 0x1C k4,
    rc64 "XCH_NF_TOTAL" 0x20 k4, rc64 "XCH_TX_BYTES" 0x28 k4, rc64 "XCH_RX_BYTES" 0x30 k4, rc32 "XCH_RES_TOTAL" 0x38 k4],
  ⟨0xC10000, 0x20, 16, fun _ => some 4, false, [
    rv "XCH_GRPn_STATE" 0x0, rv "XCH_GRPn_RANK" 0x4, rv "XCH_GRPn_EPOCH" 0x8, rv "XCH_GRPn_CSEQ" 0xC, rv "XCH_GRPn_FAIL" 0x10,
    rv "XCH_GRPn_HELD" 0x14]⟩]

/-- FAB (chapter 10). -/
def grpFab : List RegGroup := [
  once 0xD00000 [
    rm "FAB_CTL" 0x0 [fc 0 0 1 kMLF, fc 1 1 1 kMLF, fc 2 2 1 kMLF], rs "FAB_STAT" 0x4 0x1FF kF,
    rm "FAB_ID_CFG" 0x8 [fct 13 0 0 kMLF, fct 15 15 0 kMLF], rv "FAB_ID" 0xC, rv64 "FAB_SERIAL" 0x10, rv64 "FAB_LEADER" 0x18,
    rv "FAB_MODULES" 0x20, rm "FAB_SETTLE" 0x24 [fc 15 0 100 kMLF], rm "FAB_LSA_REFRESH" 0x28 [fc 15 0 100 kMLF],
    rm "FAB_CPL_TIMEOUT" 0x2C [fc 15 0 10 kMLF], rm "FAB_RT_CTL" 0x30 [fa 0 0, fa 1 1], rm "FAB_RT_IDX" 0x34 [fm 13 0 0 kF],
    rm "FAB_RT_SHADOW" 0x38 [fm 15 0 0xFFFF kMLF], rv "FAB_RT_ACTIVE" 0x3C, rc32 "FAB_EPOCH" 0x40 kMLF,
    rc32 "FAB_HOP_EXPIRED" 0x44 kMLF, rc32 "FAB_REFUSALS" 0x48 kMLF],
  ⟨0xD10000, 0x40, 12, fun _ => none, false, [
    rm "FAB_Pn_CTL" 0x0 [fc 0 0 1 kMLF, fc 1 1 1 kMLF, fa 2 2], rv "FAB_Pn_STATE" 0x4, rv "FAB_Pn_VER" 0x8,
    rv "FAB_Pn_NBR_ID" 0xC, rv64 "FAB_Pn_NBR_SERIAL" 0x10, rc32 "FAB_Pn_CRCERR" 0x18 kMLF, rc32 "FAB_Pn_REPLAYS" 0x1C kMLF,
    rc32 "FAB_Pn_RETRAINS" 0x20 kMLF, rc32 "FAB_Pn_LOST" 0x24 kMLF, rc64 "FAB_Pn_FECCORR" 0x28 kMLF,
    rc64 "FAB_Pn_TX_BYTES" 0x30 kMLF, rc64 "FAB_Pn_RX_BYTES" 0x38 kMLF]⟩]

/-- ITK (chapter 11). -/
def grpItk : List RegGroup := [
  onceOf 5 0xE00000 [
    rm "ITK_CTL" 0x0 [fc 0 0 1 kFEL, fc 1 1 0 kFEL, fa 2 2, fa 3 3], rs "ITK_STAT" 0x4 0x7F kFE,
    rm "ITK_STAGE_REGION" 0x8 [fc 11 0 0 k4, fc 15 15 0 k4], rm "ITK_CACHE_REGION" 0xC [fc 11 0 0 k4, fc 15 15 0 k4],
    rm "ITK_ROI_BASE_A0" 0x10 [fc 15 7 0 k4], rm "ITK_ROI_BASE_A1" 0x14 [fc 15 0 0 k4], rm "ITK_ROI_BASE_A2" 0x18 [fc 8 0 0 k4],
    rm "ITK_ROI_COUNT" 0x1C [fc 15 0 0 k4], rv "ITK_VOCAB" 0x20, rv "ITK_VOCAB_BYTEBASE" 0x24, rv "ITK_WINDOW" 0x28,
    rv "ITK_LANES" 0x2C, rc64 "ITK_SAMPLES" 0x30 k4, rc64 "ITK_CACHED" 0x38 k4, rc64 "ITK_CORRUPT" 0x40 k4,
    rc64 "ITK_OVERBUDGET" 0x48 k4, rc64 "ITK_PADDED" 0x50 k4, rc64 "ITK_UNITS" 0x58 k4, rc64 "ITK_NF_TOTAL" 0x60 k4,
    rc64 "ITK_ROI_WAITNS" 0x68 k4]]

/-- MGT (chapter 13). -/
def grpMgt : List RegGroup := [
  once 0xF00000 [
    rm "MGT_CTL" 0x0 [fa 0 0, fa 1 1, fc 2 2 1 kMLF], rs "MGT_STAT" 0x4 0x7F kMLF, rv "MGT_STATE" 0x8, rv "MGT_MBOX_TAKEN" 0xC,
    rc32 "MGT_RESTARTS" 0x10 kMLF, rc32 "MGT_WDT_RESTARTS" 0x14 kMLF, rc32 "MGT_LOG_SEQ" 0x18 kMLF, rv "MGT_SUPP_VER" 0x1C],
  ⟨0xF00040, 4, 5, fun _ => none, false, [rv "MGT_VERn" 0x0]⟩,
  ⟨0xF00080, 4, 32, fun _ => none, false, [rm "MGT_TRACE_ENn" 0x0 [fc 15 0 0 kFL]]⟩]

/-- SEC (chapter 14). -/
def grpSec : List RegGroup := [
  once 0x1000000 [
    rm "SEC_CTL" 0x0 [fc 0 0 1 kMLF], rs "SEC_STAT" 0x4 0x1F kMLF, rv "SEC_STATE" 0x8, rv "SEC_DKID0" 0x10, rv "SEC_DKID1" 0x14,
    rv "SEC_DKID2" 0x18, rv "SEC_DKID3" 0x1C, rv "SEC_DKID4" 0x20, rv "SEC_DKID5" 0x24, rv "SEC_DKID6" 0x28,
    rv "SEC_DKID7" 0x2C, rm "SEC_MEAS_SEL" 0x30 [fm 1 0 0 kF]],
  ⟨0x1000040, 4, 16, fun _ => none, false, [rv "SEC_MEAS" 0x0]⟩,
  once 0x1000080 [
    rc32 "SEC_PROG_COUNT" 0x0 kF, rc32 "SEC_ATTEST_SEQ" 0x4 kMLF, rc32 "SEC_VERIFY_FAILS" 0x8 kMLF]]

/-- ERR (chapter 15). -/
def grpErr : List RegGroup := [
  once 0x1100000 [
    rm "ERR_CTL" 0x0 [fc 0 0 1 kMLF, fm 1 1 0 kF, fc 2 2 1 kMLF, fc 3 3 1 kMLF], rs "ERR_STAT" 0x4 0x3F kMLF,
    rs "ERR_SUMMARY" 0x8 0x3FFFF kMLF, rc32 "ERR_REC_SEQ" 0xC kMLF, rc32 "ERR_REC_SUPPRESSED" 0x10 kMLF,
    rm "ERR_SCRUB" 0x14 [fc 7 0 4 kMLF, fc 15 8 8 kMLF], rc32 "ERR_SCRUB_PASSES_FAST" 0x18 kMLF,
    rc32 "ERR_SCRUB_PASSES_CAP" 0x1C kMLF, rm "ERR_CE_THRESH" 0x20 [fc 15 0 16 kMLF],
    rm "ERR_SVC_UNIT" 0x24 [fm 11 0 0 kF, fm 14 12 0 kF], rm "ERR_SVC_CMD" 0x28 [fa 1 0], rv "ERR_SVC_RESULT" 0x2C,
    rc64 "ERR_QUAL_DET" 0x30 kFL, rv "ERR_HIST" 0x38],
  ⟨0x1120000, 4, 512, fun _ => none, false, [rv "ERR_PCn_STATE" 0x0]⟩]

/-- Every register group, in ascending BAR0 offset (Table 17.3). -/
def regGroups : List RegGroup :=
  grpGlb ++ grpCfg ++ grpPwr ++ grpTim ++ grpHif ++ grpCqf ++ grpMat ++ grpVec ++ grpTir ++ grpFtc ++ grpNbu ++ grpCtc ++
  grpXch ++ grpFab ++ grpItk ++ grpMgt ++ grpSec ++ grpErr

/-- A register found at an offset: its group, instance and row. -/
structure RegAt where
  grp : RegGroup
  n : Nat
  reg : RegDef

/-- The register of a group at an offset. -/
def RegGroup.find (g : RegGroup) (off : Nat) : Option RegAt :=
  if off < g.base then none
  else
    let n := (off - g.base) / g.stride
    if n < g.count then
      match g.regs.find? fun r => r.off == (off - g.base) % g.stride with
      | some r => some ⟨g, n, r⟩
      | none => none
    else none

/-- The register at a BAR0 offset (Table 17.6); none at reserved and unimplemented locations (R9). -/
def regAt (off : Nat) : Option RegAt := regGroups.findSome? fun g => g.find off

/-- The payload bits of a register's fields that satisfy `p`. -/
def RegDef.mask (r : RegDef) (p : Fld → Bool) : Nat :=
  r.flds.foldl (fun m f => if p f then m ||| bmask f.hi f.lo else m) 0

/-- The payload bits that a write may store: every field that is not an action field (R415, R416, R435). -/
def RegDef.storeMask (r : RegDef) : Nat := r.mask fun f => !f.act
/-- The action bits (R416). -/
def RegDef.actMask (r : RegDef) : Nat := r.mask fun f => f.act
/-- The bits covered by the configuration CRC (R425). -/
def RegDef.cMask (r : RegDef) : Nat := r.mask fun f => f.c
/-- The triplicated bits (R423). -/
def RegDef.tMask (r : RegDef) : Nat := r.mask fun f => f.t

/-- The reset payload of instance n. -/
def RegDef.reset (r : RegDef) (n : Nat) : Nat :=
  r.flds.foldl (fun v f => v ||| (f.rst n % 2 ^ (f.hi + 1 - f.lo)) * 2 ^ f.lo) 0

/-- The reset payload of the control register at an offset: what an unlisted entry of the register file reads as. -/
def regReset (off : Nat) : BitVec 16 :=
  match regAt off with
  | some a => BitVec.ofNat 16 (a.reg.reset a.n)
  | none => 0

/-- The payload after a reset that keeps exactly the fields `keep` selects (R414). -/
def RegDef.afterReset (r : RegDef) (n v : Nat) (keep : Fld → Bool) : Nat :=
  let m := r.mask keep
  (v &&& m) ||| (r.reset n &&& (0xFFFF ^^^ m))

/-- The offsets of every register of a group, ascending, with the register and the instance. -/
def RegGroup.all (g : RegGroup) : List (Nat × RegAt) :=
  (List.range g.count).flatMap fun n => g.regs.map fun r => (g.base + n * g.stride + r.off, ⟨g, n, r⟩)

/-- Every register that holds at least one field coded C, in ascending BAR0 offset (R425). -/
def cRegs : List (Nat × RegAt) := (regGroups.flatMap RegGroup.all).filter fun e => e.2.reg.cMask != 0

end Sys2Proof.Machine
end

