-- ==== Sys2Proof/Machine/Table.lean ====
section
/-!
DEFINITION. Sparse tables in one canonical form: a list of (key, value) pairs, keys strictly rising, and no entry
equal to what an unlisted key reads as. Every memory, register file and directory of the model is held this way, so
equal contents are equal data.
-/
namespace Sys2Proof.Machine

/-- A sparse table. `d k` is what an unlisted key `k` reads as; it is a parameter of every operation. -/
abbrev Tbl (α : Type) := List (Nat × α)

/-- What key `k` reads as. -/
def tget {α : Type} (d : Nat → α) : Tbl α → Nat → α
  | [], k => d k
  | (j, v) :: t, k => if k = j then v else if k < j then d k else tget d t k

/-- Put `e` in front of `t`, unless its value is what an unlisted key reads as. -/
def tcons {α : Type} [DecidableEq α] (d : Nat → α) (k : Nat) (v : α) (t : Tbl α) : Tbl α :=
  if v = d k then t else (k, v) :: t

/-- Set key `k` to `v`, keeping the canonical form. -/
def tput {α : Type} [DecidableEq α] (d : Nat → α) : Tbl α → Nat → α → Tbl α
  | [], k, v => tcons d k v []
  | (j, w) :: t, k, v =>
    if k = j then tcons d k v t
    else if k < j then tcons d k v ((j, w) :: t)
    else (j, w) :: tput d t k v

/-- Drop every entry whose key lies in [lo, hi). -/
def tclear {α : Type} (lo hi : Nat) (t : Tbl α) : Tbl α :=
  t.filter fun e => !(decide (lo ≤ e.1) && decide (e.1 < hi))

/-- The canonical form: keys strictly rising. -/
def tsorted {α : Type} : Tbl α → Bool
  | [] => true
  | [_] => true
  | (j, _) :: (k, w) :: t => decide (j < k) && tsorted ((k, w) :: t)

/-- The canonical form: keys strictly rising and no entry equal to what an unlisted key reads as. -/
def twf {α : Type} [DecidableEq α] (d : Nat → α) (t : Tbl α) : Bool :=
  tsorted t && t.all fun e => decide (e.2 ≠ d e.1)

/-- Read `n` consecutive keys from `k`. -/
def tgets {α : Type} (d : Nat → α) (t : Tbl α) (k n : Nat) : List α :=
  (List.range n).map fun i => tget d t (k + i)

/-- Write a run of values from key `k` on. -/
def tputs {α : Type} [DecidableEq α] (d : Nat → α) : Tbl α → Nat → List α → Tbl α
  | t, _, [] => t
  | t, k, v :: vs => tputs d (tput d t k v) (k + 1) vs

end Sys2Proof.Machine
end

