-- ==== Sys2Proof/Machine/StateCqf.lean ====
section
/-!
DEFINITION. The state of the command front end (chapter 2): queues, lists, current commands, tokens, slipways, berths,
the landing pool and the transfer-tag pools. Configuration fields stand in the register file.
-/
namespace Sys2Proof.Machine

/-- Queue states (Table 2.7). WAITING with its reason is computed: a queue with a list or a command that has not been
dispatched waits; RUNNING is a dispatched command. -/
inductive QState where
  | disabled
  | idle
  | active
  | stopped
  deriving DecidableEq, Repr

/-- The step whose failure stopped a queue: it fixes what RESUME_NEXT continues with (R39). -/
inductive FailStep where
  | none
  | command
  | listWait
  | header
  | entry
  | slot
  deriving DecidableEq, Repr

/-- A host read in flight (R57, R316): I/O virtual address, length, and the index of the parameter word it serves
(0xFF for a slot or list word of the front end). -/
structure HostReq where
  addr : Nat
  len : Nat
  word : Nat
  /-- the engine port whose block transfer it belongs to (R56), 91 for the front end; and when it was issued -/
  port : Nat
  since : Nat
  deriving DecidableEq, Repr

/-- A taken command list (R33, R37, R38). -/
structure ListCtx where
  /-- 64-bit engine address of word 0 -/
  addr : Nat
  /-- words -/
  len : Nat
  /-- index of the next header to fetch -/
  pos : Nat
  /-- absolute token and value the list waits for; none when not enabled, met or waived (R39) -/
  waitTok : Option (Nat × W32)
  /-- absolute token and value signalled at the end -/
  sigTok : Option (Nat × W32)
  /-- time the entry was taken (R40) -/
  since : Nat
  /-- the first command has been fetched -/
  begun : Bool
  deriving DecidableEq, Repr

/-- How far a current command has come. -/
inductive Phase where
  /-- fetched, not dispatched -/
  | waiting
  /-- dispatched to its engine -/
  | running
  /-- its engine has ended it with a status and DETAIL; the reply is not yet written -/
  | ended (status : Byte) (detail : W32)
  deriving DecidableEq, Repr

/-- The current command of a queue (R34, R38). -/
structure Cmd where
  op : Nat
  tag : W32
  fence : Bool
  notify : Bool
  ordered : Bool
  waitTok : Option (Nat × W32)
  sigTok : Option (Nat × W32)
  /-- the opcode's own parameter words p0, p1, … -/
  params : List W64
  /-- the time it became current; for the first command of a list, the time the list's wait began (R40) -/
  since : Nat
  phase : Phase
  /-- a stop request with the status of its cause (R40, R131, R203, R248) -/
  stop : Option (Byte × W32)
  /-- the region tags as they stood at dispatch (R78, R79): first page, pages, tag -/
  tags : List (Nat × Nat × Nat) := []
  /-- STATE of the tide entries those tags name, read at dispatch (R139) -/
  tide : List (Nat × Nat) := []
  /-- clusters in service at its dispatch (R93), and the number of its dispatch among the matrix array's (R109) -/
  clusters : Nat := 0
  born : Nat := 0
  /-- the vector quadrants it took at its dispatch (R113) -/
  quads : List Nat := []
  /-- the manifest version in force at its dispatch (R339) -/
  man : Nat × Nat := (1, 0)
  deriving DecidableEq, Repr

/-- One queue. -/
structure Queue where
  state : QState
  /-- CQF_Qn_STATE.ERR -/
  err : Byte
  errTag : W32
  head : W32
  replySeq : W32
  lst : Option ListCtx
  cmd : Option Cmd
  failed : FailStep
  /-- RESET or ENABLE ← 0 is waiting for a dispatched command (R39, R41) -/
  draining : Bool
  /-- a RESET is draining: the dispatched command's reply is ABORTED_RESET (R39) -/
  aborting : Bool
  /-- replies bound for host memory are discarded until the queue is reset (R438) -/
  hostLost : Bool
  /-- host reads in flight for this queue -/
  reads : List HostReq
  /-- external bytes that have arrived for the current slot, list word or command: engine address and length -/
  have_ : List (Nat × Nat)
  /-- landing buffers its command holds for host and peer data (R51) -/
  bufs : Nat
  /-- peer writes of its command not yet acknowledged (R258) -/
  acks : Nat
  /-- time of the last poll of a host ring (R32) -/
  polled : Nat
  /-- the cluster or quadrant whose port moves its command's data (R56) -/
  port : Nat := 0
  deriving DecidableEq, Repr

/-- A queue at reset. -/
def Queue.reset : Queue :=
  { state := .disabled, err := 0, errTag := 0, head := 0, replySeq := 0, lst := none, cmd := none, failed := .none,
    draining := false, aborting := false, hostLost := false, reads := [], have_ := [], bufs := 0, acks := 0, polled := 0, port := 0 }

/-- A slipway's counts (R46); its enable stands in CQF_SLn_CTL. -/
structure Slip where
  tail : W32
  head : W32
  deriving DecidableEq, Repr

/-- A berth's landing-pool state (R51, R54). -/
structure Berth where
  held : Nat
  peak : Nat
  /-- nanoseconds at or above the weir not yet counted as a whole microsecond of OVERLOAD -/
  overNs : Nat
  deriving DecidableEq, Repr

/-- A request for landing buffers that could not be granted at once (R51), in arrival order: channel, buffers, and
the command (queue) or inbound packet it is for. -/
inductive LandFor where
  /-- the host or peer data of the current command of a queue -/
  | queue (q : Nat)
  /-- the oldest inbound packet of a VC held at the fabric (R262) -/
  | packet (serial : Nat)
  deriving DecidableEq, Repr

/-- A queued landing-buffer request. -/
structure LandReq where
  chan : Nat
  n : Nat
  what : LandFor
  deriving DecidableEq, Repr

/-- A transfer-tag pool (R57, Table 2.12). -/
structure TagPool where
  inUse : Nat
  peak : Nat
  deriving DecidableEq, Repr

/-- A request waiting for a transfer tag (R57): the pool, the queue it serves, and the read it will send. -/
structure TagWait where
  pool : Nat
  queue : Nat
  req : HostReq
  deriving DecidableEq, Repr

/-- The command front end. -/
structure Cqf where
  queues : Tbl Queue
  tokens : Tbl W32
  slips : Tbl Slip
  berths : Tbl Berth
  landing : List LandReq
  tags : Tbl TagPool
  tagWait : List TagWait
  /-- block transfers begun so far: the number of the next (R56) -/
  xfers : Nat := 0
  /-- dispatch held by CFG_CRC_ACTION 2 (R428) -/
  heldCrc : Bool
  /-- dispatch held by a D3hot entry (R406) -/
  heldD3 : Bool
  deriving DecidableEq, Repr

/-- The front end at reset (Table 2.7, R50). -/
def Cqf.reset : Cqf :=
  { queues := [], tokens := [], slips := [], berths := [], landing := [], tags := [], tagWait := [], xfers := 0, heldCrc := false,
    heldD3 := false }

end Sys2Proof.Machine
end

