-- ==== Sys2Proof/Machine/StateXch.lean ====
section
/-!
DEFINITION. The state of the exchange engine (chapter 9): groups, collectives in progress, segments held and segments
waiting to be sent.
-/
namespace Sys2Proof.Machine

/-- The descriptor every segment carries (R227): the opcode and the fields of Table 9.5 that shape the data. -/
structure XDesc where
  op : Nat
  n : Nat
  sh : Nat
  /-- OP: 0 SUM, 1 MAX, 2 MIN -/
  rop : Nat
  mode : Nat
  k : Nat
  scatter : Bool
  srckind : Bool
  dstkind : Bool
  root : Nat
  dsel : Nat
  final : Bool
  qn : Nat
  nr : Nat
  deriving DecidableEq, Repr

/-- A piece of a segment: kind 0 presence of a rank, 1 credit, 2 contribution, 3 result, 4 abort, 5 statistics; the
sending rank, the owner and block it concerns, its place in the whole. -/
structure Seg where
  group : Nat
  kind : Nat
  rank : Nat
  owner : Nat
  block : Nat
  epoch : W32
  cseq : W32
  desc : XDesc
  off : Nat
  total : Nat
  data : List Byte
  deriving DecidableEq, Repr

/-- A group (R226). `state`: 0 unset, 1 READY or running, 3 BROKEN. -/
structure Group where
  state : Nat
  nr : Nat
  my : Nat
  epoch : W32
  cseq : W32
  queue : Nat
  chan : Nat
  table : List Nat
  failRank : Nat
  failStatus : Nat
  deriving DecidableEq, Repr

/-- A group never set. -/
def Group.unset : Group := ⟨0, 0, 0, 0, 0, 0, 0, [], 0, 0⟩

/-- A segment of which pieces have arrived: kind, owner, block, sending rank; the pieces as (offset, bytes). -/
structure Asm where
  kind : Nat
  owner : Nat
  block : Nat
  rank : Nat
  total : Nat
  pieces : List (Nat × List Byte)
  deriving DecidableEq, Repr

/-- A collective in progress. -/
structure XRun where
  queue : Nat
  group : Nat
  tag : W32
  epoch : W32
  cseq : W32
  desc : XDesc
  /-- its checks have passed and it has begun: until then it is only dispatched, with its CSEQ taken (R227) -/
  begun : Bool
  /-- SH in force (R229) -/
  sh : Nat
  /-- addresses of SRC, RES_IN, RES_OUT, DST; SIZE of a broadcast; STATS_EN, RES_EN -/
  src : Nat
  resIn : Nat
  resOut : Nat
  dst : Nat
  size : Nat
  stats : Bool
  res : Bool
  /-- an overlap leaves the outputs undefined (R233, R238, R243) -/
  undef : Bool
  /-- ranks whose presence has been seen -/
  here : List Nat
  /-- by owner: blocks it has credited to this rank, and blocks contributed -/
  credits : Tbl Nat
  sent : Tbl Nat
  /-- as owner: the block and the rank to be added next, whether that rank has been credited, the values so far, the
      square sums of the block so far -/
  ownBlk : Nat
  ownRank : Nat
  asked : Bool
  acc : List W32
  sq : List W32
  /-- as owner: by contribution (and last the result), the square sums of finished blocks; non-finite results -/
  parts : List (List W32)
  nonfin : Nat
  statSent : Bool
  /-- segments arriving; whole results waiting to be written: owner, block, bytes -/
  asm : List Asm
  results : List (Nat × Nat × List Byte)
  /-- by owner: results written -/
  recv : Tbl Nat
  /-- statistics by owner: partials of each rank and of the result, and the non-finite count -/
  statsIn : Tbl (Option (List W32 × Nat))
  /-- time of the last progress (R248) -/
  waitAt : Nat
  deriving DecidableEq, Repr

/-- A segment waiting to be sent to a rank (R246). -/
structure XOut where
  seg : Seg
  toRank : Nat
  chan : Nat
  deriving DecidableEq, Repr

/-- A held segment (R228) and the channel whose landing buffer it occupies. -/
structure XHeld where
  seg : Seg
  chan : Nat
  deriving DecidableEq, Repr

/-- The exchange engine. -/
structure Xch where
  groups : Tbl Group
  runs : List XRun
  held : List XHeld
  out : List XOut
  deriving DecidableEq, Repr

/-- The exchange engine at reset: every group unset. -/
def Xch.reset : Xch := ⟨[], [], [], []⟩

end Sys2Proof.Machine
end

