-- ==== Sys2Proof/Machine/StateFab.lean ====
section
/-!
DEFINITION. The state of the Agsipel fabric (chapter 10): twelve ports with their link layer, packets on their way, peer
accesses in flight, the link-state database and the two routing tables.
-/
namespace Sys2Proof.Machine

/-- A peer access of a command that has not been issued (R258): at most 256 bytes that cross no 256-byte boundary. -/
structure PeerReq where
  /-- the queue it serves; that number and 384 once its command has ended (R36 still waits for such a write) -/
  queue : Nat
  /-- engine address in the peer space -/
  addr : Nat
  len : Nat
  /-- the bytes of a write; none for a read -/
  bytes : Option (List Byte)
  /-- parameter word, 0xFF for the front end -/
  word : Nat
  /-- CHAN and FLOW of its packet: the issuing queue's channel and index (R258, R270) -/
  chan : Nat
  flow : Nat
  /-- the engine port and the number of the block transfer it belongs to (R56) -/
  port : Nat
  xfer : Nat
  deriving DecidableEq, Repr

/-- A packet (Table 10.4). -/
structure Packet where
  dst : Nat
  src : Nat
  vc : Nat
  kind : Nat
  words : Nat
  chan : Nat
  flow : Nat
  offset : Nat
  tag : Nat
  hops : Nat
  data : List Byte
  deriving DecidableEq, Repr

/-- A packet waiting to leave a port: the port whose ingress buffer it still occupies (R261), and whether it holds a tag
of this port's pool until it is sent (segments, R246). -/
structure OutPkt where
  pkt : Packet
  ingress : Option Nat
  tagged : Bool
  deriving DecidableEq, Repr

/-- A packet in an ingress buffer: its number, whether its landing buffer has been granted (R262), and whether it returns no
credits: the module sent it to itself, or its link has trained anew since it came (R261). -/
structure InPkt where
  id : Nat
  pkt : Packet
  granted : Bool
  loop : Bool
  deriving DecidableEq, Repr

/-- A data frame in the replay buffer (R263): SEQ, payload area, packets that begin in it, and whether it goes on with a packet
begun before it. -/
structure ReplayFrame where
  seq : Nat
  payload : List Byte
  pkts : Nat
  cont : Bool
  deriving DecidableEq, Repr

/-- A port. -/
structure Port where
  /-- FAB_Pn_STATE.STATE (Table 10.8) and the time it was entered -/
  state : Nat
  since : Nat
  locked : Bool
  /-- the state a retrain returns to -/
  resume : Nat
  /-- the neighbour from its VERSION_OFFER: serial, port -/
  nbr : Option (Nat × Nat)
  /-- the version chosen from the neighbour's offer, and the version its VERSION_ACCEPT named -/
  chosen : Option (Nat × Nat)
  accept : Option (Nat × Nat)
  /-- packets waiting to be sent, what is left of a packet partly sent, control messages waiting -/
  outq : List OutPkt
  part : List Byte
  ctl : List (List Byte)
  /-- next SEQ, replay buffer, the frame of it to be replayed next, time of the last ACK progress, replays in a row -/
  nextSeq : Nat
  replay : List ReplayFrame
  replayPos : Option Nat
  progressAt : Nat
  replays : Nat
  /-- by VC: units sent, and units the neighbour has returned (R261) -/
  sent : Tbl Nat
  credit : Tbl Nat
  /-- next SEQ expected; a NAK is outstanding, is due in the next frame, and was last sent then -/
  expect : Nat
  nak : Bool
  nakDue : Bool
  nakAt : Nat
  /-- the part of a packet that has arrived, packets in the ingress buffers, units returned by VC, control messages -/
  rx : List Byte
  inq : List InPkt
  returned : Tbl Nat
  ctlIn : List (List Byte)
  /-- the last frame sent -/
  wire : List Byte
  deriving DecidableEq, Repr

/-- A port that is DISABLED. -/
def Port.reset : Port :=
  { state := 0, since := 0, locked := false, resume := 0, nbr := none, chosen := none, accept := none, outq := [], part := [],
    ctl := [], nextSeq := 0, replay := [], replayPos := none, progressAt := 0, replays := 0, sent := [], credit := [],
    expect := 0, nak := false, nakDue := false, nakAt := 0, rx := [], inq := [], returned := [], ctlIn := [], wire := [] }

/-- A peer access in flight (R258, R275): the access, the port whose pool its tag belongs to, and when it was sent. -/
structure PeerTag where
  req : PeerReq
  port : Nat
  since : Nat
  deriving DecidableEq, Repr

/-- What waits for a tag of a port's pool (R57): a peer access or an exchange segment. -/
inductive TagFor where
  | access (req : PeerReq)
  | segment (x : XOut)
  deriving DecidableEq, Repr

/-- A request waiting for a tag of a port's pool, in order of arrival. -/
structure PeerWait where
  what : TagFor
  port : Nat
  deriving DecidableEq, Repr

/-- The peer access that waits, when it is one. -/
def PeerWait.req? (w : PeerWait) : Option PeerReq :=
  match w.what with
  | .access r => some r
  | .segment _ => none

/-- A module of the link-state database (R266): serial, ID, LSA sequence, the neighbour (serial, port, port state) of each
port, and when it was last refreshed. -/
structure LsaEntry where
  serial : Nat
  id : Option Nat
  seq : W32
  ports : List (Nat × Nat × Nat)
  seen : Nat
  deriving DecidableEq, Repr

/-- The fabric. -/
structure Fab where
  ports : Tbl Port
  reqQ : List PeerReq
  tagWait : List PeerWait
  /-- peer accesses in flight by TAG -/
  tags : Tbl (Option PeerTag)
  /-- TAGs whose access has been given up, oldest first: their late COMPLETION or REFUSAL is discarded (R275) -/
  stale : List Nat
  /-- packets received so far (the number of the next) -/
  serial : Nat
  db : List LsaEntry
  /-- time of the last change of the database; it has settled since -/
  changedAt : Nat
  settled : Bool
  lsaSeq : W32
  lsaAt : Nat
  /-- ID grants forwarded: serial and ID -/
  grants : List (Nat × Nat)
  /-- fabric ID held and its source: 0 none, 1 configured, 2 assigned -/
  id : Nat
  idSrc : Nat
  /-- the two copies of the routing table, and which is active -/
  rt0 : Tbl W16
  rt1 : Tbl W16
  active : Bool
  /-- a copy of the active table into the shadow is in progress -/
  copying : Bool
  deriving DecidableEq, Repr

/-- The peer accesses that hold a tag or wait for one. -/
def Fab.onWay (f : Fab) : List PeerReq := (f.tags.filterMap fun e => e.2.map (·.req)) ++ f.tagWait.filterMap PeerWait.req?

/-- The TAGs of the peer accesses in flight. -/
def Fab.inFlight (f : Fab) : List Nat := f.tags.filterMap fun e => if e.2.isSome then some e.1 else none

/-- The fabric at power-on. -/
def Fab.reset : Fab :=
  { ports := [], reqQ := [], tagWait := [], tags := [], stale := [], serial := 0, db := [], changedAt := 0, settled := false, lsaSeq := 0,
    lsaAt := 0, grants := [], id := 0, idSrc := 0, rt0 := [], rt1 := [], active := false, copying := false }

end Sys2Proof.Machine
end

