-- ==== Sys2Proof/Machine/Formats.lean ====
section
/-!
DEFINITION. Number formats, records and conversions (chapter 3): format parameter words (R60, R61), element codes
(R62 to R66), packing and records (R67 to R72), conversion and block scales (R73 to R77, R437), non-finite counting
(R81).
-/
namespace Sys2Proof.Machine

/-! The format parameter word (Table 3.2). -/

/-- A format parameter word. -/
structure Fmt where
  code : Nat
  layout : Nat
  sk : Bool
  sgn : Bool
  ovf : Nat
  ts : W32
  deriving DecidableEq, Repr

/-- The fields of a format parameter word (Table 3.2). -/
def Fmt.of (w : Nat) : Fmt := ⟨fld w 3 0, fld w 5 4, bitAt w 6, bitAt w 7, fld w 9 8, BitVec.ofNat 32 (fld w 63 32)⟩

/-- The narrow formats are codes 3 to 12. -/
def Fmt.narrow (f : Fmt) : Bool := decide (3 ≤ f.code) && decide (f.code ≤ 12)
/-- Plain FP32, BF16 or FP16. -/
def Fmt.wideFloat (f : Fmt) : Bool := decide (f.code ≤ 2) && f.layout == 0
/-- A plain format. -/
def plainFmt (code : Nat) : Fmt := ⟨code, 0, false, false, 0, f32one⟩
/-- Plain FP32. -/
def fp32Fmt : Fmt := plainFmt 0
/-- Blocked E4M3 with SE8 scales, the gather form (R147). -/
def gatherFmt : Fmt := ⟨3, 1, false, false, 1, f32one⟩
/-- Plain BF16. -/
def bf16Fmt : Fmt := plainFmt 1

/-- May a layout be used with a code (Table 3.1)? -/
def layoutOk (code layout : Nat) : Bool :=
  match layout with
  | 0 => true
  | 1 => decide (3 ≤ code) && decide (code ≤ 12)
  | 2 => decide (5 ≤ code) && decide (code ≤ 12) && code != 8
  | _ => false

/-- SGN applies to the integer codes (Table 3.1). -/
def signedCode (code : Nat) : Bool := code == 8 || code == 9 || code == 10 || code == 15

/-- TSCALE is used by the operand's own word (R61). -/
def Fmt.usesTs (f : Fmt) : Bool := (f.narrow && f.layout == 0) || f.sk

/-- The lowest offending bit of a format parameter word (R61); none when the word is good. Reserved bits are [31:10]. -/
def fmtBad (w : Nat) : Option Nat :=
  let f := Fmt.of w
  let bad := (if f.layout = 3 ∨ !layoutOk f.code f.layout then [4] else []) ++
    (if f.sk && f.layout == 0 then [6] else []) ++
    (if f.sgn && !signedCode f.code then [7] else []) ++
    (if f.ovf = 3 ∨ (f.ovf = 2 ∧ (f.code = 11 ∨ f.code = 12)) then [8] else []) ++
    (match lowBit w (bmask 31 10) with | some b => [b] | none => []) ++
    (if f.usesTs && !f32normalPos f.ts then [32] else [])
  bad.head?

/-! Elements. -/

/-- The binary float format of a code. -/
def floatOf (code : Nat) : Option FloatFmt :=
  match code with
  | 0 => some fmtFP32
  | 1 => some fmtBF16
  | 2 => some fmtFP16
  | 3 => some fmtE4M3
  | 4 => some fmtE5M2
  | 5 => some fmtE3M2
  | 6 => some fmtE2M3
  | 7 => some fmtE2M1
  | _ => none

/-- Bits of an element; TERN elements are trits, held as the digit t + 1. -/
def elemBits (code : Nat) : Nat :=
  match code with
  | 0 => 32
  | 1 => 16
  | 2 => 16
  | 3 => 8
  | 4 => 8
  | 5 => 6
  | 6 => 6
  | 7 => 4
  | 8 => 8
  | 9 => 4
  | 10 => 2
  | 11 => 0
  | 12 => 1
  | 15 => 32
  | _ => 8

/-- An SE8 scale byte (R65). -/
def se8 (b : Nat) : Val := if b = 255 then .nan else .fin false 1 1 ((b : Int) - 127)
/-- An SU43 scale byte (R65). -/
def su43 (b : Nat) : Val := if 127 ≤ b then .nan else fmtE4M3.decode b

/-- A two's-complement or unsigned integer of w bits. -/
def intVal (w : Nat) (sgn : Bool) (c : Nat) : Val :=
  if sgn && decide (2 ^ (w - 1) ≤ c) then Val.ofInt ((c : Int) - 2 ^ w) else Val.ofNat c

/-- The value of an element code (R62 to R66). -/
def elemVal (code : Nat) (sgn : Bool) (c : Nat) : Val :=
  match floatOf code with
  | some f => f.decode c
  | none => match code with
    | 11 => Val.ofInt ((c : Int) - 1)
    | 12 => if c = 0 then Val.one else Val.one.neg
    | 13 => se8 c
    | 14 => su43 c
    | _ => intVal (elemBits code) sgn c

/-- The code zero of a format (R67). -/
def codeZero (code : Nat) : Nat := if code = 11 then 1 else 0

/-! Packing (R67): elements per shared unit, its bytes, and packing of one run. -/

/-- Elements of a plain run that share bytes, and the bytes they share (Table 3.6). -/
def plainUnit (code : Nat) : Nat × Nat :=
  match code with
  | 5 => (4, 3)
  | 6 => (4, 3)
  | 7 => (2, 1)
  | 9 => (2, 1)
  | 10 => (4, 1)
  | 11 => (5, 1)
  | 12 => (8, 1)
  | _ => (1, elemBits code / 8)

/-- ⌈a / b⌉. -/
def ceilDiv (a b : Nat) : Nat := (a + b - 1) / b

/-- The bytes of a plain run of n elements (Table 3.6). -/
def packedBytes (code n : Nat) : Nat := ceilDiv n (plainUnit code).1 * (plainUnit code).2

/-- The trit digits of a TERN byte (R66): a byte above 242 reads as five zero trits. -/
def tritsOf (b : Nat) : List Nat :=
  if 243 ≤ b then [1, 1, 1, 1, 1] else [b % 3, b / 3 % 3, b / 9 % 3, b / 27 % 3, b / 81 % 3]

/-- The byte of up to five trit digits; missing ones are trit 0. -/
def tritByte (ts : List Nat) : Byte :=
  BitVec.ofNat 8 (ts.getD 0 1 + 3 * ts.getD 1 1 + 9 * ts.getD 2 1 + 27 * ts.getD 3 1 + 81 * ts.getD 4 1)

/-- A bit-packed number: code i at bit w × i. -/
def packNat (w : Nat) : List Nat → Nat
  | [] => 0
  | c :: cs => c + 2 ^ w * packNat w cs

/-- Pack element codes into bytes (R67). -/
def packCodes (code : Nat) (cs : List Nat) : List Byte :=
  if code = 11 then (chunks 5 cs).map tritByte
  else leBytes (packedBytes code cs.length) (packNat (elemBits code) cs)

/-- The element codes of a run of n elements. -/
def unpackCodes (code n : Nat) (bs : List Byte) : List Nat :=
  if code = 11 then ((bs.take (packedBytes 11 n)).flatMap fun b => tritsOf b.toNat).take n
  else
    let v := leNat (bs.take (packedBytes code n))
    let w := elemBits code
    (List.range n).map fun i => v / 2 ^ (w * i) % 2 ^ w

/-- TERN bytes of 243 to 255 among those of a run (R66, R81). -/
def badTrits (code n : Nat) (bs : List Byte) : Nat :=
  if code = 11 then ((bs.take (packedBytes 11 n)).filter fun b => decide (243 ≤ b.toNat)).length else 0

/-! Records (R68 to R72). -/

/-- B: elements of a block. -/
def Fmt.block (f : Fmt) : Nat := if f.sk then 16 else 32
/-- Bytes of a record (Table 3.7). -/
def Fmt.recBytes (f : Fmt) : Nat := packedBytes f.code f.block + 1 + if f.layout = 2 then 4 else 0
/-- Elements of a unit that cannot be split, and its bytes. -/
def Fmt.unit (f : Fmt) : Nat × Nat := if f.layout = 0 then plainUnit f.code else (f.block, f.recBytes)
/-- Bytes of a row of n elements. -/
def Fmt.rowBytes (f : Fmt) (n : Nat) : Nat := ceilDiv n f.unit.1 * f.unit.2

/-- T of R70. -/
def Fmt.tensorScale (f : Fmt) : Val := if f.sk then f32 f.ts else Val.one
/-- The value of a record's scale byte. -/
def Fmt.scaleVal (f : Fmt) (b : Nat) : Val := if f.sk then su43 b else se8 b

/-- Why a record's side word is malformed (R72, Table 3.11): reason 3 or 4. -/
def sideBad (b w : Nat) : Option Nat :=
  if fld w 27 26 = 3 ∨ fld w 31 28 ≠ 0 then some 3
  else if (decide (1 ≤ fld w 27 26) && decide (b ≤ fld w 4 0)) || (decide (2 ≤ fld w 27 26) && decide (b ≤ fld w 17 13)) then some 4
  else none

/-- The used entries of a side word (Table 3.8): position and E4M3 code. -/
def sideEntries (w : Nat) : List (Nat × Nat) := [(fld w 4 0, fld w 12 5), (fld w 17 13, fld w 25 18)].take (fld w 27 26)

/-- q + V of element i of a block (R70). -/
def sideSum (es : List (Nat × Nat)) (i : Nat) (q : Val) : Val :=
  (es.filter fun e => e.1 == i).foldl (fun v e => v.add (fmtE4M3.decode e.2)) q

/-- What decoding gives: element value with side entries and its scale factor σ, or a malformed record (reason and
index within the run). -/
abbrev Elems := List (Val × Val)

/-- A record as (e, σ) pairs; none: its side word is malformed, with the reason. -/
def Fmt.readRec (f : Fmt) (bs : List Byte) : Except Nat Elems :=
  let eb := packedBytes f.code f.block
  let sc := (f.scaleVal (bs.getD eb 0).toNat).mul f.tensorScale
  let sw := if f.layout = 2 then leNat ((bs.drop (eb + 1)).take 4) else 0
  match sideBad f.block sw with
  | some r => .error r
  | none =>
    let es := sideEntries sw
    let cs := unpackCodes f.code f.block bs
    .ok ((cs.zip (List.range f.block)).map fun p => (sideSum es p.2 (elemVal f.code f.sgn p.1), sc))

/-- Records of a run, in order: the elements, or the reason and index of the first malformed record. -/
def Fmt.readRecs (f : Fmt) : Nat → List (List Byte) → Except (Nat × Nat) Elems
  | _, [] => .ok []
  | i, r :: rs =>
    match f.readRec r with
    | .error e => .error (e, i)
    | .ok xs => match f.readRecs (i + 1) rs with
      | .error e => .error e
      | .ok ys => .ok (xs ++ ys)

/-- Decode a run of n elements that starts at a unit boundary: its elements, or the malformed record. -/
def Fmt.readRun (f : Fmt) (n : Nat) (bs : List Byte) : Except (Nat × Nat) Elems :=
  if f.layout = 0 then
    let sc := if f.narrow then f32 f.ts else Val.one
    .ok ((unpackCodes f.code n bs).map fun c => (elemVal f.code f.sgn c, sc))
  else match f.readRecs 0 (chunks f.recBytes bs) with
    | .ok xs => .ok (xs.take n)
    | .error e => .error e

/-- TERN bytes above 242 read in a run (R81). -/
def Fmt.runBadTrits (f : Fmt) (n : Nat) (bs : List Byte) : Nat :=
  if f.code ≠ 11 then 0
  else if f.layout = 0 then badTrits 11 n bs
  else ((chunks f.recBytes bs).map fun r => badTrits 11 f.block r).sum

/-- x = e × σ (R70): a NaN scale makes NaN. -/
def elemX (p : Val × Val) : Val := p.1.mul p.2

/-! Conversion (R73 to R75, R437, Table 3.9). -/

/-- The largest and smallest integers of an integer code (Table 3.5). -/
def intMax (code : Nat) (sgn : Bool) : Int :=
  let w := elemBits code
  if sgn then 2 ^ (w - 1) - 1 else 2 ^ w - 1
def intMin (code : Nat) (sgn : Bool) : Int := if sgn then -(2 ^ (elemBits code - 1)) else 0
/-- The code of an integer in w bits. -/
def intCode (w : Nat) (i : Int) : Nat := (i % 2 ^ w).toNat

/-- Convert into an integer code (Table 3.9). -/
def toIntCode (code : Nat) (sgn sat : Bool) (v : Val) : Nat :=
  let w := elemBits code
  match v with
  | .nan => 0
  | .inf s => intCode w (if s then intMin code sgn else intMax code sgn)
  | v =>
    let i := v.toIntRne
    if sat then intCode w (max (intMin code sgn) (min (intMax code sgn) i)) else intCode w i

/-- Convert into TERN (R75): the digit t + 1. -/
def toTern (v : Val) : Nat :=
  match v with
  | .nan => 1
  | .inf s => if s then 0 else 2
  | v => (max (-1) (min 1 v.toIntRne) + 1).toNat

/-- Convert into BIN (R75). -/
def toBin (v : Val) : Nat :=
  match v with
  | .nan => 0
  | v => if v.lt Val.zero then 1 else 0

/-- Convert into SE8 (R437). -/
def toSe8 (sat : Bool) (v : Val) : Nat :=
  match v with
  | .nan => 255
  | .inf s => if s then 0 else if sat then 254 else 255
  | .fin s n d e =>
    if s ∨ n = 0 then 0
    else
      let g := floorLog2 n d e
      let x := Val.fin false n d (e - g)
      let mid := Val.fin false 3 2 0
      let even := (g + 127) % 2 = 0
      let up := mid.lt x || (mid.eq x && !decide even)
      let E := (if up then g + 1 else g) + 127
      if E < 0 then 0 else if 254 < E then (if sat then 254 else 255) else E.toNat

/-- Convert into SU43 (R437). -/
def toSu43 (sat : Bool) (v : Val) : Nat :=
  match v with
  | .nan => 127
  | .inf s => if s then 0 else if sat then 126 else 127
  | .fin s n d e =>
    if s then 0
    else match fmtE4M3.roundMag n d e with
      | .code c => c
      | .over => if sat then 126 else 127

/-- A finite magnitude that a format without specials takes for an infinity or NaN in plain layout (Table 3.9). -/
def toNoSpecial (f : FloatFmt) (v : Val) : Nat :=
  match v with
  | .nan => 0
  | v => f.encode true v

/-- Convert a value into an element code (Table 3.9, R437); a blocked NaN is decided by `scaleNan` before. -/
def convert (code : Nat) (sgn sat : Bool) (v : Val) : Nat :=
  match floatOf code with
  | some f => if f.ieee then f.encode sat v
    else if f.nanTop then
      match v with
      | .nan => f.nanCode
      | .inf s => if sat then f.encode true (.inf s) else f.nanCode
      | .fin s n d e => match f.roundMag n d e with
        | .code c => (if s then f.signBit else 0) + c
        | .over => if sat then f.encode true (.inf s) else f.nanCode
    else toNoSpecial f v
  | none => match code with
    | 11 => toTern v
    | 12 => toBin v
    | 13 => toSe8 sat v
    | 14 => toSu43 sat v
    | _ => toIntCode code sgn sat v

/-- Does an input make the scale of its blocked record NaN (Table 3.9)? -/
def scaleNan (code : Nat) (sat : Bool) (v : Val) : Bool :=
  match v with
  | .nan => decide (5 ≤ code)
  | .inf _ => decide (5 ≤ code) && decide (code ≤ 7) && !sat
  | .fin _ _ _ _ => false

/-! Block scales (R76, R77). -/

/-- M of R76: the target's largest positive value. -/
def maxVal (code : Nat) (sgn : Bool) : Val :=
  match floatOf code with
  | some f => f.decode f.maxCode
  | none => if code = 11 ∨ code = 12 then Val.one else Val.ofInt (intMax code sgn)

/-- The largest magnitude of the finite values of a list, +0 when there is none. -/
def maxMag (xs : List Val) : Val :=
  xs.foldl (fun a x => if x.nonFinite then a else if a.lt x.abs then x.abs else a) Val.zero

/-- The scale byte for a block maximum a (R76). -/
def Fmt.scaleFor (f : Fmt) (a : Val) : Nat :=
  let m := maxVal f.code f.sgn
  if f.sk then
    if a.isZero then 0x38
    else ((List.range 126).map (· + 1)).find? (fun c => a.le ((m.mul (su43 c)).mul f.tensorScale)) |>.getD 0x7E
  else
    if a.isZero then 127
    else (List.range 255).find? (fun c => a.le (m.mul (se8 c))) |>.getD 254

/-- The position of the largest finite magnitude, the lowest on ties, leaving out a position. -/
def argMaxMag (xs : List Val) (skip : Option Nat) : Option Nat :=
  ((xs.zip (List.range xs.length)).foldl (fun (b : Option (Nat × Val)) p =>
    if p.1.nonFinite || skip == some p.2 then b
    else match b with
      | none => some (p.2, p.1.abs)
      | some q => if q.2.lt p.1.abs then some (p.2, p.1.abs) else b) none).map (·.1)

/-- The candidates of a guarded block (R77), in ascending position. -/
def candidates (xs : List Val) : List Nat :=
  match argMaxMag xs none with
  | none => []
  | some i => match argMaxMag xs (some i) with
    | none => [i]
    | some j => if i < j then [i, j] else [j, i]

/-- A side word of up to two entries (Table 3.8). -/
def sideWord (es : List (Nat × Nat)) : Nat :=
  let a := es.getD 0 (0, 0)
  let b := es.getD 1 (0, 0)
  a.1 + a.2 * 2 ^ 5 + b.1 * 2 ^ 13 + b.2 * 2 ^ 18 + es.length * 2 ^ 26

/-- A candidate's element code and its side entry, if its remainder is not zero (R77). -/
def guardOne (code : Nat) (sgn : Bool) (y : Val) : Nat × Option Nat :=
  let q := convert code sgn true y
  let v := fmtE4M3.encode true (y.sub (elemVal code sgn q))
  (q, if v % 128 = 0 then none else some v)

/-- A block as written: its record's bytes. `xs` holds the non-padding values. -/
def Fmt.writeRec (f : Fmt) (sat : Bool) (xs : List Val) : List Byte :=
  let b := f.block
  let pad (cs : List Nat) : List Nat := cs ++ List.replicate (b - cs.length) (codeZero f.code)
  let side (es : List (Nat × Nat)) : List Byte := if f.layout = 2 then leBytes 4 (sideWord es) else []
  if xs.any (scaleNan f.code sat) then
    packCodes f.code (pad []) ++ [if f.sk then 0x7F else 0xFF] ++ side []
  else
    let cand := if f.layout = 2 then candidates xs else []
    let idx := xs.zip (List.range xs.length)
    let m3 := maxMag ((idx.filter fun p => !cand.contains p.2).map (·.1))
    let sc := f.scaleFor (if f.layout = 2 ∧ !m3.isZero then m3 else maxMag xs)
    let y (x : Val) : Val := x.div ((f.scaleVal sc).mul f.tensorScale)
    let g := idx.map fun p =>
      if cand.contains p.2 then
        let r := guardOne f.code f.sgn (y p.1)
        (r.1, r.2.map fun v => (p.2, v))
      else (convert f.code f.sgn sat (y p.1), none)
    packCodes f.code (pad (g.map (·.1))) ++ [BitVec.ofNat 8 sc] ++ side (g.filterMap (·.2))

/-- The values of a run as the bytes of its units (R67, R68, R74, R76, R77). -/
def Fmt.writeRun (f : Fmt) (sat : Bool) (xs : List Val) : List Byte :=
  if f.layout = 0 then
    let y (x : Val) : Val := if f.narrow then x.div (f32 f.ts) else x
    packCodes f.code (xs.map fun x => convert f.code f.sgn sat (y x))
  else (chunks f.block xs).flatMap (f.writeRec sat)

/-- The number of stored elements that count under R81: a non-finite input, or a finite input written non-finite. -/
def Fmt.nfCount (f : Fmt) (sat : Bool) (xs : List Val) : Nat :=
  if f.layout = 0 then
    let y (x : Val) : Val := if f.narrow then x.div (f32 f.ts) else x
    (xs.filter fun x => x.nonFinite || (elemVal f.code f.sgn (convert f.code f.sgn sat (y x))).nonFinite).length
  else ((chunks f.block xs).map fun b =>
      match f.readRec (f.writeRec sat b) with
      | .ok es => ((b.zip es).filter fun p => p.1.nonFinite || (elemX p.2).nonFinite).length
      | .error _ => 0).sum

/-- A load's conversion into the operand's format (R78): the value, and whether a non-finite input became finite. It
passes through FP32 as a convert command's does, whose bits it equals (R80, R120). -/
def convLoad (f : Fmt) (sat : Bool) (x : Val) : Val × Bool :=
  let y := elemVal f.code f.sgn (convert f.code f.sgn sat (f32 (toF32 x)))
  (y, x.nonFinite && !y.nonFinite)

end Sys2Proof.Machine
end

