-- ==== Sys2Proof/Machine/StateMat.lean ====
section
/-!
DEFINITION. Operands as a dispatched command uses them, and the state of the matrix array (chapter 4): clusters, work
items in flight, partials, accumulator handles.
-/
namespace Sys2Proof.Machine

/-- The service state of a unit (Table 15.7), and whether its last qualification failed. -/
structure Svc where
  st : Nat
  failed : Bool
  deriving DecidableEq, Repr

/-- A unit in service. -/
def Svc.ok : Svc := ⟨0, false⟩

/-- The STATE word of a tide entry as read at dispatch (R139). -/
structure TideSnap where
  entry : Nat
  steps : W32
  code : Nat
  k : Int
  k4 : Int
  k5 : Int
  deriving DecidableEq, Repr

/-- An operand after its checks: where it lies, the format of its bytes in memory and of the operand, the resolved
overflow mode, its tide entry (R74, R78, R139); `wa` and `wf` are the indices of its address and format words. -/
structure Acc where
  addr : Nat
  pitch : Nat
  rows : Nat
  n : Nat
  op : Fmt
  mem : Fmt
  sat : Bool
  entry : Option Nat
  snap : Option TideSnap
  wa : Nat
  wf : Nat
  deriving DecidableEq, Repr

/-- An operand that a command does not use. -/
def Acc.none : Acc := ⟨0, 0, 0, 0, fp32Fmt, fp32Fmt, true, .none, .none, 0, 0⟩

/-- A partial or result tile of FP32 rows waiting for its ordered combine (R95). -/
structure Part where
  t : Nat
  g : Nat
  cluster : Nat
  rows : List (List W32)
  deriving DecidableEq, Repr

/-- What a matrix run does. -/
inductive MatKind where
  | product
  | combine
  deriving DecidableEq, Repr

/-- A dispatched MM_PRODUCT or MM_COMBINE. -/
structure MatRun where
  queue : Nat
  kind : MatKind
  m : Nat
  n : Nat
  k : Nat
  transA : Bool
  transB : Bool
  /-- segments (S), length and number of summation blocks (R87, R92, R93) -/
  segs : Nat
  blk : Nat
  nb : Nat
  maxcl : Nat
  accin : Bool
  /-- 0 D, 1 handle, 2 partials in memory (R95) -/
  dest : Nat
  handle : Nat
  a : Acc
  b : Acc
  c : Acc
  d : Acc
  /-- an overlap leaves D undefined (R106) -/
  undef : Bool
  next : Nat
  done : Nat
  parts : List Part
  fail : Option (Byte × Nat)
  born : Nat
  /-- the cluster whose item has asked for the external bytes in flight -/
  asker : Option Nat
  deriving DecidableEq, Repr

/-- A work item in flight on a cluster (R91). -/
structure MatItem where
  queue : Nat
  t : Nat
  g : Nat
  deriving DecidableEq, Repr

/-- An accumulator handle (R97): its slot, shape and values; `lost` when its cluster left service (R100). -/
structure Handle where
  cluster : Nat
  slot : Nat
  mh : Nat
  nh : Nat
  lost : Bool
  vals : List (List W32)
  deriving DecidableEq, Repr

/-- The matrix array. -/
structure Mat where
  runs : List MatRun
  items : Tbl (Option MatItem)
  handles : Tbl (Option Handle)
  svc : Tbl Svc
  /-- power-gated clusters (R110) -/
  gated : Tbl Bool
  /-- clusters that leave service after their current item (R109, Table 15.8) -/
  leaving : Tbl Bool
  /-- those of them that leave for a fault of theirs, and then requalify (R388) -/
  autoOut : Tbl Bool
  /-- dispatches so far, and the dispatch number from which a returned cluster takes work (R109) -/
  serial : Nat
  joined : Tbl Nat
  deriving DecidableEq, Repr

/-- The matrix array at power-on. -/
def Mat.reset : Mat :=
  { runs := [], items := [], handles := [], svc := [], gated := [], leaving := [], autoOut := [], serial := 0, joined := [] }

end Sys2Proof.Machine
end

