-- ==== Sys2Proof/Machine/Text.lean ====
section
/-!
DEFINITION. Text records and tokenisation of the intake engine (R285 to R290): the schema, delimited and fixed-width records,
numbers and tokens.
-/
namespace Sys2Proof.Machine

/-- A column of a schema (R285): kind 0 token, 1 number, 2 skip. -/
structure Col where
  kind : Nat
  tw : Nat
  start : Nat
  width : Nat
  missing : W32
  deriving DecidableEq, Repr

/-- A schema (R285). -/
structure Schema where
  delim : Byte
  reclen : Nat
  pad : W32
  cols : List Col
  deriving DecidableEq, Repr

/-- The bytes a column takes in a slot. -/
def Col.bytes (c : Col) : Nat :=
  match c.kind with
  | 0 => 4 * c.tw
  | 1 => 4
  | _ => 0
/-- The bytes of a slot. -/
def Schema.slot (s : Schema) : Nat := (s.cols.map Col.bytes).sum
/-- The bytes of a schema with n columns. -/
def schemaBytes (n : Nat) : Nat := 16 + 16 * n

/-- NCOL of a schema header. -/
def schemaCols (h : List Byte) : Nat := leNat (h.take 2)

/-- The header's fields; `fixed`: the batch holds a fixed-width record. -/
def schemaHead (fixed : Bool) (h : List Byte) : Option Schema :=
  let n := schemaCols h
  let rl := leNat ((h.drop 4).take 4)
  if 1 ≤ n ∧ n ≤ 1024 ∧ [0x2C, 0x3B, 0x09, 0x7C].contains (h.getD 2 0) ∧ h.getD 3 0 = 0 ∧
      (fixed = false ∨ (1 ≤ rl ∧ rl ≤ 65536)) ∧ leNat ((h.drop 12).take 4) = 0 then
    some ⟨h.getD 2 0, rl, BitVec.ofNat 32 (leNat ((h.drop 8).take 4)), []⟩
  else none

/-- A column entry. -/
def schemaCol (fixed : Bool) (reclen : Nat) (e : List Byte) : Option Col :=
  let c : Col := ⟨(e.getD 0 0).toNat, leNat ((e.drop 2).take 2), leNat ((e.drop 4).take 2), leNat ((e.drop 6).take 2),
    BitVec.ofNat 32 (leNat ((e.drop 8).take 4))⟩
  if c.kind ≤ 2 ∧ e.getD 1 0 = 0 ∧ (c.kind ≠ 0 ∨ (1 ≤ c.tw ∧ c.tw ≤ 4096)) ∧ (fixed = false ∨ c.start + c.width ≤ reclen) ∧
      leNat ((e.drop 12).take 4) = 0 then some c
  else none

/-- The columns, or the number of the first that breaks a rule, the size of the slot included. -/
def schemaGo (fixed : Bool) (reclen pitch : Nat) : Nat → Nat → List (List Byte) → Except Nat (List Col)
  | _, _, [] => .ok []
  | i, size, e :: es =>
    match schemaCol fixed reclen e with
    | none => .error i
    | some c =>
      if pitch < size + c.bytes then .error i
      else match schemaGo fixed reclen pitch (i + 1) (size + c.bytes) es with
        | .error j => .error j
        | .ok cs => .ok (c :: cs)

/-- Check and read a whole schema; the error is what DETAIL [31:16] holds (Table 11.9). -/
def schemaParse (fixed : Bool) (pitch : Nat) (bs : List Byte) : Except Nat Schema :=
  match schemaHead fixed bs with
  | none => .error 0xFFFF
  | some s => match schemaGo fixed s.reclen pitch 0 0 (chunks 16 ((bs.drop 16).take (16 * schemaCols bs))) with
    | .error i => .error i
    | .ok cs => .ok { s with cols := cs }

/-! UTF-8. -/

/-- The length of the well-formed UTF-8 sequence a byte string begins with. -/
def utf8Len (bs : List Byte) : Option Nat :=
  let g (i : Nat) : Nat := (bs.getD i 0).toNat
  let cont (i : Nat) : Bool := decide (g i / 64 = 2)
  let a := g 0
  if a < 0x80 then some 1
  else if 0xC2 ≤ a ∧ a ≤ 0xDF then (if cont 1 then some 2 else none)
  else if a / 16 = 14 then
    if cont 1 && cont 2 && (a != 0xE0 || decide (0xA0 ≤ g 1)) && (a != 0xED || decide (g 1 < 0xA0)) then some 3 else none
  else if 0xF0 ≤ a ∧ a ≤ 0xF4 then
    if cont 1 && cont 2 && cont 3 && (a != 0xF0 || decide (0x90 ≤ g 1)) && (a != 0xF4 || decide (g 1 < 0x90)) then some 4
    else none
  else none

/-- A byte string is UTF-8. -/
def utf8Ok : Nat → List Byte → Bool
  | _, [] => true
  | 0, _ => false
  | f + 1, bs => match utf8Len bs with
    | some n => utf8Ok f (bs.drop n)
    | none => false

/-! Records. -/

/-- n bytes of a record: one unit for each 16 (Table 11.6). -/
def takeText : Nat → Dec (List Byte)
  | 0 => pure []
  | n + 1 => do
    let b ← takeByte 16
    let l ← takeText n
    pure (b :: l)

/-- Where the parser stands in a field (R286). -/
inductive CsvMode where
  | start
  | plain
  | quoted
  /-- a 0x22 has been read within a quoted field -/
  | closed
  deriving DecidableEq

/-- The fields of a delimited record (R286): `cur` and `done` in reverse. -/
def csvGo (delim : Byte) : Nat → CsvMode → List Byte → List (List Byte) → Dec (List (List Byte))
  | 0, _, _, _ => corrupt 2
  | f + 1, m, cur, done => do
    let r ← get
    if m ≠ .quoted ∧ (r.src = [] ∨ r.src = [0x0A] ∨ r.src = [0x0D, 0x0A]) then
      let _ ← takeText r.src.length
      pure (cur.reverse :: done).reverse
    else if r.src = [] then corrupt 2
    else match utf8Len r.src with
      | none => corrupt 5
      | some n =>
        let c ← takeText n
        let add := c.reverse ++ cur
        let b := c.headD 0
        if m = .quoted then csvGo delim f (if b = 0x22 then .closed else .quoted) (if b = 0x22 then cur else add) done
        else if b = delim then csvGo delim f .start [] (cur.reverse :: done)
        else if b = 0x22 then
          match m with
          | .start => csvGo delim f .quoted [] done
          | .closed => csvGo delim f .quoted add done
          | _ => corrupt 2
        else if m = .closed ∨ b = 0x0A ∨ b = 0x0D then corrupt 2
        else csvGo delim f .plain add done

/-- A delimited record's fields: one for each column (R286). -/
def csvFields (s : Schema) : Dec (List (List Byte)) := do
  let r ← get
  let l ← csvGo s.delim (r.src.length + 2) .start [] []
  need (decide (l.length = s.cols.length)) 6
  pure l

/-- Trailing ASCII spaces removed. -/
def trimEnd (bs : List Byte) : List Byte := (bs.reverse.dropWhile (· = 0x20)).reverse

/-- A fixed-width record's fields (R287). -/
def fixedFields (s : Schema) : Dec (List (List Byte)) := do
  let r ← get
  let n := r.src.length
  let tail := r.src.drop s.reclen
  need (decide (s.reclen ≤ n) && (decide (tail = []) || decide (tail = [0x0A]) || decide (tail = [0x0D, 0x0A]))) 6
  let bs ← takeText n
  let fs := s.cols.map fun c => trimEnd ((bs.drop c.start).take c.width)
  need (fs.all fun b => utf8Ok b.length b) 5
  pure fs

/-! Numbers (R288). -/

/-- Decimal digits at the front of a text. -/
def digitsOf (bs : List Byte) : List Nat := (bs.takeWhile fun b => decide (0x30 ≤ b.toNat) && decide (b.toNat ≤ 0x39)).map fun b => b.toNat - 0x30
/-- Their number. -/
def decNat (ds : List Nat) : Nat := ds.foldl (fun v d => 10 * v + d) 0
/-- An optional sign: it is minus, and the rest. -/
def signOf : List Byte → Bool × List Byte
  | b :: l => if b = 0x2D then (true, l) else if b = 0x2B then (false, l) else (false, b :: l)
  | [] => (false, [])

/-- The value (−1)^neg × m × 10^e, rounded once into FP32 with saturation (R288). Beyond 10^±60 the result is already fixed. -/
def decimal (neg : Bool) (ds : List Nat) (e : Int) : W32 :=
  let m := decNat ds
  let p := ((ds.dropWhile (· = 0)).length : Int) + e
  let v : Val := if m = 0 then .fin neg 0 1 0
    else if 60 < p then .fin neg 1 1 400
    else if p < -60 then .fin neg 1 1 (-400)
    else if 0 ≤ e then .fin neg (m * 10 ^ e.toNat) 1 0
    else .fin neg m (10 ^ (-e).toNat) 0
  BitVec.ofNat 32 (fmtFP32.encode true v)

/-- A number field without its spaces (R288). -/
def parseNum (bs : List Byte) : Option W32 :=
  let s := signOf bs
  let a := digitsOf s.2
  let r := s.2.drop a.length
  let dot := decide (r.headD 0 = 0x2E)
  let b := if dot then digitsOf (r.drop 1) else []
  let r := if dot then r.drop (1 + b.length) else r
  if a = [] ∧ b = [] then none
  else if r = [] then some (decimal s.1 (a ++ b) (-(b.length : Int)))
  else if r.headD 0 = 0x65 ∨ r.headD 0 = 0x45 then
    let x := signOf (r.drop 1)
    let d := digitsOf x.2
    if d = [] ∨ d.length ≠ x.2.length then none
    else
      let e : Int := if x.1 then -(decNat d : Int) else decNat d
      some (decimal s.1 (a ++ b) (e - b.length))
  else none

/-! Tokens (R289). -/

/-- What tokenisation uses (R290): `bad`: the WORK bytes have been written, so it is undefined. -/
structure Vocab where
  entries : List (List Byte)
  base : Nat
  bad : Bool
  deriving DecidableEq, Repr

/-- The index and length of the longest entry that stands at the front of a text. -/
def Vocab.longest (v : Vocab) (bs : List Byte) : Option (Nat × Nat) :=
  (List.range 31).reverse.findSome? fun l =>
    if l < bs.length then (v.entries.idxOf? (bs.take (l + 1))).map fun i => (i, l + 1) else none

/-- The greedy tokens of a field. -/
def Vocab.greedy (v : Vocab) : Nat → List Byte → List W32
  | 0, _ => []
  | _, [] => []
  | f + 1, b :: l =>
    match v.longest (b :: l) with
    | some (i, n) => BitVec.ofNat 32 i :: v.greedy f ((b :: l).drop n)
    | none => BitVec.ofNat 32 (v.base + b.toNat) :: v.greedy f l

/-- The tokens of a field; those of a vocabulary whose WORK has been written are free (R290): draw number. -/
def Vocab.tokens (v : Vocab) (draw : Nat) (bs : List Byte) : List W32 :=
  if v.bad then Config.freeTokens draw bs else v.greedy bs.length bs

/-- What a text record gives: its slot's bytes, TRUNC and MISSING, and non-finite numbers written (R292). -/
structure TextOut where
  bytes : List Byte
  trunc : Bool
  missing : Bool
  nf : Nat
  deriving DecidableEq, Repr

/-- An FP32 word is infinite or NaN. -/
def nonFin (w : W32) : Bool := (f32 w).nonFinite

/-- One column (R288, R289); a token and a number are one unit each. A MISSING that is NaN is written as the canonical NaN
(R63). -/
def textCol (v : Vocab) (draw : Nat) (pad : W32) (c : Col) (bs : List Byte) : Dec TextOut := do
  match c.kind with
  | 0 =>
    let ts := v.tokens draw bs
    chargeN ts.length
    let ws := (ts ++ List.replicate (c.tw - ts.length) pad).take c.tw
    pure ⟨ws.flatMap fun w => leBytes 4 w.toNat, decide (c.tw < ts.length), false, 0⟩
  | 1 =>
    let t := trimEnd (bs.dropWhile (· = 0x20))
    if t = [] then pure ⟨leBytes 4 (f32canon c.missing).toNat, false, true, b2n (nonFin c.missing)⟩
    else
      charge
      match parseNum t with
      | some w => pure ⟨leBytes 4 w.toNat, false, false, b2n (nonFin w)⟩
      | none => corrupt 7
  | _ => pure ⟨[], false, false, 0⟩

/-- Columns in schema order. -/
def textCols (v : Vocab) (pad : W32) : Nat → List Col → List (List Byte) → Dec TextOut
  | draw, c :: cs, b :: bs => do
    let x ← textCol v draw pad c b
    let y ← textCols v pad (draw + 1) cs bs
    pure ⟨x.bytes ++ y.bytes, x.trunc || y.trunc, x.missing || y.missing, x.nf + y.nf⟩
  | _, _, _ => pure ⟨[], false, false, 0⟩

/-- A text record: `fixed` FORMAT 4, else FORMAT 3. -/
def textDecode (s : Schema) (v : Vocab) (draw : Nat) (fixed : Bool) : Dec TextOut := do
  let fs ← if fixed then fixedFields s else csvFields s
  textCols v s.pad draw s.cols fs

/-- A padding slot of a text batch (R298). -/
def Schema.padSlot (s : Schema) : List Byte :=
  s.cols.flatMap fun c => match c.kind with
    | 0 => (List.replicate c.tw s.pad).flatMap fun w => leBytes 4 w.toNat
    | 1 => leBytes 4 0
    | _ => []

/-- The entries of a vocabulary table, or the number of the first that breaks R290. -/
def vocabGo : Nat → List (List Byte) → List (List Byte) → Except Nat (List (List Byte))
  | _, _, [] => .ok []
  | i, seen, e :: es =>
    let n := (e.headD 0).toNat
    let t := (e.drop 1).take n
    if n = 0 ∨ 31 < n ∨ (e.drop (1 + n)).any (· ≠ 0) ∨ seen.contains t then .error i
    else match vocabGo (i + 1) (t :: seen) es with
      | .error j => .error j
      | .ok l => .ok (t :: l)

end Sys2Proof.Machine
end

