-- ==== Sys2Proof/Machine/Xform.lean ====
section
/-!
DEFINITION. Submission records and the transforms of the intake engine (R280, R291, Tables 11.3 and 11.5).
-/
namespace Sys2Proof.Machine

/-- A submission record (Table 11.3). -/
structure SubRec where
  src : Nat
  size : Nat
  format : Nat
  flags : Nat
  page : Nat
  id : Nat
  index : Nat
  budget : Nat
  weight : W32
  x0 : Int
  y0 : Int
  x1 : Int
  y1 : Int
  rh : Nat
  rw : Nat
  c : W32
  s : W32
  fill : W32
  mean : List W32
  scale : List W32
  roiSeq : W32
  roiIdx : Nat
  roiBox : Nat
  deriving DecidableEq, Repr

/-- A signed 32-bit field. -/
def s32 (v : Nat) : Int := if 2 ^ 31 ≤ v then (v : Int) - 2 ^ 32 else v

/-- A record from its 128 bytes. -/
def SubRec.of (bs : List Byte) : SubRec :=
  let n (o k : Nat) : Nat := leNat ((bs.drop o).take k)
  let w (o : Nat) : W32 := BitVec.ofNat 32 (n o 4)
  ⟨n 0 8, n 8 4, n 12 1, n 13 1, n 14 2, n 16 8, n 24 8, n 32 4, w 36, s32 (n 40 4), s32 (n 44 4), s32 (n 48 4), s32 (n 52 4), n 56 2,
    n 58 2, w 60, w 64, w 68, [w 72, w 76, w 80], [w 84, w 88, w 92], w 96, n 100 2, n 102 1⟩

/-! Flags of a record. -/
def SubRec.flipH (r : SubRec) : Bool := bitAt r.flags 0
def SubRec.flipV (r : SubRec) : Bool := bitAt r.flags 1
def SubRec.qturn (r : SubRec) : Nat := fld r.flags 3 2
def SubRec.deskew (r : SubRec) : Bool := bitAt r.flags 4
def SubRec.grey (r : SubRec) : Bool := bitAt r.flags 5
def SubRec.roi (r : SubRec) : Bool := bitAt r.flags 6
def SubRec.area (r : SubRec) : Bool := bitAt r.flags 7
/-- FORMAT is text. -/
def SubRec.text (r : SubRec) : Bool := r.format == 3 || r.format == 4

/-- The byte offset of the first field of a record that breaks R280; the region-of-interest count is checked by the
caller. -/
def recBad (text : Bool) (h w roiCount : Nat) (bs : List Byte) : Option Nat :=
  let r := SubRec.of bs
  let img (b : Bool) (o : Nat) : List Nat := if !text && b then [o] else []
  let zeros (lo : Nat) : List Nat := match (bs.drop lo).findIdx? (· ≠ 0) with
    | some i => [lo + i]
    | none => []
  let bad := (if 4 < r.format ∨ r.text ≠ text then [12] else []) ++ (if (f32 r.weight).nonFinite then [36] else []) ++
    img (!r.roi && decide (r.x1 ≤ r.x0)) 48 ++ img (!r.roi && decide (r.y1 ≤ r.y0)) 52 ++
    img (decide (r.rh = 0) || decide (h < r.rh)) 56 ++ img (decide (r.rw = 0) || decide (w < r.rw)) 58 ++
    img (r.deskew && (f32 r.c).lt (f32 0x3F7746EA)) 60 ++ img (r.deskew && (f32 0x3E8483EE).lt (f32 r.s).abs) 64 ++
    img (r.roi && decide (roiCount ≤ r.roiIdx)) 100 ++ zeros (if text then 104 else 103)
  bad.head?

/-! Images as planes of FP32 values. -/

/-- One channel: width, height, values row by row. -/
structure Plane where
  w : Nat
  h : Nat
  a : Array W32

/-- The value at (x, y); none outside. -/
def Plane.at? (p : Plane) (x y : Int) : Option W32 :=
  if 0 ≤ x ∧ x < p.w ∧ 0 ≤ y ∧ y < p.h then p.a[(y.toNat * p.w + x.toNat)]? else none

/-- A plane from a function of x and y. -/
def Plane.make (w h : Nat) (f : Nat → Nat → W32) : Plane :=
  ⟨w, h, ((List.range h).flatMap fun y => (List.range w).map fun x => f x y).toArray⟩

/-- The value at (x, y), FILL outside. -/
def Plane.fill (p : Plane) (fl : W32) (x y : Int) : W32 := (p.at? x y).getD fl
/-- The value at (x, y), clamped to the edge. -/
def Plane.clamp (p : Plane) (x y : Int) : W32 :=
  (p.at? (max 0 (min ((p.w : Int) - 1) x)) (max 0 (min ((p.h : Int) - 1) y))).getD f32zero

/-- ⌊v⌋ of a finite value. -/
def Val.floor : Val → Int
  | .fin s n d e =>
    let a := n * pow2 e
    let b := d * pow2 (-e)
    if s then -(((a + b - 1) / b : Nat) : Int) else ((a / b : Nat) : Int)
  | _ => 0

/-- bilinear(img, u, v, edge) (R291); `get` reads a pixel by the edge rule. A u or v that is not finite makes NaN. -/
def bilinear (get : Int → Int → W32) (u v : Val) : W32 :=
  if u.nonFinite || v.nonFinite then f32nan
  else
    let x := u.floor
    let y := v.floor
    let fx := u.sub (Val.ofInt x)
    let fy := v.sub (Val.ofInt y)
    let lerp (f : Val) (p q : W32) : W32 := toF32 ((f.mul (f32 (f32sub q p))).add (f32 p))
    lerp fy (lerp fx (get x y) (get (x + 1) y)) (lerp fx (get x (y + 1)) (get (x + 1) (y + 1)))

/-- Does bilinear at (u, v) read a pixel outside? Open where u or v is not finite. -/
def readsOut (p : Plane) (u v : Val) (open_ : Bool) : Bool :=
  if u.nonFinite || v.nonFinite then open_
  else
    let x := u.floor
    let y := v.floor
    decide (x < 0) || decide ((p.w : Int) ≤ x + 1) || decide (y < 0) || decide ((p.h : Int) ≤ y + 1)

/-! Stages (Table 11.5). -/

/-- Stage 1. -/
def stCrop (p : Plane) (x0 y0 x1 y1 : Int) (fl : W32) : Plane :=
  Plane.make (x1 - x0).toNat (y1 - y0).toNat fun x y => p.fill fl (x0 + x) (y0 + y)
/-- Stage 1 reads outside its input. -/
def cropOut (w h : Nat) (x0 y0 x1 y1 : Int) : Bool :=
  decide (x0 < 0) || decide (y0 < 0) || decide ((w : Int) < x1) || decide ((h : Int) < y1)

/-- Stage 2. -/
def stTurn (q : Nat) (p : Plane) : Plane :=
  match q with
  | 1 => Plane.make p.h p.w fun x y => p.fill f32zero y ((p.h : Int) - 1 - x)
  | 2 => Plane.make p.w p.h fun x y => p.fill f32zero ((p.w : Int) - 1 - x) ((p.h : Int) - 1 - y)
  | 3 => Plane.make p.h p.w fun x y => p.fill f32zero ((p.w : Int) - 1 - y) x
  | _ => p

/-- The point that pixel (x, y) of stage 3 reads. -/
def deskewAt (w h : Nat) (c s : W32) (x y : Nat) : Val × Val :=
  let cx := Val.fin false w 1 (-1)
  let cy := Val.fin false h 1 (-1)
  let dx := (Val.fin false (2 * x + 1) 1 (-1)).sub cx
  let dy := (Val.fin false (2 * y + 1) 1 (-1)).sub cy
  let half := Val.fin false 1 1 (-1)
  let u := rnd ((rnd ((rnd (((f32 c).mul dx).add (rnd ((f32 s).mul dy)))).add cx)).sub half)
  let v := rnd ((rnd ((rnd (((f32 c).mul dy).sub (rnd ((f32 s).mul dx)))).add cy)).sub half)
  (u, v)

/-- Stage 3. -/
def stDeskew (c s fl : W32) (p : Plane) : Plane :=
  Plane.make p.w p.h fun x y =>
    let z := deskewAt p.w p.h c s x y
    bilinear (p.fill fl) z.1 z.2
/-- Stage 3 reads outside its input. -/
def deskewOut (c s : W32) (open_ : Bool) (p : Plane) : Bool :=
  (List.range p.h).any fun y => (List.range p.w).any fun x =>
    let z := deskewAt p.w p.h c s x y
    readsOut p z.1 z.2 open_

/-- Stage 4. -/
def stFlip (fh fv : Bool) (p : Plane) : Plane :=
  if fh || fv then
    Plane.make p.w p.h fun x y => p.fill f32zero (if fh then (p.w : Int) - 1 - x else x) (if fv then (p.h : Int) - 1 - y else y)
  else p

/-- u of output index x when n input pixels become m (FILTER 0). -/
def resizeAt (n m x : Nat) : Val :=
  let sx := rnd ((Val.ofNat n).div (Val.ofNat m))
  let u := rnd (((Val.fin false (2 * x + 1) 1 (-1)).mul sx).sub (Val.fin false 1 1 (-1)))
  if u.lt Val.zero then Val.zero else if (Val.ofNat (n - 1)).lt u then Val.ofNat (n - 1) else u

/-- The input pixels that output index x covers when n become m, with ax_i (FILTER 1). -/
def areaOf (n m x : Nat) : List (Nat × W32) :=
  let lo := x * n
  let hi := (x + 1) * n
  (List.range ((hi + m - 1) / m - lo / m)).filterMap fun k =>
    let i := lo / m + k
    let ov := min hi ((i + 1) * m) - max lo (i * m)
    if ov = 0 then none else some (i, toF32 ((Val.ofNat ov).div (Val.ofNat n)))

/-- Stage 5. -/
def stResize (area : Bool) (rw rh : Nat) (p : Plane) : Plane :=
  if area then
    Plane.make rw rh fun x y =>
      let xs := areaOf p.w rw x
      (areaOf p.h rh y).foldl (fun o j => xs.foldl (fun o i =>
        f32fma (f32mul i.2 j.2) (p.clamp i.1 j.1) o) o) f32zero
  else Plane.make rw rh fun x y => bilinear p.clamp (resizeAt p.w rw x) (resizeAt p.h rh y)

/-- Stage 6: the channels of a slot. -/
def stChannels (grey : Bool) (c : Nat) (ps : List Plane) : List Plane :=
  match ps with
  | [r, g, b] =>
    if grey || c == 1 then
      let y := Plane.mk r.w r.h ((r.a.toList.zip (g.a.toList.zip b.a.toList)).map fun p =>
        f32fma 0x3DE978D5 p.2.2 (f32fma 0x3F1645A2 p.2.1 (f32mul 0x3E991687 p.1))).toArray
      List.replicate c y
    else [r, g, b]
  | p :: _ => List.replicate c p
  | [] => []

/-- Stages 7 and 8: the values of a channel, row by row, H rows of W. -/
def stPlace (w h : Nat) (mean scale fl : W32) (p : Plane) : List (List W32) :=
  let norm (v : W32) : W32 := f32mul (f32sub v mean) scale
  let f := norm fl
  (List.range h).map fun (y : Nat) => (List.range w).map fun (x : Nat) => match p.at? x y with
    | some v => norm v
    | none => f

/-- The planes of a decoded image on the 0 to 255 scale. -/
def Img.planes (i : Img) : List Plane :=
  (chunks (i.w * i.h) i.px).map fun c => ⟨i.w, i.h, (c.map fun b => toF32 (Val.ofNat b.toNat)).toArray⟩

/-- The crop box of a record or of a region-of-interest entry. -/
structure Box where
  x0 : Int
  y0 : Int
  x1 : Int
  y1 : Int
  deriving DecidableEq, Repr

/-- All stages: the rows of every channel, and FILLED. `open_` decides where the spec leaves FILLED open. -/
def transform (r : SubRec) (b : Box) (c w h : Nat) (open_ : Bool) (i : Img) : List (List (List W32)) × Bool :=
  let turned := i.planes.map fun p => stTurn r.qturn (stCrop p b.x0 b.y0 b.x1 b.y1 r.fill)
  let out1 := cropOut i.w i.h b.x0 b.y0 b.x1 b.y1
  let out3 := r.deskew && turned.any (deskewOut r.c r.s open_)
  let skewed := if r.deskew then turned.map (stDeskew r.c r.s r.fill) else turned
  let sized := skewed.map fun p => stResize r.area r.rw r.rh (stFlip r.flipH r.flipV p)
  let chans := stChannels r.grey c sized
  ((chans.zip (r.mean.zip r.scale)).map fun p => stPlace w h p.2.1 p.2.2 r.fill p.1, out1 || out3)

end Sys2Proof.Machine
end

