-- ==== Sys2Proof/Machine/StateItk.lean ====
section
/-!
DEFINITION. The state of the intake engine (chapter 11): the batches in the pipeline with their samples, the staging blocks
they hold, the decoded-sample cache and the vocabulary.
-/
namespace Sys2Proof.Machine

/-- What a decode has given (R297, R300). -/
inductive Decoded where
  /-- an image or text slot in staging: taken from the cache, work units, width, height and channels of an image, TRUNC,
      MISSING and non-finite numbers of a text slot -/
  | ok (cached : Bool) (units w h ch : Nat) (trunc missing : Bool) (nf : Nat)
  | corrupt (reason units : Nat)
  | over
  deriving DecidableEq, Repr

/-- How far a sample has come (R295, R296). -/
inductive Phase11 where
  | waiting
  /-- a lane holds it; its staging space is not reserved -/
  | started (lane : Nat)
  /-- space is reserved: the source bytes, or none when the cache supplied it; units, width, height, channels -/
  | reserved (lane : Nat) (src : Option (List Byte)) (units w h ch : Nat)
  | decoded (d : Decoded)
  deriving DecidableEq, Repr

/-- A sample: record index, record, phase, and the 4 KiB staging blocks it holds. -/
structure Sample where
  idx : Nat
  sub : SubRec
  phase : Phase11
  blocks : List Nat
  deriving DecidableEq, Repr

/-- A manifest entry (Table 11.7). -/
structure ManEntry where
  index : Nat
  id : Nat
  weight : W32
  status : Nat
  reason : Nat
  flags : Nat
  work : Nat
  deriving DecidableEq, Repr

/-- A dispatched IK_BATCH whose checks have passed (R278). -/
structure Batch where
  queue : Nat
  tag : W32
  b : Nat
  count : Nat
  /-- C, H, W and the budget of an image batch -/
  c : Nat
  h : Nat
  w : Nat
  budget : Nat
  /-- slot 0, as rows of an image or as bytes of a text slot -/
  out : Acc
  pitch : Nat
  manifest : Nat
  schema : Option Schema
  /-- the manifest version (R339) -/
  man : Nat × Nat
  /-- the staging region: local offset and 4 KiB blocks -/
  stage : Nat
  stageN : Nat
  samples : List Sample
  entries : List ManEntry
  deriving DecidableEq, Repr

/-- The key of a cached sample (R300): context, SAMPLE_ID, FORMAT, PAGE. -/
structure CacheKey where
  ctx : Nat
  id : Nat
  format : Nat
  page : Nat
  deriving DecidableEq, Repr

/-- A cached sample: its key, units, size, and the 4 KiB blocks of the cache region it lies in. -/
structure CacheEntry where
  key : CacheKey
  units : Nat
  w : Nat
  h : Nat
  ch : Nat
  blocks : List Nat
  deriving DecidableEq, Repr

/-- The head sample's region-of-interest entry (R293). -/
inductive Roi where
  /-- not read yet -/
  | none
  /-- waits for SEQ: the time up to which ITK_ROI_WAITNS counts it, and the time of the last read -/
  | waiting (since polled : Nat)
  /-- the entry has been read: its box, or none when it is bad -/
  | read (box : Option Box)
  deriving DecidableEq, Repr

/-- The intake engine. -/
structure Itk where
  /-- in dispatch order -/
  batches : List Batch
  roi : Roi
  /-- most recently used first -/
  cache : List CacheEntry
  /-- where the cached samples lie: local offset and 4 KiB blocks of the region -/
  cacheAt : Nat × Nat
  /-- entries and BYTE_BASE of the current vocabulary -/
  vocab : Option (List (List Byte) × Nat)
  /-- highest occupancy of the reorder window since PEAK_CLR -/
  peak : Nat
  lanesOut : List Nat
  /-- the domain is power-gated -/
  gated : Bool
  deriving DecidableEq, Repr

/-- The intake engine at power-on. -/
def Itk.reset : Itk :=
  { batches := [], roi := .none, cache := [], cacheAt := (0, 0), vocab := none, peak := 0, lanesOut := [], gated := false }

end Sys2Proof.Machine
end

