-- ==== Sys2Proof/Machine/StateMem.lean ====
section
/-!
DEFINITION. The state of the memory tiers and the tier manager (chapters 7 and 15): bytes, array errors and poison,
regions, the page map, tolls, fords, retirement, moves in flight and the scrubbers.
-/
namespace Sys2Proof.Machine

/-- A live region: words p1 to p4 of Table 7.1 as held, its owning context, and the physical rows of a bank-aligned
region (R161), one for each unit of 32 MiB. -/
structure Region where
  base : Nat
  desc : Nat
  tag : Nat
  idx : Nat
  ctx : Nat
  rows : List Nat
  /-- something other than the tier manager has written its index table (R181) -/
  tampered : Bool
  deriving DecidableEq, Repr

/-- A ford (R171, R172). -/
structure Ford where
  active : Bool
  ctx : Nat
  w : Nat
  /-- the layer table as read: first page and page count of each layer -/
  layers : List (Nat × Nat)
  dir : Bool
  layer : Nat
  /-- the window holds layers (a step has been made and the ford has not been emptied) -/
  stepped : Bool
  /-- the queues whose TT_FORD_STEPs wait, each with the layer it named, in order -/
  waiters : List (Nat × Nat)
  /-- window layers are still to be brought in -/
  filling : Bool
  /-- layers with a page whose region has been cleared since TT_FORD_SET (R187) -/
  cleared : List Nat
  deriving DecidableEq, Repr

/-- A ford that is not configured. -/
def Ford.empty : Ford := ⟨false, 0, 0, [], false, 0, false, [], false, []⟩

/-- Why a page moves: it fixes what its switch leads to. -/
inductive MoveWhy where
  | background
  | ford (f : Nat)
  deriving DecidableEq, Repr

/-- A page move in flight (R166): the page, and the page whose frame it takes. -/
structure Move where
  page : Nat
  victim : Nat
  why : MoveWhy
  deriving DecidableEq, Repr

/-- A retired 64 KiB frame (R182): tier (false fast), frame, and the spare's local offset. -/
structure Remap where
  cap : Bool
  frame : Nat
  spare : Nat
  deriving DecidableEq, Repr

/-- A scrubber (R375, R376): the next codeword, corrected words of each 64 KiB frame of the pass, time of its start. -/
structure Scrub where
  pos : Nat
  counts : Tbl Nat
  deriving DecidableEq, Repr

/-- How far a tier/transfer command has come: blocks, pages or entries done, and how many it skipped. -/
structure Prog where
  done : Nat
  skipped : Nat
  deriving DecidableEq, Repr

/-- Memory and the tier manager. -/
structure Mem where
  /-- the bytes of the unified range by local offset; an unlisted byte is zero -/
  cells : Tbl Byte
  /-- the error pattern of a codeword: symbol and XOR value, keyed by local offset ÷ 32 of its first byte; poison is the
      pattern 0xFF on check bytes (R372) -/
  errs : Tbl (List (Nat × Byte))
  regions : Tbl (Option Region)
  /-- the frame of a page: 0 to 262,143 fast, then capacity (R155) -/
  frameOf : Tbl Nat
  /-- the page in a frame -/
  pageIn : Tbl Nat
  /-- pages of a region not yet written since they entered it (R156) -/
  zero : Tbl Bool
  /-- packed pages (R176) -/
  packed : Tbl Bool
  /-- access counters (R165) -/
  access : Tbl Nat
  /-- stream pages brought in by a ford and not written since: the capacity frame they left (R173) -/
  cleanFrom : Tbl (Option Nat)
  /-- grants by context × 2 + tier (R169) -/
  grants : Tbl Nat
  remap : List Remap
  fords : Tbl Ford
  moves : List Move
  /-- writes that wait for the switch of a move in flight: who waits (a queue, or a place of arrival from 384 on), and the
      page (R166) -/
  waits : List (Nat × Nat)
  prog : Tbl Prog
  /-- the millisecond of the background moves counted in `moved` (R163) -/
  moveMs : Nat
  moved : Nat
  /-- time of the last halving of the access counters (R165) -/
  epochAt : Nat
  scrubFast : Scrub
  scrubCap : Scrub
  /-- both tiers are in self-refresh (R405); the time each was last accessed after a wake -/
  refreshFast : Bool
  refreshCap : Bool
  wokeFast : Nat
  wokeCap : Nat
  /-- the WORK bytes of the current vocabulary (R290): local offset, length, and whether something has written them -/
  vocWork : Nat
  vocLen : Nat
  vocBad : Bool
  deriving DecidableEq, Repr

/-- Memory at power-on (R155, R156, R169, R184). -/
def Mem.reset : Mem :=
  { cells := [], errs := [], regions := [], frameOf := [], pageIn := [], zero := [], packed := [], access := [],
    cleanFrom := [], grants := [], remap := [], fords := [], moves := [], waits := [], prog := [], moveMs := 0, moved := 0, epochAt := 0,
    scrubFast := ⟨0, []⟩, scrubCap := ⟨0, []⟩, refreshFast := false, refreshCap := false, wokeFast := 0, wokeCap := 0,
    vocWork := 0, vocLen := 0, vocBad := false }

end Sys2Proof.Machine
end

