-- ==== Sys2Proof/Machine/StateNbu.lean ====
section
/-!
DEFINITION. The state of the near-bank engine (chapter 8): the repair map, groups in service, stacks, the commands they
run, register files and attention partials, bank holds.
-/
namespace Sys2Proof.Machine

/-- A running softmax over values (R216): m, l, o. -/
structure Partial where
  m : W32
  l : W32
  o : List W32
  deriving DecidableEq, Repr

/-- One selected stack of a chain-ferry command (R201). -/
structure NbStack where
  stack : Nat
  /-- the row index issued last, and the next; the index after the last -/
  cur : Nat
  next : Nat
  stop : Nat
  /-- logical pairs whose row operation is in progress -/
  todo : List Nat
  /-- the first failing row: pair, status, DETAIL -/
  fail : Option (Nat × Byte × Nat)
  deriving DecidableEq, Repr

/-- A dispatched near-bank command. -/
structure NbRun where
  queue : Nat
  op : Nat
  stackRuns : List NbStack
  /-- program words and broadcast words (R205, R206) -/
  prog : List Nat
  bc : List (List Byte)
  /-- register files by logical pair -/
  regs : Tbl (List (List Byte))
  /-- γ of NB_OPTIMIZE (R212) -/
  gamma : List W32
  /-- rows skipped (R213), or words of a repair copy poisoned (R220) -/
  skipped : Nat
  /-- NB_ATTEND: the query in progress, its LEN and values; partials by logical pair -/
  query : Nat
  qlen : Nat
  qvec : List W32
  parts : Tbl (Option Partial)
  /-- the query's record has been read -/
  loaded : Bool
  /-- a failing row or a stop request: no further row index is issued (R203) -/
  stopping : Bool
  deriving DecidableEq, Repr

/-- The near-bank engine. -/
structure Nbu where
  /-- near-bank repair map (R195): 0 to 7 a spare group of the stack, 8 home -/
  map : Tbl Nat
  /-- the target was set by NB_REPAIR -/
  bySw : Tbl Bool
  /-- banks held by a row operation (R197), by logical pair × 2 + bank -/
  holds : Tbl Bool
  /-- service state of the physical groups -/
  svc : Tbl Svc
  /-- groups that leave service when their stack is free (Table 15.8) -/
  leaving : Tbl Bool
  runs : List NbRun
  /-- stacks whose next row index the arbiter holds (R219) -/
  capHeld : Tbl Bool
  /-- column bytes moved in a stack (R219): time of the row operation's end, and bytes, of the last 10 µs -/
  cols : Tbl (List (Nat × Nat))
  /-- NBU_SHARD_PROGn: row and step (R204) -/
  progRow : Tbl W32
  progStep : Tbl W32
  deriving DecidableEq, Repr

/-- The near-bank engine at power-on. -/
def Nbu.reset : Nbu :=
  { map := [], bySw := [], holds := [], svc := [], leaving := [], runs := [], capHeld := [], cols := [], progRow := [], progStep := [] }

end Sys2Proof.Machine
end

