-- ==== Sys2Proof/Machine/StateSys.lean ====
section
/-!
DEFINITION. The state of the blocks around the engines: host interface (chapter 12), management core and mailbox
(chapter 13), security block (chapter 14), error records and service (chapter 15), power, time and start-up
(chapter 16), configuration store (chapter 17). Register payloads, status registers and counts stand in the register
file of State.lean.
-/
namespace Sys2Proof.Machine

/-- Whose write to host memory it is: an engine's for the command of a queue, the front end's for a queue (replies and
head write-backs, R438), or another's. -/
inductive HostOwner where
  | engine (q : Nat)
  | front (q : Nat)
  | other
  deriving DecidableEq, Repr

/-- A posted write or message bound for the host (R317, R323). -/
inductive HostOut where
  /-- bytes written at an I/O virtual address -/
  | write (own : HostOwner) (addr : Nat) (bytes : List Byte)
  /-- the MSI-X message of a vector -/
  | msix (vector : Nat)
  deriving DecidableEq, Repr

/-- A write request sent on the link and not yet acknowledged (R316, R323): whose it is, I/O virtual address, whether its
header has a 64-bit address, and the bytes that host memory held there. Its requester is function 0; it has no PASID, and
neither No Snoop nor Relaxed Ordering is ever set. -/
structure HostTlp where
  own : HostOwner
  addr : Nat
  wide : Bool
  old : List Byte
  deriving DecidableEq, Repr

/-- The answer to the last gangway read (R314, R315): bytes, and the Poisoned bit; `ur`: Unsupported Request. -/
structure GwReply where
  bytes : List Byte
  poisoned : Bool
  ur : Bool := false
  deriving DecidableEq, Repr

/-- A BAR2 request that has arrived and waits (R313, R314): the local offset that the base in force at its arrival gives,
and the bytes to write or the length to read. -/
inductive GwReq where
  | read (addr len : Nat)
  | write (addr : Nat) (bytes : List Byte)
  deriving DecidableEq, Repr

/-- The host interface. -/
structure Hif where
  /-- Data Link Layer up (HIF_LINK.DL_UP), rate, width and FLIT mode of the last training -/
  up : Bool
  rate : Nat
  width : Nat
  flit : Bool
  /-- the link has come up since the last reset (R322) -/
  armed : Bool
  /-- start of the link-loss timer (R322) -/
  downAt : Option Nat
  /-- the gangway base in force, in MiB (R312) -/
  gwBase : Nat
  /-- the latched high half of a 64-bit register (R311) -/
  latch : Option (Nat × W32)
  /-- Bus Master Enable (R319), MSI-X Enable, Function Mask (R320) -/
  bme : Bool
  msixOn : Bool
  funcMask : Bool
  /-- the MSI-X table by 32-bit word; an entry's vector control is 1 (masked) at reset -/
  msix : Tbl W32
  /-- pending vectors (PBA) -/
  pba : Tbl Bool
  /-- messages sent, by vector -/
  sent : Tbl Nat
  /-- what waits for the link to return, oldest first (R323) -/
  outq : List HostOut
  /-- write requests sent and not yet acknowledged, oldest first -/
  tlps : List HostTlp
  gwReply : Option GwReply
  /-- BAR2 requests that wait, in order of arrival -/
  gwPend : List GwReq
  /-- the answer to the last BAR0 or configuration read; none when it got no normal answer -/
  barReply : Option (List Byte)
  /-- the configuration the host has written; AER: Uncorrectable Error Status and header log -/
  conf : PciConf
  aer : W32
  aerLog : List W32
  /-- PERST# is asserted -/
  perst : Bool
  /-- configuration requests are answered with Request Retry Status (R326) -/
  rrs : Bool
  /-- bytes of host memory as the device last read or wrote them, and of peers as it last read them, by 64-bit engine
      address -/
  ext : Tbl Byte
  deriving DecidableEq, Repr

/-- The host interface at reset. -/
def Hif.reset : Hif :=
  { up := false, rate := 0, width := 0, flit := false, armed := false, downAt := none, gwBase := 0, latch := none,
    bme := false, msixOn := false, funcMask := false, msix := [], pba := [], sent := [], outq := [], tlps := [], gwReply := none,
    gwPend := [], barReply := none, conf := PciConf.reset, aer := 0, aerLog := [], perst := false, rrs := true, ext := [] }

/-- A log entry (R349, Table 13.9). -/
structure LogEntry where
  time : Nat
  seq : W32
  event : Nat
  severity : Nat
  source : Nat
  args : List W32
  deriving DecidableEq, Repr

/-- A mailbox or towpath message in progress (R332, R335). -/
structure Msg where
  towpath : Bool
  /-- the request header's type, SEQ, flags, HTAG and LENGTH -/
  type : Nat
  seq : W32
  notify : Bool
  htag : W64
  len : Nat
  payload : List Byte
  /-- versions of the request header (Table 13.11) -/
  verMajor : Nat
  verMinor : Nat
  /-- the commit step has been reached (R336) -/
  committed : Bool
  /-- a function level reset came while it was in progress: its reply is not written (R336) -/
  silent : Bool
  deriving DecidableEq, Repr

/-- A reply as written (R334). -/
structure Reply where
  towpath : Bool
  seq : W32
  status : Byte
  detail : W32
  payload : List Byte
  deriving DecidableEq, Repr

/-- A loaded or loading supplement (R341, R342). -/
structure Supp where
  header : List Byte
  /-- type, load offset and bytes of each section -/
  sections : List (Nat × Nat × List Byte)
  version : W32
  raise : List Nat
  cert : List Byte
  measurement : List Byte
  deriving DecidableEq, Repr

/-- The management core, mailbox, log and towpath. -/
structure Mgt where
  /-- MGT_STATE.CORE: 0 booting, 1 running, 2 restarting, 3 halted -/
  core : Nat
  /-- the cause of the restart in progress: 0 to 2 as event 0x0005, 3 a core fault in an SRAM word; 4 and 5 a module
      self-reset by link loss and by PERST#; and whether a restart discards the supplement -/
  cause : Nat
  discard : Bool
  /-- the message in progress when the restart came (R336) -/
  interrupted : Option Msg
  req : Tbl Byte
  rpl : Tbl Byte
  taken : W32
  /-- the message in progress -/
  msg : Option Msg
  /-- towpath requests waiting, in order of arrival, each as its 64-byte header and payload; how many of them came before
      the mailbox request that is posted (R335) -/
  towQ : List (List Byte)
  ahead : Option Nat
  lastReply : Option Reply
  log : Tbl (Option LogEntry)
  supp : Option Supp
  /-- the program store of the base dies holds a supplement's BASEDIE sections (R343: kept after a discard) -/
  baseDie : Bool
  /-- negotiated (major, minor) of interfaces 0 to 4 -/
  vers : List (Nat × Nat)
  attached : Bool
  /-- mailbox version negotiated on the towpath (R340) -/
  towVer : Nat × Nat
  /-- times of the last watchdog expiries, newest first (R348) -/
  wdtTimes : List Nat
  /-- time of the last kick, the period in force and whether the watchdog runs (R403) -/
  kickAt : Nat
  wdtPeriod : Nat
  wdtOn : Bool
  /-- the model's own: acts of the firmware so far, which number the free values of R350 -/
  acts : Nat
  deriving DecidableEq, Repr

/-- The management core at reset. -/
def Mgt.reset : Mgt :=
  { core := 0, cause := 0, discard := false, interrupted := none, req := [], rpl := [], taken := 0, msg := none, towQ := [], ahead := none,
    lastReply := none, log := [], supp := none, baseDie := false, vers := List.replicate 5 (1, 0), attached := false,
    towVer := (1, 0), wdtTimes := [], kickAt := 0, wdtPeriod := 100, wdtOn := false, acts := 0 }

/-- The security block (chapter 14). -/
structure Sec where
  /-- SEC_STATE.ID: 0 not ready, 1 READY, 2 FAILED -/
  id : Nat
  /-- ξ, the seed of the device key (R357), and before step 4 has derived it the PUF's seed s; nothing reads it out
      (R358) -/
  xi : List Byte
  dkid : List Byte
  devCertOk : Bool
  /-- M_SUPP, M_CFG and M_PROG (Table 14.3); empty: no value, reads as zero -/
  mSupp : List Byte
  mCfg : List Byte
  mProg : List Byte
  /-- signer certificate of the applied configuration record -/
  cfgCert : List Byte
  deriving DecidableEq, Repr

/-- The security block at reset. -/
def Sec.reset : Sec :=
  { id := 0, xi := [], dkid := [], devCertOk := false, mSupp := [], mCfg := [], mProg := [], cfgCert := [] }

/-- An error record (R380, Table 15.3). -/
structure ErrRec where
  time : Nat
  seq : W32
  cls : Nat
  severity : Nat
  block : Nat
  unit : Nat
  info : Nat
  location : Nat
  deriving DecidableEq, Repr

/-- A history entry (R383, Table 15.5). -/
structure HistEntry where
  kind : Nat
  unit : Nat
  location : Nat
  starts : Nat
  cfgVersion : Nat
  deriving DecidableEq, Repr

/-- A fast-tier pseudo-channel (ERR_PCn_STATE, R385). -/
structure Pc where
  svc : Svc
  spared : Bool
  lane : Nat
  deriving DecidableEq, Repr

/-- A pseudo-channel in service with no lane spared. -/
def Pc.ok : Pc := ⟨Svc.ok, false, 0⟩

/-- Error records, history and service. -/
structure Err where
  ring : Tbl (Option ErrRec)
  /-- class × 2^20 + source, and the time of its last record (R381) -/
  recent : Tbl (Option Nat)
  pcs : Tbl Pc
  /-- packages that failed training (R385) -/
  pkgFailed : Tbl Bool
  /-- spare lanes switched in at the last training: stacks 0 to 7, then packages 0 to 23 -/
  spares : Tbl Nat
  /-- rows soft-repaired at the last start, by stack (R5) -/
  softRows : Tbl Nat
  /-- residue faults of the quadrants (0 to 3) and the exchange engine (4) in the last 24 h (R391) -/
  resTimes : Tbl (List Nat)
  /-- entries whose flash write is in progress (R383), oldest first -/
  histPend : List HistEntry
  deriving DecidableEq, Repr

/-- Error state at reset. -/
def Err.reset : Err :=
  { ring := [], recent := [], pcs := [], pkgFailed := [], spares := [], softRows := [], resTimes := [], histPend := [] }

/-- Module flash (R433, R383): it outlives every reset. A record slot that no CONFIG_UPDATE has written holds the
factory's record, whose bytes the model does not hold; the root public key and the device certificate, which nothing
writes, are constants of Config. -/
structure Flash where
  slot0 : Option (List Byte)
  slot1 : Option (List Byte)
  /-- the values of the factory's record, once a start has read it: none when it fails verification -/
  factory : Option (Option FactoryRecord)
  /-- the active marker -/
  active : Bool
  hist : List HistEntry
  starts : Nat
  deriving DecidableEq, Repr

/-- Flash as manufactured. -/
def Flash.reset : Flash :=
  { slot0 := none, slot1 := none, factory := none, active := false, hist := [], starts := 0 }

/-- The configuration store. -/
structure Cfg where
  /-- version and serial of the applied record; PCI identity; the slot applied -/
  version : Nat
  serial : W64
  pciId : List Nat
  slot : Bool
  pending : Bool
  recovery : Bool
  /-- reference in force, result of the last scan, flags (R426, R427) -/
  crcRef : W32
  crcLive : W32
  dirty : Bool
  adopting : Bool
  /-- the number of millisecond scans of TIM_TIME already made -/
  scanMs : Nat
  voteMs : Nat
  /-- I3C dynamic address, MCTP endpoint ID (R351, R352) -/
  dynAddr : Nat
  addrValid : Bool
  eid : Nat
  deriving DecidableEq, Repr

/-- The configuration store at reset. -/
def Cfg.reset : Cfg :=
  { version := 0, serial := 0, pciId := [], slot := false, pending := false, recovery := false, crcRef := 0, crcLive := 0,
    dirty := false, adopting := false, scanMs := 0, voteMs := 0, dynAddr := 0, addrValid := false, eid := 0 }

/-- Power, time base and start-up. -/
structure Pwr where
  /-- TIM_TIME in nanoseconds (R402); the internal oscillator is in use (R401) -/
  time : Nat
  oscInt : Bool
  /-- PWR_STATE.STATE: 0 running, 1 slack water, 2 D3hot -/
  state : Nat
  /-- rails off: 0 on, 1 deep off, 2 brown-out, 3 over-voltage, 4 thermal trip -/
  off : Nat
  /-- the time deep off begins, and the time of its notices once they have gone out (R407) -/
  deepAt : Option Nat
  deepNoticed : Option Nat
  ready : Bool
  /-- PWR_START: last step reached, FAIL and CAUSE -/
  step : Nat
  fail : Nat
  cause : Nat
  /-- effective setpoint and the setpoint the arbiter imposes, in mV; time of the last slew of 1 mV -/
  eff : Nat
  imposed : Nat
  slewAt : Nat
  /-- near-bank effective cap in TB/s and matrix issue ratio in sixteenths (R400) -/
  nbuCap : Nat
  matRatio : Nat
  /-- consecutive windows below the limit less the margin; the window number last taken; an episode of reduction for
      power, for temperature is in progress (R399) -/
  calm : Nat
  windowAt : Nat
  limEp : Bool
  thermEp : Bool
  /-- input between 36 and 40 V; between 60 and 63 V (R392) -/
  low : Bool
  high : Bool
  /-- sensors: input in mV; hottest compute die, hub die; stacks (core, base) and packages, in °C -/
  vin : Nat
  tCompute : Int
  tHub : Int
  stackT : Tbl (Int × Int)
  pkgT : Tbl Int
  /-- the posted write in progress of a block: 0 PWR, 1 FTC, 2 CTC: offset and payload (R430) -/
  posted : Tbl (Option (Nat × W16))
  /-- PWR_RST_BUSY; a function level reset waits for it to clear (Table 16.9) -/
  rstBusy : Tbl Bool
  flrWait : Bool
  /-- input power of the last windows, newest first: 100 of them make the 1 ms that PWR_PIN averages over -/
  pinHist : List Nat
  deriving DecidableEq, Repr

/-- Power and time at reset: start-up step 1 (PWR_START.STEP), everything else as the register maps give it. -/
def Pwr.reset : Pwr :=
  { time := 0, oscInt := false, state := 0, off := 0, deepAt := none, deepNoticed := none, ready := false, step := 1, fail := 0, cause := 0,
    eff := 750, imposed := 850, slewAt := 0, nbuCap := 64, matRatio := 16, calm := 0, windowAt := 0, limEp := false,
    thermEp := false, low := false, high := false, vin := 50000, tCompute := 0, tHub := 0, stackT := [],
    pkgT := [], posted := [], rstBusy := [], flrWait := false, pinHist := [] }

end Sys2Proof.Machine
end

