-- ==== Sys2Proof/Machine/StateVec.lean ====
section
/-!
DEFINITION. The state of the vector engine (chapter 5): quadrants and the commands they run.
-/
namespace Sys2Proof.Machine

/-- A dispatched vector command: a row, column or chunk at a time (R113). -/
structure VecRun where
  queue : Nat
  op : Nat
  /-- rows, columns (VX_REDUCE with AXIS = 1) or chunks -/
  total : Nat
  n : Nat
  /-- its quadrants -/
  quads : List Nat
  /-- operands in the order of Table 5.2 -/
  accs : List Acc
  /-- the outputs that an overlap leaves undefined (R126): numbers of operands; of a delayed update, 0 its descriptors, 1 its
      working copy, 2 its slots -/
  undef : List Nat
  next : Nat
  done : Nat
  skipped : Nat
  /-- results not yet stored because others of their record are missing: columns of VX_REDUCE with AXIS = 1, rows of an LSE
      output -/
  cols : Tbl (Option W32)
  fail : Option (Byte × Nat)
  /-- the quadrant whose item has asked for the external bytes in flight -/
  asker : Option Nat
  deriving DecidableEq, Repr

/-- A row, column or chunk in flight on a quadrant. -/
structure VecItem where
  queue : Nat
  idx : Nat
  /-- a chunk's slot and working copy are written and its descriptor is not (R129) -/
  written : Bool
  deriving DecidableEq, Repr

/-- The vector engine. -/
structure Vec where
  runs : List VecRun
  items : Tbl (Option VecItem)
  /-- power-gated quadrants (R114) -/
  gated : Tbl Bool
  deriving DecidableEq, Repr

/-- The vector engine at power-on. -/
def Vec.reset : Vec := { runs := [], items := [], gated := [] }

end Sys2Proof.Machine
end

