-- ==== Sys2Proof/Machine/State.lean ====
section
/-!
DEFINITION. The state of the ZT2048-M50: plain data, holding every register, table, ring, queue and mode the spec gives
the module, the queue of commands that wait, and State.reset.
-/
namespace Sys2Proof.Machine

/-- Why a step stops. No command of this block does: the spec gives every input an effect, be it to discard it. -/
inductive Fault where
  deriving DecidableEq, Repr

/-- Why a command has no meaning. -/
inductive Refusal where
  /-- Raised by Dispatch.lean for a command without a meaning. Safe: the run stops. -/
  | notModelled (mnemonic : String)
  deriving DecidableEq, Repr

/-- The module. -/
structure State where
  /-- payloads of the control registers by BAR0 offset; of a triplicated field, the first copy (R415, R423) -/
  regs : Tbl W16
  /-- second and third copies of the registers with triplicated fields (R423) -/
  regs1 : Tbl W16
  regs2 : Tbl W16
  /-- sequence-cleared status and count registers (R419, R421) -/
  stats : Tbl W32
  /-- counts shown in read-only registers, by offset -/
  ctrs : Tbl Nat
  cqf : Cqf
  mem : Mem
  hif : Hif
  mgt : Mgt
  sec : Sec
  err : Err
  flash : Flash
  cfg : Cfg
  pwr : Pwr
  mat : Mat
  vec : Vec
  nbu : Nbu
  xch : Xch
  fab : Fab
  itk : Itk
  /-- the model's own: the number of free values taken so far -/
  draws : Nat
  /-- commands waiting, first in, first out -/
  pending : List Instr
  deriving DecidableEq, Repr

/-- The module right after power-on, start-up step 1 (R392, Table 16.7): every register at the value its map gives. -/
def State.reset : State :=
  { regs := [], regs1 := [], regs2 := [], stats := [], ctrs := [], cqf := Cqf.reset, mem := Mem.reset, hif := Hif.reset,
    mgt := Mgt.reset, sec := Sec.reset, err := Err.reset, flash := Flash.reset, cfg := Cfg.reset, pwr := Pwr.reset,
    mat := Mat.reset, vec := Vec.reset, nbu := Nbu.reset, xch := Xch.reset, fab := Fab.reset, itk := Itk.reset, draws := 0,
    pending := [] }

end Sys2Proof.Machine
end

