-- ==== Sys2Proof/Machine/Regs.lean ====
section
/-!
DEFINITION. Reading and writing the register file: payloads with the vote of triplicated fields (R423), sequence-cleared
status (R419 to R421), counts, and interrupts (R320, R321).
-/
namespace Sys2Proof.Machine

/-- What an unlisted status register reads as. -/
def statReset (_ : Nat) : W32 := 0
/-- What an unlisted count reads as. -/
def ctrReset (_ : Nat) : Nat := 0

/-- The payload of a control register without triplicated fields. -/
def State.rd (s : State) (off : Nat) : Nat := (tget regReset s.regs off).toNat

/-- The bitwise majority of three copies (R423). -/
def vote3 (a b c : W16) : W16 := (a &&& b) ||| (a &&& c) ||| (b &&& c)

/-- The voted payload of a control register with triplicated fields (R423). -/
def State.rdT (s : State) (off : Nat) : Nat :=
  (vote3 (tget regReset s.regs off) (tget regReset s.regs1 off) (tget regReset s.regs2 off)).toNat

/-- A field of a control register. -/
def State.rf (s : State) (off hi lo : Nat) : Nat := fld (s.rd off) hi lo
/-- One bit of a control register. -/
def State.rbit (s : State) (off i : Nat) : Bool := bitAt (s.rd off) i

/-- Store a payload: all three copies (R423). -/
def State.setReg (s : State) (off v : Nat) : State :=
  let w := BitVec.ofNat 16 v
  match regAt off with
  | some a =>
    if a.reg.tMask = 0 then { s with regs := tput regReset s.regs off w }
    else { s with regs := tput regReset s.regs off w, regs1 := tput regReset s.regs1 off w, regs2 := tput regReset s.regs2 off w }
  | none => s

/-- A 16-bit three-part address register (A0, A1, A2). -/
def State.rd3 (s : State) (off : Nat) : Nat := s.rd off + 65536 * s.rd (off + 4) + 4294967296 * s.rd (off + 8)

/-- A status register. -/
def State.stat (s : State) (off : Nat) : W32 := tget statReset s.stats off
/-- A count. -/
def State.ctr (s : State) (off : Nat) : Nat := tget ctrReset s.ctrs off

/-- Count up by n, stopping at the largest value of a 32-bit count. -/
def State.bump (s : State) (off n : Nat) : State :=
  { s with ctrs := tput ctrReset s.ctrs off (satAdd 0xFFFFFFFF (s.ctr off) n) }
/-- Count up by n, stopping at the largest value of a 64-bit count. -/
def State.bump64 (s : State) (off n : Nat) : State :=
  { s with ctrs := tput ctrReset s.ctrs off (satAdd 0xFFFFFFFFFFFFFFFF (s.ctr off) n) }
/-- Count up by one, wrapping at 32 bits. -/
def State.bumpWrap (s : State) (off : Nat) : State :=
  { s with ctrs := tput ctrReset s.ctrs off ((s.ctr off + 1) % 4294967296) }
/-- Set a count. -/
def State.setCtr (s : State) (off v : Nat) : State := { s with ctrs := tput ctrReset s.ctrs off v }

/-- Vector control of an MSI-X entry is masked at reset; its other words are zero. -/
def msixReset (k : Nat) : W32 := if k % 4 = 3 then 1 else 0
/-- A vector's mask bit (R320). -/
def State.vecMasked (s : State) (v : Nat) : Bool := bitAt (tget msixReset s.hif.msix (4 * v + 3)).toNat 0
/-- The default of Boolean tables. -/
def noFlag (_ : Nat) : Bool := false
/-- The default of tables of counts. -/
def zeroN (_ : Nat) : Nat := 0

/-! Writes to host memory (R316, R317, R323). -/

/-- An unlisted byte. -/
def zeroB (_ : Nat) : Byte := 0
/-- The engine address of a host I/O virtual address. -/
def hostAddr (iova : Nat) : Nat := 2 ^ 63 + iova
/-- The device may send requests: the link is up and Bus Master Enable is 1. -/
def State.hostOpen (s : State) : Bool := s.hif.up && s.hif.bme
/-- A request at this address needs a 64-bit address header (R316). -/
def tlpWide (a : Nat) : Bool := decide (2 ^ 32 ≤ a)

/-- Cut bytes at address a at the multiples of u, a divisor of 4 KiB. -/
def cutAt (u : Nat) : Nat → Nat → List Byte → List (Nat × List Byte)
  | 0, _, _ => []
  | f + 1, a, bs => if bs = [] then [] else (a, bs.take (u - a % u)) :: cutAt u f (a + (u - a % u)) (bs.drop (u - a % u))

/-- Send one write request: host memory takes the bytes unless the link loses it (R323). -/
def State.tlpOut (s : State) (own : HostOwner) (a : Nat) (bs : List Byte) : State :=
  { s with hif := { s.hif with tlps := s.hif.tlps ++ [⟨own, a, tlpWide a, tgets zeroB s.hif.ext (hostAddr a) bs.length⟩],
                               ext := tputs zeroB s.hif.ext (hostAddr a) bs } }

/-- Send bytes in requests of at most min(256, Max Payload Size) bytes (R316). -/
def State.hostSend (s : State) (own : HostOwner) (a : Nat) (bs : List Byte) : State :=
  (cutAt (min 256 s.hif.conf.mps) (bs.length + 1) a bs).foldl (fun s p => s.tlpOut own p.1 p.2) s

/-- Send a posted write to host memory, or let it wait in order (R317, R323). -/
def State.hostWrite (s : State) (own : HostOwner) (iova : Nat) (bs : List Byte) : State :=
  if s.hostOpen then s.hostSend own iova bs
  else { s with hif := { s.hif with outq := s.hif.outq ++ [.write own iova bs] } }

/-- A word of the MSI-X table. -/
def State.msixAt (s : State) (k : Nat) : Nat := (tget msixReset s.hif.msix k).toNat

/-- Send a vector's message, a write of its data at its address, or let it wait in order; a message that waits already
stays single (R320, R321, R323). -/
def State.sendMsix (s : State) (v : Nat) : State :=
  let s := { s with hif := { s.hif with pba := tput noFlag s.hif.pba v false } }
  if s.hostOpen then
    ({ s with hif := { s.hif with sent := tput zeroN s.hif.sent v (tget zeroN s.hif.sent v + 1) } }).hostSend .other
      (s.msixAt (4 * v) + 4294967296 * s.msixAt (4 * v + 1)) (leBytes 4 (s.msixAt (4 * v + 2)))
  else if s.hif.outq.contains (.msix v) then s
  else { s with hif := { s.hif with outq := s.hif.outq ++ [.msix v] } }

/-- Raise a vector (R320, R321): sent when MSI-X is enabled and nothing masks it, else pending in the PBA. -/
def State.raiseVector (s : State) (v : Nat) : State :=
  if s.hif.msixOn && !s.hif.funcMask && !s.vecMasked v then s.sendMsix v
  else { s with hif := { s.hif with pba := tput noFlag s.hif.pba v true } }

/-- BAR0 offset of the interrupt map of a source. -/
def irqMap (src : Nat) : Nat := 0x410000 + 4 * src

/-- Raise interrupt source `src` (R321). -/
def State.irq (s : State) (src : Nat) : State :=
  if s.rbit (irqMap src) 15 then s.raiseVector (s.rf (irqMap src) 10 0) else s

/-- Set one event bit of a status register: SEQ rises when the bit changes from 0 to 1 (R419). -/
def setEvent (v : W32) (bit : Nat) : W32 :=
  if bitAt v.toNat bit then v
  else BitVec.ofNat 32 (((v.toNat / 16777216 + 1) % 256) * 16777216 + v.toNat % 16777216 + 2 ^ bit)

/-- Set an event bit without an interrupt. -/
def State.event (s : State) (off bit : Nat) : State :=
  { s with stats := tput statReset s.stats off (setEvent (s.stat off) bit) }

/-- The event bit is already set. -/
def State.hasEvent (s : State) (off bit : Nat) : Bool := bitAt (s.stat off).toNat bit

/-- Set an event bit and raise the block's summary interrupt when it changes and `en` holds. -/
def State.raiseIf (s : State) (off bit src : Nat) (en : Bool) : State :=
  if s.hasEvent off bit then s
  else if en then (s.event off bit).irq src else s.event off bit

/-- A sequence-cleared write (R419): the bits the mask selects clear when SEQ matches, else STALE sets. -/
def seqClear (events : Nat) (v w : W32) : W32 :=
  if w.toNat / 16777216 = v.toNat / 16777216 then
    BitVec.ofNat 32 (v.toNat &&& (0xFFFFFFFF ^^^ (w.toNat % 16777216 &&& events)))
  else setEvent v 23

/-- A write to a sequence-cleared count (R421). -/
def countClear (v w : W32) : W32 :=
  if w.toNat / 16777216 = v.toNat / 16777216 then BitVec.ofNat 32 (v.toNat / 16777216 * 16777216) else v

/-- One more in a sequence-cleared count: saturating at 0xFF_FFFF, SEQ rises at each change (R421). -/
def countUp (v : W32) : W32 :=
  let c := v.toNat % 16777216
  if c = 0xFFFFFF then v
  else BitVec.ofNat 32 (((v.toNat / 16777216 + 1) % 256) * 16777216 + c + 1)

/-! Events of the blocks, each with the enable of its summary interrupt (Table 12.4). -/

/-- GLB_STAT: 0 VOTE_REPAIR, 1 VOTE_SPLIT. -/
def State.evGlb (s : State) (bit : Nat) : State := s.raiseIf 0x34 bit 384 (s.rbit 0x30 0)
/-- PWR_STAT. -/
def State.evPwr (s : State) (bit : Nat) : State := s.raiseIf 0x200008 bit 386 (s.rbit 0x200004 0)
/-- TIM_STAT. -/
def State.evTim (s : State) (bit : Nat) : State := s.raiseIf 0x300004 bit 387 (s.rbit 0x300000 0)
/-- HIF_STAT. -/
def State.evHif (s : State) (bit : Nat) : State := s.raiseIf 0x400004 bit 388 (s.rbit 0x400000 1)
/-- CQF_STAT: its interrupts are raised by the queue and berth enables (R54, CQF_Qn_CTL). -/
def State.evCqf (s : State) (bit : Nat) : State := s.event 0x500008 bit
/-- MAT_STAT. -/
def State.evMat (s : State) (bit : Nat) : State := s.raiseIf 0x600004 bit 390 true
/-- VEC_STAT. -/
def State.evVec (s : State) (bit : Nat) : State := s.raiseIf 0x700004 bit 391 true
/-- TIR_STAT. -/
def State.evTir (s : State) (bit : Nat) : State := s.raiseIf 0x800004 bit 392 true
/-- NBU_STAT. -/
def State.evNbu (s : State) (bit : Nat) : State := s.raiseIf 0xA00004 bit 394 true
/-- XCH_STAT: BROKEN under BROKEN_IRQ_EN. -/
def State.evXch (s : State) (bit : Nat) : State := s.raiseIf 0xC00004 bit 396 (bit == 0 && s.rbit 0xC00000 1)
/-- FAB_STAT. -/
def State.evFab (s : State) (bit : Nat) : State := s.raiseIf 0xD00004 bit 397 (s.rbit 0xD00000 2)
/-- ITK_STAT. -/
def State.evItk (s : State) (bit : Nat) : State := s.raiseIf 0xE00004 bit 398 true
/-- MGT_STAT. -/
def State.evMgt (s : State) (bit : Nat) : State := s.raiseIf 0xF00004 bit 399 true
/-- SEC_STAT. -/
def State.evSec (s : State) (bit : Nat) : State := s.raiseIf 0x1000004 bit 400 (s.rbit 0x1000000 0)
/-- ERR_STAT: interrupts come with records (R380). -/
def State.evErr (s : State) (bit : Nat) : State := s.event 0x1100004 bit

/-- The next free value's number. -/
def State.draw (s : State) : State := { s with draws := s.draws + 1 }

/-- Log an error under AER (R307, R314): its bit of the Uncorrectable Error Status, and in the header log the header of the
first, whose bits the link has and the model does not. -/
def State.aerEvent (s : State) (bit : Nat) : State :=
  { s with hif := { s.hif with aer := s.hif.aer ||| BitVec.ofNat 32 (2 ^ bit),
                               aerLog := if s.hif.aer = 0 then (List.range 4).map fun i => Config.freeWord (4 * s.draws + i)
                                         else s.hif.aerLog } }.draw

/-- Milliseconds of TIM_TIME since an instant. -/
def State.msSince (s : State) (t : Nat) : Nat := (s.pwr.time - t) / 1000000

/-- A deadline of `d` milliseconds that started at `t` has expired (R402). -/
def State.due (s : State) (t d : Nat) : Bool := decide (t + d * 1000000 ≤ s.pwr.time)

end Sys2Proof.Machine
end

