-- ==== Sys2Proof/Machine/Ops.lean ====
section
/-!
DEFINITION. Operations every block shares: error records with their rate limit and the persistent history (R380 to
R383), the log ring (R349), status codes (Table 0.6).
-/
namespace Sys2Proof.Machine

/-! Status codes (Table 0.6). -/
def stOK : Byte := 0x00
def stNoted : Byte := 0x01
def stBadOpcode : Byte := 0x10
def stBadLength : Byte := 0x11
def stBadAddress : Byte := 0x12
def stBadParam : Byte := 0x13
def stFormat : Byte := 0x14
def stQuota : Byte := 0x15
def stOverrun : Byte := 0x16
def stPoisoned : Byte := 0x20
def stResidue : Byte := 0x21
def stUncorrectable : Byte := 0x22
def stPeer : Byte := 0x30
def stVersion : Byte := 0x31
def stAborted : Byte := 0x40
def stTimeout : Byte := 0x41
def stOutOfService : Byte := 0x42

/-- Every status the device may report (R11). -/
def statusCodes : List Byte :=
  [0x00, 0x01, 0x10, 0x11, 0x12, 0x13, 0x14, 0x15, 0x16, 0x20, 0x21, 0x22, 0x30, 0x31, 0x40, 0x41, 0x42]

/-- OK and OK_NOTED are successes; every other code is a failure (R11). -/
def isSuccess (st : Byte) : Bool := st == 0x00 || st == 0x01

/-- A failure: status and DETAIL. -/
structure Fail where
  st : Byte
  detail : Nat
  deriving DecidableEq, Repr

/-- DETAIL of a parameter check: word index in [7:0], lowest offending bit in [15:8] (Table 2.6). -/
def badParam (word bit : Nat) : Fail := ⟨stBadParam, word + 256 * bit⟩
/-- DETAIL of an address check: word index in [7:0], reason in [11:8] (Table 7.10). -/
def badAddr (word reason : Nat) : Fail := ⟨stBadAddress, word + 256 * reason⟩

/-- The number of history entries held, counting those whose flash write is in progress. -/
def State.histCount (s : State) : Nat := s.flash.hist.length + s.err.histPend.length

/-- Begin the flash write of a history entry; STARTS and CFG_VERSION are the device's (R383, R384). -/
def State.histAdd (kind unit location : Nat) (s : State) : State :=
  if s.histCount < 4096 then
    { s with err := { s.err with histPend := s.err.histPend ++ [⟨kind, unit, location, s.flash.starts, s.cfg.version⟩] } }
  else s.evErr 4

/-- What an unlisted entry of an optional table reads as. -/
def noneD {α : Type} (_ : Nat) : Option α := none

/-- The source of a record for R381: a unit of a block, or a register for class 0x08. -/
def recKey (cls block unit info : Nat) : Nat :=
  cls * 2 ^ 40 + block * 2 ^ 32 + (if cls = 8 then info else unit)

/-- A source wrote a record of this class less than one millisecond ago (R381). -/
def State.recRecent (s : State) (key : Nat) : Bool :=
  match tget noneD s.err.recent key with
  | some t => decide (s.pwr.time < t + 1000000)
  | none => false

/-- The history entry firmware adds for a record (R383). -/
def State.recHist (cls unit info location : Nat) (s : State) : State :=
  if cls = 0x02 ∨ cls = 0x05 then s.histAdd 4 unit location
  else if cls = 0x0C ∧ fld info 7 4 = 3 then s.histAdd 3 unit 0
  else if cls = 0x0E ∧ bitAt info 8 then s.histAdd 5 unit 0
  else s

/-- Write an error record (R380): the ring slot, ERR_REC_SEQ, ERR_STAT.RECORD, the summary bit, source 401. -/
def State.recWrite (cls severity block unit info location : Nat) (s : State) : State :=
  let n := s.ctr 0x110000C
  let r : ErrRec := ⟨s.pwr.time, BitVec.ofNat 32 n, cls, severity, block, unit, info, location⟩
  let s := { s with err := { s.err with ring := tput noneD s.err.ring (n % 256) (some r),
                                        recent := tput noneD s.err.recent (recKey cls block unit info) (some s.pwr.time) } }
  let s := ((s.bumpWrap 0x110000C).evErr 0).event 0x1100008 block
  let s := if s.rbit 0x1100000 2 then s.irq 401 else s
  s.recHist cls unit info location

/-- Report a fault, service change or threshold crossing: a record, or a suppressed one (R380, R381). -/
def State.errRec (cls severity block unit info location : Nat) (s : State) : State :=
  if s.recRecent (recKey cls block unit info) then (s.bump 0x1100010 1).evErr 1
  else s.recWrite cls severity block unit info location

/-! Votes. -/

/-- The registers with triplicated fields. -/
def tRegs : List (Nat × RegAt) :=
  (regGroups.filter fun g => g.regs.any fun r => r.tMask != 0).flatMap fun g => g.all.filter fun e => e.2.reg.tMask != 0

/-- Vote one register (R424). -/
def State.voteReg (s : State) (off mask : Nat) : State :=
  let m := s.rdT off &&& mask
  let c0 := (tget regReset s.regs off).toNat &&& mask
  let c1 := (tget regReset s.regs1 off).toNat &&& mask
  let c2 := (tget regReset s.regs2 off).toNat &&& mask
  let bad := (List.range 3).filter fun i => [c0, c1, c2].getD i 0 != m
  match bad with
  | [] => s
  | i :: more =>
    let v := (tget regReset s.regs off).toNat
    let s := s.setReg off ((v &&& (0xFFFF ^^^ mask)) ||| m)
    let s := bad.foldl (fun s _ => { s with stats := tput statReset s.stats 0x38 (countUp (s.stat 0x38)) }) s
    let s := s.evGlb 0
    let s := if more = [] then s else s.evGlb 1
    s.errRec 0x08 0 0 0 off (if more = [] then i else 3)

/-- A read or a use of a T register votes it (R423); any other register has nothing to vote. -/
@[irreducible] def State.useT (s : State) (off : Nat) : State :=
  match regAt off with
  | some a => if a.reg.tMask = 0 then s else s.voteReg off a.reg.tMask
  | none => s

/-- Write a log entry (R349): the ring slot, then MGT_LOG_SEQ. Nothing while LOG_EN is 0 or the core is restarting or
halted (R346, R348). -/
def State.logPut (event severity source : Nat) (args : List W32) (s : State) : State :=
  if s.rbit 0xF00000 2 ∧ s.mgt.core ≠ 2 ∧ s.mgt.core ≠ 3 then
    let n := s.ctr 0xF00018
    let e : LogEntry := ⟨s.pwr.time, BitVec.ofNat 32 n, event, severity, source, args⟩
    ({ s with mgt := { s.mgt with log := tput noneD s.mgt.log (n % 2048) (some e) } }).bumpWrap 0xF00018
  else s
/-- An event of the ROM (Table 13.10). -/
def State.logWrite (event severity : Nat) (args : List Nat) (s : State) : State :=
  s.logPut event severity 0 (args.map fun a => BitVec.ofNat 32 a)

/-- The enabled trace points of n enable registers from register k on (R350). -/
def State.traceOn (s : State) (k n : Nat) : List Nat :=
  (List.range' k n).flatMap fun i =>
    let v := s.rd (0xF00080 + 4 * i)
    (List.range 16).filterMap fun b => if bitAt v b then some (16 * i + b) else none
/-- The firmware passes a trace point, or does not: a free value says. -/
def State.tracePoint (s : State) (p : Nat) : State :=
  match Config.traceEntry s.mgt.acts p with
  | some (v, a, b, c, d) => s.logPut p v.toNat 2 [a, b, c, d]
  | none => s
/-- One act of the firmware (R350): it may pass each enabled trace point of its group (n registers from k on) and, while a
supplement is active, of the supplement. -/
def State.trace (s : State) (k n : Nat) : State :=
  let ps := s.traceOn k n ++ (if s.mgt.supp.isSome then s.traceOn 16 16 else [])
  let t := ps.foldl State.tracePoint s
  { t with mgt := { t.mgt with acts := s.mgt.acts + 1 } }

/-- Write three address parts of a register group. -/
def addr3 (a : Nat) : List Nat := [fld a 15 0, fld a 31 16, fld a 47 32]

end Sys2Proof.Machine
end

