-- ==== Sys2Proof/Machine/Memory.lean ====
section
/-!
DEFINITION. Reading and writing the unified range (chapters 7 and 15): the page map and where a byte lives (R155, R160
to R162), zero marks (R156), packed pages (R177 to R180), array codes and poison (R370 to R374), qualification mode
(R378), out-of-service pseudo-channels (R390), access counters (R165).
-/
namespace Sys2Proof.Machine

/-- Bytes of the unified range. -/
def rangeBytes : Nat := 2 ^ 41
/-- Bytes of a tier page. -/
def pageBytes : Nat := 2 ^ 21
/-- Frames of the fast tier. -/
def fastFrames : Nat := 262144

/-- An unlisted page lies in the frame of its own number (R155), and the other way round. -/
def idN (k : Nat) : Nat := k
/-- An unlisted codeword has no error. -/
def noPat (_ : Nat) : List (Nat × Byte) := []
/-- An unlisted pseudo-channel is in service. -/
def pcOk (_ : Nat) : Pc := Pc.ok
/-- An unlisted group of the repair map is home. -/
def homeMap (_ : Nat) : Nat := 8

/-! Regions (Table 7.1). -/
def Region.pages (r : Region) : Nat := fld r.desc 20 0
def Region.kind (r : Region) : Nat := fld r.desc 22 21
def Region.hint (r : Region) : Nat := fld r.desc 25 23
def Region.shared (r : Region) : Bool := bitAt r.desc 26
def Region.act (r : Region) : Bool := bitAt r.desc 27
def Region.compress (r : Region) : Bool := bitAt r.desc 28
def Region.first (r : Region) : Nat := r.base / pageBytes
/-- The region holds page x. -/
def Region.has (r : Region) (x : Nat) : Bool := decide (r.first ≤ x) && decide (x < r.first + r.pages)

/-- The live regions with their numbers. -/
def Mem.live (m : Mem) : List (Nat × Region) := m.regions.filterMap fun e => e.2.map fun r => (e.1, r)
/-- The region that holds page x. -/
def Mem.regionOf (m : Mem) (x : Nat) : Option (Nat × Region) := m.live.find? fun e => e.2.has x
/-- The frame that holds page x. -/
def Mem.frame (m : Mem) (x : Nat) : Nat := tget idN m.frameOf x
/-- The page that frame f holds. -/
def Mem.pageAt (m : Mem) (f : Nat) : Nat := tget idN m.pageIn f
/-- Page x lies in the capacity tier. -/
def Mem.inCap (m : Mem) (x : Nat) : Bool := decide (fastFrames ≤ m.frame x)

/-- The physical address of a byte, before retirement: tier (true: capacity) and address within the tier. -/
def Mem.phys0 (m : Mem) (a : Nat) : Bool × Nat :=
  let f := m.frame (a / pageBytes)
  if fastFrames ≤ f then (true, (f - fastFrames) * pageBytes + a % pageBytes) else (false, f * pageBytes + a % pageBytes)

/-- The physical address of a byte: a retired 64 KiB frame is reached through its spare (R182). -/
def Mem.phys (m : Mem) (a : Nat) : Bool × Nat :=
  let p := m.phys0 a
  match m.remap.find? fun r => r.cap == p.1 && r.frame == p.2 / 65536 with
  | some r => m.phys0 (r.spare + p.2 % 65536)
  | none => p

/-- A place in the fast tier: stack, channel, pseudo-channel, stack ID, bank, row, and the byte within the row's 1 KiB of
data. -/
structure FastLoc where
  stack : Nat
  channel : Nat
  pc : Nat
  sid : Nat
  bank : Nat
  row : Nat
  byte : Nat
  deriving DecidableEq, Repr

/-- Where fast-tier physical address p lies in interleaved memory (Table 7.2). -/
def fastLoc (p : Nat) : FastLoc :=
  { stack := fld p 10 8 ^^^ fld p 27 25, channel := fld p 15 11 ^^^ fld p 32 28, pc := fld p 16 16, sid := fld p 24 23,
    bank := fld p 22 19, row := fld p 38 25, byte := fld p 18 17 * 256 + fld p 7 0 }

/-- The logical bank pair of an offset within a unit of a bank-aligned region (R161). -/
def pairOf (u : Nat) : Nat := fld u 24 11

/-- Where offset u of a unit in physical row `row` lies, its group being home (R161): bank 2j + h of the pair. -/
def alignedLoc (row u : Nat) : FastLoc :=
  let p := pairOf u
  { stack := fld p 13 11, channel := fld p 10 6, pc := fld p 5 5, sid := fld p 4 3, bank := fld p 2 0 * 2 + fld u 10 10,
    row := row, byte := fld u 9 0 }

/-- Stack × 64 + channel × 2 + pseudo-channel. -/
def FastLoc.unit (l : FastLoc) : Nat := l.stack * 64 + l.channel * 2 + l.pc
/-- Logical pair × 2 + bank of the pair: R161 read backwards. -/
def FastLoc.bankKey (l : FastLoc) : Nat :=
  (l.stack * 2 ^ 11 + l.channel * 2 ^ 6 + l.pc * 2 ^ 5 + l.sid * 8 + l.bank / 2) * 2 + l.bank % 2

/-- The package of a capacity-tier physical address, and the address within it (R162). -/
def capLoc (c : Nat) : Nat × Nat := (c / 256 % 24, c / 256 / 24 * 256 + fld c 7 0)

/-- Where a word lies: capacity package, or fast-tier pseudo-channel; and the LOCATION of R439. -/
structure Loc where
  cap : Bool
  /-- stack × 64 + pseudo-channel, or package -/
  unit : Nat
  location : Nat
  /-- the fast-tier bank a row operation may hold (logical pair × 2 + bank), and whether it is reached through the repair
  map (R195) -/
  bank : Option (Nat × Bool)

/-- Where the byte at local offset a lies in interleaved memory or the capacity tier. -/
def Mem.locPhys (m : Mem) (a : Nat) : Loc :=
  let p := m.phys a
  if p.1 then ⟨true, (capLoc p.2).1, 2 ^ 63 + p.2, none⟩
  else ⟨false, (fastLoc p.2).unit, p.2, some ((fastLoc p.2).bankKey, false)⟩

/-- Where the byte at local offset a lies (R160 to R162, R439). -/
def Mem.loc (m : Mem) (a : Nat) : Loc :=
  match m.regionOf (a / pageBytes) with
  | some (_, r) =>
    if r.kind = 1 then
      let l := alignedLoc (r.rows.getD ((a - r.base) / 2 ^ 25) 0) ((a - r.base) % 2 ^ 25)
      ⟨false, l.unit, 2 ^ 62 + a, some (l.bankKey, true)⟩
    else m.locPhys a
  | none => m.locPhys a

/-- The bytes of a codeword of the tier that holds offset a (Table 15.1). -/
def Mem.wordSize (m : Mem) (a : Nat) : Nat := if m.inCap (a / pageBytes) then 64 else 32
/-- The first byte of the codeword that holds offset a. -/
def Mem.wordBase (m : Mem) (a : Nat) : Nat := a / m.wordSize a * m.wordSize a
/-- Decode the codeword at base w of size k. -/
def Mem.decode (m : Mem) (w k : Nat) : WordRead :=
  let e := tget noPat m.errs (w / 32)
  if k = 64 then decode64 e else decode32 e

/-- The bases and sizes of the codewords that [a, a + n) touches, with `fuel` at least their number. -/
def Mem.wordsF (m : Mem) : Nat → Nat → Nat → List (Nat × Nat)
  | 0, _, _ => []
  | f + 1, a, e => if a < e then
      let k := m.wordSize a
      let w := m.wordBase a
      (w, k) :: m.wordsF f (w + k) e
    else []
/-- The codewords that [a, a + n) touches. -/
def Mem.words (m : Mem) (a n : Nat) : List (Nat × Nat) := m.wordsF (n / 32 + 2) a (a + n)

/-- Who reads: a queue's engine, the gangway, a peer, a near-bank unit, a copy, the front end or firmware (Table 15.4).
The value is INFO of a POISON_READ record. -/
inductive Reader where
  | queue (q : Nat)
  | gangway
  | other
  deriving DecidableEq, Repr

def Reader.info : Reader → Nat
  | .queue q => q
  | .gangway => 0xFFFF
  | .other => 0xFFFF

/-- The pages of [a, a + n). -/
def pagesOf (a n : Nat) : List Nat :=
  if n = 0 then [] else (List.range ((a + n - 1) / pageBytes - a / pageBytes + 1)).map fun i => a / pageBytes + i

/-- One 256-byte request of [a, a + n) at a time: the page of each (R165). -/
def requestPages (a n : Nat) : List Nat :=
  if n = 0 then [] else (List.range ((a + n - 1) / 256 - a / 256 + 1)).map fun i => (a / 256 + i) * 256 / pageBytes

/-- Count the requests of an access in the page access counters, saturating at 255 (R165). -/
def Mem.touch (m : Mem) (a n : Nat) : Mem :=
  { m with access := (requestPages a n).foldl (fun t x => tput zeroN t x (satAdd 255 (tget zeroN t x) 1)) m.access }

/-- Does the pseudo-channel of a word hold its accesses (R390)? -/
def State.pcWaits (s : State) (l : Loc) : Bool :=
  !l.cap && (let c := tget pcOk s.err.pcs l.unit
    c.svc.st == 2 || c.svc.st == 3 || (c.svc.st == 1 && !c.svc.failed))
/-- Has the pseudo-channel of a word failed (R390)? -/
def State.pcFailed (s : State) (l : Loc) : Bool :=
  if l.cap then tget noFlag s.err.pkgFailed l.unit
  else (let c := tget pcOk s.err.pcs l.unit
    c.svc.st == 1 && c.svc.failed)
/-- Is the bank of a word held by a row operation (R197)? The rows of a logical group that the repair map sends to a spare
lie in the spare's banks, interleaved rows always in the home banks (R195). -/
def State.bankHeld (s : State) (l : Loc) : Bool :=
  match l.bank with
  | some (b, mapped) => tget noFlag s.nbu.holds b && (mapped || tget homeMap s.nbu.map (b / 16) == 8)
  | none => false

/-- Some bank is held, or some pseudo-channel is out of service. -/
def State.holding (s : State) : Bool := !s.nbu.holds.isEmpty || s.err.pcs.any fun e => e.2.svc.st != 0

/-- An access to [a, a + n) waits: a bank hold (R197), or a pseudo-channel out of service (R390). -/
def State.accessWaits (s : State) (a n : Nat) : Bool :=
  s.holding && (s.mem.words a n).any fun w => (s.pcWaits (s.mem.loc w.1)) || s.bankHeld (s.mem.loc w.1)

/-- A page is being moved (R166). -/
def Mem.moving (m : Mem) (x : Nat) : Bool := m.moves.any fun v => v.page == x || v.victim == x
/-- A write to [a, a + n) waits: as an access, or for the switch of a page move (R166). -/
def State.writeWaits (s : State) (a n : Nat) : Bool :=
  s.accessWaits a n || (pagesOf a n).any fun x => s.mem.moving x

/-- Count a write that waits for the switch of a page move in TIR_WRITE_WAITS, once for each holder (a queue, or a place of
arrival from 384 on) and page of a move (R166). -/
def State.holdWrite (who a n : Nat) (s : State) : State :=
  let new := (pagesOf a n).filterMap fun x => if s.mem.moving x && !s.mem.waits.contains (who, x) then some (who, x) else none
  if new = [] then s else ({ s with mem := { s.mem with waits := s.mem.waits ++ new } }).bump64 0x800038 1

/-- The BAR0 offset of the corrected-word count of a word's controller; UE lies 4 above (FTC_Sn_CE, CTC_Pn_CE). -/
def ceOff (l : Loc) : Nat := if l.cap then 0xB10004 + 0x40 * l.unit else 0x910008 + 0x40 * (l.unit / 64)
/-- The block that a record about a word names (R439): FTC 9 or CTC 11. -/
def tierBlock (l : Loc) : Nat := if l.cap then 11 else 9

/-- Poison both units of a codeword (R373). -/
def poisonPat (k : Nat) : List (Nat × Byte) := if k = 64 then ffPat 64 72 else ffPat 32 36

/-- The poison units of [a, e) in a codeword: does the access touch its low unit, its high unit? -/
def touchLow (w k a e : Nat) : Bool := if k = 64 then decide (a < w + 32) && decide (w < e) else true
def touchHigh (w k a e : Nat) : Bool := if k = 64 then decide (w + 32 < e) && decide (a < w + 64) else true

/-- How the read of a codeword ends for the reader. -/
inductive ReadEnd where
  | ok
  | poisoned
  | uncorrectable
  deriving DecidableEq, Repr

/-- The first fault of two (R40: the first one found). -/
def ReadEnd.or : ReadEnd → ReadEnd → ReadEnd
  | .ok, b => b
  | a, _ => a

/-- Qualification mode covers the word: ERR_CTL.QUAL and a region with ACT (R378). -/
def State.qualWord (s : State) (w : Nat) : Bool :=
  s.rbit 0x1100000 1 && (match s.mem.regionOf (w / pageBytes) with
    | some (_, r) => r.act
    | none => false)

/-- Find a word uncorrectable (R373): poison it, count it, write one record. `kind` is INFO of ARRAY_UE; scrubbing
writes SCRUB_UE instead. -/
def State.foundUe (cls kind w k : Nat) (s : State) : State :=
  let l := s.mem.loc w
  let s := { s with mem := { s.mem with errs := tput noPat s.mem.errs (w / 32) (poisonPat k) } }
  (s.bump (ceOff l + 4) 1).errRec cls 1 (tierBlock l) l.unit kind l.location

/-- Read one codeword for a reader of bytes [a, e) (R372 to R374, R378, R390). `cls`, `kind`: the record of an
uncorrectable word. -/
def State.readWord (rd : Reader) (cls kind w k a e : Nat) (s : State) : ReadEnd × State :=
  let l := s.mem.loc w
  if s.pcFailed l then (.uncorrectable, (s.evErr 5).errRec cls 1 (tierBlock l) l.unit kind l.location)
  else match s.mem.decode w k with
    | .poisoned lo hi =>
      if (lo && touchLow w k a e) || (hi && touchHigh w k a e) then
        (.poisoned, s.errRec 0x03 1 (tierBlock l) l.unit rd.info l.location)
      else (.ok, s)
    | .good _ => (.ok, s)
    | .corrected p =>
      if s.qualWord w then (.ok, s.bump64 0x1100030 1)
      else (.ok, ({ s with mem := { s.mem with errs := tput noPat s.mem.errs (w / 32) p } }).bump (ceOff l) 1)
    | .uncorrectable =>
      if s.qualWord w then (.ok, s.bump64 0x1100030 1)
      else (.uncorrectable, s.foundUe cls kind w k)

/-- Read every codeword of a list; the first fault found is the read's (R40). -/
def State.readWords (rd : Reader) (cls kind a e : Nat) : List (Nat × Nat) → State → ReadEnd × State
  | [], s => (.ok, s)
  | (w, k) :: ws, s =>
    let r := s.readWord rd cls kind w k a e
    let t := State.readWords rd cls kind a e ws r.2
    (r.1.or t.1, t.2)

/-- The byte at a, with an error pattern of its codeword applied. -/
def Mem.byteUnder (m : Mem) (a : Nat) (p : List (Nat × Byte)) : Byte :=
  match p.find? fun x => x.1 == a - m.wordBase a with
  | some x => tget zeroB m.cells a ^^^ x.2
  | none => tget zeroB m.cells a

/-- A stored byte: the error pattern of its codeword applied (R372: stored bytes). -/
def Mem.rawByte (m : Mem) (a : Nat) : Byte := m.byteUnder a (tget noPat m.errs (m.wordBase a / 32))
/-- The stored bytes of [a, a + n). -/
def Mem.raws (m : Mem) (a n : Nat) : List Byte := (List.range n).map fun i => m.rawByte (a + i)

/-- Apply an error pattern to the data of a codeword: what was stored in error becomes the data. -/
def Mem.applyPat (m : Mem) (w : Nat) (p : List (Nat × Byte)) (k : Nat) : Mem :=
  { m with cells := (p.filter fun e => decide (e.1 < k)).foldl (fun t e => tput zeroB t (w + e.1) (tget zeroB t (w + e.1) ^^^ e.2)) m.cells }

/-! Packed pages: the tokens of Table 7.6 and the index entries of Table 7.7. -/

/-- Decode zero-run tokens until `n` bytes have been produced (R178); none for a code that does not produce exactly
`n`. -/
def zrDecode : Nat → Nat → List Byte → Option (List Byte)
  | _, 0, _ => some []
  | 0, _ + 1, _ => none
  | _ + 1, _ + 1, [] => none
  | f + 1, n + 1, c :: cs =>
    let v := c.toNat
    if v < 128 then
      let m := v + 1
      if m ≤ n + 1 ∧ m ≤ cs.length then (zrDecode f (n + 1 - m) (cs.drop m)).map (cs.take m ++ ·) else none
    else
      let m := if v < 192 then v - 128 + 1 else (v - 192 + 1) * 64
      if m ≤ n + 1 then (zrDecode f (n + 1 - m) cs).map (List.replicate m 0 ++ ·) else none

/-- The word size of a region's code (R177): 4 for FP32 (code 0) and INT32, 2 for BF16 and FP16, 4 untyped, else 1. -/
def packWord (tag : Nat) : Nat :=
  if fld tag 9 8 = 0 then 4
  else match fld tag 3 0 with
    | 0 => 4
    | 1 => 2
    | 2 => 2
    | 15 => 4
    | _ => 1

/-- Separate the byte planes of a block, byte w − 1 of every word first (R177, step 2). -/
def planes (w : Nat) (bs : List Byte) : List Byte :=
  (List.range w).flatMap fun p => (List.range (bs.length / w)).map fun i => bs.getD (i * w + (w - 1 - p)) 0
/-- Put the byte planes back. -/
def unplanes (w : Nat) (bs : List Byte) : List Byte :=
  let n := bs.length / w
  (List.range n).flatMap fun i => (List.range w).map fun b => bs.getD ((w - 1 - b) * n + i) 0

/-- The zero bytes a stream begins with. -/
def zeroRun : List Byte → Nat
  | [] => 0
  | b :: bs => if b = 0 then zeroRun bs + 1 else 0

/-- The bytes before the next run of two or more zeros, or the end (R178). -/
def literalRun : List Byte → Nat
  | [] => 0
  | [_] => 1
  | a :: b :: bs => if a = 0 ∧ b = 0 then 0 else literalRun (b :: bs) + 1

/-- Long tokens of the largest multiple of 64 up to 4,096 while 64 or more remain, then one short token (R178). -/
def zeroTokens : Nat → Nat → List Byte
  | 0, _ => []
  | f + 1, z =>
    if 64 ≤ z then
      let m := min (z / 64) 64
      BitVec.ofNat 8 (192 + (m - 1)) :: zeroTokens f (z - m * 64)
    else if 0 < z then [BitVec.ofNat 8 (128 + (z - 1))] else []

/-- Literal tokens of up to 128 bytes (R178). -/
def literalTokens : Nat → List Byte → List Byte
  | 0, _ => []
  | _ + 1, [] => []
  | f + 1, bs => BitVec.ofNat 8 ((bs.take 128).length - 1) :: bs.take 128 ++ literalTokens f (bs.drop 128)

/-- Code a stream greedily (R178). -/
def zrEncode : Nat → List Byte → List Byte
  | 0, _ => []
  | _ + 1, [] => []
  | f + 1, bs =>
    let z := zeroRun bs
    if 2 ≤ z then zeroTokens z z ++ zrEncode f (bs.drop z)
    else
      let m := max 1 (literalRun bs)
      literalTokens m (bs.take m) ++ zrEncode f (bs.drop m)

/-- Code a 4 KiB block: the padded code, or none when it is stored raw (R177). -/
def packBlock (w : Nat) (bs : List Byte) : Option (List Byte) :=
  let c := zrEncode 4096 (planes w bs)
  let p := padTo (alignUp c.length 32) c
  if 4096 ≤ p.length then none else some p

/-- An index entry as its fields (Table 7.7). -/
def idxEntry (offset len32 : Nat) (raw : Bool) : Nat :=
  offset + (len32 - 1) * 65536 + b2n raw * 2 ^ 23 + 2 ^ 24

/-- The local offset of the index entry of a block of a page of region r (R176). -/
def Region.idxAt (r : Region) (page block : Nat) : Nat := r.idx + (page - r.first) * 2048 + block * 4

/-- The index entry of block b of packed page x. -/
def Mem.idxOf (m : Mem) (r : Region) (x b : Nat) : Nat := leNat (m.raws (r.idxAt x b) 4)

/-- The extent of block b of packed page x in its frame: offset and length. -/
def Mem.blockExtent (m : Mem) (r : Region) (x b : Nat) : Nat × Nat :=
  let e := m.idxOf r x b
  (x * pageBytes + fld e 15 0 * 32, if bitAt e 23 then 4096 else (fld e 22 16 + 1) * 32)

/-- The bytes of block b of packed page x, decoded; none for a code that does not decode (R178). -/
def Mem.unpackBlock (m : Mem) (r : Region) (x b : Nat) : Option (List Byte) :=
  let g := m.blockExtent r x b
  if bitAt (m.idxOf r x b) 23 then some (m.raws g.1 4096)
  else (zrDecode 4096 4096 (m.raws g.1 g.2)).map (unplanes (packWord r.tag))

/-- The bytes of [a, a + n) within one 4 KiB block of a packed page; none when the block does not decode. -/
def Mem.packedBytes (m : Mem) (r : Region) (a n : Nat) : Option (List Byte) :=
  (m.unpackBlock r (a / pageBytes) (a % pageBytes / 4096)).map fun bs => (bs.drop (a % 4096)).take n

/-- What a read gives. -/
inductive Got where
  | bytes (bs : List Byte)
  | poisoned
  | uncorrectable
  /-- a packed block that does not decode (R178): DATA_POISONED with BAD_STREAM -/
  | badStream
  deriving DecidableEq, Repr

/-- Undefined bytes for [a, a + n). -/
def State.undefBytes (a n : Nat) (s : State) : List Byte × State :=
  ((List.range n).map fun i => Config.freeByte s.draws (a + i), s.draw)

/-- What a read gives that another one precedes. -/
def ReadEnd.also (e : ReadEnd) (x : ReadEnd × State) : ReadEnd × State := (e.or x.1, x.2)

/-- Read the codewords of a packed block: its index entry, then its extent (R176). -/
def State.readPacked (rd : Reader) (cls kind : Nat) (r : Region) (x b : Nat) (s : State) : ReadEnd × State :=
  let at_ := r.idxAt x b
  let i := s.readWords rd cls kind at_ (at_ + 4) (s.mem.words at_ 4)
  let g := i.2.mem.blockExtent r x b
  i.1.also (i.2.readWords rd cls kind g.1 (g.1 + g.2) (i.2.mem.words g.1 g.2))

/-- What a read gives whose codewords have been read: its bytes, unless they do not decode (R178). -/
def State.gotOf (e : ReadEnd) (bs : State → Option (List Byte)) (s : State) : Got × State :=
  match e with
  | .ok => match bs s with
    | some bs => (.bytes bs, s)
    | none => (.badStream, s.evTir 4)
  | .poisoned => (.poisoned, s)
  | .uncorrectable => (.uncorrectable, s)

/-- Read a run that lies within one 4 KiB block. -/
def State.readBlock (rd : Reader) (cls kind a n : Nat) (s : State) : Got × State :=
  let x := a / pageBytes
  match s.mem.regionOf x with
  | none => let t := s.undefBytes a n
    (.bytes t.1, t.2)
  | some (_, r) =>
    if tget noFlag s.mem.zero x then (.bytes (List.replicate n 0), s)
    else if tget noFlag s.mem.packed x then
      if r.tampered then
        let t := s.undefBytes a n
        (.bytes t.1, t.2)
      else
        let t := s.readPacked rd cls kind r x (a % pageBytes / 4096)
        t.2.gotOf t.1 fun s => s.mem.packedBytes r a n
    else
      let t := s.readWords rd cls kind a (a + n) (s.mem.words a n)
      t.2.gotOf t.1 fun s => some (s.mem.raws a n)

/-- Read [a, a + n) block by block; the first fault is the read's, and later blocks are not read. -/
def State.readF (rd : Reader) (cls kind : Nat) : Nat → Nat → Nat → State → Got × State
  | 0, _, _, s => (.bytes [], s)
  | f + 1, a, n, s =>
    if n = 0 then (.bytes [], s)
    else
      let m := min n (4096 - a % 4096)
      let r := s.readBlock rd cls kind a m
      match r.1 with
      | .bytes bs =>
        let t := State.readF rd cls kind f (a + m) (n - m) r.2
        match t.1 with
        | .bytes cs => (.bytes (bs ++ cs), t.2)
        | g => (g, t.2)
      | g => (g, r.2)

/-- Read n bytes of the unified range at local offset a, counting the requests (R165). -/
def State.memRead (rd : Reader) (a n : Nat) (s : State) : Got × State :=
  State.readF rd 0x02 0 (n / 4096 + 2) a n { s with mem := s.mem.touch a n }

/-- Clear the frame of a page that is written for the first time (R156). -/
def Mem.firstClear (m : Mem) (x : Nat) : Mem :=
  if tget noFlag m.zero x then
    { m with cells := tclear (x * pageBytes) ((x + 1) * pageBytes) m.cells,
             errs := tclear (x * pageBytes / 32) ((x + 1) * pageBytes / 32) m.errs,
             zero := tput noFlag m.zero x false }
  else m

/-- Mark poisoned the units of [a, a + n) (R199 and copies, R373). -/
def Mem.poison (m : Mem) (a n : Nat) : Mem :=
  (m.words a n).foldl (fun m w =>
    let p := tget noPat m.errs (w.1 / 32)
    let q := if w.2 = 64 then
        (if touchLow w.1 64 a (a + n) then ffPat 64 68 else []) ++ (if touchHigh w.1 64 a (a + n) then ffPat 68 72 else [])
      else ffPat 32 36
    let keep := match (if w.2 = 64 then decode64 p else decode32 p) with
      | .poisoned l h => if w.2 = 64 then (if l && !touchLow w.1 64 a (a + n) then ffPat 64 68 else []) ++
          (if h && !touchHigh w.1 64 a (a + n) then ffPat 68 72 else []) else []
      | _ => []
    { m with errs := tput noPat m.errs (w.1 / 32) (patXor (q ++ keep) []) }) m

/-- One block of a page that is being expanded: its plain bytes, none when its code is poisoned, uncorrectable or does not
decode (R180; log entry 24); a tampered index gives undefined bytes (R181). -/
def State.expandBlock (r : Region) (x b : Nat) (s : State) : Option (List Byte) × State :=
  if r.tampered then
    let t := s.undefBytes (x * pageBytes + b * 4096) 4096
    (some t.1, t.2)
  else
    let t := s.readPacked .other 0x02 2 r x b
    let g := t.2.gotOf t.1 fun s => s.mem.unpackBlock r x b
    match g.1 with
    | .bytes bs => (some bs, g.2)
    | _ => (none, g.2)

/-- The blocks of a page that is being expanded, from block n − 1 down to 0 (R180). -/
def State.expandBlocks (r : Region) (x : Nat) : Nat → State → List (Nat × Option (List Byte)) × State
  | 0, s => ([], s)
  | n + 1, s =>
    let b := s.expandBlock r x n
    let t := b.2.expandBlocks r x n
    ((n, b.1) :: t.1, t.2)

/-- Lay a block into its plain position: its bytes, or poison. -/
def Mem.putBlock (x : Nat) (m : Mem) (p : Nat × Option (List Byte)) : Mem :=
  match p.2 with
  | some bs => { m with cells := tputs zeroB m.cells (x * pageBytes + p.1 * 4096) bs }
  | none => m.poison (x * pageBytes + p.1 * 4096) 4096

/-- The plain layout of a page whose blocks are known, its index entries zero. -/
def Mem.plainPage (m : Mem) (r : Region) (x : Nat) (l : List (Nat × Option (List Byte))) : Mem :=
  let m := { m with cells := tclear (r.idxAt x 0) (r.idxAt x 512) (tclear (x * pageBytes) ((x + 1) * pageBytes) m.cells),
                    errs := tclear (x * pageBytes / 32) ((x + 1) * pageBytes / 32) m.errs,
                    packed := tput noFlag m.packed x false }
  l.foldl (Mem.putBlock x) m

/-- Expand a packed page (R180). -/
def State.expand (x : Nat) (s : State) : State :=
  if tget noFlag s.mem.packed x then
    match s.mem.regionOf x with
    | some (_, r) =>
      let t := s.expandBlocks r x 512
      { t.2 with mem := t.2.mem.plainPage r x t.1 }
    | none => { s with mem := { s.mem with packed := tput noFlag s.mem.packed x false } }
  else s

/-- Make a page ready for a write: the first write clears it (R156), a packed page is expanded (R180); a page brought
in by a ford is no longer clean (R173). -/
def State.readyPage (s : State) (x : Nat) : State :=
  let t := State.expand x { s with mem := s.mem.firstClear x }
  { t with mem := { t.mem with cleanFrom := tput noneD t.mem.cleanFrom x none } }

/-- The error pattern of a codeword after a write of [a, e) (R373): whole poison units written get a good code, a
partly written unit keeps its poison; an uncorrectable word that is merged into has been poisoned by then. -/
def patAfterWrite (w k a e : Nat) (p : List (Nat × Byte)) : List (Nat × Byte) :=
  if k = 64 then
    let lo := decide (a ≤ w) && decide (w + 32 ≤ e)
    let hi := decide (a ≤ w + 32) && decide (w + 64 ≤ e)
    match decode64 p with
    | .poisoned l h => (if l && !lo then ffPat 64 68 else []) ++ (if h && !hi then ffPat 68 72 else [])
    | _ => []
  else
    match decode32 p with
    | .poisoned _ _ => if decide (a ≤ w) && decide (w + 32 ≤ e) then [] else ffPat 32 36
    | _ => []

/-- A word is wholly replaced by a write of [a, e): nothing is read to merge. -/
def wholeWord (w k a e : Nat) : Bool := decide (a ≤ w) && decide (w + k ≤ e)

/-- What is stored of a word becomes its data, with a good code. -/
def Mem.settle (m : Mem) (w k : Nat) : Mem :=
  let n := m.applyPat w (tget noPat m.errs (w / 32)) k
  { n with errs := tput noPat n.errs (w / 32) [] }

/-- Read a word to merge a part write into it (R373), or to copy it (R166): corrected or found uncorrectable as by any read,
under qualification mode only counted (R378). What is stored in error and was not corrected is the word's data from then
on; a poisoned word stays as it is. -/
def State.mergeRead (kind w k : Nat) (s : State) : State :=
  match s.mem.decode w k with
  | .poisoned _ _ => s
  | _ =>
    let s := (s.readWord .other 0x02 kind w k w (w + k)).2
    match s.mem.decode w k with
    | .poisoned _ _ => s
    | _ => { s with mem := s.mem.settle w k }

/-- A write to a word of a pseudo-channel or package that has failed is dropped (R390). -/
def State.dropWrite (l : Loc) (kind : Nat) (s : State) : State := (s.evErr 5).errRec 0x02 1 (tierBlock l) l.unit kind l.location

/-- Write into one codeword (R373, R390). -/
def State.writeWord (w k a e : Nat) (s : State) : State :=
  let l := s.mem.loc w
  if s.pcFailed l then s.dropWrite l 0
  else
    let s := if wholeWord w k a e then s else s.mergeRead 0 w k
    { s with mem := { s.mem with
        errs := tput noPat s.mem.errs (w / 32) (patAfterWrite w k a e (tget noPat s.mem.errs (w / 32))) } }

/-- Something other than the tier manager writes [a, a + n): every region whose index table it meets is marked (R181), and
the vocabulary whose WORK it meets (R290). -/
def Mem.tamper (m : Mem) (a n : Nat) : Mem :=
  { m with vocBad := m.vocBad || (decide (m.vocWork < a + n) && decide (a < m.vocWork + m.vocLen)),
           regions := m.regions.map fun e => (e.1, e.2.map fun r =>
      if r.compress && decide (r.idx < a + n) && decide (a < r.idx + r.pages * 2048) then { r with tampered := true } else r) }

/-- Is byte a stored by a write: its page lies in a region (R156: others keep no defined contents) and its
pseudo-channel has not failed (R390). -/
def State.stores (s : State) (a : Nat) : Bool :=
  (s.mem.regionOf (a / pageBytes)).isSome && !s.pcFailed (s.mem.loc a)

/-- Write bytes at local offset a for the tier manager itself: zero marks, packed pages, array codes. -/
def State.storeBytes (a : Nat) (bs : List Byte) (s : State) : State :=
  if bs = [] then s
  else
    let n := bs.length
    let s := (pagesOf a n).foldl State.readyPage s
    let s := (s.mem.words a n).foldl (fun s w => s.writeWord w.1 w.2 a (a + n)) s
    let keep := (bs.zip (List.range n)).filter fun p => s.stores (a + p.2)
    { s with mem := { s.mem with cells := keep.foldl (fun t p => tput zeroB t (a + p.2) p.1) s.mem.cells } }

/-- Write bytes at local offset a, with every rule of chapters 7 and 15 that a write meets. The caller has checked
that it does not wait. -/
def State.memWrite (a : Nat) (bs : List Byte) (s : State) : State :=
  if bs = [] then s
  else State.storeBytes a bs { s with mem := (s.mem.touch a bs.length).tamper a bs.length }

/-- The byte at a as a read that counts nothing and repairs nothing would give it: what a step that writes part of a word
leaves as it is. -/
def State.seenByte (s : State) (a : Nat) : Byte :=
  let x := a / pageBytes
  let w := s.mem.wordBase a
  if tget noFlag s.mem.zero x then 0
  else match s.mem.regionOf x with
    | none => Config.freeByte s.draws a
    | some (_, r) =>
      if tget noFlag s.mem.packed x then
        if r.tampered then Config.freeByte s.draws a else ((s.mem.packedBytes r a 1).getD []).headD 0
      else match s.mem.decode w (s.mem.wordSize a) with
        | .corrected p => if s.qualWord w then s.mem.rawByte a else s.mem.byteUnder a p
        | _ => s.mem.rawByte a

/-- The bytes of a local range lie in the unified range. -/
def inRange (a n : Nat) : Bool := decide (a + n ≤ rangeBytes)

/-- R158: may a command of context `ctx` reach [a, a + n)? Every page lies in a region of the context, in a SHARED
region, or, for context 0, anywhere outside spare regions. -/
def Mem.allowed (m : Mem) (ctx a n : Nat) : Bool :=
  (pagesOf a n).all fun x =>
    match m.regionOf x with
    | some (_, r) => r.kind != 2 && (r.ctx == ctx || r.shared || ctx == 0)
    | none => ctx == 0

/-- Fast read of bytes for the device's own tables, without counting or faults: plain cells. -/
def Mem.peek (m : Mem) (a n : Nat) : List Byte := tgets zeroB m.cells a n

end Sys2Proof.Machine
end

