-- ==== Sys2Proof/Machine/Cqf.lean ====
section
/-!
DEFINITION. The command front end's shared operations (chapter 2): queue and channel registers, tokens, the landing
pool, host writes, engine addresses, replies, stops, and how an engine's step reads and writes its operands.
-/
namespace Sys2Proof.Machine

/-! Register offsets. -/
/-- CQF_Qn register. -/
def qo (q f : Nat) : Nat := 0x510000 + 0x40 * q + f
/-- CQF_SLn register. -/
def slo (n f : Nat) : Nat := 0x520000 + 0x40 * n + f
/-- CQF_Bn register. -/
def bo (n f : Nat) : Nat := 0x540000 + 0x40 * n + f

/-- An unlisted queue. -/
def qReset (_ : Nat) : Queue := Queue.reset
/-- An unlisted slipway. -/
def slipReset (_ : Nat) : Slip := ⟨0, 0⟩
/-- An unlisted berth. -/
def berthReset (_ : Nat) : Berth := ⟨0, 0, 0⟩
/-- An unlisted token counter starts at 0. -/
def tokReset (_ : Nat) : W32 := 0
/-- An unlisted tag pool. -/
def poolReset (_ : Nat) : TagPool := ⟨0, 0⟩

/-- Queue n. -/
def State.q (s : State) (n : Nat) : Queue := tget qReset s.cqf.queues n
/-- Set queue n. -/
def State.setQ (s : State) (n : Nat) (v : Queue) : State :=
  { s with cqf := { s.cqf with queues := tput qReset s.cqf.queues n v } }
/-- The channel of a queue, its toll context and token window. -/
def State.chan (s : State) (q : Nat) : Nat := s.rf (qo q 0x14) 11 0
def State.chanCtx (s : State) (c : Nat) : Nat := s.rf (bo c 0x4) 11 0
def State.ctx (s : State) (q : Nat) : Nat := s.chanCtx (s.chan q)
def State.tokBase (s : State) (c : Nat) : Nat := s.rf (bo c 0x18) 11 0
def State.tokCnt (s : State) (c : Nat) : Nat := s.rf (bo c 0x1C) 13 0
/-- A channel is open (R50). -/
def State.chanOpen (s : State) (c : Nat) : Bool := s.rbit (bo c 0) 0
/-- The channel's kind: 0 host, 1 peer, 2 internal. -/
def State.chanKind (s : State) (c : Nat) : Nat := s.rf (bo c 0) 2 1

/-- A token counter. -/
def State.tok (s : State) (t : Nat) : W32 := tget tokReset s.cqf.tokens t
/-- Set a token counter. -/
def State.setTok (s : State) (t : Nat) (v : W32) : State :=
  { s with cqf := { s.cqf with tokens := tput tokReset s.cqf.tokens t v } }
/-- A wait on token t for v is satisfied (R37). -/
def State.tokMet (s : State) : Option (Nat × W32) → Bool
  | none => true
  | some (t, v) => geMod (s.tok t) v
/-- The counter after a signal with value v: signals only move it forward (R37). -/
def signalled (old v : W32) : W32 := if gtMod v old then v else old
/-- Apply a signal (R37). -/
def State.signal (s : State) : Option (Nat × W32) → State
  | none => s
  | some (t, v) => s.setTok t (signalled (s.tok t) v)

/-! Channels and the landing pool (R50 to R54). -/

/-- The buffers of the landing pool. -/
def landingBuffers : Nat := 12288
/-- Berth n. -/
def State.berth (s : State) (n : Nat) : Berth := tget berthReset s.cqf.berths n
/-- Set berth n. -/
def State.setBerth (s : State) (n : Nat) (v : Berth) : State :=
  { s with cqf := { s.cqf with berths := tput berthReset s.cqf.berths n v } }

/-- The open channels: channel 0 unless closed, and every other channel whose register says so. -/
def State.openChans (s : State) : List Nat :=
  (if s.chanOpen 0 then [0] else []) ++
  s.regs.filterMap fun e =>
    if 0x540000 < e.1 ∧ e.1 < 0x580000 ∧ (e.1 - 0x540000) % 0x40 = 0 ∧ bitAt e.2.toNat 0 then some ((e.1 - 0x540000) / 0x40)
    else none

/-- A channel's reservation and ceiling. -/
def State.reserve (s : State) (c : Nat) : Nat := s.rf (bo c 0xC) 13 0
def State.ceiling (s : State) (c : Nat) : Nat := s.rf (bo c 0x10) 13 0
def State.weir (s : State) (c : Nat) : Nat := s.rf (bo c 0x14) 13 0
/-- The reservations of all open channels (CQF_LANDING_RESV). -/
def State.totalReserve (s : State) : Nat := (s.openChans.map s.reserve).sum
/-- Buffers held by all channels. -/
def State.totalHeld (s : State) : Nat := (s.cqf.berths.map fun e => e.2.held).sum
/-- Shared buffers taken: what each channel holds beyond its reservation. -/
def State.sharedUsed (s : State) : Nat := (s.cqf.berths.map fun e => e.2.held - s.reserve e.1).sum
/-- Free buffers outside reservations (CQF_LANDING.SHARED_FREE). -/
def State.sharedFree (s : State) : Nat := landingBuffers - s.totalReserve - s.sharedUsed

/-- A request of channel c for n buffers lies within its reservation (R51). -/
def State.withinReserve (s : State) (c n : Nat) : Bool := decide ((s.berth c).held + n ≤ s.reserve c)
/-- It can be granted from the shared part (R51). -/
def State.sharedGrant (s : State) (c n : Nat) : Bool :=
  decide ((s.berth c).held + n ≤ s.ceiling c) &&
  decide ((s.berth c).held + n - max (s.berth c).held (s.reserve c) ≤ s.sharedFree)
/-- Can a queued request be granted (R51)? -/
def State.canGrant (s : State) (c n : Nat) : Bool := s.withinReserve c n || s.sharedGrant c n

/-- The channel's occupancy has reached its weir (R54). -/
def State.weirMet (s : State) (c : Nat) : Bool := s.weir c != 0 && decide (s.weir c ≤ (s.berth c).held)
/-- Set WEIR when the channel's occupancy has reached its weir (R54). -/
def State.weirCheck (s : State) (c : Nat) : State :=
  if s.weirMet c then
    if s.hasEvent (bo c 0x24) 0 then s
    else
      let s := (s.event (bo c 0x24) 0).evCqf 1
      if s.rbit (bo c 0) 3 then s.irq 389 else s
  else s

/-- Give channel c n buffers (R51): occupancy, its peak, the weir, and POOL_DRY when the shared part reaches zero. -/
def State.takeBufs (s : State) (c n : Nat) : State :=
  let b := s.berth c
  let dry0 := decide (s.sharedFree = 0)
  let s := s.setBerth c { b with held := b.held + n, peak := max b.peak (b.held + n) }
  let s := if !dry0 && decide (s.sharedFree = 0) then s.evCqf 2 else s
  s.weirCheck c

/-- Return n buffers of channel c to their pool (R51). -/
def State.freeBufs (s : State) (c n : Nat) : State :=
  let b := s.berth c
  s.setBerth c { b with held := b.held - n }

/-- Ask for n buffers of channel c (R51): granted at once within the reservation, or from the shared part when no
request is queued before; else queued in arrival order. The answer says whether it was granted. -/
def State.askBufs (s : State) (c n : Nat) (what : LandFor) : Bool × State :=
  if s.withinReserve c n || (s.cqf.landing.isEmpty && s.sharedGrant c n) then (true, s.takeBufs c n)
  else if s.cqf.landing.any fun r => r.what == what then (false, s)
  else
    let s := if decide (s.ceiling c < (s.berth c).held + n) then s.event (bo c 0x24) 1 else s
    (false, { s with cqf := { s.cqf with landing := s.cqf.landing ++ [⟨c, n, what⟩] } })

/-! Addresses (Table 2.2, Table 0.5). -/

/-- The engine address a ring or list base names: bit 47 is SPACE (Table 2.2). -/
def ringAddr (b : Nat) : Nat := if bitAt b 47 then hostAddr (b % 2 ^ 47) else b % 2 ^ 41
/-- An engine address lies in host memory. -/
def isHost (a : Nat) : Bool := a / 2 ^ 62 == 2
/-- An engine address lies in a peer. -/
def isPeer (a : Nat) : Bool := a / 2 ^ 62 == 1
/-- R10: the space code is reserved or must-be-zero bits are set. -/
def malformedAddr (a : Nat) : Bool :=
  match a / 2 ^ 62 with
  | 0 => fld a 61 41 != 0
  | 1 => fld a 61 55 != 0
  | 2 => false
  | _ => true
/-- The local offset, peer offset or I/O virtual address of an engine address. -/
def addrOffset (a : Nat) : Nat := if a / 2 ^ 62 = 2 then a % 2 ^ 62 else a % 2 ^ 41

/-! Stops and replies (R38 to R40, R438). -/

/-- A queue reaches DISABLED; `zero` resets HEAD and REPLY_SEQ (R39). -/
def State.disableQ (s : State) (q : Nat) (zero : Bool) : State :=
  let v := s.q q
  s.setQ q { Queue.reset with head := if zero then 0 else v.head, replySeq := if zero then 0 else v.replySeq, err := v.err,
                              errTag := v.errTag }

/-- A queue stops (R39): state, ERR, ERRTAG, its status bits, and the summary interrupt under ERR_IRQ_EN. -/
def State.stopQ (s : State) (q : Nat) (st : Byte) (tag : W32) (why : FailStep) : State :=
  let s := s.setQ q { s.q q with state := .stopped, err := st, errTag := tag, failed := why }
  let s := (s.event (qo q 0x38) 0).evCqf 0
  let s := if st = stOverrun then s.event (qo q 0x38) 1 else s
  let s := if st = stTimeout then s.event (qo q 0x38) 2 else s
  if s.rbit (qo q 0) 2 then s.irq 389 else s

/-- The bytes of a status reply (Table 2.5). -/
def replyBytes (tag : W32) (st : Byte) (q : Nat) (detail seq : W32) (beats : W64) (time : Nat) : List Byte :=
  leBytes 8 (tag.toNat + st.toNat * 2 ^ 32 + q * 2 ^ 40) ++ leBytes 8 (detail.toNat + seq.toNat * 2 ^ 32) ++
  leBytes 8 beats.toNat ++ leBytes 8 time

/-- The front end's own write cannot be sent while Bus Master Enable is 0: the queue stops (R438). -/
def State.bmeLost (s : State) (q : Nat) : State :=
  let s := (s.evHif 2).stopQ q stBadAddress 0xFFFFFFFF .none
  s.setQ q { s.q q with hostLost := true }

/-- A front-end write of a queue to host memory (R438): sent or waiting for the link; while Bus Master Enable is 0 it is
discarded and the queue stops, unless it has stopped already. -/
def State.frontHost (s : State) (q iova : Nat) (bs : List Byte) : State :=
  if s.hif.bme then s.hostWrite (.front q) iova bs
  else if (s.q q).hostLost ∧ (s.q q).state = .stopped then s
  else s.bmeLost q

/-- A front-end write of a queue, local or host. -/
def State.frontWrite (s : State) (q addr : Nat) (bs : List Byte) : State :=
  if isHost addr then s.frontHost q (addrOffset addr) bs else s.memWrite addr bs

/-- Where the next reply of a queue goes. -/
def State.replyAt (s : State) (q : Nat) : Nat :=
  ringAddr (s.rd3 (qo q 0x20)) + ((s.q q).replySeq.toNat % 2 ^ s.rf (qo q 0x1C) 4 0) * 32

/-- A reply of the queue is written (R38, R438): STAT_EN is 1, and host memory, when it goes there, still takes them. -/
def State.replies (s : State) (q : Nat) : Bool :=
  s.rbit (qo q 0) 1 && (!isHost (s.replyAt q) || (!(s.q q).hostLost && s.hif.bme))

/-- Produce a reply of a queue (R38): REPLY_SEQ counts it; it is written when STAT_EN is 1. -/
def State.reply (s : State) (q : Nat) (tag : W32) (st : Byte) (detail : W32) : State :=
  let v := s.q q
  let seq := v.replySeq
  let at_ := s.replyAt q
  let bs := replyBytes tag st q detail seq (Config.beats s.draws) s.pwr.time
  let s := (s.setQ q { v with replySeq := seq + 1 }).draw
  if s.rbit (qo q 0) 1 ∧ !(isHost at_ && v.hostLost) then s.frontWrite q at_ bs else s

/-- A reply raised by a ring entry, slot or header (TAG 0xFFFF_FFFF), and the stop it brings. -/
def State.frontFail (s : State) (q : Nat) (st : Byte) (detail : Nat) (why : FailStep) : State :=
  let s := s.reply q 0xFFFFFFFF st (BitVec.ofNat 32 detail)
  if (s.q q).state = .stopped then s.setQ q { s.q q with failed := why } else s.stopQ q st 0xFFFFFFFF why

/-! The current command. -/

/-- The current command of a queue, when it is dispatched, has this opcode and has not ended. -/
def State.running (s : State) (q op : Nat) : Option Cmd :=
  match (s.q q).cmd with
  | some c => if c.phase = .running ∧ c.op = op then some c else none
  | none => none

/-- Set the current command of a queue. -/
def State.setCmd (s : State) (q : Nat) (c : Cmd) : State := s.setQ q { s.q q with cmd := some c }

/-- A detected fault outranks a stop request, whichever came first (R40). -/
def endStatus (stop : Option (Byte × W32)) (st : Byte) (detail : W32) : Byte × W32 :=
  match stop with
  | some x => if st = stPoisoned ∨ st = stResidue ∨ st = stUncorrectable then (st, detail) else x
  | none => (st, detail)

/-- The engine ends the current command with a status and DETAIL. -/
def State.endCmd (s : State) (q : Nat) (st : Byte) (detail : Nat) : State :=
  match (s.q q).cmd with
  | some c =>
    let r := endStatus c.stop st (BitVec.ofNat 32 detail)
    s.setCmd q { c with phase := .ended r.1 r.2 }
  | none => s

/-- End with a failure. -/
def State.failCmd (s : State) (q : Nat) (f : Fail) : State := s.endCmd q f.st f.detail

/-- Parameter word i of a command. -/
def Cmd.p (c : Cmd) (i : Nat) : Nat := (c.params.getD i 0).toNat

/-! Operands: reads and writes of an engine's step at a 64-bit engine address. -/

/-- The external bytes [a, a + n) have arrived for the queue's command. -/
def Queue.has (v : Queue) (a n : Nat) : Bool := v.have_.any fun r => decide (r.1 ≤ a) && decide (a + n ≤ r.1 + r.2)

/-- Split [a, a + n) into requests of at most 256 bytes that cross no 256-byte boundary, so none crosses 4 KiB
(R316). -/
def splitReq : Nat → Nat → Nat → List (Nat × Nat)
  | 0, _, _ => []
  | f + 1, a, n => if n = 0 then [] else
      let m := min n (256 - a % 256)
      (a, m) :: splitReq f (a + m) (n - m)

/-- Tags of a pool in flight. -/
def State.pool (s : State) (i : Nat) : TagPool := tget poolReset s.cqf.tags i
def State.setPool (s : State) (i : Nat) (v : TagPool) : State :=
  { s with cqf := { s.cqf with tags := tput poolReset s.cqf.tags i v } }
/-- The tags of pool i (Table 2.12): 0 to 7 stacks, 8 capacity tier, 9 to 20 fabric ports, 21 host. -/
def poolSize (i : Nat) : Nat := if i ≤ 8 then 4096 else if i ≤ 20 then 1024 else 2048
/-- Take one tag of a pool. -/
def State.takeTag (s : State) (i : Nat) : State :=
  let p := s.pool i
  s.setPool i ⟨p.inUse + 1, max p.peak (p.inUse + 1)⟩
/-- Return one tag of a pool. -/
def State.freeTag (s : State) (i : Nat) : State :=
  let p := s.pool i
  s.setPool i { p with inUse := p.inUse - 1 }

/-! Block transfers (R56). A local transfer begins and ends within one step; what stays outstanding between steps are the
reads of a queue's chunk of host memory and the requests of a transfer to or from a peer. -/

/-- The transfers outstanding at engine port p: chunks of host memory, and peer transfers with a request on its way. -/
def State.portLoad (s : State) (p : Nat) : Nat :=
  ((s.cqf.queues.filter fun e => e.2.reads.any fun r => r.port == p).map (·.1) ++
    ((s.cqf.tagWait.filter fun w => w.req.port == p && (s.q w.queue).reads.isEmpty).map (·.queue))).eraseDups.length +
  (s.fab.onWay.filterMap fun r => if r.port = p then some r.xfer else none).eraseDups.length

/-- Every port of a list has 8 block transfers outstanding. -/
def State.portsFull (s : State) (ps : List Nat) : Bool := ps.all fun p => decide (8 ≤ s.portLoad p)

/-- The ports that may move data for the command of queue q (R56): its cluster's (0 to 63), its quadrant's (64 to 67), the
tier/transfer engine's eight (68 to 75) or the intake's two (88, 89); 76 to 87 are the exchange engine's fabric ports. -/
def State.portsOf (s : State) (q : Nat) : List Nat :=
  match q / 64 with
  | 0 => [(s.q q).port % 64]
  | 1 => [64 + (s.q q).port % 4]
  | 3 => List.range' 68 8
  | 5 => [88, 89]
  | _ => []

/-- The port that takes the next transfer of queue q: the lowest-numbered with room; 91, which no limit holds, for the front
end, whose fetches use none of the ports of R56. -/
def State.portFor (s : State) (q : Nat) : Nat := ((s.portsOf q).find? fun p => decide (s.portLoad p < 8)).getD ((s.portsOf q).headD 91)

/-- Send one host read, or let it wait for a transfer tag (R57): first come, first served. -/
def State.sendHostRead (s : State) (q : Nat) (r : HostReq) : State :=
  if (s.pool 21).inUse < poolSize 21 ∧ !(s.cqf.tagWait.any fun w => w.pool == 21) then
    let s := s.takeTag 21
    s.setQ q { s.q q with reads := (s.q q).reads ++ [r] }
  else { s with cqf := { s.cqf with tagWait := s.cqf.tagWait ++ [⟨21, q, r⟩] } }

/-- A queue has reads in flight, waiting for a tag, or queued at the fabric. -/
def State.fetching (s : State) (q : Nat) : Bool :=
  !(s.q q).reads.isEmpty || (s.cqf.tagWait.any fun w => w.queue == q) ||
  (s.fab.reqQ.any fun r => r.queue == q && r.bytes.isNone) ||
  (s.fab.onWay.any fun r => r.queue == q && r.bytes.isNone)

/-- Ask for external bytes [a, a + n) of parameter word `word` (0xFF: the front end): one chunk of at most 4 KiB at a
time, into one landing buffer of the queue's channel (R51, R52). Nothing new is sent while the link is down (R323). -/
def State.request (s : State) (q a n word : Nat) : State :=
  if s.fetching q then s
  else
    let m := min n (4096 - a % 4096)
    let port := if word = 0xFF then 91 else s.portFor q
    if port < 91 ∧ 8 ≤ s.portLoad port then s
    else
    let g := if word = 0xFF ∨ 0 < (s.q q).bufs then (true, s) else
      let r := s.askBufs (s.chan q) 1 (.queue q)
      (r.1, if r.1 then r.2.setQ q { r.2.q q with bufs := 1 } else r.2)
    if !g.1 then g.2
    else if isHost a then
      if g.2.hif.up then
        (splitReq 17 (addrOffset a) m).foldl (fun s r => s.sendHostRead q ⟨r.1, r.2, word, port, s.pwr.time⟩) g.2
      else g.2
    else { g.2 with
      cqf := { g.2.cqf with xfers := g.2.cqf.xfers + 1 },
      fab := { g.2.fab with reqQ := g.2.fab.reqQ ++
        ((splitReq 17 a m).map (fun r => ⟨q, r.1, r.2, none, word, g.2.chan q, q, port, g.2.cqf.xfers⟩)) } }

/-- The part of [a, a + n) that has not yet arrived begins here. -/
def firstMissing (v : Queue) : Nat → Nat → Nat → Nat
  | 0, a, _ => a
  | f + 1, a, e =>
    if e ≤ a then a
    else match v.have_.find? fun r => decide (r.1 ≤ a) && decide (a < r.1 + r.2) with
      | some r => firstMissing v f (r.1 + r.2) e
      | none => a

/-- What an engine's read of an operand gives. -/
inductive Opd where
  | bytes (bs : List Byte)
  /-- the step cannot proceed: an access waits, or external bytes have been asked for -/
  | wait
  | poisoned
  | uncorrectable
  | badStream
  deriving DecidableEq, Repr

/-- The word of a read whose poisoned data has a DETAIL of its own (Table 11.9): the word in its low 32 bits. -/
def wordWith (word detail : Nat) : Nat := word + 2 ^ 32 * (detail + 1)
/-- The word that an address failure of a read names. -/
def addrWord (w : Nat) : Nat := w % 2 ^ 32
/-- The DETAIL of a read's poisoned data. -/
def dataWord (w : Nat) : Nat := if w / 2 ^ 32 = 0 then w else w / 2 ^ 32 - 1

/-- Read [a, a + n) at an engine address for parameter word `word` of the command of queue q. -/
def State.opRead (s : State) (q a n word : Nat) : Opd × State :=
  if n = 0 then (.bytes [], s)
  else if a / 2 ^ 62 = 0 then
    if s.accessWaits a n then (.wait, s)
    else
      let r := s.memRead (.queue q) a n
      (match r.1 with
        | .bytes bs => .bytes bs
        | .poisoned => .poisoned
        | .uncorrectable => .uncorrectable
        | .badStream => .badStream, r.2)
  else
    let v := s.q q
    let m := firstMissing v (v.have_.length + 1) a (a + n)
    if a + n ≤ m then (.bytes (tgets zeroB s.hif.ext a n), s)
    else (.wait, s.request q m (a + n - m) word)

/-- Split bytes at engine address a into peer writes of at most 256 bytes. -/
def peerWrites (q word chan port xfer : Nat) : Nat → Nat → List Byte → List PeerReq
  | 0, _, _ => []
  | f + 1, a, bs => if bs = [] then [] else
      let m := 256 - a % 256
      ⟨q, a, (bs.take m).length, some (bs.take m), word, chan, q, port, xfer⟩ :: peerWrites q word chan port xfer f (a + m) (bs.drop m)

/-- A write of an engine at [a, a + n) has to wait (R166, R197, R390). -/
def State.opWaits (s : State) (a n : Nat) : Bool := a / 2 ^ 62 == 0 && s.writeWaits a n

/-- Write bytes at an engine address for the command of queue q: local, host (R317) or peer (R258). -/
def State.opWrite (s : State) (q a word : Nat) (bs : List Byte) : State :=
  if bs = [] then s
  else match a / 2 ^ 62 with
    | 0 => s.memWrite a bs
    | 1 =>
      let l := peerWrites q word (s.chan q) (s.portFor q) s.cqf.xfers (bs.length / 256 + 2) a bs
      let s := { s with cqf := { s.cqf with xfers := s.cqf.xfers + 1 }, fab := { s.fab with reqQ := s.fab.reqQ ++ l } }
      s.setQ q { s.q q with acks := (s.q q).acks + l.length }
    | _ => (s.hostWrite (.engine q) (addrOffset a) bs).bump64 0x400028 bs.length

/-- DETAIL of a poisoned or uncorrectable operand, and its status. -/
def Opd.fault : Opd → Option Byte
  | .poisoned => some stPoisoned
  | .badStream => some stPoisoned
  | .uncorrectable => some stUncorrectable
  | _ => none

/-- The transfers of queue q's command move through engine port p (R56). -/
def State.onPort (s : State) (q p : Nat) : State := s.setQ q { s.q q with port := p }

/-- Read several operands in order: engine address, length, word index. All bytes, or the first that waits or
faults, with its DETAIL. -/
def State.opReads (s : State) (q : Nat) : List (Nat × Nat × Nat) → (Except (Option (Byte × Nat)) (List (List Byte))) × State
  | [] => (.ok [], s)
  | (a, n, w) :: l =>
    let r := s.opRead q a n w
    match r.1 with
    | .bytes bs =>
      let t := State.opReads r.2 q l
      (match t.1 with
        | .ok bss => .ok (bs :: bss)
        | .error e => .error e, t.2)
    | .wait => (.error none, r.2)
    | .poisoned => (.error (some (stPoisoned, dataWord w)), r.2)
    | .badStream => (.error (some (stPoisoned, dataWord w)), r.2)
    | .uncorrectable => (.error (some (stUncorrectable, dataWord w)), r.2)

/-- The peer writes of commands of queue q that have ended are all acknowledged (R36, R260). -/
def State.lateDone (s : State) (q : Nat) : Bool :=
  !((s.fab.reqQ ++ s.fab.onWay).any fun r => r.queue == q + 384 && r.bytes.isSome)

/-- Every write of earlier commands is visible (R36, R317): none waits for the link or for a peer. -/
def State.visible (s : State) (q : Nat) : Bool :=
  (s.q q).acks == 0 && s.lateDone q && !s.hif.outq.any fun o => match o with
    | .write _ _ _ => true
    | .msix _ => false

/-! Address checks shared by the engines (R10, R158, R319). -/

/-- Check an operand's address: alignment and R10, for its last byte too (reason 0), beyond the range (3), the regions of
the command's context (1), and Bus Master Enable for host memory (6). `a` is the address, `n` its bytes. -/
def State.checkAddr (s : State) (q a n word align : Nat) : Except Fail Unit :=
  if a % align != 0 || malformedAddr a || (isHost a && decide (2 ^ 63 + 2 ^ 62 < a + n)) then .error (badAddr word 0)
  else if isHost a then if s.hif.bme then .ok () else .error (badAddr word 6)
  else if isPeer a then if inRange (addrOffset a) n then .ok () else .error (badAddr word 3)
  else if !inRange a n then .error (badAddr word 3)
  else if s.mem.allowed (s.ctx q) a n then .ok () else .error (badAddr word 1)

/-- Record a Bus Master Enable failure (Table 12.3). -/
def State.noteBme (s : State) (f : Fail) : State :=
  if f.st = stBadAddress ∧ fld f.detail 11 8 = 6 then s.evHif 2 else s

end Sys2Proof.Machine
end

