-- ==== Sys2Proof/Machine/Access.lean ====
section
/-!
DEFINITION. Tensor operands of the engines: parameter checks (R60, R61, R102), region format tags (R78, R79), addresses
(R10, R158), reading and writing rows, tide statistics (R138 to R140).
-/
namespace Sys2Proof.Machine

/-- The first failure of a list of checks. -/
def firstErr {ε : Type} : List (Except ε Unit) → Except ε Unit
  | [] => .ok ()
  | .error e :: _ => .error e
  | .ok () :: l => firstErr l

/-- A check that fails when its condition holds. -/
def failIf (b : Bool) (f : Fail) : Except Fail Unit := if b then .error f else .ok ()

/-- The lowest offending bit of a parameter word, as a failure (Table 2.6). -/
def bitCheck (word : Nat) (bits : List (Option Nat)) : Except Fail Unit :=
  match bits.filterMap id with
  | [] => .ok ()
  | b :: l => .error (badParam word (l.foldl min b))

/-- A bit number when a condition holds. -/
def bitIf (c : Bool) (b : Nat) : Option Nat := if c then some b else none

/-- A format parameter word, step 2 of R102. -/
def fmtCheck (c : Cmd) (i : Nat) : Except Fail Unit :=
  match fmtBad (c.p i) with
  | some b => .error (badParam i b)
  | none => .ok ()

/-- A pitch word, step 3 of R102: reserved bits [63:40], a multiple of 8. -/
def pitchCheck (c : Cmd) (i : Nat) : Except Fail Unit :=
  bitCheck i [lowBit (c.p i) (bmask 2 0), lowBit (c.p i) (bmask 63 40)]

/-- Reserved bits of a parameter word. -/
def reservedCheck (c : Cmd) (i mask : Nat) : Except Fail Unit := bitCheck i [lowBit (c.p i) mask]

/-- The pitch held in a pitch word. -/
def pitchOf (c : Cmd) (i : Nat) : Nat := fld (c.p i) 39 0

/-- An operand as its parameter words give it: word indices of address, format and pitch; `store` when the command
writes it; `rep` when a pitch of 0 repeats row 0 (R119); `tide` when its stores count in a tide entry (R140). -/
structure Opnd where
  addr : Nat
  pitch : Nat
  rows : Nat
  n : Nat
  op : Fmt
  wa : Nat
  wf : Nat
  wp : Nat
  store : Bool
  rep : Bool
  tide : Bool

/-- An operand of parameter words i (address), i + 1 (format), i + 2 (pitch). -/
def opnd3 (c : Cmd) (i rows n : Nat) (store rep : Bool) : Opnd :=
  ⟨c.p i, pitchOf c (i + 2), rows, n, Fmt.of (c.p (i + 1)), i, i + 1, i + 2, store, rep, store⟩

/-- The tag of a region (R78, R79): STORED, CONV, DOVF and the tide entry. -/
def Region.tagWord (r : Region) : Nat := if bitAt r.tag 11 then fld r.tag 23 0 else fld r.tag 10 0
/-- The tags of every region, by first page and pages. -/
def State.tagMap (s : State) : List (Nat × Nat × Nat) := s.mem.live.map fun e => (e.2.first, e.2.pages, e.2.tagWord)

/-- The tag of a page as it stood when the command of queue q was dispatched (R79); outside every region untyped. -/
def State.pageTag (s : State) (q x : Nat) : Nat :=
  match (s.q q).cmd with
  | some c => match c.tags.find? fun e => decide (e.1 ≤ x) && decide (x < e.1 + e.2.1) with
    | some e => e.2.2
    | none => 0
  | none => 0

/-- STORED of a tag with the TSCALE of the operand (R78). -/
def tagFmt (t : Nat) (ts : W32) : Fmt := ⟨fld t 3 0, fld t 5 4, bitAt t 6, bitAt t 7, 0, ts⟩

/-- Two formats agree in CODE, LAYOUT, SCALE_KIND and SGN. -/
def sameFmt (a b : Fmt) : Bool := a.code == b.code && a.layout == b.layout && a.sk == b.sk && a.sgn == b.sgn

/-- The address of a row. -/
def Opnd.row (o : Opnd) (r : Nat) : Nat := o.addr + r * o.pitch

/-- The pages of the operand's bytes. -/
def Opnd.pages (o : Opnd) (rb : Nat) : List Nat :=
  if o.rows ≤ 1 ∨ o.pitch = 0 then pagesOf o.addr rb
  else if o.pitch ≤ rb then pagesOf o.addr ((o.rows - 1) * o.pitch + rb)
  else (List.range o.rows).flatMap fun r => pagesOf (o.row r) rb

/-- FORMAT_MISMATCH (Table 3.11). -/
def mismatch (wf reason block : Nat) : Fail := ⟨stFormat, wf + reason * 256 + block % 65536 * 65536⟩

/-- The overflow mode (R74): the operand's OVF, else its region's default, else saturate. -/
def satOf (ovf tag : Nat) : Bool := if ovf = 1 then true else if ovf = 2 then false else !(fld tag 9 8 != 0 && bitAt tag 10)

/-- Bytes of the tide table's entry i (R138): a T register. -/
def State.tideBase (s : State) : Nat := s.rdT 0x800014 + 65536 * s.rdT 0x800018 + 4294967296 * s.rdT 0x80001C
def State.tideAt (s : State) (i : Nat) : Nat := s.tideBase + i * 1024

/-- STATE of the tide entries that the tags name (R139), as memory holds it now. -/
def State.tideMap (s : State) : List (Nat × Nat) :=
  s.tagMap.filterMap fun e =>
    if bitAt e.2.2 11 then
      match (s.memRead .other (s.tideAt (fld e.2.2 23 12) + 16) 8).1 with
      | .bytes bs => some (fld e.2.2 23 12, leNat bs)
      | _ => none
    else none

/-- Step 4 of R102 for one operand: region tags (R78, R79), a TSCALE used because of the region (R61), the tide entry
(R138), a pitch shorter than a row. Where several checks fail the first of this list counts: pages of different tags, then a
format the tag does not admit (the spec gives no order: DESIGN CHOICE, log entry 66). -/
def State.resolve (s : State) (q : Nat) (o : Opnd) : Except Fail Acc :=
  if o.rows = 0 ∨ o.n = 0 then .ok ⟨o.addr, o.pitch, o.rows, o.n, o.op, o.op, true, none, none, o.wa, o.wf⟩
  else
    let loc := o.addr / 2 ^ 62 == 0
    let t := if loc then s.pageTag q (o.addr / pageBytes) else 0
    let conv := fld t 9 8
    let st := tagFmt t o.op.ts
    let mem := if conv = 2 then st else o.op
    let rb := mem.rowBytes o.n
    let tide := if loc && o.tide && bitAt t 11 then some (fld t 23 12) else none
    let far := match tide with
      | some i => !inRange (s.tideAt i) 1024
      | none => false
    match firstErr
      [ failIf (loc && (o.pages rb).any fun x => s.pageTag q x != t) (mismatch o.wf 2 0),
        failIf (conv == 1 && !sameFmt o.op st) (mismatch o.wf 0 0),
        failIf (conv == 2 && !o.store && !o.op.wideFloat && !sameFmt o.op st) (mismatch o.wf 1 0),
        failIf (conv == 2 && st.usesTs && !f32normalPos o.op.ts) (badParam o.wf 32),
        failIf far (badAddr o.wa 3),
        failIf (decide (1 < o.rows) && decide (o.pitch < rb) && !(o.rep && o.pitch == 0)) (badParam o.wp 0) ] with
    | .error f => .error f
    | .ok () => .ok ⟨o.addr, o.pitch, o.rows, o.n, o.op, mem, satOf o.op.ovf t, tide, none, o.wa, o.wf⟩

/-- The address of a row. -/
def Acc.row (a : Acc) (r : Nat) : Nat := a.addr + r * a.pitch
/-- Bytes of a row as it lies in memory. -/
def Acc.rb (a : Acc) : Nat := a.mem.rowBytes a.n

/-- Step 5 of R102 for one operand. -/
def State.addrCheck (s : State) (q : Nat) (a : Acc) : Except Fail Unit :=
  if a.rows = 0 ∨ a.n = 0 then s.checkAddr q a.addr 0 a.wa 8
  else if a.rows = 1 ∨ a.pitch = 0 then s.checkAddr q a.addr a.rb a.wa 8
  else if a.pitch ≤ a.rb then s.checkAddr q a.addr ((a.rows - 1) * a.pitch + a.rb) a.wa 8
  else firstErr ((List.range a.rows).map fun r => s.checkAddr q (a.row r) a.rb a.wa 8)

/-- Steps 4 and 5 for all operands, in order. -/
def State.resolveAll (s : State) (q : Nat) : List Opnd → Except Fail (List Acc)
  | [] => .ok []
  | o :: os =>
    match s.resolve q o with
    | .error f => .error f
    | .ok a => match s.resolveAll q os with
      | .error f => .error f
      | .ok l => .ok (a :: l)

def State.access (s : State) (q : Nat) (os : List Opnd) : Except Fail (List Acc) :=
  match s.resolveAll q os with
  | .error f => .error f
  | .ok as => match firstErr (as.map (s.addrCheck q)) with
    | .error f => .error f
    | .ok () => .ok as

/-- Two operands name the same bytes in the same way (R106, R126). -/
def Acc.exact (a b : Acc) : Bool := a.addr == b.addr && a.pitch == b.pitch && a.op == b.op

/-- Row r of a shares a byte with some row of b. -/
def Acc.rowMeets (a b : Acc) (r : Nat) : Bool :=
  let lo := a.row r
  let hi := lo + a.rb
  if hi ≤ b.addr then false
  else
    let i := if b.pitch = 0 then 0 else min (b.rows - 1) ((hi - 1 - b.addr) / b.pitch)
    decide (lo < b.row i + b.rb)

/-- Two operands share a byte. -/
def Acc.meets (a b : Acc) : Bool :=
  a.rows != 0 && b.rows != 0 && a.n != 0 && b.n != 0 && (List.range a.rows).any fun r => a.rowMeets b r

/-! Reading. -/

/-- Why an operand's step cannot give values: it must be tried again, or the command fails. -/
inductive Bad where
  | wait
  | fail (f : Fail)
  deriving DecidableEq, Repr

/-- The units that hold elements [i0, i1) of a row: first unit, number of units. -/
def Acc.units (a : Acc) (i0 i1 : Nat) : Nat × Nat :=
  let u := a.mem.unit.1
  (i0 / u, ceilDiv i1 u - i0 / u)
/-- The bytes that hold elements [i0, i1) of row r: address and length. -/
def Acc.seg (a : Acc) (r i0 i1 : Nat) : Nat × Nat :=
  if i1 ≤ i0 then (a.row r, 0)
  else
    let u := a.units i0 i1
    (a.row r + u.1 * a.mem.unit.2, u.2 * a.mem.unit.2)

/-- Elements [i0, i1) of row r from the bytes of their units, and the count of R81. -/
def Acc.decodeSeg (a : Acc) (r i0 i1 : Nat) (bs : List Byte) : Except Fail (Elems × Nat) :=
  if i1 ≤ i0 then .ok ([], 0)
  else
    let u := a.units i0 i1
    let ue := a.mem.unit.1
    let cnt := min a.n ((u.1 + u.2) * ue) - u.1 * ue
    match a.mem.readRun cnt bs with
    | .error e => .error (mismatch a.wf e.1 (r * ceilDiv a.n ue + u.1 + e.2))
    | .ok xs =>
      let ys := (xs.drop (i0 - u.1 * ue)).take (i1 - i0)
      let bad := a.mem.runBadTrits cnt bs
      if sameFmt a.op a.mem then .ok (ys, bad)
      else
        let zs := ys.map fun p => convLoad a.op a.sat (elemX p)
        .ok (zs.map fun z => (z.1, Val.one), bad + countTrue (zs.map (·.2)))

/-- Decode several segments, adding their counts. -/
def Acc.decodeAll (a : Acc) (i0 i1 : Nat) : List Nat → List (List Byte) → Except Fail (List Elems × Nat)
  | r :: rs, b :: bs =>
    match a.decodeSeg r i0 i1 b with
    | .error f => .error f
    | .ok x => match a.decodeAll i0 i1 rs bs with
      | .error f => .error f
      | .ok y => .ok (x.1 :: y.1, x.2 + y.2)
  | _, _ => .ok ([], 0)

/-- Read elements [i0, i1) of the named rows (`hi` is the upper half of DETAIL when a word is poisoned or
uncorrectable: tile, row or chunk). -/
def State.readRows (s : State) (q hi : Nat) (a : Acc) (rows : List Nat) (i0 i1 : Nat) :
    (Except Bad (List Elems × Nat)) × State :=
  let r := s.opReads q (rows.map fun r => ((a.seg r i0 i1).1, (a.seg r i0 i1).2, wordWith a.wa (a.wa + hi % 65536 * 65536)))
  match r.1 with
  | .error none => (.error .wait, r.2)
  | .error (some e) => (.error (.fail ⟨e.1, e.2⟩), r.2)
  | .ok bs => match a.decodeAll i0 i1 rows bs with
    | .error f => (.error (.fail f), r.2)
    | .ok x => (.ok x, r.2)

/-- An element as FP32 (R115): rounded, where TSCALE makes a narrow element's value longer than 24 bits, although R120 takes
this pass to be exact (DEDUCED, log entry 65). -/
def elem32 (p : Val × Val) : W32 := toF32 (elemX p)

/-! Writing. -/

/-- A byte that a write leaves as it is while it writes others of its unit or word, as a read would give it. -/
def State.oldByte (s : State) (a : Nat) : Byte := if a / 2 ^ 62 = 0 then s.seenByte a else tget zeroB s.hif.ext a

/-- The bytes written for elements [i0, i0 + |xs|) of a row: whole units, merged with elements that share one (R67,
R129). -/
def Acc.segBytes (a : Acc) (old : List Byte) (i0 : Nat) (xs : List Val) : List Byte :=
  if a.mem.layout != 0 then a.mem.writeRun a.sat xs
  else
    let f := a.mem
    let ue := f.unit.1
    let u := a.units i0 (i0 + xs.length)
    let y (x : Val) : Val := if f.narrow then x.div (f32 f.ts) else x
    let cnt := min a.n ((u.1 + u.2) * ue) - u.1 * ue
    let olds := unpackCodes f.code cnt old
    let k := i0 - u.1 * ue
    packCodes f.code (olds.take k ++ (xs.map fun x => convert f.code f.sgn a.sat (y x)) ++ olds.drop (k + xs.length))

/-- Undefined bytes (R106, R126). -/
def State.freeBytes (s : State) (a n : Nat) : List Byte × State :=
  ((List.range n).map fun i => Config.freeByte s.draws (a + i), s.draw)

/-- Does a write of elements [i0, i0 + n) of the rows have to wait? -/
def State.rowsWait (s : State) (a : Acc) (rows : List Nat) (i0 n : Nat) : Bool :=
  rows.any fun r => s.opWaits (a.seg r i0 (i0 + n)).1 (a.seg r i0 (i0 + n)).2

/-- Those writes wait: the ones that wait for the switch of a page move are counted (R166). -/
def State.holdRows (s : State) (q : Nat) (a : Acc) (rows : List Nat) (i0 n : Nat) : State :=
  if a.addr / 2 ^ 62 = 0 then rows.foldl (fun s r => s.holdWrite q (a.seg r i0 (i0 + n)).1 (a.seg r i0 (i0 + n)).2) s else s

/-- Write elements from i0 on of row r. -/
def State.writeRow (s : State) (q : Nat) (a : Acc) (undef : Bool) (r i0 : Nat) (xs : List Val) : State :=
  if xs = [] then s
  else
    let g := a.seg r i0 (i0 + xs.length)
    if undef then
      let b := s.freeBytes g.1 g.2
      b.2.opWrite q g.1 a.wa b.1
    else
      let old := (List.range g.2).map fun i => s.oldByte (g.1 + i)
      s.opWrite q g.1 a.wa (a.segBytes old i0 xs)

/-- Write several rows. -/
def State.writeRows (s : State) (q : Nat) (a : Acc) (undef : Bool) (i0 : Nat) : List (Nat × List Val) → State
  | [] => s
  | p :: ps => (s.writeRow q a undef p.1 i0 p.2).writeRows q a undef i0 ps

/-- The count of R81 for rows as stored. -/
def Acc.nf (a : Acc) (rows : List (List Val)) : Nat := (rows.map (a.mem.nfCount a.sat)).sum

/-! Tide statistics (R138 to R140). -/

/-- A signed 8-bit field. -/
def s8 (v : Nat) : Int := if 128 ≤ v then (v : Int) - 256 else v

/-- STATE of tide entry i as it was read when the command of queue q was dispatched (R139). -/
def State.tideOf (s : State) (q i now : Nat) : Nat :=
  ((s.q q).cmd.bind fun c => (c.tide.find? fun e => e.1 == i).map (·.2)).getD now

/-- Take STATE of the operand's tide entry (R139); its word must read well. -/
def State.takeSnap (s : State) (q : Nat) (a : Acc) : (Except Bad Acc) × State :=
  match a.entry with
  | none => (.ok a, s)
  | some i =>
    let r := s.opRead q (s.tideAt i + 16) 8 a.wa
    match r.1 with
    | .bytes bs =>
      let v := s.tideOf q i (leNat bs)
      (.ok { a with snap := some ⟨i, BitVec.ofNat 32 (fld v 63 32), fld v 3 0, s8 (fld v 11 4), s8 (fld v 19 12), s8 (fld v 27 20)⟩ }, r.2)
    | .wait => (.error .wait, r.2)
    | .uncorrectable => (.error (.fail ⟨stUncorrectable, a.wa⟩), r.2)
    | _ => (.error (.fail ⟨stPoisoned, a.wa⟩), r.2)

/-- A statistics record (Table 6.4). -/
structure TideRec where
  amax : W32
  ov : Nat
  nz : Nat
  u4 : Nat
  u5 : Nat
  deriving DecidableEq, Repr

/-- The record in 32 bytes, and back. -/
def TideRec.of (bs : List Byte) : TideRec :=
  ⟨BitVec.ofNat 32 (leNat (bs.take 4)), leNat ((bs.drop 4).take 4), leNat ((bs.drop 8).take 8), leNat ((bs.drop 16).take 8),
    leNat ((bs.drop 24).take 8)⟩
def TideRec.bytes (r : TideRec) : List Byte :=
  leBytes 4 r.amax.toNat ++ leBytes 4 r.ov ++ leBytes 8 r.nz ++ leBytes 8 r.u4 ++ leBytes 8 r.u5

/-- Does a nonzero finite x overflow CODE at TSCALE 2^K (R139)? -/
def tideOver (code : Nat) (k : Int) (x : Val) : Bool :=
  match x.scale (-k), (if code = 3 then some fmtE4M3 else if code = 4 then some fmtE5M2 else none) with
  | .fin _ n d e, some f => match f.roundMag n d e with
    | .over => true
    | .code _ => false
  | _, _ => false

/-- Count one stored element (R139). -/
def TideRec.count (t : TideSnap) (r : TideRec) (x : Val) : TideRec :=
  if x.nonFinite then { r with amax := f32nan }
  else if x.isZero then r
  else
    { amax := if (f32 r.amax).isNan then f32nan else if (f32 r.amax).lt x.abs then toF32 x.abs else r.amax,
      ov := satAdd 0xFFFFFFFF r.ov (b2n (tideOver t.code t.k x)),
      nz := r.nz + 1,
      u4 := r.u4 + b2n (x.abs.le (Val.one.scale (t.k4 - 10))),
      u5 := r.u5 + b2n (x.abs.le (Val.one.scale (t.k5 - 17))) }

/-- Add stored elements to ACC(STEPS mod 2) (R139, R140). A record that does not read well is left as it is. -/
def State.tideAdd (s : State) (a : Acc) (xs : List Val) : State :=
  match a.snap with
  | none => s
  | some t =>
    let at_ := s.tideAt t.entry + 64 + 32 * (t.steps.toNat % 2)
    let r := s.memRead .other at_ 32
    match r.1 with
    | .bytes bs => r.2.memWrite at_ (xs.foldl (TideRec.count t) (TideRec.of bs)).bytes
    | _ => r.2

/-- Store rows whose statistics count (R140). -/
def State.storeRows (s : State) (q : Nat) (a : Acc) (undef : Bool) (i0 : Nat) (l : List (Nat × List Val)) : State :=
  (s.writeRows q a undef i0 l).tideAdd a (l.flatMap (·.2))

end Sys2Proof.Machine
end

