-- ==== Sys2Proof/Machine/Service.lean ====
section
/-!
DEFINITION. Shared steps of faults and service (chapter 15): SERVICE records (R387), residue faults (R369, R388, R391),
clusters leaving and returning (R100, R109, Table 15.8).
-/
namespace Sys2Proof.Machine

/-- ERR_SVC_UNIT of a unit: KIND and INDEX. -/
def svcUnit (kind idx : Nat) : Nat := idx + kind * 4096

/-- A change of service state (R387): the SERVICE record with its cause. -/
def State.svcRecord (s : State) (block kind idx old new cause : Nat) : State :=
  let sev := if cause = 3 then 3 else if new = 1 then 2 else 1
  s.errRec 0x0C sev block (svcUnit kind idx) (old + new * 4 + cause * 16) 0

/-- ERR_CTL.AUTO_OOS. -/
def State.autoOos (s : State) : Bool := s.rbit 0x1100000 0

/-- An unlisted unit is in service. -/
def svcOk (_ : Nat) : Svc := Svc.ok

/-! Clusters. -/

/-- The service state of a cluster. -/
def State.clSvc (s : State) (c : Nat) : Svc := tget svcOk s.mat.svc c
/-- A cluster is in service. -/
def State.clIn (s : State) (c : Nat) : Bool := (s.clSvc c).st == 0
/-- Clusters in service: MAT_SVC_CNT, c of R93. -/
def State.clCount (s : State) : Nat := ((List.range 64).filter s.clIn).length

/-- Change a cluster's service state, with its record. -/
def State.clSet (s : State) (c new cause : Nat) (failed : Bool) : State :=
  let old := (s.clSvc c).st
  let s := { s with mat := { s.mat with svc := tput svcOk s.mat.svc c ⟨new, failed⟩ } }
  s.svcRecord 6 0 c old new cause

/-- The handles bound on a cluster become LOST and hold no values (R100). -/
def State.loseHandles (s : State) (c : Nat) : State :=
  { s with mat := { s.mat with handles := s.mat.handles.map fun e =>
      (e.1, e.2.map fun h => if h.cluster = c then { h with lost := true, vals := [] } else h) } }

/-- A cluster leaves service (R109, Table 15.8). -/
def State.clOut (s : State) (c cause : Nat) : State :=
  let s := s.clSet c 1 cause (s.clSvc c).failed
  let s := { s with mat := { s.mat with leaving := tput noFlag s.mat.leaving c false } }
  s.loseHandles c

/-- A cluster leaves for a fault of its own and its requalification starts (R388). -/
def State.clRemove (s : State) (c : Nat) : State :=
  let s := s.clOut c 1
  let s := { s with mat := { s.mat with autoOut := tput noFlag s.mat.autoOut c false } }
  s.clSet c 2 1 (s.clSvc c).failed

/-- A cluster that was to leave has no work item any more. -/
def State.clLeaves (s : State) (c : Nat) : State :=
  if tget noFlag s.mat.autoOut c then s.clRemove c else s.clOut c 0

/-- A cluster that has faulted is removed automatically (R388): after its work item, when it runs one (R109). -/
def State.clAuto (s : State) (c : Nat) : State :=
  if s.autoOos && s.clIn c then
    if (tget noneD s.mat.items c).isSome then
      { s with mat := { s.mat with leaving := tput noFlag s.mat.leaving c true, autoOut := tput noFlag s.mat.autoOut c true } }
    else s.clRemove c
  else s

/-- A residue fault of a cluster (R101, R388): counts, bit, record, automatic removal. -/
def State.clResidue (s : State) (c detail : Nat) : State :=
  (((((s.bump (0x610008 + 0x20 * c) 1).bump 0x600020 1).evMat 0).errRec 0x01 1 6 c detail 0)).clAuto c

/-- An uncorrectable word of an on-die array (class 0x06): its place in the array, and the operand whose word it held, are
free values (log entry 63). -/
def State.sramUe (s : State) (block unit kind low : Nat) : Fail × State :=
  (⟨stUncorrectable, (Config.freeWord (s.draws + 1)).toNat % 256 + low % 65536 * 65536⟩,
    ((s.draw).draw).errRec 0x06 1 block unit kind (Config.freeWord s.draws).toNat)

/-- Twenty-four hours in nanoseconds. -/
def dayNs : Nat := 86400000000000

/-- What an unlisted list of times holds. -/
def noTimes (_ : Nat) : List Nat := []

/-- A residue fault of a quadrant (key 0 to 3) or of the exchange engine (4): PERSISTENT at three within 24 h (R391). -/
def State.persistent (s : State) (key block unit : Nat) : State :=
  let l := (tget noTimes s.err.resTimes key).filter fun t => decide (s.pwr.time < t + dayNs)
  let l := l ++ [s.pwr.time]
  let s := { s with err := { s.err with resTimes := tput noTimes s.err.resTimes key l } }
  if l.length = 3 then s.errRec 0x0F 3 block unit 3 0 else s

end Sys2Proof.Machine
end

