-- ==== Sys2Proof/Machine/Itk.lean ====
section
/-!
DEFINITION. The intake engine (chapter 11): checks of its commands, the pipeline and its lanes, staging, the cache, the
transform stage, region-of-interest steering, manifests and the vocabulary.
-/
namespace Sys2Proof.Machine

/-! Regions. -/

/-- The live region a region register names: local offset and 4 KiB blocks, when `ok` holds of it. -/
def State.itkRegion (s : State) (off : Nat) (ok : Region → Bool) : Option (Nat × Nat) :=
  if s.rbit off 15 then
    match tget noneD s.mem.regions (s.rf off 11 0) with
    | some r => if r.ctx = 0 ∧ r.kind ≠ 1 ∧ ok r then some (r.base, r.pages * 512) else none
    | none => none
  else none
/-- The staging region (R296). -/
def State.stageRegion (s : State) : Option (Nat × Nat) := s.itkRegion 0xE00008 fun r => fld r.tag 9 8 == 0
/-- The cache region, while the cache is on (R300). -/
def State.cacheRegion (s : State) : Option (Nat × Nat) :=
  if s.rbit 0xE00000 1 then s.itkRegion 0xE0000C fun _ => true else none

/-- Write bytes into the 4 KiB blocks of a region. -/
def State.blockWrite (s : State) (base : Nat) (blocks : List Nat) (bs : List Byte) : State :=
  (blocks.zip (chunks 4096 bs)).foldl (fun s p => s.memWrite (base + 4096 * p.1) p.2) s
/-- Such a write waits. -/
def State.blockWaits (s : State) (base : Nat) (blocks : List Nat) : Bool := blocks.any fun b => s.writeWaits (base + 4096 * b) 4096
/-- It waits for the command of a queue (R166). -/
def State.blockHold (s : State) (q base : Nat) (blocks : List Nat) : State :=
  blocks.foldl (fun s b => s.holdWrite q (base + 4096 * b) 4096) s
/-- Read n bytes from the 4 KiB blocks of a region. -/
def State.blockRead (q base : Nat) : List Nat → Nat → State → Got × State
  | [], _, s => (.bytes [], s)
  | b :: l, n, s =>
    let r := s.memRead (.queue q) (base + 4096 * b) (min n 4096)
    match r.1 with
    | .bytes x =>
      let t := State.blockRead q base l (n - 4096) r.2
      match t.1 with
      | .bytes y => (.bytes (x ++ y), t.2)
      | g => (g, t.2)
    | g => (g, r.2)
/-- The 4 KiB blocks that n bytes take. -/
def blocksOf (n : Nat) : Nat := (n + 4095) / 4096
/-- The lowest k free blocks of n, or none. -/
def freeBlocks (n k : Nat) (used : List Nat) : Option (List Nat) :=
  let l := ((List.range n).filter fun b => !used.contains b).take k
  if l.length = k then some l else none

/-! The pipeline. -/

/-- Every sample in the pipeline, in order, with its batch (R295). -/
def Itk.all (i : Itk) : List (Batch × Sample) := i.batches.flatMap fun b => b.samples.map fun x => (b, x)
/-- The batch of a queue. -/
def Itk.batch (i : Itk) (q : Nat) : Option Batch := i.batches.find? fun b => b.queue == q
/-- Samples in the reorder window: ITK_WINDOW.OCC. -/
def Itk.occ (i : Itk) : Nat := min 512 i.all.length
/-- Replace a batch. -/
def State.setBatch (s : State) (b : Batch) : State :=
  { s with itk := { s.itk with batches := s.itk.batches.map fun x => if x.queue = b.queue then b else x } }
/-- Change one sample of a batch. -/
def State.setSample (s : State) (b : Batch) (x : Sample) : State :=
  s.setBatch { b with samples := b.samples.map fun y => if y.idx = x.idx then x else y }
/-- The lane that works on a sample. -/
def Sample.lane (x : Sample) : Option Nat :=
  match x.phase with
  | .started l => some l
  | .reserved l _ _ _ _ _ => some l
  | _ => none
/-- The sample a lane works on. -/
def Itk.onLane (i : Itk) (l : Nat) : Option (Batch × Sample) := i.all.find? fun p => p.2.lane == some l
/-- ITK_LANES. -/
def Itk.lanesIn (i : Itk) : Nat := 32 - i.lanesOut.length
def Itk.lanesBusy (i : Itk) : Nat := (i.all.filter fun p => p.2.lane.isSome).length

/-- The pipeline is free for queue's next command (R278): no running command of the intake's own class still holds it, and
every sample has entered the window. -/
def State.pipeFree (s : State) : Bool :=
  decide (s.itk.all.length ≤ 512) &&
  !(List.range 64).any fun i => match (s.q (320 + i)).cmd with
    | some c => c.phase == .running && c.op / 4096 == 6 && (c.op != 0x6001 || (s.itk.batch (320 + i)).isNone)
    | none => false

/-- The pipeline takes a command: the domain is awake (R394). -/
def State.itkReady (s : State) : Bool := s.pipeFree && !s.itk.gated

/-- A batch leaves the pipeline; the domain may be gated when none is left (R394), and a wait on the region-of-interest
table ends with its record (R293). -/
def State.dropBatch (s : State) (q : Nat) : State :=
  let head := (s.itk.all.head?.map fun p => p.1.queue) == some q
  let s := match head, s.itk.roi with
    | true, .waiting since _ => s.bump64 0xE00068 (s.pwr.time - since)
    | _, _ => s
  let bs := s.itk.batches.filter fun b => b.queue != q
  { s with itk := { s.itk with batches := bs, roi := if head then .none else s.itk.roi,
                               gated := s.itk.gated || (bs.isEmpty && !s.itk.batches.isEmpty && s.rbit 0xE00000 0) } }

/-- An intake command fails (R303): its samples leave the pipeline unwritten. -/
def State.itkFail (s : State) (q : Nat) (f : Fail) : State := ((s.noteBme f).failCmd q f).dropBatch q

/-- The intake engine stops the command of a queue (R40, R306). -/
def State.itkStop (s : State) (q : Nat) : State :=
  let s := s.dropBatch q
  match (s.q q).cmd with
  | some c => if c.phase = .running then s.endCmd q stAborted 0 else s
  | none => s

/-- A faulting read: DETAIL [7:0] what was read, [31:16] the record (Table 11.9). -/
def itkData (what idx : Nat) : Nat := what + idx % 65536 * 65536
/-- The failure of a faulting read. -/
def itkFault (o : Opd) (what idx : Nat) : Fail := ⟨o.fault.getD stPoisoned, itkData what idx⟩

/-- INTAKE_DOMAIN_WAKE (R394). -/
def State.itkWake (s : State) : State :=
  if s.itk.gated && (List.range 64).any fun i => match (s.q (320 + i)).cmd with
      | some c => c.phase == .waiting
      | none => false
  then { s with itk := { s.itk with gated := false } }
  else s

/-! IK_BATCH: checks (R279, R280, R296). -/

def ikB (c : Cmd) : Nat := fld (c.p 0) 16 0
def ikCount (c : Cmd) : Nat := fld (c.p 0) 40 24
def ikText (c : Cmd) : Bool := bitAt (c.p 0) 48
def ikC (c : Cmd) : Nat := fld (c.p 0) 50 49
def ikH (c : Cmd) : Nat := fld (c.p 6) 15 0
def ikW (c : Cmd) : Nat := fld (c.p 6) 31 16

/-- Configuration faults (Table 11.9). -/
def itkConfig (what : Nat) : Fail := ⟨stBadParam, 0xF9 + 256 * what⟩

/-- Steps 2 and 3 of R102. -/
def State.ikFields (s : State) (c : Cmd) : Except Fail Unit :=
  let img := !ikText c
  let code := fld (c.p 3) 3 0
  firstErr
    [ if img then fmtCheck c 3 else .ok (),
      bitCheck 0 [bitIf (ikB c == 0 || decide (65536 < ikB c)) 0, bitIf (decide (ikB c < ikCount c)) 24,
        bitIf (img && ikC c != 1 && ikC c != 3) 49, lowBit (c.p 0) (bmask 23 17 + bmask 47 41 + bmask 63 51)],
      failIf (img && decide (13 ≤ code)) (badParam 3 0),
      pitchCheck c 4,
      if img then pitchCheck c 5 else reservedCheck c 5 (bmask 63 40),
      bitCheck 6 [bitIf (img && (ikH c == 0 || decide (16384 < ikH c))) 0, bitIf (img && (ikW c == 0 || decide (16384 < ikW c))) 16,
        bitIf (fld (c.p 6) 63 32 == 0) 32],
      failIf (img && decide (pitchOf c 4 < ikC c * ikH c * pitchOf c 5)) (badParam 4 0),
      failIf s.stageRegion.isNone (itkConfig 0),
      failIf (!img && s.itk.vocab.isNone) (itkConfig 3) ]

/-- Slot i of an image batch as an operand. -/
def ikSlot (c : Cmd) (i : Nat) : Opnd :=
  ⟨c.p 2 + i * pitchOf c 4, pitchOf c 5, ikC c * ikH c, ikW c, Fmt.of (c.p 3), 2, 3, 5, true, false, false⟩

/-- Steps 4 and 5 of R102 for the slots of an image batch. -/
def State.ikOut (s : State) (q : Nat) (c : Cmd) : Except Fail Acc :=
  match s.resolve q (ikSlot c 0) with
  | .error f => .error f
  | .ok a =>
    let slots := List.range (ikB c)
    let loc := a.addr / 2 ^ 62 == 0
    let t := s.pageTag q (a.addr / pageBytes)
    let odd := loc && slots.any fun i => ((ikSlot c i).pages a.rb).any fun x => s.pageTag q x != t
    match firstErr
        ([failIf (decide (pitchOf c 5 < a.rb)) (badParam 5 0), failIf odd (mismatch 3 2 0)] ++
          [s.checkAddr q (c.p 1) (128 * ikCount c) 1 8] ++
          (slots.map fun i => s.addrCheck q { a with addr := (ikSlot c i).addr }) ++
          [s.checkAddr q (c.p 7) (64 + 32 * ikB c) 7 8]) with
    | .error f => .error f
    | .ok () => .ok { a with entry := none }

/-- The same for a text batch, once its slot size is known (R279). -/
def State.ikTextOut (s : State) (q : Nat) (c : Cmd) (sz : Nat) : Except Fail Acc :=
  let at_ (i : Nat) : Nat := c.p 2 + i * pitchOf c 4
  let slots := List.range (ikB c)
  let typed := c.p 2 / 2 ^ 62 == 0 && slots.any fun i => (pagesOf (at_ i) sz).any fun x => fld (s.pageTag q x) 9 8 != 0
  match firstErr (failIf typed (mismatch 3 0 0) :: slots.map fun i => s.checkAddr q (at_ i) sz 2 8) with
  | .error f => .error f
  | .ok () => .ok ⟨c.p 2, 0, 1, sz, fp32Fmt, fp32Fmt, true, none, none, 2, 3⟩

/-- Read and check the records from i on (R280). The answer: none while a read waits. -/
def State.ikRecs (q : Nat) (c : Cmd) : Nat → Nat → State → Except (Option Fail) (List SubRec) × State
  | 0, _, s => (.ok [], s)
  | n + 1, i, s =>
    let at_ := c.p 1 + 128 * i
    let r := s.opRead q at_ 128 (wordWith 1 (itkData 0 i))
    match r.1 with
    | .wait => (.error none, r.2)
    | .bytes bs =>
      let x := SubRec.of bs
      let cnt := s.rd 0xE0001C
      let chk := firstErr
        [ failIf (!ikText c && x.roi && cnt == 0) (itkConfig 2),
          match recBad (ikText c) (ikH c) (ikW c) cnt bs with
          | some o => .error ⟨stBadParam, 0xFA + 256 * o + i % 65536 * 65536⟩
          | none => .ok (),
          if x.size = 0 then .ok () else s.checkAddr q x.src x.size (1 + i % 65536 * 65536) 1 ]
      match chk with
      | .error f => (.error (some f), r.2)
      | .ok () =>
        let t := State.ikRecs q c n (i + 1) r.2
        (match t.1 with
          | .ok l => .ok (x :: l)
          | .error e => .error e, t.2)
    | o => (.error (some (itkFault o 0 i)), r.2)

/-- Read and check the schema (R285). -/
def State.ikSchema (s : State) (q : Nat) (c : Cmd) (fixed : Bool) : Except (Option Fail) Schema × State :=
  let bad (i : Nat) : Except (Option Fail) Schema := .error (some ⟨stBadParam, 0xF8 + i * 65536⟩)
  let w := wordWith 8 2
  let r := s.opRead q (c.p 8) 16 w
  match r.1 with
  | .wait => (.error none, r.2)
  | .bytes h =>
    if (schemaHead fixed h).isNone then (bad 0xFFFF, r.2)
    else
      let n := schemaBytes (schemaCols h)
      match s.checkAddr q (c.p 8) n 8 8 with
      | .error f => (.error (some f), r.2)
      | .ok () =>
        let t := r.2.opRead q (c.p 8) n w
        match t.1 with
        | .wait => (.error none, t.2)
        | .bytes bs => match schemaParse fixed (pitchOf c 4) bs with
          | .error i => (bad i, t.2)
          | .ok x => (.ok x, t.2)
        | o => (.error (some (itkFault o 2 0)), t.2)
  | o => (.error (some (itkFault o 2 0)), r.2)

/-- The batch enters the pipeline. -/
def State.ikEnter (s : State) (q : Nat) (c : Cmd) (a : Acc) (schema : Option Schema) (recs : List SubRec) : State :=
  let st := s.stageRegion.getD (0, 0)
  let b : Batch :=
    { queue := q, tag := c.tag, b := ikB c, count := ikCount c, c := ikC c, h := ikH c, w := ikW c, budget := fld (c.p 6) 63 32,
      out := a, pitch := pitchOf c 4, manifest := c.p 7, schema := schema, man := c.man, stage := st.1, stageN := st.2,
      samples := recs.mapIdx fun i r => ⟨i, r, .waiting, []⟩, entries := [] }
  let i := { s.itk with batches := s.itk.batches ++ [b] }
  { s with itk := { i with peak := max i.peak i.occ } }

/-- IK_BATCH is checked and enters the pipeline (R279, R280). -/
def State.ikStart (s : State) (q : Nat) (c : Cmd) : State :=
  match s.ikFields c with
  | .error f => s.itkFail q f
  | .ok () =>
    if ikCount c = 0 then s.endCmd q stOK 0
    else
      let pre : Except Fail Acc :=
        if ikText c then
          match firstErr [s.checkAddr q (c.p 1) (128 * ikCount c) 1 8, s.checkAddr q (c.p 2) 0 2 8,
              s.checkAddr q (c.p 7) (64 + 32 * ikB c) 7 8, s.checkAddr q (c.p 8) 16 8 8] with
          | .error f => .error f
          | .ok () => .ok Acc.none
        else s.ikOut q c
      match pre with
      | .error f => s.itkFail q f
      | .ok a =>
        let r := State.ikRecs q c (ikCount c) 0 s
        match r.1 with
        | .error none => r.2
        | .error (some f) => r.2.itkFail q f
        | .ok recs =>
          if !ikText c then r.2.ikEnter q c a none recs
          else
            let t := r.2.ikSchema q c (recs.any fun x => x.format == 4)
            match t.1 with
            | .error none => t.2
            | .error (some f) => t.2.itkFail q f
            | .ok sch => match t.2.ikTextOut q c sch.slot with
              | .error f => t.2.itkFail q f
              | .ok a => t.2.ikEnter q c a (some sch) recs

/-! Slots and manifests. -/

/-- Count non-finite values (R292). -/
def State.itkNf (s : State) (n : Nat) : State :=
  if n = 0 then s
  else
    let zero := s.ctr 0xE00060 == 0
    let s := s.bump64 0xE00060 n
    if zero then s.evItk 3 else s

/-- The operand of slot i of a batch. -/
def Batch.slot (b : Batch) (i : Nat) : Acc := { b.out with addr := b.out.addr + i * b.pitch }
/-- Writing slot i waits. -/
def State.slotWaits (s : State) (b : Batch) (i : Nat) : Bool :=
  let a := b.slot i
  match b.schema with
  | some sch => s.opWaits a.addr sch.slot
  | none => s.rowsWait a (List.range (b.c * b.h)) 0 b.w
/-- It waits for the batch's command (R166). -/
def State.slotHold (s : State) (b : Batch) (i : Nat) : State :=
  let a := b.slot i
  match b.schema with
  | some sch => s.holdWrite b.queue a.addr sch.slot
  | none => s.holdRows b.queue a (List.range (b.c * b.h)) 0 b.w
/-- Write the rows of an image slot (R292). -/
def State.slotRows (s : State) (b : Batch) (i : Nat) (rows : List (List Val)) : State :=
  let a := b.slot i
  (s.writeRows b.queue a false 0 ((List.range rows.length).zip rows)).itkNf (a.nf rows)
/-- Write slot i as a padding slot (R298). -/
def State.slotPad (s : State) (b : Batch) (i : Nat) : State :=
  match b.schema with
  | some sch => s.opWrite b.queue (b.slot i).addr 2 sch.padSlot
  | none => s.slotRows b i (List.replicate (b.c * b.h) (List.replicate b.w Val.zero))

/-- Count a written slot, by its status. -/
def State.slotCount (s : State) (status : Nat) : State :=
  let s := s.bump64 0xE00030 1
  match status with
  | 1 => s.bump64 0xE00050 1
  | 2 => (s.bump64 0xE00040 1).evItk 0
  | 3 => (s.bump64 0xE00048 1).evItk 1
  | 4 => s.bump64 0xE00038 1
  | _ => s

/-- The head sample has been written: its entry is kept and the sample leaves the window. -/
def State.slotDone (s : State) (b : Batch) (x : Sample) (status reason flags work : Nat) : State :=
  let good := decide (status = 0 ∨ status = 4)
  let e : ManEntry := ⟨x.sub.index, x.sub.id, if good then x.sub.weight else f32zero, status, reason, flags, work⟩
  let s := (s.setBatch { b with samples := b.samples.filter (fun y => y.idx != x.idx), entries := b.entries ++ [e] }).slotCount status
  { s with itk := { s.itk with roi := .none } }

/-- Write the head sample's slot as padding (R298). -/
def State.padHead (s : State) (b : Batch) (x : Sample) (status reason work : Nat) : State :=
  if s.slotWaits b x.idx then s.slotHold b x.idx else (s.slotPad b x.idx).slotDone b x status reason 0 work

/-- A manifest entry's bytes (Table 11.7). -/
def ManEntry.bytes (e : ManEntry) : List Byte :=
  leBytes 8 e.index ++ leBytes 8 e.id ++ leBytes 4 e.weight.toNat ++ leBytes 1 e.status ++ leBytes 1 e.reason ++ leBytes 2 e.flags ++
  leBytes 4 e.work ++ leBytes 4 0

/-- The manifest (Table 11.7); `v` is its negotiated version. -/
def manifestBytes (b : Batch) (v : Nat × Nat) (es : List ManEntry) : List Byte :=
  let n (f : ManEntry → Bool) : List Byte := leBytes 4 (es.filter f).length
  leBytes 4 0x464E414D ++ leBytes 1 v.1 ++ leBytes 1 v.2 ++ leBytes 2 0 ++ leBytes 4 b.b ++ leBytes 4 b.count ++
  n (fun e => e.status == 0 || e.status == 4) ++ n (fun e => e.status == 1) ++ n (fun e => e.status == 2) ++
  n (fun e => e.status == 3) ++ leBytes 4 b.tag.toNat ++ List.replicate 28 0 ++ es.flatMap ManEntry.bytes

/-- The manifest, once every slot's write is visible, and the end (R302). -/
def State.ikManifest (s : State) (q : Nat) (b : Batch) : State :=
  if !s.visible q then s
  else if s.opWaits b.manifest (64 + 32 * b.b) then s.holdWrite q b.manifest (64 + 32 * b.b)
  else ((s.opWrite q b.manifest 7 (manifestBytes b b.man b.entries)).endCmd q stOK 0).dropBatch q

/-- Every sample has been written: the padded slots (R299), then the manifest. -/
def State.ikFinish (s : State) (q : Nat) (b : Batch) : State :=
  let pads := (List.range (b.b - b.entries.length)).map fun i => b.entries.length + i
  if pads = [] then s.ikManifest q b
  else if pads.any (s.slotWaits b) then pads.foldl (fun s i => s.slotHold b i) s
  else
    let b' := { b with entries := b.entries ++ pads.map fun _ => ⟨0xFFFFFFFFFFFFFFFF, 0, f32zero, 1, 0, 0, 0⟩ }
    ((pads.foldl (fun s i => (s.slotPad b i).slotCount 1) s).setBatch b').ikManifest q b'

/-- IK_BATCH. -/
def State.ikBatch (s : State) (q : Nat) : State :=
  match s.running q 0x6001 with
  | none => s
  | some c => match s.itk.batch q with
    | none => s.ikStart q c
    | some b => if b.samples = [] then s.ikFinish q b else s

/-! Vocabulary and cache commands (R290, R301). -/

/-- IK_VOCAB_LOAD fails: the previous vocabulary stays in force. -/
def State.vocabFail (s : State) (q : Nat) (f : Fail) : State := ((s.evItk 5).noteBme f).failCmd q f

/-- The checks of IK_VOCAB_LOAD before its table is read. -/
def State.vocabFields (s : State) (q : Nat) (c : Cmd) : Except Fail Unit :=
  let w := c.p 0
  let n := fld w 20 0
  let base := fld w 62 32
  firstErr
    [ bitCheck 0 [bitIf (n == 0 || decide (1048576 < n)) 0, lowBit w (bmask 31 21 + bmask 63 63),
        bitIf (decide (base < n) || decide (2 ^ 31 ≤ base + 255)) 32],
      s.checkAddr q (c.p 1) (32 * n) 1 8,
      if isHost (c.p 2) || isPeer (c.p 2) then .error (badAddr 2 0) else s.checkAddr q (c.p 2) (64 * n) 2 8 ]

/-- Samples of earlier commands have all been written (R278). -/
def State.pipeEmpty (s : State) : Bool := s.itk.all.isEmpty

/-- IK_VOCAB_LOAD (R290). What it builds in WORK the spec leaves open. -/
def State.vocabLoad (s : State) (q : Nat) : State :=
  match s.running q 0x6010 with
  | none => s
  | some c =>
    if !s.pipeEmpty then s
    else match s.vocabFields q c with
      | .error f => s.vocabFail q f
      | .ok () =>
        let n := fld (c.p 0) 20 0
        let r := s.opRead q (c.p 1) (32 * n) (wordWith 1 (itkData 3 0))
        match r.1 with
        | .wait => r.2
        | .bytes bs =>
          match vocabGo 0 [] (chunks 32 bs) with
          | .error i => r.2.vocabFail q ⟨stBadParam, 0xF7 + i * 4096⟩
          | .ok es =>
            if r.2.opWaits (c.p 2) (64 * n) then r.2.holdWrite q (c.p 2) (64 * n)
            else
              let f := r.2.freeBytes (c.p 2) (64 * n)
              let s := f.2.memWrite (c.p 2) f.1
              let s := { s with itk := { s.itk with vocab := some (es, fld (c.p 0) 62 32) },
                                mem := { s.mem with vocWork := c.p 2, vocLen := 64 * n, vocBad := false } }
              s.endCmd q stOK 0
        | o => r.2.vocabFail q (itkFault o 3 0)

/-- Empty the cache (R301). -/
def State.cacheEmpty (s : State) : State := { s with itk := { s.itk with cache := [] } }

/-- IK_CACHE_FLUSH (R301). -/
def State.cacheFlush (s : State) (q : Nat) : State :=
  match s.running q 0x6011 with
  | none => s
  | some _ => if s.pipeEmpty then s.cacheEmpty.endCmd q stOK 0 else s

/-! The cache (R300). -/

/-- The cache as it stands in the region configured now: emptied when the region has moved. -/
def State.cacheSync (s : State) (at_ : Nat × Nat) : State :=
  if s.itk.cacheAt = at_ then s else { s with itk := { s.itk with cache := [], cacheAt := at_ } }

/-- The key of a sample. -/
def State.cacheKey (s : State) (q : Nat) (r : SubRec) : CacheKey := ⟨s.ctx q, r.id, r.format, r.page⟩

/-- Drop the least recently used samples until k of n blocks are free. -/
def evict (n k : Nat) : Nat → List CacheEntry → List CacheEntry
  | 0, l => l
  | f + 1, l => if n < (l.map fun e => e.blocks.length).sum + k then evict n k f l.dropLast else l

/-- Where a decoded image is kept, when it is: the region's local offset, its blocks, and the samples that stay beside it. -/
def State.cachePlan (s : State) (q : Nat) (r : SubRec) (i : Img) : Option (Nat × List Nat × List CacheEntry) :=
  match s.cacheRegion with
  | none => none
  | some at_ =>
    let k := blocksOf i.px.length
    if at_.2 < k then none
    else
      let old := (s.cacheSync at_).itk.cache.filter fun e => e.key != s.cacheKey q r
      let l := evict at_.2 k old.length old
      (freeBlocks at_.2 k (l.flatMap fun e => e.blocks)).map fun bs => (at_.1, bs, l)

/-- Keep a decoded image. -/
def State.cachePut (s : State) (q : Nat) (r : SubRec) (units : Nat) (i : Img) : State :=
  match s.cacheRegion, s.cachePlan q r i with
  | some at_, some (base, bs, l) =>
    let s := (s.cacheSync at_).blockWrite base bs i.px
    { s with itk := { s.itk with cache := ⟨s.cacheKey q r, units, i.w, i.h, i.ch, bs⟩ :: l } }
  | _, _ => s

/-- The blocks of the cache that keeping a decoded image writes. -/
def State.cacheBlocks (s : State) (q : Nat) (r : SubRec) (i : Img) : Nat × List Nat :=
  match s.cachePlan q r i with
  | some (base, bs, _) => (base, bs)
  | none => (0, [])

/-! Lanes (R295 to R297). -/

/-- DECODE_START: a free lane takes the lowest-numbered sample in the window that has not started. -/
def State.decodeStart (s : State) (lane : Nat) : State :=
  if s.itk.lanesOut.contains lane || (s.itk.onLane lane).isSome || s.itk.gated then s
  else match (s.itk.all.take 512).find? fun p => p.2.phase == .waiting with
    | some (b, x) => s.setSample b { x with phase := .started lane }
    | none => s

/-- A sample's decode has ended; one that is not OK keeps no staging space. -/
def State.endDecode (s : State) (b : Batch) (x : Sample) (d : Decoded) : State :=
  let keep := match d with
    | .ok _ _ _ _ _ _ _ _ => true
    | _ => false
  s.setSample b { x with phase := .decoded d, blocks := if keep then x.blocks else [] }

/-- The staging blocks in use. -/
def Itk.stageUsed (i : Itk) : List Nat := i.all.flatMap fun p => p.2.blocks

/-- Earlier samples have their staging space (R296). -/
def Itk.earlierReserved (i : Itk) (b : Batch) (x : Sample) : Bool :=
  (i.all.takeWhile fun p => !(p.1.queue == b.queue && p.2.idx == x.idx)).all fun p => match p.2.phase with
    | .waiting => false
    | .started _ => false
    | _ => true

/-- The size an image's header announces. -/
def imgSize (r : SubRec) (bs : List Byte) : Except Stop (Nat × Nat × Nat) :=
  (runDec (match r.format with
    | 0 => jpegSize bs
    | 1 => pngSize bs
    | _ => tiffSize r.page bs) 0 bs).1

/-- Decode an image within a budget: the outcome and the units charged. -/
def imgDecode (r : SubRec) (budget : Nat) (bs : List Byte) : Except Stop Img × Nat :=
  runDec (match r.format with
    | 0 => jpegDecode bs
    | 1 => pngDecode bs
    | _ => tiffDecode r.page bs) budget bs

/-- The budget of a record (Table 11.3). -/
def Batch.budgetOf (b : Batch) (r : SubRec) : Nat := if r.budget = 0 then b.budget else r.budget

/-- Grant space for a fresh decode whose source is read, or end it as too large. -/
def State.grant (s : State) (b : Batch) (x : Sample) (lane bytes w h ch : Nat) (src : List Byte) : State :=
  let k := blocksOf bytes
  if b.stageN < k then s.endDecode b x (.corrupt 4 0)
  else match freeBlocks b.stageN k s.itk.stageUsed with
    | none => s
    | some bl => s.setSample b { x with phase := .reserved lane (some src) 0 w h ch, blocks := bl }

/-- Reserve for a fresh decode: read the source and parse its header. -/
def State.reserveFresh (s : State) (b : Batch) (x : Sample) (lane : Nat) : State :=
  let r := s.opRead b.queue x.sub.src x.sub.size (wordWith (1 + x.idx % 65536 * 65536) (itkData 1 x.idx))
  match r.1 with
  | .wait => r.2
  | .bytes bs =>
    match b.schema with
    | some sch => r.2.grant b x lane sch.slot 0 0 0 bs
    | none => match imgSize x.sub bs with
      | .error (.corrupt why) => r.2.endDecode b x (.corrupt why 0)
      | .error .over => r.2.endDecode b x .over
      | .ok (w, h, ch) => r.2.grant b x lane (w * h * ch) w h ch bs
  | o => r.2.itkFail b.queue (itkFault o 1 x.idx)

/-- Reserve for a cached sample and take it from the cache (R300). A sample that does not read well is dropped. -/
def State.reserveHit (s : State) (b : Batch) (x : Sample) (lane : Nat) (at_ : Nat) (e : CacheEntry) : State :=
  let k := e.blocks.length
  if b.stageN < k then s.endDecode b x (.corrupt 4 0)
  else if b.budgetOf x.sub < e.units then s.endDecode b x .over
  else match freeBlocks b.stageN k s.itk.stageUsed with
    | none => s
    | some bl =>
      if s.blockWaits b.stage bl || e.blocks.any fun c => s.accessWaits (at_ + 4096 * c) 4096 then s.blockHold b.queue b.stage bl
      else
        let g := State.blockRead b.queue at_ e.blocks (e.w * e.h * e.ch) s
        let rest := g.2.itk.cache.filter fun y => y.key != e.key
        match g.1 with
        | .bytes bs =>
          let s := { g.2 with itk := { g.2.itk with cache := e :: rest } }
          (s.blockWrite b.stage bl bs).setSample b { x with phase := .reserved lane none e.units e.w e.h e.ch, blocks := bl }
        | _ => { g.2 with itk := { g.2.itk with cache := rest } }.evItk 4

/-- STAGING_RESERVE: space is granted in ascending sample order (R296). -/
def State.stagingReserve (s : State) (lane : Nat) : State :=
  match s.itk.onLane lane with
  | none => s
  | some (b, x) =>
    if x.phase != .started lane || !s.itk.earlierReserved b x then s
    else if x.sub.size = 0 then s.endDecode b x (.corrupt 1 0)
    else
      match (if b.schema.isSome then none else s.cacheRegion) with
      | some at_ =>
        let s := s.cacheSync at_
        match s.itk.cache.find? fun e => e.key == s.cacheKey b.queue x.sub with
        | some e => s.reserveHit b x lane at_.1 e
        | none => s.reserveFresh b x lane
      | none => s.reserveFresh b x lane

/-- The vocabulary in use. -/
def State.vocabNow (s : State) : Vocab :=
  let v := s.itk.vocab.getD ([], 0)
  ⟨v.1, v.2, s.mem.vocBad⟩

/-- What a decode that did not succeed leaves. -/
def Stop.outcome (e : Stop) (units : Nat) : Decoded :=
  match e with
  | .corrupt r => .corrupt r units
  | .over => .over

/-- DECODE_END: a lane finishes, fails or exceeds the budget (R297). -/
def State.decodeEnd (s : State) (lane : Nat) : State :=
  match s.itk.onLane lane with
  | none => s
  | some (b, x) =>
    match x.phase with
    | .reserved _ none u w h ch => s.endDecode b x (.ok true u w h ch false false 0)
    | .reserved _ (some src) _ _ _ _ =>
      if s.blockWaits b.stage x.blocks then s.blockHold b.queue b.stage x.blocks
      else
        let budget := b.budgetOf x.sub
        match b.schema with
        | some sch =>
          let r := runDec (textDecode sch s.vocabNow s.draws (x.sub.format == 4)) budget src
          let s := { s.bump64 0xE00058 r.2 with draws := s.draws + sch.cols.length }
          match r.1 with
          | .ok t => (s.blockWrite b.stage x.blocks t.bytes).endDecode b x (.ok false r.2 0 0 0 t.trunc t.missing t.nf)
          | .error e => s.endDecode b x (e.outcome r.2)
        | none =>
          let r := imgDecode x.sub budget src
          match r.1 with
          | .ok i =>
            let k := s.cacheBlocks b.queue x.sub i
            if s.blockWaits k.1 k.2 then s.blockHold b.queue k.1 k.2
            else
              let s := (s.bump64 0xE00058 r.2).blockWrite b.stage x.blocks i.px
              (s.cachePut b.queue x.sub r.2 i).endDecode b x (.ok false r.2 i.w i.h i.ch false false 0)
          | .error e => (s.bump64 0xE00058 r.2).endDecode b x (e.outcome r.2)
    | _ => s

/-! The transform stage (R291 to R293). -/

/-- A region-of-interest entry's box (R293): none when it fails. -/
def roiBox (bs : List Byte) (n : Nat) : Option Box :=
  let g (i : Nat) : Int := (leNat ((bs.drop (8 + 8 * n + 2 * i)).take 2) : Nat)
  let cnt := (bs.getD 4 0).toNat
  if cnt ≤ 15 ∧ n < cnt ∧ (bs.drop 5).take 3 = [0, 0, 0] ∧ g 0 < g 2 ∧ g 1 < g 3 then some ⟨g 0, g 1, g 2, g 3⟩ else none

/-- Local offset of the entry a record names. -/
def State.roiAt (s : State) (r : SubRec) : Nat := s.rd3 0xE00010 + 128 * r.roiIdx

/-- Read SEQ; once it has come, read the entry (R293). -/
def State.roiTry (s : State) (b : Batch) (x : Sample) : State :=
  let a := s.roiAt x.sub
  let r := s.opRead b.queue a 4 (itkData 4 x.idx)
  match r.1 with
  | .wait => r.2
  | .bytes bs =>
    if geMod (BitVec.ofNat 32 (leNat bs)) x.sub.roiSeq then
      let t := r.2.opRead b.queue a 128 (itkData 4 x.idx)
      match t.1 with
      | .wait => t.2
      | .bytes es => { t.2 with itk := { t.2.itk with roi := .read (roiBox es x.sub.roiBox) } }
      | o => t.2.itkFail b.queue (itkFault o 4 x.idx)
    else match r.2.itk.roi with
      | .none => ({ r.2 with itk := { r.2.itk with roi := .waiting s.pwr.time s.pwr.time } }).evItk 2
      | _ => r.2
  | o => r.2.itkFail b.queue (itkFault o 4 x.idx)

/-- The sample the transform stage takes next, when it has been decoded. -/
def Itk.head (i : Itk) : Option (Batch × Sample × Decoded) :=
  match i.all.head? with
  | some (b, x) => match x.phase with
    | .decoded d => some (b, x, d)
    | _ => none
  | none => none

/-- ROI_POLL: every microsecond a waiting record reads SEQ again (R293). -/
def State.roiPoll (s : State) : State :=
  match s.itk.roi, s.itk.head with
  | .waiting since polled, some (b, x, _) =>
    if s.pwr.time < polled + 1000 then s
    else
      let s := s.bump64 0xE00068 (s.pwr.time - since)
      ({ s with itk := { s.itk with roi := .waiting s.pwr.time s.pwr.time } }).roiTry b x
  | _, _ => s

/-- A residue fault of the transform stage (R369). -/
def State.itkResidue (s : State) (q : Nat) : State := (s.errRec 0x01 1 14 0 0 0).itkFail q ⟨stResidue, 0⟩

/-- Write the head sample's slot from its staging space. -/
def State.writeHead (s : State) (b : Batch) (x : Sample) (flt : Bool) (box : Box) (cached : Bool) (u w h ch : Nat) (more : Nat × Nat) : State :=
  if s.slotWaits b x.idx || x.blocks.any fun k => s.accessWaits (b.stage + 4096 * k) 4096 then s.slotHold b x.idx
  else
    let bytes := match b.schema with
      | some sch => sch.slot
      | none => w * h * ch
    let g := State.blockRead b.queue b.stage x.blocks bytes s
    let st := if cached then 4 else 0
    match g.1 with
    | .bytes bs =>
      if flt then g.2.itkResidue b.queue
      else match b.schema with
        | some _ => ((g.2.opWrite b.queue (b.slot x.idx).addr 2 bs).itkNf more.2).slotDone b x st 0 more.1 u
        | none =>
          let t := transform x.sub box b.c b.w b.h (Config.filledOpen x.sub.c x.sub.s) ⟨w, h, ch, bs⟩
          let flags := 4 * b2n x.sub.roi + 8 * b2n t.2
          (g.2.slotRows b x.idx (t.1.flatMap fun p => p.map fun r => r.map f32)).slotDone b x st 0 flags u
    | .uncorrectable => g.2.itkFail b.queue ⟨stUncorrectable, itkData 1 x.idx⟩
    | _ => g.2.itkFail b.queue ⟨stPoisoned, itkData 1 x.idx⟩

/-- TRANSFORM_SAMPLE: the oldest sample, once decoded, is transformed and written (R291, R295, R298). -/
def State.transformSample (s : State) (flt : Bool) : State :=
  match s.itk.head with
  | none => s
  | some (b, x, d) =>
    match d with
    | .corrupt r u => if flt && !s.slotWaits b x.idx then s.itkResidue b.queue else s.padHead b x 2 r u
    | .over => if flt && !s.slotWaits b x.idx then s.itkResidue b.queue else s.padHead b x 3 0 0xFFFFFFFF
    | .ok cached u w h ch tr mi nf =>
      let more := (b2n tr + 2 * b2n mi, nf)
      let own : Box := ⟨x.sub.x0, x.sub.y0, x.sub.x1, x.sub.y1⟩
      if b.schema.isNone && x.sub.roi then
        match s.itk.roi with
        | .none => s.roiTry b x
        | .waiting _ _ => s
        | .read none => s.padHead b x 2 8 u
        | .read (some box) => s.writeHead b x flt box cached u w h ch more
      else s.writeHead b x flt own cached u w h ch more

/-- ITK_NF_CLR and ITK_PEAK_CLR (R416). -/
def State.itkNfClr (s : State) : State := s.setCtr 0xE00060 0
def State.itkPeakClr (s : State) : State := { s with itk := { s.itk with peak := s.itk.occ } }

end Sys2Proof.Machine
end

