-- ==== Sys2Proof/Machine/Mat.lean ====
section
/-!
DEFINITION. The matrix array (chapter 4): checks and starts of MM_PRODUCT, MM_COMBINE, MM_ACC_OPEN and MM_ACC_FLUSH,
work items, exact block summation, ordered combine, handles.
-/
namespace Sys2Proof.Machine

/-- An unlisted cluster runs nothing; an unlisted handle is not open. -/
def State.clItem (s : State) (c : Nat) : Option MatItem := tget noneD s.mat.items c
def State.handle (s : State) (h : Nat) : Option Handle := tget noneD s.mat.handles h
def State.setHandle (s : State) (h : Nat) (v : Option Handle) : State :=
  { s with mat := { s.mat with handles := tput noneD s.mat.handles h v } }
/-- Handles open (MAT_HANDLES.OPEN) and the capacity (R97). -/
def State.handlesOpen (s : State) : Nat := (s.mat.handles.filter fun e => e.2.isSome).length
def State.handleCap (s : State) : Nat := 3 * s.clCount
/-- The run of a queue. -/
def State.matRun (s : State) (q : Nat) : Option MatRun := s.mat.runs.find? fun r => r.queue == q
/-- Replace or add the run of a queue, in ascending queue order. -/
def putRun (r : MatRun) : List MatRun → List MatRun
  | [] => [r]
  | x :: l => if x.queue = r.queue then r :: l else if r.queue < x.queue then r :: x :: l else x :: putRun r l
def State.setRun (s : State) (r : MatRun) : State := { s with mat := { s.mat with runs := putRun r s.mat.runs } }
/-- Drop the run of a queue and its items in flight. -/
def State.dropRun (s : State) (q : Nat) : State :=
  { s with mat := { s.mat with runs := s.mat.runs.filter (fun r => r.queue != q),
                               items := s.mat.items.filter fun e => match e.2 with
                                 | some i => i.queue != q
                                 | none => true } }
/-- Clusters that a queue's command holds. -/
def State.clHeld (s : State) (q : Nat) : Nat := (s.mat.items.filter fun e => match e.2 with
  | some i => i.queue == q
  | none => false).length

/-- A cluster can be given a work item: in service, not leaving, not running one (R91). -/
def State.clFree (s : State) (c : Nat) : Bool := s.clIn c && (s.clItem c).isNone && !tget noFlag s.mat.leaving c
/-- Some cluster is free: a product or combine is ready (R91). -/
def State.matReady (s : State) : Bool := (List.range 64).any s.clFree

/-- Tiles of an M × N result, and tiles across. -/
def tilesAcross (n : Nat) : Nat := ceilDiv n 128
def tileCount (m n : Nat) : Nat := ceilDiv m 128 * tilesAcross n

/-! Non-finite counts (R111). -/

/-- Count non-finite values of cluster c. -/
def State.matNf (s : State) (c n : Nat) : State :=
  if n = 0 then s
  else
    let zero := s.ctr 0x600018 == 0
    let s := (s.bump (0x610004 + 0x20 * c) n).bump64 0x600018 n
    if zero then s.evMat 1 else s

/-! MM_PRODUCT (R85 to R96, R102 to R108). -/

/-- The fields of MM_PRODUCT (Table 4.5). -/
structure MmP where
  m : Nat
  n : Nat
  k : Nat
  segs : Nat
  auto : Bool
  maxcl : Nat
  ta : Bool
  tb : Bool
  accin : Nat
  dest : Nat

def MmP.of (c : Cmd) : MmP :=
  ⟨fld (c.p 0) 23 0, fld (c.p 0) 47 24, fld (c.p 1) 31 0, fld (c.p 1) 38 32, bitAt (c.p 1) 39, fld (c.p 1) 46 40,
    bitAt (c.p 1) 48, bitAt (c.p 1) 49, fld (c.p 1) 51 50, fld (c.p 1) 53 52⟩

/-- The class of an A or B code (R85): 0 not accepted, 1 narrow, 2 half, 3 single. -/
def pairClass (code : Nat) : Nat :=
  if code = 0 then 3 else if code ≤ 2 then 2 else if code ≤ 12 then 1 else 0
/-- C accepts plain FP32, BF16 and FP16. -/
def codeC (code : Nat) : Bool := decide (code ≤ 2)
/-- D accepts every code but SE8 and SU43. -/
def codeD (code : Nat) : Bool := code != 13 && code != 14

/-- L of R87. -/
def blockLen (a b : Fmt) (ta tb : Bool) : Nat :=
  let blockedA := a.layout != 0
  let blockedB := b.layout != 0
  if pairClass a.code ≠ 1 ∨ (blockedA && ta) ∨ (blockedB && tb) then 1
  else if blockedA && blockedB then min a.block b.block
  else if blockedA then a.block
  else if blockedB then b.block
  else 32

/-- S of R93 and R107. -/
def segCount (p : MmP) (nb c : Nat) : Nat :=
  if p.k = 0 ∧ p.dest ≤ 1 then 1
  else if p.auto then max 1 (min nb (c / max 1 (tileCount p.m p.n)))
  else p.segs

/-- Step 3 of R102 for p1: field ranges, PORTABLE, and the combinations of R95 that p1 names. -/
def State.mmP1 (s : State) (c : Cmd) (p : MmP) : Except Fail Unit :=
  bitCheck 1
    [ bitIf (!p.auto && (p.segs == 0 || decide (64 < p.segs))) 32,
      bitIf (p.dest == 1 && !p.auto && p.segs != 1) 32,
      bitIf (p.auto && (s.rbit 0x600000 1 || !c.ordered || p.dest != 0)) 39,
      bitIf (decide (64 < p.maxcl)) 40,
      lowBit (c.p 1) (bmask 47 47),
      bitIf (decide (2 ≤ p.accin) || (p.dest == 1 && p.accin != 0)) 50,
      bitIf (p.dest == 3) 52,
      lowBit (c.p 1) (bmask 63 54) ]

/-- UNIT_OUT_OF_SERVICE for a handle (Table 4.7). -/
def lostFail (h : Nat) (v : Handle) : Fail := ⟨stOutOfService, h + v.cluster * 256⟩

/-- The handle of a product with DEST = 1 (R98, R100). -/
def State.mmHandle (s : State) (c : Cmd) : Except Fail Unit :=
  match lowBit (c.p 11) (bmask 63 8) with
  | some b => .error (badParam 11 b)
  | none =>
    let h := fld (c.p 11) 7 0
    match (if 191 < h then none else s.handle h) with
    | none => .error (badParam 11 0)
    | some v => if v.lost then .error (lostFail h v) else .ok ()

/-- M and N of a product into a handle are the handle's (R98); a product with nothing to do is not compared. -/
def State.mmShape (s : State) (c : Cmd) (p : MmP) : Except Fail Unit :=
  match s.handle (fld (c.p 11) 7 0) with
  | some v => if p.m = 0 ∨ p.n = 0 then .ok () else bitCheck 0 [bitIf (p.m != v.mh) 0, bitIf (p.n != v.nh) 24]
  | none => .ok ()

/-- Steps 2 and 3 of R102 for MM_PRODUCT. Where SEGMODE, S, DEST and ORDERED_COMBINE go together badly (R95), DETAIL names
bit 28 of the header for ORDERED_COMBINE, and SEGMODE and SEGS of p1 (DEDUCED, log entry 67). -/
def State.mmFields (s : State) (c : Cmd) : Except Fail Unit :=
  let p := MmP.of c
  let useC := p.accin != 0
  let useD := p.dest != 1
  let ca := (Fmt.of (c.p 3)).code
  let cb := (Fmt.of (c.p 6)).code
  let cc := (Fmt.of (c.p 9)).code
  let fd := Fmt.of (c.p 12)
  let fmts := [fmtCheck c 3, fmtCheck c 6] ++ (if useC then [fmtCheck c 9] else []) ++ (if useD then [fmtCheck c 12] else [])
  let split := segCount p 2 2
  firstErr (fmts ++
    [ reservedCheck c 0 (bmask 63 48),
      if useD then .ok () else s.mmShape c p,
      s.mmP1 c p,
      failIf (pairClass ca == 0) (badParam 3 0),
      pitchCheck c 4,
      failIf (pairClass cb == 0 || pairClass ca != pairClass cb) (badParam 6 0),
      pitchCheck c 7,
      failIf (useC && !codeC cc) (badParam 9 0),
      if useC then pitchCheck c 10 else reservedCheck c 10 (bmask 63 40),
      if useD then .ok () else s.mmHandle c,
      failIf (useD && !codeD fd.code) (badParam 12 0),
      failIf (p.dest == 2 && fd.code != 0) (badParam 12 0),
      if useD then pitchCheck c 13 else reservedCheck c 13 (bmask 63 40),
      failIf ((c.ordered && p.dest != 0) || (!c.ordered && p.dest == 0 && !p.auto && decide (1 < split))) (badParam 0xFF 28) ])

/-- The operands A, B, C, D of a product, D covering every partial for DEST = 2. -/
def mmOperands (c : Cmd) (s : Nat) : List Opnd :=
  let p := MmP.of c
  let a := if p.ta then opnd3 c 2 p.k p.m false false else opnd3 c 2 p.m p.k false false
  let b := if p.tb then opnd3 c 5 p.k p.n false false else opnd3 c 5 p.n p.k false false
  [a, b] ++ (if p.accin = 0 then [] else [opnd3 c 8 p.m p.n false false]) ++
    (if p.dest = 1 then [] else [opnd3 c 11 (if p.dest = 2 then s * p.m else p.m) p.n true false])

/-- An overlap that leaves D undefined (R106). -/
def mmUndef (accin : Bool) (useD : Bool) (a b c d : Acc) : Bool :=
  let bad (x y : Acc) : Bool := x.meets y && !x.exact y
  (useD && (bad d a || bad d b || (accin && bad d c))) || (accin && (bad c a || bad c b))

/-- The run of a product whose checks pass. Partials go to memory as they are, without statistics (R95); where the region
makes them narrower on the fly, in its overflow mode (R78). -/
def mmPlan (q : Nat) (c : Cmd) (as : List Acc) : MatRun :=
  let p := MmP.of c
  let a := as.getD 0 Acc.none
  let b := as.getD 1 Acc.none
  let cc := if p.accin = 0 then Acc.none else as.getD 2 Acc.none
  let d := if p.dest = 1 then Acc.none else as.getD (as.length - 1) Acc.none
  let l := blockLen a.op b.op p.ta p.tb
  let nb := ceilDiv p.k l
  let d := if p.dest = 2 then { d with sat := d.sat && !sameFmt d.op d.mem, entry := none } else d
  { queue := q, kind := .product, m := p.m, n := p.n, k := p.k, transA := p.ta, transB := p.tb,
    segs := segCount p nb c.clusters, blk := l, nb := nb, maxcl := p.maxcl, accin := p.accin != 0, dest := p.dest,
    handle := fld (c.p 11) 7 0, a := a, b := b, c := cc, d := d, undef := mmUndef (p.accin != 0) (p.dest != 1) a b cc d,
    next := 0, done := 0, parts := [], fail := none, born := c.born, asker := none }

/-- A handle without its cluster sets OUT_OF_SERVICE (R100). -/
def State.noteLost (s : State) (f : Fail) : State := if f.st = stOutOfService then s.evMat 3 else s

/-- Fail a matrix command in its checks. -/
def State.matFail (s : State) (q : Nat) (f : Fail) : State := ((s.noteLost f).noteBme f).failCmd q f

/-- Start a run after reading the STATE word of D's tide entry (R139). -/
def State.startWithSnap (s : State) (q : Nat) (r : MatRun) : State :=
  let t := s.takeSnap q r.d
  match t.1 with
  | .ok d => t.2.setRun { r with d := d }
  | .error .wait => t.2
  | .error (.fail f) => t.2.failCmd q f

/-- MM_PRODUCT. -/
def State.mmProduct (s : State) (q : Nat) : State :=
  match s.running q 0x1001 with
  | none => s
  | some c =>
    if (s.matRun q).isSome then s
    else match s.mmFields c with
      | .error f => s.matFail q f
      | .ok () =>
        let p := MmP.of c
        if p.m = 0 ∨ p.n = 0 then s.endCmd q stOK 0
        else match s.access q (mmOperands c p.segs) with
          | .error f => s.matFail q f
          | .ok as => s.startWithSnap q (mmPlan q c as)

/-! MM_COMBINE (R104). -/

/-- Steps 2 and 3 of R102 for MM_COMBINE. -/
def mcFields (c : Cmd) : Except Fail Unit :=
  firstErr
    [ fmtCheck c 5, reservedCheck c 0 (bmask 63 48),
      bitCheck 1 [bitIf (decide (64 < fld (c.p 1) 6 0)) 0, lowBit (c.p 1) (bmask 63 7)],
      pitchCheck c 3, failIf (!codeD (Fmt.of (c.p 5)).code) (badParam 5 0), pitchCheck c 6 ]

/-- The run of a combine whose checks pass. -/
def mcPlan (q : Nat) (c : Cmd) (as : List Acc) : MatRun :=
  let m := fld (c.p 0) 23 0
  let n := fld (c.p 0) 47 24
  let a := as.getD 0 Acc.none
  let d := as.getD 1 Acc.none
  { queue := q, kind := .combine, m := m, n := n, k := 0, transA := false, transB := false, segs := fld (c.p 1) 6 0,
    blk := 1, nb := 0, maxcl := 0, accin := false, dest := 0, handle := 0, a := a, b := Acc.none, c := Acc.none, d := d,
    undef := d.meets a && !d.exact a, next := 0, done := 0, parts := [], fail := none, born := c.born, asker := none }

/-- MM_COMBINE. -/
def State.mmCombine (s : State) (q : Nat) : State :=
  match s.running q 0x1002 with
  | none => s
  | some c =>
    if (s.matRun q).isSome then s
    else match mcFields c with
      | .error f => s.matFail q f
      | .ok () =>
        let m := fld (c.p 0) 23 0
        let n := fld (c.p 0) 47 24
        let ps := fld (c.p 1) 6 0
        if m = 0 ∨ n = 0 ∨ ps = 0 then s.endCmd q stOK 0
        else
          let part : Opnd := ⟨c.p 2, pitchOf c 3, ps * m, n, fp32Fmt, 2, 2, 3, false, false, false⟩
          let dst : Opnd := ⟨c.p 4, pitchOf c 6, m, n, Fmt.of (c.p 5), 4, 5, 6, true, false, true⟩
          match s.access q [part, dst] with
          | .error f => s.matFail q f
          | .ok as => s.startWithSnap q (mcPlan q c as)

/-! Work items (R91 to R95). -/

/-- The number of work items of a run. -/
def MatRun.total (r : MatRun) : Nat := tileCount r.m r.n * (match r.kind with
  | .product => r.segs
  | .combine => 1)

/-- May cluster c take an item of run r (R91, R98, R109)? -/
def State.clTakes (s : State) (c : Nat) (r : MatRun) : Bool :=
  r.fail.isNone && decide (r.next < r.total) && (r.maxcl == 0 || decide (s.clHeld r.queue < r.maxcl)) &&
  decide (tget zeroN s.mat.joined c ≤ r.born) &&
  (r.dest != 1 || match s.handle r.handle with
    | some h => h.cluster == c
    | none => false)

/-- The item number i of a run: tile and segment. -/
def MatRun.item (r : MatRun) (i : Nat) : MatItem :=
  match r.kind with
  | .product => ⟨r.queue, i / max 1 r.segs, i % max 1 r.segs⟩
  | .combine => ⟨r.queue, i, 0⟩

/-- A product into a handle that has lost its cluster before its item was issued (R100). -/
def State.orphan (s : State) (r : MatRun) : Option Fail :=
  if r.dest = 1 ∧ r.next = 0 ∧ r.fail.isNone then
    match s.handle r.handle with
    | some h => if h.lost then some (lostFail r.handle h) else none
    | none => some (badParam 11 0)
  else none

/-- WORK_ITEM_ISSUE: a free, awake cluster takes the next item of the lowest-numbered queue that may use it (R91,
R110). A product whose handle has lost its cluster ends instead (R100). -/
def State.itemIssue (s : State) (c : Nat) : State :=
  match s.mat.runs.findSome? fun r => (s.orphan r).map fun f => (r.queue, f) with
  | some x => (s.dropRun x.1).matFail x.1 x.2
  | none =>
  if !s.clFree c || tget noFlag s.mat.gated c then s
  else match s.mat.runs.find? (s.clTakes c) with
    | none => s
    | some r =>
      let s := { s with mat := { s.mat with items := tput noneD s.mat.items c (some (r.item r.next)) } }
      s.setRun { r with next := r.next + 1 }

/-- CLUSTER_WAKE: a gated cluster that is wanted wakes (R110). -/
def State.clusterWake (s : State) (c : Nat) : State :=
  if tget noFlag s.mat.gated c then { s with mat := { s.mat with gated := tput noFlag s.mat.gated c false } } else s

/-- Rows or columns [128 i, 128 i + 128) within n. -/
def tileRange (i n : Nat) : List Nat := (List.range (min 128 (n - 128 * i))).map fun j => 128 * i + j

/-- The transpose of rows of equal length w. -/
def transposeL {α : Type} [Inhabited α] (w : Nat) (rows : List (List α)) : List (List α) :=
  (List.range w).map fun j => rows.map fun r => r.getD j default

/-- An element pair by default: +0 with scale factor 1. -/
def zeroElem : Val × Val := (Val.zero, Val.one)

/-- P_j of one summation block (R88, R89): positions of A and B. A narrow block sum is held in a register without a
sign of zero. -/
def blockP (wide : Bool) (ab : List ((Val × Val) × (Val × Val))) : Val :=
  match ab with
  | [] => Val.zero
  | x :: l =>
    let first := x.1.1.mul x.2.1
    if wide then first
    else
      let sum := l.foldl (fun v y => v.add (y.1.1.mul y.2.1)) (Val.zero.add first)
      (sum.mul x.1.2).mul x.2.2

/-- The accumulator after the blocks of a segment, in ascending j (R88, R90, R92). -/
def accumulate (wide : Bool) (l : Nat) (init : W32) (a b : Elems) : W32 :=
  (chunks l (a.zip b)).foldl (fun acc p => toF32 ((f32 acc).add (blockP wide p))) init

/-- The ordered combine of partials (R94). -/
def combine : List W32 → W32
  | [] => f32zero
  | p :: ps => ps.foldl f32add p

/-- Combine tiles of partials in ascending segment, element by element. -/
def combineTiles (parts : List (List (List W32))) : List (List W32) :=
  match parts with
  | [] => []
  | p :: ps => ps.foldl (fun r x => (r.zip x).map fun y => (y.1.zip y.2).map fun z => f32add z.1 z.2) p

/-- The positions [k0, k1) of segment g (R92). -/
def MatRun.seg (r : MatRun) (g : Nat) : Nat × Nat :=
  (min r.k (g * r.nb / max 1 r.segs * r.blk), min r.k ((g + 1) * r.nb / max 1 r.segs * r.blk))

/-- Read A or B of an item as one list of elements for each output row or column. -/
def State.readSide (s : State) (q t : Nat) (a : Acc) (trans : Bool) (idx : List Nat) (k0 k1 : Nat) :
    (Except Bad (List Elems × Nat)) × State :=
  match idx with
  | [] => (.ok ([], 0), s)
  | i0 :: _ =>
    if trans then
      let r := s.readRows q t a ((List.range (k1 - k0)).map (k0 + ·)) i0 (i0 + idx.length)
      (match r.1 with
        | .ok x => .ok (if x.1 = [] then idx.map fun _ => [] else
            (List.range idx.length).map fun j => x.1.map fun e => e.getD j zeroElem, x.2)
        | .error e => .error e, r.2)
    else s.readRows q t a idx k0 k1

/-- What an item has computed: the tile's rows as FP32, and the non-finite count of its reads. -/
abbrev ItemRes := Except Bad (List (List W32) × Nat)

/-- The starting accumulators of an item (R90, R92, R98). -/
def State.itemInit (s : State) (r : MatRun) (i : MatItem) (ms ns : List Nat) : ItemRes × State :=
  if r.dest = 1 then
    (.ok (match s.handle r.handle with
      | some h => h.vals
      | none => [], 0), s)
  else if r.accin && i.g == 0 then
    let x := s.readRows r.queue i.t r.c ms (ns.headD 0) (ns.headD 0 + ns.length)
    (match x.1 with
      | .ok y => .ok (y.1.map (·.map elem32), y.2)
      | .error e => .error e, x.2)
  else (.ok (ms.map fun _ => ns.map fun _ => f32zero, 0), s)

/-- The partial of a product's item (R92): operands read, products summed block by block. -/
def State.productItem (s : State) (r : MatRun) (i : MatItem) (ms ns : List Nat) : ItemRes × State :=
  let k := r.seg i.g
  let wide := pairClass r.a.op.code != 1
  let x := s.itemInit r i ms ns
  match x.1 with
  | .error e => (.error e, x.2)
  | .ok c =>
    let ya := x.2.readSide r.queue i.t r.a r.transA ms k.1 k.2
    match ya.1 with
    | .error e => (.error e, ya.2)
    | .ok a =>
      let yb := ya.2.readSide r.queue i.t r.b r.transB ns k.1 k.2
      match yb.1 with
      | .error e => (.error e, yb.2)
      | .ok b =>
        let rows := (c.1.zip a.1).map fun p => (p.1.zip b.1).map fun z => accumulate wide r.blk z.1 p.2 z.2
        (.ok (rows, c.2 + a.2 + b.2), yb.2)

/-- The partial tiles of a combine's item, in ascending segment. -/
def State.readParts (s : State) (r : MatRun) (t : Nat) (ms ns : List Nat) : List Nat → (Except Bad (List (List (List W32)) × Nat)) × State
  | [] => (.ok ([], 0), s)
  | g :: gs =>
    let x := s.readRows r.queue t r.a (ms.map (g * r.m + ·)) (ns.headD 0) (ns.headD 0 + ns.length)
    match x.1 with
    | .error e => (.error e, x.2)
    | .ok y =>
      let z := x.2.readParts r t ms ns gs
      (match z.1 with
        | .ok w => .ok (y.1.map (·.map elem32) :: w.1, y.2 + w.2)
        | .error e => .error e, z.2)

/-- The result tile of a combine's item (R94, R104). -/
def State.combineItem (s : State) (r : MatRun) (i : MatItem) (ms ns : List Nat) : ItemRes × State :=
  let x := s.readParts r i.t ms ns (List.range r.segs)
  (match x.1 with
    | .ok y => .ok (combineTiles y.1, y.2)
    | .error e => .error e, x.2)

/-- The cluster has finished or dropped its item. -/
def State.clDone (s : State) (c : Nat) : State :=
  let s := { s with mat := { s.mat with items := tput noneD s.mat.items c none } }
  let s := if tget noFlag s.mat.leaving c then s.clLeaves c else s
  if s.rbit 0x600000 0 && !(s.mat.runs.any (s.clTakes c)) then
    { s with mat := { s.mat with gated := tput noFlag s.mat.gated c true } }
  else s

/-- End the command of a run once it has no item in flight: with its first fault, or when every item is done (R101). -/
def State.runEnd (s : State) (q : Nat) : State :=
  match s.matRun q with
  | none => s
  | some r =>
    if s.clHeld q ≠ 0 then s
    else match r.fail with
      | some f => (s.dropRun q).endCmd q f.1 f.2
      | none => if r.total ≤ r.done then (s.dropRun q).endCmd q stOK 0 else s

/-- An item fails: no further items are issued, the first fault is the command's (R101, R108). -/
def State.itemFail (s : State) (c : Nat) (r : MatRun) (f : Fail) : State :=
  let s := s.setRun { r with fail := some (r.fail.getD (f.st, f.detail)) }
  (s.clDone c).runEnd r.queue

/-- A read from outside for a work item has failed: the item that asked for it fails, the others in flight end (R101, R108). -/
def State.matReadFail (s : State) (q : Nat) (f : Fail) : State :=
  match s.matRun q with
  | none => s
  | some r =>
    match r.asker.filter fun c => (s.clItem c).any fun i => i.queue == q with
    | some c => s.itemFail c { r with asker := none } f
    | none => (s.setRun { r with fail := some (r.fail.getD (f.st, f.detail)), asker := none }).runEnd q

/-- An item of queue q waits: where it is the one that has asked for external bytes, the run knows it. -/
def State.itemWaits (s t : State) (q c : Nat) (r : MatRun) : State :=
  if t.fetching q && !s.fetching q then t.setRun { r with asker := some c } else t

/-- Values as rows for the store. -/
def rowsOf (rows : List Nat) (vals : List (List W32)) : List (Nat × List Val) := rows.zip (vals.map (·.map f32))

/-- Store a result tile into D, counting statistics and non-finite values (R94, R139, R111). -/
def State.tileStore (s : State) (r : MatRun) (c : Nat) (ms ns : List Nat) (vals : List (List W32)) : State :=
  let l := rowsOf ms vals
  let s := s.storeRows r.queue r.d r.undef (ns.headD 0) l
  s.matNf c (r.d.nf (l.map (·.2)))

/-- A tile's partials are all present (R95). -/
def MatRun.complete (r : MatRun) (t : Nat) : Bool := (r.parts.filter fun p => p.t == t).length == r.segs
/-- The partials of a tile, in ascending segment. -/
def MatRun.partsOf (r : MatRun) (t : Nat) : List (List (List W32)) :=
  (List.range r.segs).map fun g => match r.parts.find? fun p => p.t == t && p.g == g with
    | some p => p.rows
    | none => []
/-- The cluster of segment 0 of a tile. -/
def MatRun.cluster0 (r : MatRun) (t c : Nat) : Nat := match r.parts.find? fun p => p.t == t && p.g == 0 with
  | some p => p.cluster
  | none => c

/-- Deliver an item's result (R95): into D, into the handle, as a partial in memory, or into the ordered combine. -/
def State.deliver (s : State) (r : MatRun) (c : Nat) (i : MatItem) (ms ns : List Nat) (vals : List (List W32)) : State :=
  match r.dest with
  | 1 => (match s.handle r.handle with
      | some h => s.setHandle r.handle (some { h with vals := vals })
      | none => s).setRun { r with done := r.done + 1 }
  | 2 =>
    let l := rowsOf (ms.map (i.g * r.m + ·)) vals
    ((s.writeRows r.queue r.d r.undef (ns.headD 0) l).matNf c (r.d.nf (l.map (·.2)))).setRun { r with done := r.done + 1 }
  | _ =>
    if r.kind = .combine ∨ r.segs = 1 then (s.tileStore r c ms ns vals).setRun { r with done := r.done + 1 }
    else
      let r := { r with done := r.done + 1, parts := r.parts ++ [Part.mk i.t i.g c vals] }
      if r.complete i.t then
        let c0 := r.cluster0 i.t c
        (s.tileStore r c0 ms ns (combineTiles (r.partsOf i.t))).setRun { r with parts := r.parts.filter fun p => p.t != i.t }
      else s.setRun r

/-- The item's store has to wait. -/
def State.deliverWaits (s : State) (r : MatRun) (i : MatItem) (ms ns : List Nat) : Bool :=
  match r.dest with
  | 1 => false
  | 2 => s.rowsWait r.d (ms.map (i.g * r.m + ·)) (ns.headD 0) ns.length
  | _ => s.rowsWait r.d ms (ns.headD 0) ns.length

/-- Its waits for page moves are counted (R166). -/
def State.deliverHold (s : State) (r : MatRun) (i : MatItem) (ms ns : List Nat) : State :=
  s.holdRows r.queue r.d (if r.dest = 2 then ms.map (i.g * r.m + ·) else ms) (ns.headD 0) ns.length

/-- DETAIL of a RESIDUE_FAULT (Table 4.7): cluster, commit point, segment. -/
def matResidue (t c point g : Nat) : Nat := t % 65536 + c * 65536 + point * 2 ^ 22 + g * 2 ^ 24

/-- This item's partial is the last that its tile's ordered combine waits for. -/
def MatRun.combines (r : MatRun) (i : MatItem) : Bool :=
  r.kind == .product && r.dest == 0 && r.segs != 1 && ({ r with parts := r.parts ++ [Part.mk i.t i.g 0 []] }).complete i.t

/-- The commit points that an item passes (R101): additions of P_j, readouts, converted words, additions of a partial. -/
def MatRun.points (r : MatRun) (i : MatItem) : List Nat :=
  let sum := r.kind == .combine
  let stores := sum || r.dest == 2 || (r.dest == 0 && (r.segs == 1 || r.combines i))
  let seg := r.seg i.g
  (if !sum && decide (seg.1 < seg.2) then [0] else []) ++ (if r.dest != 1 then [1] else []) ++ (if stores then [2] else []) ++
    (if (sum && decide (1 < r.segs)) || r.combines i then [3] else [])

/-- A residue mismatch at commit point flt mod 4 (R101). From 4 on it lies in the last row of a tile that stores
directly, the earlier rows having been written, or at the last partial of an ordered combine. -/
def State.itemResidue (s : State) (c : Nat) (r : MatRun) (i : MatItem) (flt : Nat) (ms ns : List Nat) (vals : List (List W32)) : State :=
  let late := decide (4 ≤ flt)
  let sum := decide (flt % 4 = 3)
  let c0 := if sum && r.kind == .product then r.cluster0 i.t c else c
  let d := matResidue i.t c0 (flt % 4) (if sum then (if late then r.segs - 1 else 1) else i.g)
  let s := if late ∧ !sum ∧ r.dest = 0 ∧ (r.kind = .combine ∨ r.segs = 1) then
      s.tileStore r c (ms.take (ms.length - 1)) ns (vals.take (ms.length - 1)) else s
  (s.clResidue c0 d).itemFail c r ⟨stResidue, d⟩

/-- An uncorrectable word of cluster c's scratch (kind 0) or accumulators (kind 1): the item fails, the cluster leaves service
(R388). -/
def State.itemSram (s : State) (c : Nat) (r : MatRun) (i : MatItem) (kind : Nat) : State :=
  let x := s.sramUe 6 c kind i.t
  (x.2.clAuto c).itemFail c r x.1

/-- WORK_ITEM_COMPLETE: cluster c completes its item, or faults in it (R92, R95, R101, R111, R388): a commit point, or from 8
on an uncorrectable word of its arrays. -/
def State.itemComplete (s : State) (c : Nat) (flt : Option Nat) : State :=
  match s.clItem c with
  | none => s
  | some i => match s.matRun i.queue with
    | none => s
    | some r =>
      let ms := tileRange (i.t / tilesAcross r.n) r.m
      let ns := tileRange (i.t % tilesAcross r.n) r.n
      if flt.any (8 ≤ ·) then s.itemSram c r i (flt.getD 8 - 8)
      else if s.deliverWaits r i ms ns then s.deliverHold r i ms ns
      else
        let s := s.onPort i.queue c
        let x := match r.kind with
          | .product => s.productItem r i ms ns
          | .combine => s.combineItem r i ms ns
        match x.1 with
        | .error .wait => s.itemWaits x.2 i.queue c r
        | .error (.fail f) => x.2.itemFail c r f
        | .ok v =>
          let s := x.2.matNf c v.2
          match flt.filter fun p => (r.points i).contains (p % 4) with
          | some p => s.itemResidue c r i p ms ns v.1
          | none =>
            let s := (s.bump64 (0x610010 + 0x20 * c) 1).bump64 (0x610018 + 0x20 * c) (Config.beats s.draws).toNat
            ((s.draw.deliver r c i ms ns v.1).clDone c).runEnd i.queue

/-! Accumulator handles (R97 to R100, R105). -/

/-- The cluster that a new handle is bound on: the lowest-numbered in service with fewer than 3 bound slots (R97). -/
def State.slotsOf (s : State) (c : Nat) : List Nat := s.mat.handles.filterMap fun e => match e.2 with
  | some h => if h.cluster = c then some h.slot else none
  | none => none
def State.openCluster (s : State) : Option Nat := (List.range 64).find? fun c => s.clIn c && decide ((s.slotsOf c).length < 3)
/-- The lowest free slot of a cluster. -/
def State.freeSlot (s : State) (c : Nat) : Nat := ((List.range 3).find? fun i => !(s.slotsOf c).contains i).getD 0

/-- Steps 2 and 3 of R102 for MM_ACC_OPEN (R105). -/
def State.openFields (s : State) (c : Cmd) : Except Fail Unit :=
  let init := bitAt (c.p 0) 8
  let h := fld (c.p 0) 7 0
  let dim (v : Nat) : Bool := v == 0 || decide (128 < v)
  firstErr
    [ if init then fmtCheck c 2 else .ok (),
      bitCheck 0 [bitIf (decide (191 < h) || (s.handle h).isSome) 0, lowBit (c.p 0) (bmask 15 9), bitIf (dim (fld (c.p 0) 23 16)) 16,
        bitIf (dim (fld (c.p 0) 31 24)) 24, lowBit (c.p 0) (bmask 63 32)],
      failIf (init && !codeC (Fmt.of (c.p 2)).code) (badParam 2 0),
      if init then pitchCheck c 3 else .ok () ]

/-- Bind the handle (R97); nf counts what the read of its initial values met (R81, R111). -/
def State.openBind (s : State) (q h mh nh nf : Nat) (vals : List (List W32)) : State :=
  match s.openCluster with
  | none => (s.evMat 2).failCmd q ⟨stQuota, s.handlesOpen + s.handleCap * 256⟩
  | some c => ((s.matNf c nf).setHandle h (some (Handle.mk c (s.freeSlot c) mh nh false vals))).endCmd q stOK 0

/-- MM_ACC_OPEN. -/
def State.accOpen (s : State) (q : Nat) : State :=
  match s.running q 0x1003 with
  | none => s
  | some c =>
    match s.openFields c with
    | .error f => s.matFail q f
    | .ok () =>
      let h := fld (c.p 0) 7 0
      let mh := fld (c.p 0) 23 16
      let nh := fld (c.p 0) 31 24
      if bitAt (c.p 0) 8 then
        match s.access q [opnd3 c 1 mh nh false false] with
        | .error f => s.matFail q f
        | .ok as =>
          let a := as.getD 0 Acc.none
          let x := (s.onPort q (s.openCluster.getD 0)).readRows q 0 a (List.range mh) 0 nh
          match x.1 with
          | .error .wait => x.2
          | .error (.fail f) => x.2.matFail q f
          | .ok v => x.2.openBind q h mh nh v.2 (v.1.map (·.map elem32))
      else s.openBind q h mh nh 0 (List.replicate mh (List.replicate nh f32zero))

/-- Steps 2 and 3 of R102 for MM_ACC_FLUSH (R99, R105). -/
def State.flushFields (s : State) (c : Cmd) : Except Fail Unit :=
  let add := bitAt (c.p 0) 8
  let discard := bitAt (c.p 0) 11
  let h := fld (c.p 0) 7 0
  let f := Fmt.of (c.p 2)
  firstErr
    [ if discard then .ok () else fmtCheck c 2,
      bitCheck 0 [bitIf (decide (191 < h) || (s.handle h).isNone) 0, if discard then lowBit (c.p 0) (bmask 10 8) else none,
        lowBit (c.p 0) (bmask 63 12)],
      match s.handle h with
        | some v => failIf (v.lost && !discard) (lostFail h v)
        | none => .ok (),
      failIf (!discard && !codeD f.code) (badParam 2 0),
      failIf (!discard && add && f.code != 0) (badParam 2 0),
      if discard then .ok () else pitchCheck c 3 ]

/-- The values stored by a flush: the handle's, or D plus the handle's (R99). -/
def State.flushVals (s : State) (q : Nat) (add : Bool) (a : Acc) (h : Handle) : ItemRes × State :=
  if add then
    let x := s.readRows q 0 a (List.range h.mh) 0 h.nh
    (match x.1 with
      | .ok y => .ok ((y.1.zip h.vals).map fun p => (p.1.zip p.2).map fun z => f32add (elem32 z.1) z.2, y.2)
      | .error e => .error e, x.2)
  else (.ok (h.vals, 0), s)

/-- Store the values of a flush and reset or free the handle (R99). -/
def State.flushStore (s : State) (q hn : Nat) (zero release : Bool) (a : Acc) (h : Handle) (v : List (List W32) × Nat) : State :=
  let l := rowsOf (List.range h.mh) v.1
  let s := (s.storeRows q a false 0 l).matNf h.cluster (v.2 + a.nf (l.map (·.2)))
  let s := if release then s.setHandle hn none
    else if zero then s.setHandle hn (some { h with vals := List.replicate h.mh (List.replicate h.nh f32zero) }) else s
  s.endCmd q stOK 0

/-- A residue mismatch at a readout for flush (point 1) or at a converted word (point 2): the command fails, and the handle
keeps its values unless its cluster leaves service (R100, R101). From 4 on it lies in the last row, the earlier rows having
been written. -/
def State.flushResidue (s : State) (q : Nat) (a : Acc) (h : Handle) (flt : Nat) (v : List (List W32) × Nat) : State :=
  let l := rowsOf (List.range h.mh) v.1
  let done := if 4 ≤ flt then l.take (h.mh - 1) else []
  let d := matResidue 0 h.cluster (flt % 4) 0
  let s := (s.storeRows q a false 0 done).matNf h.cluster (v.2 + a.nf (done.map (·.2)))
  (s.clResidue h.cluster d).failCmd q ⟨stResidue, d⟩

/-- MM_ACC_FLUSH. -/
def State.accFlush (s : State) (q : Nat) (flt : Option Nat) : State :=
  match s.running q 0x1004 with
  | none => s
  | some c =>
    match s.flushFields c with
    | .error f => s.matFail q f
    | .ok () =>
      let hn := fld (c.p 0) 7 0
      match s.handle hn with
      | none => s
      | some h =>
        if bitAt (c.p 0) 11 then (s.setHandle hn none).endCmd q stOK 0
        else match s.access q [opnd3 c 1 h.mh h.nh true false] with
          | .error f => s.matFail q f
          | .ok as =>
            let y := s.takeSnap q (as.getD 0 Acc.none)
            match y.1 with
            | .error .wait => y.2
            | .error (.fail f) => y.2.matFail q f
            | .ok a =>
              if y.2.rowsWait a (List.range h.mh) 0 h.nh then y.2.holdRows q a (List.range h.mh) 0 h.nh
              else
                let x := (y.2.onPort q h.cluster).flushVals q (bitAt (c.p 0) 8) a h
                match x.1 with
                | .error .wait => x.2
                | .error (.fail f) => x.2.matFail q f
                | .ok v => match flt.filter fun p => p % 4 == 1 || p % 4 == 2 with
                  | some p => x.2.flushResidue q a h p v
                  | none => x.2.flushStore q hn (bitAt (c.p 0) 9) (bitAt (c.p 0) 10) a h v

/-- A stop request or an engine reset ends a matrix command at once (R40). -/
def State.matStop (s : State) (q : Nat) : State := s.dropRun q

/-- MAT_NF_CLR (R416). -/
def State.matNfClr (s : State) : State :=
  (List.range 64).foldl (fun s c => s.setCtr (0x610004 + 0x20 * c) 0) (s.setCtr 0x600018 0)

end Sys2Proof.Machine
end

