-- ==== Sys2Proof/Machine/Func.lean ====
section
/-!
DEFINITION. The functions of R116, correctly rounded: each forms its value in fixed point with 1,280 fraction bits, far
finer than any FP32 value or tie, and rounds it once.
-/
namespace Sys2Proof.Machine

/-- Fraction bits of the fixed-point values. -/
def fxBits : Nat := 1280
/-- 1 in fixed point. -/
def fxOne : Int := 2 ^ fxBits
/-- The product of two fixed-point values. -/
def fxMul (a b : Int) : Int := a * b / fxOne
/-- The quotient of two fixed-point values. -/
def fxDiv (a b : Int) : Int := a * fxOne / b
/-- A finite value in fixed point. -/
def fxOf : Val → Int
  | .fin s n d e =>
    let k : Int := if 0 ≤ e + fxBits then ((n * pow2 (e + fxBits) / d : Nat) : Int) else ((n / (d * pow2 (-(e + fxBits))) : Nat) : Int)
    if s then -k else k
  | _ => 0
/-- A fixed-point value as an exact value. -/
def fxVal (x : Int) : Val := .fin (decide (x < 0)) x.natAbs 1 (-(fxBits : Int))

/-- Σ t over t, t·y/i, t·y²/(i(i+1)), …: the exponential series from its term i − 1. -/
def expSeries (y : Int) : Nat → Nat → Int → Int
  | 0, _, t => t
  | f + 1, i, t => if t = 0 then 0 else t + expSeries y f (i + 1) (fxMul t y / i)

/-- Square n times. -/
def fxSquares : Nat → Int → Int
  | 0, x => x
  | n + 1, x => fxSquares n (fxMul x x)

/-- e^y for 0 ≤ y ≤ 256. -/
def fxExpPos (y : Int) : Int := fxSquares 9 (expSeries (y / 512) 400 1 fxOne)
/-- e^y for |y| ≤ 256. -/
def fxExp (y : Int) : Int := if 0 ≤ y then fxExpPos y else fxDiv fxOne (fxExpPos (-y))

/-- Σ z^(2i+1) s^i / (2i+1): the series of artanh (s = 1) and arctan (s = −1); `p` is the current power of z. -/
def oddSeries (z2 : Int) (alt : Bool) : Nat → Nat → Int → Int
  | 0, _, _ => 0
  | f + 1, i, p => if p = 0 then 0 else p / i + oddSeries z2 alt f (i + 2) (if alt then -(fxMul p z2) else fxMul p z2)

/-- ln m for 1 ≤ m ≤ 2. -/
def fxLog1 (m : Int) : Int :=
  let z := fxDiv (m - fxOne) (m + fxOne)
  2 * oddSeries (fxMul z z) false 900 1 z
/-- ln 2. -/
def fxLn2 : Int := fxLog1 (2 * fxOne)
/-- arctan(1/k). -/
def fxAtanInv (k : Int) : Int := oddSeries (fxOne / (k * k)) true 900 1 (fxOne / k)
/-- π, by Machin's formula. -/
def fxPi : Int := 16 * fxAtanInv 5 - 4 * fxAtanInv 239
/-- √(2π). -/
def fxSqrt2Pi : Int := (isqrt ((2 * fxPi).toNat * 2 ^ fxBits) : Nat)

/-- Σ (−1)^i x^(2i+1) / (2^i i! (2i+1)): `t` is (−1)^i x^(2i+1) / (2^i i!). -/
def erfSeries (x2 : Int) : Nat → Nat → Int → Int
  | 0, _, _ => 0
  | f + 1, i, t => if t = 0 then 0 else t / (2 * i + 1) + erfSeries x2 f (i + 1) (-(fxMul t x2) / (2 * (i + 1)))

/-- Φ(x) for |x| ≤ 16. -/
def fxPhi (x : Int) : Int := fxOne / 2 + fxDiv (erfSeries (fxMul x x) 1200 0 x) fxSqrt2Pi

/-- A value with magnitude below every FP32 value, and the sign given: it rounds to a zero (R64). -/
def tiny (neg : Bool) : Val := .fin neg 1 1 (-400)

/-- Bound a finite value to [−b, b] in fixed point. -/
def fxClamp (b : Nat) (v : Val) : Int := max (-((b : Int) * fxOne)) (min ((b : Int) * fxOne) (fxOf v))

/-- e^x. -/
def fnExp (w : W32) : W32 :=
  match f32 w with
  | .nan => f32nan
  | .inf s => if s then f32zero else f32inf
  | v => toF32 (if v.isZero then Val.one else fxVal (fxExp (fxClamp 200 v)))

/-- ln x. -/
def fnLog (w : W32) : W32 :=
  match f32 w with
  | .nan => f32nan
  | .inf s => if s then f32nan else f32inf
  | .fin s n d e =>
    if n = 0 then f32ninf
    else if s then f32nan
    else
      let g := floorLog2 n d e
      toF32 (fxVal (fxLog1 (fxOf (.fin false n d (e - g))) + g * fxLn2))

/-- 1/√x. -/
def fnRsqrt (w : W32) : W32 :=
  match f32 w with
  | .nan => f32nan
  | .inf s => if s then f32nan else f32zero
  | .fin s n d e => if n = 0 then (if s then f32ninf else f32inf) else if s then f32nan else toF32 (sqrtVal d n (-e))

/-- 1/x. -/
def fnRecip (w : W32) : W32 := f32div f32one w

/-- tanh x. -/
def fnTanh (w : W32) : W32 :=
  match f32 w with
  | .nan => f32nan
  | .inf s => toF32 (if s then Val.one.neg else Val.one)
  | v => if v.isZero then w else
      let E := fxExp (2 * fxClamp 100 v)
      toF32 (fxVal (fxDiv (E - fxOne) (E + fxOne)))

/-- 1/(1 + e^−x) of a finite value in fixed point. -/
def fxSigmoid (v : Val) : Int := fxDiv fxOne (fxOne + fxExp (-(fxClamp 200 v)))

/-- 1/(1 + e^−x). -/
def fnSigmoid (w : W32) : W32 :=
  match f32 w with
  | .nan => f32nan
  | .inf s => if s then f32zero else f32one
  | v => toF32 (fxVal (fxSigmoid v))

/-- x/(1 + e^−x). -/
def fnSilu (w : W32) : W32 :=
  match f32 w with
  | .nan => f32nan
  | .inf s => if s then toF32 (tiny true) else f32inf
  | v => if v.isZero then w
      else if v.lt (Val.ofInt (-200)) then toF32 (tiny true)
      else toF32 (v.mul (fxVal (fxSigmoid v)))

/-- x Φ(x). -/
def fnGelu (w : W32) : W32 :=
  match f32 w with
  | .nan => f32nan
  | .inf s => if s then toF32 (tiny true) else f32inf
  | v => if v.isZero then w
      else if v.lt (Val.ofInt (-16)) then toF32 (tiny true)
      else toF32 (v.mul (fxVal (fxPhi (fxClamp 16 v))))

end Sys2Proof.Machine
end

