-- ==== Sys2Proof/Machine/Vec.lean ====
section
/-!
DEFINITION. The vector engine (chapter 5): checks and starts of its commands, rows on quadrants, fixed-order reduction,
normalisation, softmax, and the delayed optimizer update.
-/
namespace Sys2Proof.Machine

def State.qdItem (s : State) (d : Nat) : Option VecItem := tget noneD s.vec.items d
def State.setQd (s : State) (d : Nat) (v : Option VecItem) : State := { s with vec := { s.vec with items := tput noneD s.vec.items d v } }
/-- The run of a queue. -/
def State.vecRun (s : State) (q : Nat) : Option VecRun := s.vec.runs.find? fun r => r.queue == q
/-- Replace or add a run, in ascending queue order. -/
def putVRun (r : VecRun) : List VecRun → List VecRun
  | [] => [r]
  | x :: l => if x.queue = r.queue then r :: l else if r.queue < x.queue then r :: x :: l else x :: putVRun r l
def State.setVRun (s : State) (r : VecRun) : State := { s with vec := { s.vec with runs := putVRun r s.vec.runs } }
/-- Drop the run of a queue and what it has in flight. -/
def State.dropVRun (s : State) (q : Nat) : State :=
  { s with vec := { s.vec with runs := s.vec.runs.filter (fun r => r.queue != q),
                               items := s.vec.items.filter fun e => match e.2 with
                                 | some i => i.queue != q
                                 | none => true } }
/-- Quadrants that a queue's command holds. -/
def State.qdHeld (s : State) (q : Nat) : Nat := (s.vec.items.filter fun e => match e.2 with
  | some i => i.queue == q
  | none => false).length
/-- Count non-finite values of quadrant d (R136). -/
def State.vecNf (s : State) (d n : Nat) : State :=
  if n = 0 then s
  else
    let zero := s.ctr 0x700008 == 0
    let s := (s.bump (0x710004 + 0x20 * d) n).bump64 0x700008 n
    if zero then s.evVec 1 else s

/-! Fixed-order reduction (R117, R118). -/

/-- Stage 1 of R117 on one chunk, with the given fused step. -/
def chunkSum (step : W32 → W32 → W32) (xs : List W32) : W32 := xs.foldl step f32zero
/-- Stage 2 of R117: one pairwise level. -/
def pairLevel : List W32 → List W32
  | a :: b :: l => f32add a b :: pairLevel l
  | l => l
/-- Pairwise levels until one is left. -/
def pairAll : Nat → List W32 → W32
  | 0, l => l.headD f32zero
  | f + 1, l => match l with
    | [] => f32zero
    | [x] => x
    | l => pairAll f (pairLevel l)
/-- The procedure of R117. -/
def fixedFold (step : W32 → W32 → W32) (xs : List W32) : W32 :=
  let ps := (chunks 64 xs).map (chunkSum step)
  pairAll ps.length ps
/-- fixed_sum. -/
def fixedSum : List W32 → W32 := fixedFold f32add
/-- fixed_sum of squares: the fused rnd(p + x × x). -/
def fixedSumsq : List W32 → W32 := fixedFold fun p x => f32fma x x p

/-- +0 is greater than −0, otherwise as values (R118); neither is NaN. -/
def f32gt (a b : W32) : Bool :=
  let x := f32 a
  let y := f32 b
  y.lt x || (x.isZero && y.isZero && !x.sign && y.sign)
/-- The larger of two (R118). -/
def f32max (a b : W32) : W32 :=
  if (f32 a).isNan || (f32 b).isNan then f32nan else if f32gt b a then b else a
/-- The smaller of two (R118). -/
def f32min (a b : W32) : W32 :=
  if (f32 a).isNan || (f32 b).isNan then f32nan else if f32gt a b then b else a
/-- MAX or MIN of a sequence. -/
def foldOr (f : W32 → W32 → W32) : List W32 → W32
  | [] => f32nan
  | x :: l => l.foldl f (if (f32 x).isNan then f32nan else x)
/-- The lowest index of the result, or of the first NaN (R118). -/
def argOf (f : W32 → W32 → W32) (xs : List W32) : Nat :=
  match xs.findIdx? fun x => (f32 x).isNan with
  | some i => i
  | none => (xs.findIdx? fun x => x == foldOr f xs).getD 0

/-- The operations of VX_REDUCE (R122). -/
def reduceOp (op : Nat) (xs : List W32) : Val :=
  match op with
  | 0 => f32 (fixedSum xs)
  | 1 => f32 (fixedSumsq xs)
  | 2 => f32 (foldOr f32max xs)
  | 3 => f32 (foldOr f32min xs)
  | 4 => Val.ofNat (argOf f32max xs)
  | _ => Val.ofNat (argOf f32min xs)

/-! Element-wise operations (R121, Table 5.3). -/

/-- Operands an operation uses: 1 X; 2 X and Y; 3 X, Y and Z; 0 for an unlisted code. -/
def eltUses (op : Nat) : Nat :=
  match op with
  | 0x00 => 1
  | 0x01 => 2
  | 0x02 => 2
  | 0x03 => 2
  | 0x04 => 3
  | 0x05 => 2
  | 0x06 => 1
  | 0x07 => 2
  | 0x08 => 2
  | 0x09 => 1
  | 0x0A => 1
  | op => if 0x10 ≤ op ∧ op ≤ 0x18 then 1 else 0

/-- The sign bit of an FP32 word flipped or cleared; NaN stays canonical (R63). -/
def f32neg (x : W32) : W32 := toF32 (f32 x).neg
def f32abs (x : W32) : W32 := toF32 (f32 x).abs

/-- f(x, y, z, s) (Table 5.3). -/
def eltOp (op : Nat) (s x y z : W32) : W32 :=
  match op with
  | 0x00 => x
  | 0x01 => f32add x y
  | 0x02 => f32sub x y
  | 0x03 => f32mul x y
  | 0x04 => f32fma x y z
  | 0x05 => f32fma s x y
  | 0x06 => f32mul s x
  | 0x07 => f32max x y
  | 0x08 => f32min x y
  | 0x09 => f32abs x
  | 0x0A => f32neg x
  | 0x10 => fnExp x
  | 0x11 => fnLog x
  | 0x12 => f32sqrt x
  | 0x13 => fnRsqrt x
  | 0x14 => fnRecip x
  | 0x15 => fnTanh x
  | 0x16 => fnSigmoid x
  | 0x17 => fnSilu x
  | _ => fnGelu x

/-! Normalisation and softmax (R123, R124). -/

/-- μ, r and the row of VX_NORM. -/
def normRow (rms : Bool) (eps : W32) (xs g b : List W32) : W32 × W32 × List W32 :=
  let mean (v : W32) : W32 := toF32 ((f32 v).div (Val.ofNat xs.length))
  let mu := if rms then f32zero else mean (fixedSum xs)
  let d := if rms then xs else xs.map fun x => f32sub x mu
  let var := mean (fixedSumsq d)
  let r := fnRsqrt (f32add var eps)
  (mu, r, (d.zip (g.zip b)).map fun p => f32fma (f32mul p.1 r) p.2.1 p.2.2)

/-- e_i of a softmax row: +0 for masked elements. -/
def softExp (m : W32) (ts : List (Option W32)) : List W32 := ts.map fun t => match t with
  | some t => fnExp (f32sub t m)
  | none => f32zero

/-- y and the log-sum-exp of a VX_SOFTMAX row; t is none for masked elements. -/
def softRow (ts : List (Option W32)) : List W32 × W32 :=
  match ts.filterMap id with
  | [] => (ts.map fun _ => f32zero, f32ninf)
  | us =>
    let m := foldOr f32max us
    let e := softExp m ts
    let sum := fixedSum e
    (e.map fun x => f32div x sum, f32add m (fnLog sum))

/-- A signed field of 24 bits. -/
def s24 (v : Nat) : Int := if 2 ^ 23 ≤ v then (v : Int) - 2 ^ 24 else v

/-! Checks (R119 to R125). -/

def vRows (c : Cmd) : Nat := fld (c.p 0) 23 0
def vN (c : Cmd) : Nat := fld (c.p 0) 55 24

/-- p0 of every vector command (R119), with a further offending bit. -/
def vP0 (c : Cmd) (more : Option Nat) : Except Fail Unit :=
  bitCheck 0 [more, bitIf (decide (4 < fld (c.p 0) 58 56)) 56, lowBit (c.p 0) (bmask 63 59)]

/-- The pitch of an output of `rows` rows (R119). -/
def outPitch (c : Cmd) (i rows : Nat) : Except Fail Unit :=
  if pitchOf c i = 0 ∧ 1 < rows then .error (badParam i 0) else pitchCheck c i

/-- An input operand of a vector command. -/
def vin (c : Cmd) (i rows n : Nat) : Opnd := opnd3 c i rows n false true
/-- An output operand of a vector command. -/
def vout (c : Cmd) (i rows n : Nat) : Opnd := opnd3 c i rows n true false
/-- A plain FP32 output without a format word: address word i. -/
def vaux (c : Cmd) (i pitch rows n : Nat) : Opnd := ⟨c.p i, pitch, rows, n, fp32Fmt, i, i, i, true, false, true⟩
/-- A single row of N elements: address word i, format word i + 1. -/
def vone (c : Cmd) (i n : Nat) : Opnd := ⟨c.p i, 0, 1, n, Fmt.of (c.p (i + 1)), i, i + 1, i + 1, false, false, false⟩

/-- N of VX_NORM and VX_SOFTMAX is at most 1,048,576 (R125). -/
def vLong (c : Cmd) : Option Nat := bitIf (decide (1048576 < vN c)) 24

/-- Steps 2 and 3 of R102 for each command. -/
def vFields (c : Cmd) : Except Fail Unit :=
  let p1 := c.p 1
  match c.op with
  | 0x2001 => firstErr [fmtCheck c 2, fmtCheck c 5, vP0 c none, pitchCheck c 3, outPitch c 6 (vRows c)]
  | 0x2002 =>
    let u := eltUses (fld p1 7 0)
    if u = 0 then .error (badParam 1 0)
    else firstErr ([fmtCheck c 3] ++ (if 2 ≤ u then [fmtCheck c 6] else []) ++ (if 3 ≤ u then [fmtCheck c 9] else []) ++
      [fmtCheck c 12, vP0 c none, reservedCheck c 1 (bmask 31 8), pitchCheck c 4] ++
      (if 2 ≤ u then [pitchCheck c 7] else []) ++ (if 3 ≤ u then [pitchCheck c 10] else []) ++ [outPitch c 13 (vRows c)])
  | 0x2003 =>
    let op := fld p1 2 0
    let f := Fmt.of (c.p 6)
    firstErr [fmtCheck c 3, fmtCheck c 6, vP0 c none,
      bitCheck 1 [bitIf (decide (6 ≤ op)) 0, lowBit p1 (bmask 3 3), lowBit p1 (bmask 63 5)], pitchCheck c 4,
      bitCheck 6 [bitIf ((f.code == 15) != (op == 4 || op == 5)) 0, bitIf ((op == 4 || op == 5) && f.code == 15 && !f.sgn) 7],
      outPitch c 7 (vRows c)]
  | 0x2004 =>
    let g := bitAt p1 2
    let b := bitAt p1 3
    firstErr ([fmtCheck c 3] ++ (if g then [fmtCheck c 6] else []) ++ (if b then [fmtCheck c 8] else []) ++
      [fmtCheck c 10, vP0 c (vLong c), bitCheck 1 [lowBit p1 (bmask 1 1), lowBit p1 (bmask 31 5)], pitchCheck c 4,
        outPitch c 11 (vRows c)])
  | 0x2005 =>
    let m := bitAt p1 0
    firstErr ([fmtCheck c 3] ++ (if m then [fmtCheck c 6] else []) ++
      [fmtCheck c 9, vP0 c (vLong c), reservedCheck c 1 (bmask 7 3), pitchCheck c 4] ++
      (if m then [failIf ((Fmt.of (c.p 6)).code != 12) (badParam 6 0), pitchCheck c 7] else []) ++ [outPitch c 10 (vRows c)])
  | _ =>
    let w := bitAt p1 33
    firstErr ((if w then [fmtCheck c 6] else []) ++
      [vP0 c (bitIf (vN c == 0 || decide (512 < vN c)) 24), reservedCheck c 1 (bmask 63 34)])

/-- Parameters of a chunk (R128): NC and n. -/
def vNc (c : Cmd) : Nat := vN c
def vCn (c : Cmd) : Nat := vN c * 128

/-- The operands of a command in order, inputs before outputs where Table 5.2 lists them so. -/
def vOperands (c : Cmd) : List Opnd :=
  let p1 := c.p 1
  let r := vRows c
  let n := vN c
  match c.op with
  | 0x2001 => [vin c 1 r n, vout c 4 r n]
  | 0x2002 =>
    let u := eltUses (fld p1 7 0)
    [vin c 2 r n] ++ (if 2 ≤ u then [vin c 5 r n] else []) ++ (if 3 ≤ u then [vin c 8 r n] else []) ++ [vout c 11 r n]
  | 0x2003 => [vin c 2 r n, if bitAt p1 4 then vout c 5 1 n else vout c 5 r 1]
  | 0x2004 => [vin c 2 r n] ++ (if bitAt p1 2 then [vone c 5 n] else []) ++ (if bitAt p1 3 then [vone c 7 n] else []) ++
      [vout c 9 r n] ++ (if bitAt p1 4 then [vaux c 12 8 r 2] else [])
  | 0x2005 => [vin c 2 r n] ++ (if bitAt p1 0 then [vin c 5 r n] else []) ++ [vout c 8 r n] ++
      (if bitAt p1 1 then [vaux c 11 0 1 r] else [])
  | _ => [⟨c.p 4, 0, 1, r * vCn c, fp32Fmt, 4, 4, 4, false, false, false⟩] ++
      (if bitAt p1 33 then [⟨c.p 5, 0, 1, r * vCn c, Fmt.of (c.p 6), 5, 6, 6, true, false, true⟩] else [])

/-- The region that holds all of [a, a + n), if one does. -/
def State.oneRegion (s : State) (a n : Nat) : Option Region :=
  if a / 2 ^ 62 ≠ 0 then none
  else match s.mem.regionOf (a / pageBytes) with
    | some (_, r) => if (pagesOf a n).all r.has then some r else none
    | none => none

/-- R175 for a delayed update: each slot pair and each descriptor in one region, the slots in an explicit one and not under
the stream hint (which fails as an explicit mismatch: DESIGN CHOICE, log entry 21). -/
def State.optTags (s : State) (q : Nat) (c : Cmd) : Except Fail Unit :=
  let nc := vNc c
  let far (i : Nat) : Except Fail Unit := failIf (c.p i / 2 ^ 62 == 1 || c.p i / 2 ^ 62 == 2) (mismatch i 0 0)
  firstErr ([far 2, far 3] ++
    ((List.range (vRows c)).map fun k => failIf ((s.oneRegion (c.p 2 + 8 * k) 8).isNone) (mismatch 2 2 0)) ++
    ((List.range (vRows c)).map fun k => match s.oneRegion (c.p 3 + 2 * k * nc * 776) (2 * nc * 776) with
      | none => .error (mismatch 3 2 0)
      | some r => failIf (fld (s.pageTag q r.first) 9 8 != 1 || r.hint == 4) (mismatch 3 0 0)))

/-- Steps 4 and 5 of R102 for a vector command. -/
def State.vAccess (s : State) (q : Nat) (c : Cmd) : Except Fail (List Acc) :=
  if c.op = 0x2006 then
    match s.optTags q c with
    | .error f => .error f
    | .ok () => match s.resolveAll q (vOperands c) with
      | .error f => .error f
      | .ok as => match firstErr ([s.checkAddr q (c.p 2) (8 * vRows c) 2 8, s.checkAddr q (c.p 3) (2 * vRows c * vNc c * 776) 3 8] ++
          as.map (s.addrCheck q)) with
        | .error f => .error f
        | .ok () => .ok as
  else s.access q (vOperands c)

/-- The inputs among the operands come before the outputs; `k` is the number of inputs. -/
def vInputs (c : Cmd) : Nat :=
  match c.op with
  | 0x2001 => 1
  | 0x2002 => eltUses (fld (c.p 1) 7 0)
  | 0x2003 => 1
  | 0x2004 => 1 + b2n (bitAt (c.p 1) 2) + b2n (bitAt (c.p 1) 3)
  | 0x2005 => 1 + b2n (bitAt (c.p 1) 0)
  | _ => 1

/-- An output may lie exactly on this input (R126): D on any input of a conversion or element-wise operation, D on X of the
others, no further output on any. -/
def vMayMeet (c : Cmd) (out inp : Nat) : Bool := out == vInputs c && (c.op == 0x2001 || c.op == 0x2002 || inp == 0)

/-- Two byte ranges share a byte. -/
def rangesMeet (a n b m : Nat) : Bool := decide (a < b + m) && decide (b < a + n)

/-- The outputs of a delayed update that overlap its gradient, or one another's inputs (R126). -/
def optClash (c : Cmd) (as : List Acc) : List Nat :=
  let g := as.getD 0 Acc.none
  let w := as.getD 1 Acc.none
  let desc := (c.p 2, 8 * vRows c)
  let slots := (c.p 3, 2 * vRows c * vNc c * 776)
  let grad := (g.addr, g.rb)
  let meets (x y : Nat × Nat) : Bool := rangesMeet x.1 x.2 y.1 y.2
  (if meets desc grad || meets desc slots then [0] else []) ++
    (if bitAt (c.p 1) 33 && [grad, slots, desc].any (meets (w.addr, w.rb)) then [1] else []) ++
    (if meets slots grad || meets slots desc then [2] else [])

/-- R126: the outputs that share bytes with some input otherwise than they may. -/
def vClash (c : Cmd) (as : List Acc) : List Nat :=
  if c.op = 0x2006 then optClash c as
  else
    let k := vInputs c
    (List.range' k (as.length - k)).filter fun o => (List.range k).any fun i =>
      let x := as.getD o Acc.none
      let y := as.getD i Acc.none
      x.meets y && !(x.exact y && vMayMeet c o i)

/-- Items of a command: columns, chunks or rows. -/
def vTotal (c : Cmd) : Nat := if c.op = 0x2003 ∧ bitAt (c.p 1) 4 then vN c else vRows c

/-- The command has nothing to do (Table 5.8). -/
def vNothing (c : Cmd) : Bool := vRows c == 0 || (c.op != 0x2006 && vN c == 0)

/-- Read the tide STATE words of the outputs (R139); the working copy of a delayed update does not count (R140). -/
def State.snapAll (s : State) (q : Nat) : List Acc → (Except Bad (List Acc)) × State
  | [] => (.ok [], s)
  | a :: as =>
    let x := s.takeSnap q a
    match x.1 with
    | .error e => (.error e, x.2)
    | .ok b =>
      let y := x.2.snapAll q as
      (match y.1 with
        | .ok l => .ok (b :: l)
        | .error e => .error e, y.2)

/-- Which operands' statistics count (R140): D, and not the statistics, LSE and working-copy outputs. -/
def vTide (c : Cmd) (as : List Acc) : List Acc :=
  let k := vInputs c
  (as.zip (List.range as.length)).map fun p => if p.2 = k ∧ c.op ≠ 0x2006 then p.1 else { p.1 with entry := none }

/-- Start a vector command (R113). -/
def State.vStart (s : State) (q op : Nat) : State :=
  match s.running q op with
  | none => s
  | some c =>
    if (s.vecRun q).isSome then s
    else match vFields c with
      | .error f => s.failCmd q f
      | .ok () =>
        if vNothing c then s.endCmd q stOK 0
        else match s.vAccess q c with
          | .error f => (s.noteBme f).failCmd q f
          | .ok as =>
            let x := s.snapAll q (vTide c as)
            match x.1 with
            | .error .wait => x.2
            | .error (.fail f) => x.2.failCmd q f
            | .ok as => x.2.setVRun
                { queue := q, op := op, total := vTotal c, n := vN c, quads := c.quads, accs := as,
                  undef := vClash c as, next := 0, done := 0, skipped := 0, cols := [], fail := none, asker := none }

/-! Rows on quadrants (R113, R114, R133). -/

/-- May quadrant d take the next item of a run (R113)? -/
def VecRun.takes (d : Nat) (r : VecRun) : Bool := r.fail.isNone && decide (r.next < r.total) && r.quads.contains d

/-- VEC_ROW_ISSUE: a free, awake quadrant takes the next row, column or chunk. -/
def State.vIssue (s : State) (d : Nat) : State :=
  if (s.qdItem d).isSome || tget noFlag s.vec.gated d then s
  else match s.vec.runs.find? (VecRun.takes d) with
    | none => s
    | some r => (s.setQd d (some ⟨r.queue, r.next, false⟩)).setVRun { r with next := r.next + 1 }

/-- QUADRANT_WAKE (R114). -/
def State.qdWake (s : State) (d : Nat) : State :=
  if tget noFlag s.vec.gated d then { s with vec := { s.vec with gated := tput noFlag s.vec.gated d false } } else s

/-- The quadrant is free again; it may be gated when nothing is left to do (R114). -/
def State.qdDone (s : State) (d : Nat) : State :=
  let s := (s.bump64 (0x710010 + 0x20 * d) (Config.beats s.draws).toNat).draw.setQd d none
  if s.rbit 0x700000 0 && !(s.vec.runs.any (VecRun.takes d)) then { s with vec := { s.vec with gated := tput noFlag s.vec.gated d true } } else s

/-- End the command once nothing is in flight: with its first fault, with OK, or with OK_NOTED and the chunks skipped
(R131, R133). -/
def State.vEnd (s : State) (q : Nat) : State :=
  match s.vecRun q with
  | none => s
  | some r =>
    if s.qdHeld q ≠ 0 then s
    else match r.fail with
      | some f => (s.dropVRun q).endCmd q f.1 f.2
      | none =>
        if r.done < r.total then s
        else if 0 < r.skipped then ((s.dropVRun q).evVec 3).endCmd q stNoted (min r.skipped 0xFFFFFFFF)
        else (s.dropVRun q).endCmd q stOK 0

/-- An item fails: no more are issued; those in flight end (R133). -/
def State.vFail (s : State) (d : Nat) (r : VecRun) (f : Fail) : State :=
  ((s.setVRun { r with fail := some (r.fail.getD (f.st, f.detail)) }).qdDone d).vEnd r.queue

/-- A read from outside for a row, column or chunk has failed: the item that asked for it fails, the others in flight end
(R133). -/
def State.vecReadFail (s : State) (q : Nat) (f : Fail) : State :=
  match s.vecRun q with
  | none => s
  | some r =>
    match r.asker.filter fun d => (s.qdItem d).any fun i => i.queue == q with
    | some d => s.vFail d { r with asker := none } f
    | none => (s.setVRun { r with fail := some (r.fail.getD (f.st, f.detail)), asker := none }).vEnd q

/-- An item waits: where it is the one that has asked for external bytes, the run knows it. -/
def State.vWaiting (s t : State) (d : Nat) (r : VecRun) : State :=
  if t.fetching r.queue && !s.fetching r.queue then t.setVRun { r with asker := some d } else t

/-- An item is done. -/
def State.vDone (s : State) (d : Nat) (r : VecRun) : State := ((s.setVRun { r with done := r.done + 1 }).qdDone d).vEnd r.queue

/-- A residue fault of a quadrant (R133, R391). -/
def State.vResidue (s : State) (d idx point : Nat) : Fail × State :=
  let dt := idx % 65536 + d * 65536 + point * 2 ^ 18
  (⟨stResidue, dt⟩, ((((s.bump (0x710008 + 0x20 * d) 1).bump 0x700010 1).evVec 0).errRec 0x01 1 7 d dt 0).persistent d 7 d)

/-- Read one row of an input as FP32. -/
def State.vRow (s : State) (q idx : Nat) (a : Acc) (r : Nat) : (Except Bad (List W32 × Nat)) × State :=
  let x := s.readRows q idx a [r] 0 a.n
  (match x.1 with
    | .ok y => .ok ((y.1.headD []).map elem32, y.2)
    | .error e => .error e, x.2)

/-- Read the same row of several inputs. -/
def State.vRowsOf (s : State) (q idx : Nat) : List (Acc × Nat) → (Except Bad (List (List W32) × Nat)) × State
  | [] => (.ok ([], 0), s)
  | p :: ps =>
    let x := s.vRow q idx p.1 p.2
    match x.1 with
    | .error e => (.error e, x.2)
    | .ok y =>
      let z := x.2.vRowsOf q idx ps
      (match z.1 with
        | .ok w => .ok (y.1 :: w.1, y.2 + w.2)
        | .error e => .error e, z.2)

/-- Element i of column `col` for every row (VX_REDUCE with AXIS = 1). A TERN byte of 243 to 255 counts at each column that
reads it, as at each row or work item (R81; DEDUCED, log entry 65). -/
def State.vCol (s : State) (q : Nat) (a : Acc) (col : Nat) : (Except Bad (List W32 × Nat)) × State :=
  let x := s.readRows q col a (List.range a.rows) col (col + 1)
  (match x.1 with
    | .ok y => .ok (y.1.flatMap (·.map elem32), y.2)
    | .error e => .error e, x.2)

/-- What an item stores: the output's number among the operands, row, first element, values. -/
structure VOut where
  acc : Nat
  row : Nat
  i0 : Nat
  vals : List Val

/-- The rows an item reads, by command: the operand and the row of it. -/
def vReads (c : Cmd) (r : VecRun) (idx : Nat) : List (Acc × Nat) :=
  let a (i : Nat) : Acc := r.accs.getD i Acc.none
  match c.op with
  | 0x2004 => (a 0, idx) :: ((r.accs.take (vInputs c)).drop 1).map fun x => (x, 0)
  | _ => (r.accs.take (vInputs c)).map fun x => (x, idx)

/-- The values a row's item stores (R120 to R124). -/
def vCompute (c : Cmd) (idx : Nat) (rows : List (List W32)) : List VOut :=
  let p1 := c.p 1
  let k := vInputs c
  let x := rows.getD 0 []
  let y := rows.getD 1 []
  let z := rows.getD 2 []
  let sc := BitVec.ofNat 32 (fld p1 63 32)
  match c.op with
  | 0x2001 => [⟨k, idx, 0, x.map f32⟩]
  | 0x2002 => [⟨k, idx, 0, (List.range x.length).map fun i => f32 (eltOp (fld p1 7 0) sc (x.getD i 0) (y.getD i 0) (z.getD i 0))⟩]
  | 0x2003 => [⟨k, idx, 0, [reduceOp (fld p1 2 0) x]⟩]
  | 0x2004 =>
    let g := if bitAt p1 2 then y else x.map fun _ => f32one
    let b := if bitAt p1 3 then (if bitAt p1 2 then z else y) else x.map fun _ => f32zero
    let r := normRow (bitAt p1 0) sc x g b
    [⟨k, idx, 0, r.2.2.map f32⟩] ++ (if bitAt p1 4 then [⟨k + 1, idx, 0, [f32 r.1, f32 r.2.1]⟩] else [])
  | _ =>
    let coff := s24 (fld p1 31 8)
    let ts := (x.zip (List.range x.length)).map fun p =>
      let masked := (bitAt p1 0 && (f32 (y.getD p.2 0)).sign) || (bitAt p1 2 && decide ((idx : Int) + coff < p.2))
      if masked then none else some (f32mul p.1 sc)
    let r := softRow ts
    [⟨k, idx, 0, r.1.map f32⟩] ++ (if bitAt p1 1 then [⟨k + 1, 0, idx, [f32 r.2]⟩] else [])

/-- The elements of one output unit that hold element i, all of which are stored at once. -/
def outUnit (a : Acc) (i : Nat) : List Nat :=
  if a.mem.layout = 0 then [i]
  else (List.range (min a.mem.block (a.n - i / a.mem.block * a.mem.block))).map (i / a.mem.block * a.mem.block + ·)

/-- Does a store of an item have to wait? -/
def State.vWaits (s : State) (r : VecRun) (o : VOut) : Bool := s.rowsWait (r.accs.getD o.acc Acc.none) [o.row] o.i0 o.vals.length

/-- The waits of an item's stores for page moves are counted (R166). -/
def State.vHold (s : State) (r : VecRun) (os : List VOut) : State :=
  os.foldl (fun s o => s.holdRows r.queue (r.accs.getD o.acc Acc.none) [o.row] o.i0 o.vals.length) s

/-- Store what an item has computed, with its counts. -/
def State.vStore (s : State) (d : Nat) (r : VecRun) (o : VOut) : State :=
  let a := r.accs.getD o.acc Acc.none
  let s := s.storeRows r.queue a (r.undef.contains o.acc) o.i0 [(o.row, o.vals)]
  s.vecNf d (a.nf [o.vals])

/-- A row's LSE value of VX_SOFTMAX joins those of its record (R124, R78): the run that holds them, and what is then stored. -/
def lseOuts (c : Cmd) (r : VecRun) (outs : List VOut) : VecRun × List VOut :=
  match outs with
  | [y, l] =>
    if c.op = 0x2005 then
      let cols := tput noneD r.cols l.i0 (some (toF32 (l.vals.headD Val.zero)))
      let u := outUnit (r.accs.getD l.acc Acc.none) l.i0
      ({ r with cols := cols }, if u.all fun i => (tget noneD cols i).isSome then
          [y, ⟨l.acc, 0, u.headD 0, u.map fun i => f32 ((tget noneD cols i).getD 0)⟩] else [y])
    else (r, outs)
  | _ => (r, outs)

/-- Store every output of an item; fault points 0 and 2 fail before anything is stored (R133). -/
def State.vRowEnd (s : State) (d : Nat) (c : Cmd) (r : VecRun) (idx : Nat) (flt : Option Nat) : State :=
  let x := (s.onPort r.queue d).vRowsOf r.queue idx (vReads c r idx)
  match x.1 with
  | .error .wait => s.vWaiting x.2 d r
  | .error (.fail f) => x.2.vFail d r f
  | .ok v =>
    let o := lseOuts c r (vCompute c idx v.1)
    if o.2.any (x.2.vWaits r) then x.2.vHold r o.2
    else
      let s := x.2.vecNf d v.2
      match flt with
      | some p =>
        let y := s.vResidue d idx (p % 3)
        y.2.vFail d r y.1
      | none => (o.2.foldl (fun s x => s.vStore d r x) s).vDone d o.1

/-- A column's item (R122): its result is stored once its record's columns are all present. -/
def State.vColEnd (s : State) (d : Nat) (c : Cmd) (r : VecRun) (col : Nat) (flt : Option Nat) : State :=
  let a := r.accs.getD 0 Acc.none
  let dst := r.accs.getD 1 Acc.none
  let x := (s.onPort r.queue d).vCol r.queue a col
  match x.1 with
  | .error .wait => s.vWaiting x.2 d r
  | .error (.fail f) => x.2.vFail d r f
  | .ok v =>
    let u := outUnit dst col
    if x.2.rowsWait dst [0] (u.headD 0) u.length then x.2.holdRows r.queue dst [0] (u.headD 0) u.length
    else
      let s := x.2.vecNf d v.2
      match flt with
      | some p =>
        let y := s.vResidue d col (p % 3)
        y.2.vFail d r y.1
      | none =>
        let res := toF32 (reduceOp (fld (c.p 1) 2 0) v.1)
        let cols := tput noneD r.cols col (some res)
        let r := { r with cols := cols }
        if u.all fun i => (tget noneD cols i).isSome then
          let vals := u.map fun i => f32 ((tget noneD cols i).getD 0)
          (s.vStore d r ⟨1, 0, u.headD 0, vals⟩).vDone d r
        else s.vDone d r

/-! The delayed optimizer (R127 to R132). -/

/-- A moment record of 128 values (R128): elements, then an FP32 scale. -/
def momentRead (code : Nat) (sgn : Bool) (bs : List Byte) : List W32 :=
  let sc := f32 (BitVec.ofNat 32 (leNat ((bs.drop 128).take 4)))
  (unpackCodes code 128 bs).map fun q => toF32 ((elemVal code sgn q).mul sc)

/-- The scale of a moment record (R130). -/
def momentScale (code : Nat) (sgn : Bool) (xs : List W32) : W32 :=
  let a := maxMag (xs.map f32)
  if a.isZero then f32one
  else
    let s := toF32 (a.div (maxVal code sgn))
    if (f32 s).isZero then 1 else s

/-- A moment record written from its 128 values, and what it counts under R81 (R130). -/
def momentWrite (code : Nat) (sgn : Bool) (xs : List W32) : List Byte × Nat :=
  if xs.any fun x => (f32 x).nonFinite then (packCodes code (xs.map fun _ => codeZero code) ++ leBytes 4 f32nan.toNat, xs.length)
  else
    let s := momentScale code sgn xs
    (packCodes code (xs.map fun x => convert code sgn true ((f32 x).div (f32 s))) ++ leBytes 4 s.toNat, 0)

/-- Format of first and second moments (R128). -/
def momentFmt (mfmt second : Bool) : Nat × Bool := if mfmt then (3, false) else (8, !second)

/-- The factors of an optimizer update (Table 5.5). -/
structure OptIn where
  b1 : W32
  b2 : W32
  lr : W32
  wd : W32
  eps : W32
  gscale : W32
  c1 : W32
  c2 : W32

/-- mn of an element from its scaled gradient. -/
def optM (o : OptIn) (m g : W32) : W32 := f32fma o.b1 m (f32mul (f32sub f32one o.b1) g)
/-- vn from a second moment and the value it takes in. -/
def optV (o : OptIn) (v g2 : W32) : W32 := f32fma o.b2 v (f32mul (f32sub f32one o.b2) g2)
/-- wn from the new moments. -/
def optW (o : OptIn) (w mn vn : W32) : W32 :=
  let den := f32add (f32sqrt (f32mul vn o.c2)) o.eps
  let u := f32div (f32mul mn o.c1) den
  f32sub w (f32mul o.lr (f32fma o.wd w u))

/-- The update of one element (R129): new master, first and second moment. -/
def optStep (o : OptIn) (w m v grad : W32) : W32 × W32 × W32 :=
  let g := f32mul grad o.gscale
  let mn := optM o m g
  let vn := optV o v (f32mul g g)
  (optW o w mn vn, mn, vn)

/-- Two FP32 values of a parameter word. -/
def lo32 (c : Cmd) (i : Nat) : W32 := BitVec.ofNat 32 (fld (c.p i) 31 0)
def hi32 (c : Cmd) (i : Nat) : W32 := BitVec.ofNat 32 (fld (c.p i) 63 32)
def optIn (c : Cmd) : OptIn := ⟨lo32 c 8, hi32 c 8, lo32 c 7, hi32 c 7, lo32 c 9, hi32 c 9, lo32 c 10, hi32 c 10⟩

/-- FP32 words of bytes. -/
def words32 (n : Nat) (bs : List Byte) : List W32 := (List.range n).map fun i => BitVec.ofNat 32 (leNat ((bs.drop (4 * i)).take 4))

/-- Moments of a slot: NC records of 132 bytes. -/
def momentsOf (code : Nat) (sgn : Bool) (nc : Nat) (bs : List Byte) : List W32 :=
  (List.range nc).flatMap fun i => momentRead code sgn ((bs.drop (132 * i)).take 132)

/-- A slot's new bytes, its masters, and what they count under R81 (R128, R130). -/
def slotBytes (mfmt : Bool) (new : List (W32 × W32 × W32)) : List Byte × List W32 × Nat :=
  let w := new.map (·.1)
  let m := (chunks 128 (new.map (·.2.1))).map (momentWrite (momentFmt mfmt false).1 (momentFmt mfmt false).2)
  let v := (chunks 128 (new.map (·.2.2))).map (momentWrite (momentFmt mfmt true).1 (momentFmt mfmt true).2)
  (w.flatMap (fun x => leBytes 4 x.toNat) ++ m.flatMap (·.1) ++ v.flatMap (·.1), w,
    (w.filter fun x => (f32 x).nonFinite).length + (m.map (·.2)).sum + (v.map (·.2)).sum)

/-- The new values of a chunk from its slot's bytes and its gradient's. -/
def chunkNew (c : Cmd) (slot : List Byte) (grad : List W32) : List (W32 × W32 × W32) :=
  let nc := vNc c
  let n := vCn c
  let mf := bitAt (c.p 1) 32
  let m := momentsOf (momentFmt mf false).1 (momentFmt mf false).2 nc (slot.drop (4 * n))
  let v := momentsOf (momentFmt mf true).1 (momentFmt mf true).2 nc (slot.drop (4 * n + 132 * nc))
  ((words32 n slot).zip (m.zip (v.zip grad))).map fun p => optStep (optIn c) p.1 p.2.1 p.2.2.1 p.2.2.2

/-- The address of slot s of chunk k (R128). -/
def slotAt (c : Cmd) (k sel : Nat) : Nat := c.p 3 + (2 * k + sel) * vNc c * 776

/-- Bytes to be written at a, or undefined ones in their place (R126). -/
def State.orUndef (s : State) (undef : Bool) (a : Nat) (bs : List Byte) : List Byte × State :=
  if undef then s.freeBytes a bs.length else (bs, s)

/-- Commit a chunk: one 8-byte store of its descriptor (R127, R129). -/
def State.chunkCommit (s : State) (d : Nat) (c : Cmd) (r : VecRun) (k : Nat) (sel : Nat) : State :=
  let b := s.orUndef (r.undef.contains 0) (c.p 2 + 8 * k) (leBytes 8 (sel + fld (c.p 1) 31 0 * 256))
  ((b.2.opWrite r.queue (c.p 2 + 8 * k) 2 b.1).bump64 0x700018 1).vDone d r

/-- A descriptor failure (R132, Table 5.7). -/
def descFail (k : Nat) : Fail := ⟨stBadParam, 2 + 0xFF00 + k % 65536 * 65536⟩

/-- The writes of a chunk, and its commit once they are visible (R129). -/
def State.chunkWrite (s : State) (d : Nat) (c : Cmd) (r : VecRun) (k sel : Nat) (slot : List Byte) (grad : List W32) : State :=
  let b := slotBytes (bitAt (c.p 1) 32) (chunkNew c slot grad)
  let work := r.accs.getD 1 Acc.none
  let vals := b.2.1.map f32
  let f := s.orUndef (r.undef.contains 2) (slotAt c k (1 - sel)) b.1
  let s := (f.2.opWrite r.queue (slotAt c k (1 - sel)) 3 f.1).vecNf d b.2.2
  let s := if bitAt (c.p 1) 33 then (s.writeRow r.queue work (r.undef.contains 1) 0 (k * vCn c) vals).vecNf d (work.nf [vals]) else s
  if s.visible r.queue then s.chunkCommit d c r k (1 - sel) else s.setQd d (some ⟨r.queue, k, true⟩)

/-- The slot and working copy of a chunk have to wait for their writes. -/
def State.chunkWaits (s : State) (c : Cmd) (r : VecRun) (k sel : Nat) : Bool :=
  s.opWaits (slotAt c k (1 - sel)) (vNc c * 776) || s.opWaits (c.p 2 + 8 * k) 8 ||
  (bitAt (c.p 1) 33 && s.rowsWait (r.accs.getD 1 Acc.none) [0] (k * vCn c) (vCn c))

/-- Those waits counted, where they are for page moves (R166). -/
def State.chunkHold (s : State) (c : Cmd) (r : VecRun) (k sel : Nat) : State :=
  let s := (s.holdWrite r.queue (slotAt c k (1 - sel)) (vNc c * 776)).holdWrite r.queue (c.p 2 + 8 * k) 8
  if bitAt (c.p 1) 33 then s.holdRows r.queue (r.accs.getD 1 Acc.none) [0] (k * vCn c) (vCn c) else s

/-- The word of a chunk's read that is of no tensor, with the DETAIL of its poisoned data (Table 5.7). -/
def chunkWord (word k : Nat) : Nat := wordWith word (word + k % 65536 * 65536)

/-- The failure of such a read. -/
def opdFail (o : Opd) (word k : Nat) : Bad :=
  match o with
  | .wait => .wait
  | .uncorrectable => .fail ⟨stUncorrectable, dataWord (chunkWord word k)⟩
  | _ => .fail ⟨stPoisoned, dataWord (chunkWord word k)⟩

/-- A chunk whose descriptor names the step before STEP_NEW (R129). -/
def State.chunkUpdate (s : State) (d : Nat) (c : Cmd) (r : VecRun) (k sel : Nat) (flt : Option Nat) : State :=
  let x := s.opRead r.queue (slotAt c k sel) (vNc c * 776) (chunkWord 3 k)
  match x.1 with
  | .bytes slot =>
    let y := x.2.readRows r.queue k (r.accs.getD 0 Acc.none) [0] (k * vCn c) ((k + 1) * vCn c)
    match y.1 with
    | .error .wait => s.vWaiting y.2 d r
    | .error (.fail f) => y.2.vFail d r f
    | .ok g =>
      if y.2.chunkWaits c r k sel then y.2.chunkHold c r k sel
      else
        let s := y.2.vecNf d g.2
        match flt with
        | some p =>
          let z := s.vResidue d k (p % 3)
          z.2.vFail d r z.1
        | none => s.chunkWrite d c r k sel slot ((g.1.headD []).map elem32)
  | o => match opdFail o 3 k with
    | .wait => s.vWaiting x.2 d r
    | .fail f => x.2.vFail d r f

/-- A chunk's item (R129 to R132): skipped, refused, or updated and committed. -/
def State.vChunkEnd (s : State) (d : Nat) (c : Cmd) (r : VecRun) (i : VecItem) (flt : Option Nat) : State :=
  let k := i.idx
  let s := s.onPort r.queue d
  let x := s.opRead r.queue (c.p 2 + 8 * k) 8 (chunkWord 2 k)
  match x.1 with
  | .bytes bs =>
    let v := leNat bs
    let step := BitVec.ofNat 32 (fld v 39 8)
    let new := BitVec.ofNat 32 (fld (c.p 1) 31 0)
    if i.written then (if x.2.visible r.queue then x.2.chunkCommit d c r k (1 - fld v 0 0) else x.2)
    else if fld v 7 1 ≠ 0 ∨ fld v 63 40 ≠ 0 then (x.2.evVec 2).vFail d r (descFail k)
    else if step = new then x.2.vDone d { r with skipped := r.skipped + 1 }
    else if step ≠ new - 1 then (x.2.evVec 2).vFail d r (descFail k)
    else x.2.chunkUpdate d c r k (fld v 0 0) flt
  | o => match opdFail o 2 k with
    | .wait => s.vWaiting x.2 d r
    | .fail f => x.2.vFail d r f

/-- The commit points a command passes (R133): additions only in a sum, a norm or a softmax. -/
def vPoints (c : Cmd) : List Nat :=
  if c.op = 0x2004 ∨ c.op = 0x2005 ∨ (c.op = 0x2003 ∧ fld (c.p 1) 2 0 < 2) then [0, 1, 2] else [0, 2]

/-- An uncorrectable word of quadrant d's scratch: the row, column or chunk fails. -/
def State.vSram (s : State) (d : Nat) (r : VecRun) (idx : Nat) : State :=
  let x := s.sramUe 7 d 2 idx
  x.2.vFail d r x.1

/-- VEC_ROW_END: the quadrant finishes its row, column or chunk (R113), or faults in it: at a commit point, or, from 8 on, in a
word of its scratch. -/
def State.vItemEnd (s : State) (d : Nat) (flt : Option Nat) : State :=
  match s.qdItem d with
  | none => s
  | some i => match s.vecRun i.queue, (s.q i.queue).cmd with
    | some r, some c =>
      let sram := flt.any (8 ≤ ·)
      let flt := flt.filter fun p => (vPoints c).contains (p % 3)
      if sram then s.vSram d r i.idx
      else if c.op = 0x2006 then s.vChunkEnd d c r i flt
      else if c.op = 0x2003 ∧ bitAt (c.p 1) 4 then s.vColEnd d c r i.idx flt
      else s.vRowEnd d c r i.idx flt
    | _, _ => s

/-- VEC_NF_CLR (R416). -/
def State.vecNfClr (s : State) : State :=
  (List.range 4).foldl (fun s d => s.setCtr (0x710004 + 0x20 * d) 0) (s.setCtr 0x700008 0)

end Sys2Proof.Machine
end

