-- ==== Sys2Proof/Machine/Nbu.lean ====
section
/-!
DEFINITION. The near-bank units (chapter 8): chain-ferry commands, row operations under bank holds, programs, the
optimizer row, attention, repair.
-/
namespace Sys2Proof.Machine

/-! Groups and the repair map (R193, R195). -/

/-- The target of a logical group. -/
def State.nbTarget (s : State) (g : Nat) : Nat := tget homeMap s.nbu.map g
/-- The physical group that serves logical group g. -/
def State.nbPhys (s : State) (g : Nat) : Nat :=
  let t := s.nbTarget g
  if t = 8 then g else 2048 + 8 * (g / 256) + t
/-- The physical group of a logical pair. -/
def State.pairPhys (s : State) (p : Nat) : Nat := s.nbPhys (p / 8)
def State.nbSvc (s : State) (pg : Nat) : Svc := tget svcOk s.nbu.svc pg

/-- Change a physical group's service state, with its record. -/
def State.nbSet (s : State) (pg new cause : Nat) (failed : Bool) : State :=
  let old := (s.nbSvc pg).st
  let s := { s with nbu := { s.nbu with svc := tput svcOk s.nbu.svc pg ⟨new, failed⟩ } }
  s.svcRecord 10 1 pg old new cause

/-- A residue fault of a group: counts, bit, record, automatic removal (R199, R388). -/
def State.nbResidue (s : State) (pg detail : Nat) : State :=
  let s := (((s.bump (0xA20008 + 0x10 * pg) 1).bump 0xA00018 1).evNbu 0).errRec 0x01 1 10 pg detail 0
  if s.autoOos && (s.nbSvc pg).st == 0 then
    (s.nbSet pg 1 1 (s.nbSvc pg).failed).nbSet pg 2 1 (s.nbSvc pg).failed
  else s

/-- Count non-finite values of a physical group (R225). -/
def State.nbNf (s : State) (pg n : Nat) : State :=
  if n = 0 then s
  else
    let zero := s.ctr 0xA00010 == 0
    let s := (s.bump (0xA20004 + 0x10 * pg) n).bump64 0xA00010 n
    if zero then s.evNbu 1 else s

/-- Words written poisoned. -/
def State.nbPoisoned (s : State) (n : Nat) : State := if n = 0 then s else (s.bump 0xA0001C n).evNbu 3

/-! Runs, stacks and holds (R200, R201). -/

def State.nbRun (s : State) (q : Nat) : Option NbRun := s.nbu.runs.find? fun r => r.queue == q
def putNRun (r : NbRun) : List NbRun → List NbRun
  | [] => [r]
  | x :: l => if x.queue = r.queue then r :: l else if r.queue < x.queue then r :: x :: l else x :: putNRun r l
def State.setNRun (s : State) (r : NbRun) : State := { s with nbu := { s.nbu with runs := putNRun r s.nbu.runs } }
def State.dropNRun (s : State) (q : Nat) : State :=
  { s with nbu := { s.nbu with
      runs := s.nbu.runs.filter fun r => r.queue != q,
      capHeld := s.nbu.capHeld.filter fun e => !s.nbu.runs.any fun r => r.queue == q && r.stackRuns.any fun x => x.stack == e.1 } }
def State.setHold (s : State) (p i : Nat) (on : Bool) : State :=
  { s with nbu := { s.nbu with holds := tput noFlag s.nbu.holds (p * 2 + i % 2) on } }

/-- Stacks of a mask. -/
def stacksOf (m : Nat) : List Nat := (List.range 8).filter fun i => bitAt m i
/-- The stacks a near-bank command names (R200). -/
def cmdStacks (c : Cmd) : List Nat := if c.op = 0x3004 then [fld (c.p 0) 10 8] else stacksOf (fld (c.p 0) 7 0)
/-- A dispatched command of queue q holds the stack. -/
def State.stackHeldBy (s : State) (q st : Nat) : Bool :=
  match (s.q q).cmd with
  | some c => c.phase == .running && c.op / 4096 == 3 && (cmdStacks c).contains st
  | none => false
/-- Some near-bank command holds the stack. -/
def State.stackBusy (s : State) (st : Nat) : Bool := (List.range 64).any fun i => s.stackHeldBy (128 + i) st
/-- A near-bank command is ready when every stack it names is free (R200). -/
def State.nbReady (s : State) (c : Cmd) : Bool := (cmdStacks c).all fun st => !s.stackBusy st

/-- The logical pairs of a stack. -/
def stackPairs (st : Nat) : List Nat := (List.range 2048).map (st * 2048 + ·)
/-- Row i of pair p of the region at base (R196). -/
def rowAt (base i p : Nat) : Nat := base + i / 2 * 2 ^ 25 + p * 2 ^ 11 + i % 2 * 2 ^ 10

/-! Checks (R202). -/

/-- A region address: 32 MiB aligned, local, in a bank-aligned region the command may reach, which holds units lo to
hi − 1 counted from it (R202, R205, R215). -/
def State.nbRegion (s : State) (q base lo hi word : Nat) : Except Fail Unit :=
  if base % 2 ^ 25 ≠ 0 ∨ base / 2 ^ 62 ≠ 0 ∨ malformedAddr base then .error (badAddr word 0)
  else if hi ≤ lo then .ok ()
  else if !inRange base (hi * 2 ^ 25) then .error (badAddr word 3)
  else match s.mem.regionOf (base / pageBytes) with
    | some (_, r) => failIf (!(r.kind == 1 && (r.ctx == s.ctx q || r.shared || s.ctx q == 0) &&
        decide (base + hi * 2 ^ 25 ≤ (r.first + r.pages) * pageBytes))) (badAddr word 1)
    | none => .error (badAddr word 1)

/-- The first logical group of the stacks whose target is not in service (R202). -/
def State.nbOut (s : State) (sts : List Nat) : Option Nat :=
  (sts.flatMap fun st => (List.range 256).map (st * 256 + ·)).find? fun g => (s.nbSvc (s.nbPhys g)).st != 0

/-- UNIT_OUT_OF_SERVICE where a group has no target in service. -/
def State.nbService (s : State) (sts : List Nat) : Except Fail Unit :=
  match s.nbOut sts with
  | some g => .error ⟨stOutOfService, g⟩
  | none => .ok ()

/-- Fail a near-bank command in its checks. -/
def State.nbFail (s : State) (q : Nat) (f : Fail) : State :=
  ((if f.st = stOutOfService then s.evNbu 4 else s).noteBme f).failCmd q f

/-- DETAIL of a fault (Table 8.10). -/
def nbDetail (pair where_ row : Nat) : Nat := pair + where_ * 2 ^ 14 + row % 65536 * 65536
/-- The failure of a read that belongs to no row. -/
def nbLoose (o : Opd) (query : Nat) : Fail := ⟨if o == .uncorrectable then stUncorrectable else stPoisoned, nbDetail 0 3 query⟩

/-- Set NBU_SHARD_PROGn of the stacks at dispatch (R204). -/
def progRowReset (_ : Nat) : W32 := 0xFFFFFFFF
def progStepReset (_ : Nat) : W32 := 0
def State.setProgRow (s : State) (st : Nat) (row : W32) : State := { s with nbu := { s.nbu with progRow := tput progRowReset s.nbu.progRow st row } }
def State.setProgStep (s : State) (st : Nat) (v : W32) : State := { s with nbu := { s.nbu with progStep := tput progStepReset s.nbu.progStep st v } }
def State.startProg (s : State) (sts : List Nat) (first : Nat) (step : W32) : State :=
  sts.foldl (fun s st => (s.setProgRow st (BitVec.ofNat 32 first - 1)).setProgStep st step) s

/-- The stacks of a new run, with row indices first to stop − 1. -/
def newStacks (sts : List Nat) (first stop : Nat) : List NbStack := sts.map fun st => ⟨st, first, first, stop, [], none⟩
/-- A run without a program or query. -/
def newRun (q op : Nat) (sts : List NbStack) : NbRun :=
  { queue := q, op := op, stackRuns := sts, prog := [], bc := [], regs := [], gamma := [], skipped := 0, query := 0, qlen := 0,
    qvec := [], parts := [], loaded := false, stopping := false }

/-! Codewords inside the unit (R198). -/

/-- What a unit's read of codewords gives. -/
inductive NbGot where
  | bytes (bs : List Byte)
  | fault (st : Byte)
  deriving DecidableEq, Repr

/-- The bytes of a codeword with an error pattern. -/
def Mem.wordBytes (m : Mem) (w : Nat) (p : List (Nat × Byte)) : List Byte :=
  (List.range 32).map fun i => match p.find? fun x => x.1 == i with
    | some x => tget zeroB m.cells (w + i) ^^^ x.2
    | none => tget zeroB m.cells (w + i)

/-- A unit reads codeword w. What it corrects is counted and not written back here: a word within the range that the row
operation writes is written whole by it, and a row that is only read, or that a fault leaves unchanged, keeps the stored
word (R199). -/
def State.nbWord (s : State) (q pg w : Nat) : NbGot × State :=
  if tget noFlag s.mem.zero (w / pageBytes) then (.bytes (List.replicate 32 0), s)
  else
    let e := tget noPat s.mem.errs (w / 32)
    let l := s.mem.loc w
    if s.pcFailed l then (.fault stUncorrectable, (s.evErr 5).errRec 0x02 1 9 l.unit 1 l.location)
    else match decode32 e with
      | .good p => (.bytes (s.mem.wordBytes w p), s)
      | .corrected p =>
        if s.qualWord w then (.bytes (s.mem.wordBytes w e), s.bump64 0x1100030 1)
        else (.bytes (s.mem.wordBytes w p), s.bump (0xA2000C + 0x10 * pg) 1)
      | .poisoned _ _ => (.fault stPoisoned, s.errRec 0x03 1 9 l.unit q l.location)
      | .uncorrectable =>
        if s.qualWord w then (.bytes (s.mem.wordBytes w e), s.bump64 0x1100030 1)
        else (.fault stUncorrectable, (s.foundUe 0x02 1 w 32).nbPoisoned 1)

/-- Read n codewords from address a; the first fault found is the read's. -/
def State.nbWords (s : State) (q pg : Nat) : Nat → Nat → NbGot × State
  | 0, _ => (.bytes [], s)
  | n + 1, a =>
    let x := s.nbWord q pg a
    let y := x.2.nbWords q pg n (a + 32)
    (match x.1, y.1 with
      | .bytes bs, .bytes cs => .bytes (bs ++ cs)
      | .fault f, _ => .fault f
      | _, .fault f => .fault f, y.2)

/-! Lanes and instructions (R205 to R207). -/

/-- Bits of a lane, and its value. -/
def laneBits (ty : Nat) : Nat := if ty = 0 then 32 else if ty = 1 then 16 else 8
def laneCode (ty : Nat) : Nat × Bool :=
  match ty with
  | 0 => (0, false)
  | 1 => (1, false)
  | 2 => (8, true)
  | 3 => (8, false)
  | _ => (3, false)
def laneVal (ty c : Nat) : Val := elemVal (laneCode ty).1 (laneCode ty).2 c
/-- An exact result in a lane (R207): floats round once, integers saturate. -/
def laneEnc (ty : Nat) (v : Val) : Nat := convert (laneCode ty).1 (laneCode ty).2 (decide (2 ≤ ty)) v
/-- The lanes of a register, and back. -/
def lanesOf (ty : Nat) (r : List Byte) : List Nat :=
  (chunks (laneBits ty / 8) r).map leNat
def regOf (ty : Nat) (l : List Nat) : List Byte := l.flatMap (leBytes (laneBits ty / 8))

/-- The larger or smaller of two lanes by R118. -/
def laneMax (a b : Val) : Val := if a.isNan || b.isNan then .nan else if a.lt b || (a.isZero && b.isZero && a.sign) then b else a
def laneMin (a b : Val) : Val := if a.isNan || b.isNan then .nan else if b.lt a || (a.isZero && b.isZero && b.sign) then b else a

/-- An instruction's fields (Table 8.4). -/
structure NbIns where
  op : Nat
  vd : Nat
  va : Nat
  vb : Nat
  vc : Nat
  ty : Nat
  imm : Nat
def NbIns.of (w : Nat) : NbIns := ⟨fld w 5 0, fld w 9 6, fld w 13 10, fld w 17 14, fld w 21 18, fld w 24 22, fld w 31 25⟩

/-- The lane types an operation accepts (Table 8.5); none: unlisted. -/
def nbTypes (op : Nat) : Option (List Nat) :=
  if op ≤ 5 then some [0, 1, 2, 3, 4]
  else if 8 ≤ op ∧ op ≤ 14 then some [0, 1, 2, 3]
  else if 0x10 ≤ op ∧ op ≤ 0x14 then some [0]
  else if op = 0x18 ∨ op = 0x19 then some [1, 2, 3, 4]
  else if 0x1C ≤ op ∧ op ≤ 0x1E then some [0]
  else none

/-- The check of an instruction before the first row (R206). -/
def nbInsOk (comp : Bool) (bcw w : Nat) : Bool :=
  let i := NbIns.of w
  match nbTypes i.op with
  | none => false
  | some l => l.contains i.ty && !(i.op == 2 && !comp) && !(i.op == 3 && decide (bcw ≤ i.imm % 32))

/-- A register of a file. -/
def regGet (r : List (List Byte)) (i : Nat) : List Byte := r.getD i (List.replicate 32 0)
/-- The register file at the start of a command: +0 (R201). -/
def regsReset (_ : Nat) : List (List Byte) := List.replicate 16 (List.replicate 32 0)

/-- The FP32 functions 0x10 to 0x14. -/
def nbFn (op : Nat) (x : W32) : W32 :=
  match op with
  | 0x10 => f32sqrt x
  | 0x11 => fnRecip x
  | 0x12 => fnRsqrt x
  | 0x13 => fnExp x
  | _ => fnLog x

/-- The result of an arithmetic instruction: the new VD (Table 8.5). -/
def nbArith (i : NbIns) (d a b c : List Byte) : List Byte :=
  let la := lanesOf i.ty a
  let lb := lanesOf i.ty b
  let lc := lanesOf i.ty c
  let two (f : Val → Val → Val) : List Byte := regOf i.ty ((la.zip lb).map fun p => laneEnc i.ty (f (laneVal i.ty p.1) (laneVal i.ty p.2)))
  let f32s (r : List Byte) : List W32 := (lanesOf 0 r).map (BitVec.ofNat 32)
  let out32 (l : List W32) : List Byte := l.flatMap fun x => leBytes 4 x.toNat
  let part := if i.ty = 1 then i.imm % 2 else i.imm % 4
  match i.op with
  | 5 => a
  | 8 => two Val.add
  | 9 => two Val.sub
  | 10 => two Val.mul
  | 11 => regOf i.ty ((la.zip (lb.zip lc)).map fun p => laneEnc i.ty (((laneVal i.ty p.1).mul (laneVal i.ty p.2.1)).add (laneVal i.ty p.2.2)))
  | 12 => two laneMax
  | 13 => two laneMin
  | 14 => regOf i.ty (la.map fun x => laneEnc i.ty (laneVal i.ty x).abs)
  | 0x18 => out32 (((la.drop (8 * part)).take 8).map fun x => toF32 (laneVal i.ty x))
  | 0x19 =>
    let new := (f32s a).map fun x => convert (laneCode i.ty).1 (laneCode i.ty).2 true (f32 x)
    let ld := lanesOf i.ty d
    regOf i.ty (ld.take (8 * part) ++ new ++ ld.drop (8 * part + 8))
  | 0x1C => out32 ((match f32s a with
      | [] => f32zero
      | x :: l => l.foldl f32add x) :: List.replicate 7 f32zero)
  | 0x1D => out32 (foldOr f32max (f32s a) :: List.replicate 7 f32zero)
  | 0x1E => out32 (List.replicate 8 ((f32s a).getD (i.imm % 8) 0))
  | op => if 0x10 ≤ op ∧ op ≤ 0x14 then out32 ((f32s a).map (nbFn op)) else d

/-- Lanes that NARROW turns from a NaN or an infinity into a finite value (R74, R81). -/
def narrowNf (i : NbIns) (a : List Byte) : Nat :=
  if i.op = 0x19 then
    ((lanesOf 0 a).filter fun c => (laneVal 0 c).nonFinite &&
      !(laneVal i.ty (convert (laneCode i.ty).1 (laneCode i.ty).2 true (laneVal 0 c))).nonFinite).length
  else 0

/-- A row operation of a program in progress: registers, codewords written so far, non-finite values counted (R81). -/
structure RowRun where
  regs : List (List Byte)
  writes : List (Nat × List Byte)
  nf : Nat

/-- The codeword at a, when the row operation on the row at `row` has written it. -/
def RowRun.wrote (r : RowRun) (row a : Nat) : Option (List Byte) :=
  if row ≤ a ∧ a < row + 1024 then (r.writes.find? fun p => p.1 == (a - row) / 32).map (·.2) else none

/-- Non-finite lanes of a stored register (R207). -/
def storeNf (ty : Nat) (r : List Byte) : Nat :=
  if ty ≤ 1 then ((lanesOf ty r).filter fun c => (laneVal ty c).nonFinite).length else 0

/-- How a row operation ends: done, or failed with a status and where (Table 8.10). -/
abbrev RowEnd := Option (Byte × Nat)

/-- Run the instructions on one row (R205): a fault after the first write is where 2 (R199). -/
def State.nbProgram (s : State) (q pg row comp : Nat) (bc : List (List Byte)) : List Nat → RowRun → (RowRun × RowEnd) × State
  | [], r => ((r, none), s)
  | w :: ws, r =>
    let i := NbIns.of w
    let set (v : List Byte) : RowRun := { r with regs := r.regs.set i.vd v }
    let load (a wh : Nat) : (RowRun × RowEnd) × State :=
      match r.wrote row a with
      | some v => s.nbProgram q pg row comp bc ws (set v)
      | none =>
        let x := s.nbWord q pg a
        match x.1 with
        | .bytes bs => x.2.nbProgram q pg row comp bc ws (set bs)
        | .fault f => ((r, some (f, if r.writes.isEmpty then wh else 2)), x.2)
    match i.op with
    | 0 => s.nbProgram q pg row comp bc ws r
    | 1 => load (row + 32 * (i.imm % 32)) 0
    | 2 => load (comp + 32 * (i.imm % 32)) 1
    | 3 => s.nbProgram q pg row comp bc ws (set (bc.getD (i.imm % 32) (List.replicate 32 0)))
    | 4 =>
      let v := regGet r.regs i.va
      s.nbProgram q pg row comp bc ws { r with writes := (i.imm % 32, v) :: r.writes.filter (fun p => p.1 != i.imm % 32), nf := r.nf + storeNf i.ty v }
    | _ =>
      let v := nbArith i (regGet r.regs i.vd) (regGet r.regs i.va) (regGet r.regs i.vb) (regGet r.regs i.vc)
      s.nbProgram q pg row comp bc ws { r with regs := r.regs.set i.vd v, nf := r.nf + narrowNf i (regGet r.regs i.va) }

/-- The codewords that a program writes. -/
def storeRange (prog : List Nat) : List Nat := (prog.filter fun w => (NbIns.of w).op == 4).map fun w => (NbIns.of w).imm % 32

/-- Poison codewords of a row (R199). -/
def State.poisonRow (s : State) (row : Nat) (ws : List Nat) : State :=
  ({ s with mem := ws.foldl (fun m c => m.poison (row + 32 * c) 32) s.mem }).nbPoisoned ws.length

/-- The outcome of a unit's row: the run with what it keeps, a failure or none, and the state. -/
abbrev UnitEnd := NbRun × Option Fail × State

/-- NB_FERRY's row operation of pair p. `flt`: a residue mismatch, from 4 on after the first write (R199). -/
def State.ferryRow (s : State) (c : Cmd) (r : NbRun) (p i : Nat) (flt : Option Nat) : UnitEnd :=
  let pg := s.pairPhys p
  let row := rowAt (c.p 2) i p
  let x := s.nbProgram r.queue pg row (rowAt (c.p 3) i p) r.bc r.prog ⟨tget regsReset r.regs p, [], 0⟩
  let wrote := !x.1.1.writes.isEmpty
  let fin : RowEnd := match x.1.2, flt with
    | some e, _ => some e
    | none, some f => some (stResidue, if 4 ≤ f ∧ wrote then 2 else 0)
    | none, none => none
  match fin with
  | some e =>
    let t := if e.2 = 2 then x.2.poisonRow row (storeRange r.prog).eraseDups else x.2
    let d := nbDetail p e.2 i
    (r, some ⟨e.1, d⟩, if e.1 = stResidue then t.nbResidue pg d else t)
  | none =>
    let t := x.1.1.writes.foldl (fun s w => s.storeBytes (row + 32 * w.1) w.2) x.2
    ({ r with regs := tput regsReset r.regs p x.1.1.regs }, none, t.nbNf pg x.1.1.nf)

/-! The optimizer row (R208 to R213). -/

/-- The shard row of row index i in pair p (R210). -/
def shardRow (i p : Nat) : Nat := i / 4 * 65536 + 4 * p + i % 4
/-- The highest row index with a shard row in pair p, plus one. -/
def shardStop (nr p : Nat) : Nat :=
  if nr ≤ 4 * p then 0 else let x := nr - 1 - 4 * p; 4 * (x / 65536) + min 3 (x % 65536) + 1

/-- The bytes of a state row 0 to 927 after the update, and what they count under R81 (R209, R211). -/
def optRow (c : Cmd) (sat : Bool) (gamma : List W32) (row grad : List Byte) : List Byte × Nat :=
  let o : OptIn := ⟨lo32 c 5, hi32 c 5, lo32 c 4, hi32 c 4, lo32 c 6, hi32 c 6, lo32 c 7, hi32 c 7⟩
  let mf := bitAt (c.p 0) 8
  let fac := bitAt (c.p 0) 9
  let fm := momentFmt mf false
  let fv := momentFmt mf true
  let at_ (a n : Nat) : List Byte := (row.drop a).take n
  let w := words32 128 row
  let g := (words32 128 grad).map fun x => f32mul x o.gscale
  let m := momentRead fm.1 fm.2 (at_ 512 128 ++ at_ 768 4)
  let mn := (m.zip g).map fun p => optM o p.1 p.2
  let rho := BitVec.ofNat 32 (leNat (at_ 772 4))
  let rn := optV o rho (toF32 ((f32 (fixedSumsq g)).div (Val.ofNat 128)))
  let vn := if fac then gamma.map fun x => f32mul rn x
    else ((momentRead fv.1 fv.2 (at_ 640 128 ++ at_ 772 4)).zip g).map fun p => optV o p.1 (f32mul p.2 p.2)
  let wn := (w.zip (mn.zip vn)).map fun p => optW o p.1 p.2.1 p.2.2
  let mw := momentWrite fm.1 fm.2 mn
  let vw := if fac then (at_ 640 128 ++ leBytes 4 rn.toNat, 0) else momentWrite fv.1 fv.2 vn
  let wv := wn.map f32
  let bytes := wn.flatMap (fun x => leBytes 4 x.toNat) ++ mw.1.take 128 ++ vw.1.take 128 ++ mw.1.drop 128 ++ vw.1.drop 128 ++
    gatherFmt.writeRun sat wv ++ leBytes 4 (fld (c.p 0) 63 32) ++ at_ 912 16
  (bytes, (wn.filter fun x => (f32 x).nonFinite).length + mw.2 + vw.2 + gatherFmt.nfCount sat wv)

/-- The saturate mode of the gather source: the state region's DOVF (R211), as at the dispatch of queue q's command. -/
def State.rowSat (s : State) (q a : Nat) : Bool := satOf 0 (s.pageTag q (a / pageBytes))

/-- The step check of a row, from codeword 28 of the row (R211, R213). -/
inductive StepCheck where
  | go (word : List Byte)
  | skip
  | refuse (f : Fail)
  deriving DecidableEq, Repr

/-- What codeword 28 of the row of pair p and row index i says of the step (R209, R211). -/
def stepCheck (c : Cmd) (p i : Nat) : NbGot → StepCheck
  | .fault f => .refuse ⟨f, nbDetail p 0 i⟩
  | .bytes w =>
    let step := leNat ((w.drop 12).take 4)
    let new := fld (c.p 0) 63 32
    if step = new then .skip
    else if (step + 1) % 2 ^ 32 ≠ new then .refuse ⟨stBadParam, 0xFD + p / 2048 * 2048 + i % 65536 * 65536⟩
    else .go w

/-- The update of a row whose own bytes have been read (R211): the gradient is read, and the row written, unless a residue
fault strikes. -/
def State.optApply (s : State) (c : Cmd) (r : NbRun) (p i : Nat) (flt : Option Nat) (bytes : List Byte) : UnitEnd :=
  let pg := s.pairPhys p
  let row := rowAt (c.p 2) i p
  let g := s.nbWords r.queue pg 16 (c.p 3 + 512 * shardRow i p)
  match g.1 with
  | .fault f => (r, some ⟨f, nbDetail p 1 i⟩, g.2)
  | .bytes gr =>
    match flt with
    | some k =>
      let wh := if 4 ≤ k then 2 else 0
      let d := nbDetail p wh i
      let t := if wh = 2 then g.2.poisonRow row (List.range 29) else g.2
      (r, some ⟨stResidue, d⟩, t.nbResidue pg d)
    | none =>
      let o := optRow c (g.2.rowSat r.queue row) r.gamma bytes gr
      let t := if bitAt (c.p 0) 9 then (g.2.storeBytes row (o.1.take 640)).storeBytes (row + 768) (o.1.drop 768) else g.2.storeBytes row o.1
      (r, none, t.nbNf pg o.2)

/-- Update a row whose step check has passed; w28 is its codeword 28. With FACTORED the V words are neither read nor
written. -/
def State.optUpdate (s : State) (c : Cmd) (r : NbRun) (p i : Nat) (flt : Option Nat) (w28 : List Byte) : UnitEnd :=
  let pg := s.pairPhys p
  let row := rowAt (c.p 2) i p
  let x := s.nbWords r.queue pg 20 row
  let y := if bitAt (c.p 0) 9 then (.bytes (List.replicate 128 0), x.2) else x.2.nbWords r.queue pg 4 (row + 640)
  let z := y.2.nbWords r.queue pg 4 (row + 768)
  match x.1, y.1, z.1 with
  | .bytes a, .bytes b, .bytes d => z.2.optApply c r p i flt (a ++ b ++ d ++ w28)
  | .fault f, _, _ => (r, some ⟨f, nbDetail p 0 i⟩, z.2)
  | _, .fault f, _ => (r, some ⟨f, nbDetail p 0 i⟩, z.2)
  | _, _, .fault f => (r, some ⟨f, nbDetail p 0 i⟩, z.2)

/-- NB_OPTIMIZE's row operation of pair p: the step check first, then skipped, refused, or updated as one (R211, R213). -/
def State.optimizeRow (s : State) (c : Cmd) (r : NbRun) (p i : Nat) (flt : Option Nat) : UnitEnd :=
  let h := s.nbWord r.queue (s.pairPhys p) (rowAt (c.p 2) i p + 896)
  match stepCheck c p i h.1 with
  | .skip => ({ r with skipped := r.skipped + 1 }, none, h.2)
  | .refuse f => (r, some f, if f.st = stBadParam then h.2.evNbu 2 else h.2)
  | .go w => h.2.optUpdate c r p i flt w

/-! Attention (R214 to R218). -/

/-- D, bytes of an element and tokens of a row. -/
def attD (c : Cmd) : Nat := if fld (c.p 0) 9 8 = 0 then 64 else 128
def attFmt (c : Cmd) : Fmt := Fmt.of (c.p 2)
def attB (c : Cmd) : Nat := if (attFmt c).code = 1 then 2 else 1
def attTR (c : Cmd) : Nat := 1024 / (2 * attD c * attB c)
def attStacks (c : Cmd) : List Nat := stacksOf (fld (c.p 0) 7 0)
def attNP (c : Cmd) : Nat := 2048 * (attStacks c).length
/-- π⁻¹: the position of a selected pair (R214). -/
def attPos (c : Cmd) (p : Nat) : Nat := ((attStacks c).filter fun st => decide (st < p / 2048)).length * 2048 + p % 2048
/-- The tokens of row i of pair p below LEN: slot numbers. -/
def attSlots (c : Cmd) (len p i : Nat) : List Nat :=
  (List.range (attTR c)).filter fun t => decide ((i * attTR c + t) * attNP c + attPos c p < len)
/-- Row indices that hold a token below LEN: one past the last. -/
def attStop (c : Cmd) (len : Nat) : Nat := if len = 0 then 0 else (len - 1) / attNP c / attTR c + 1

/-- fixed_dot: R117 with the fused step rnd(p + q × k). -/
def fixedDot (qk : List (W32 × W32)) : W32 :=
  let ps := (chunks 64 qk).map fun ch => ch.foldl (fun p x => f32fma x.1 x.2 p) f32zero
  pairAll ps.length ps

/-- The empty partial. -/
def Partial.empty (d : Nat) : Partial := ⟨f32ninf, f32zero, List.replicate d f32zero⟩

/-- One token of the unit's procedure (R216). -/
def Partial.token (scale : W32) (q : List W32) (r : Partial) (k v : List W32) : Partial :=
  let s := f32mul (fixedDot (q.zip k)) scale
  let mn := f32max r.m s
  if mn = f32ninf then r
  else
    let a := fnExp (f32sub r.m mn)
    let b := fnExp (f32sub s mn)
    ⟨mn, f32fma r.l a b, (r.o.zip v).map fun p => f32fma p.1 a (f32mul b p.2)⟩

/-- combine (R217). -/
def Partial.combine (x y : Partial) : Partial :=
  if y.m = f32ninf then x
  else if x.m = f32ninf then y
  else
    let m := f32max x.m y.m
    let a := fnExp (f32sub x.m m)
    let b := fnExp (f32sub y.m m)
    ⟨m, f32fma x.l a (f32mul y.l b), (x.o.zip y.o).map fun p => f32fma p.1 a (f32mul p.2 b)⟩

/-- The record of a folded partial (R218), without its first 8 bytes' choice: FINAL or not. -/
def Partial.record (final : Bool) (d : Nat) (r : Partial) : List W32 :=
  if !final then [r.m, r.l] ++ r.o
  else if r.m = f32ninf then [f32ninf, f32zero] ++ List.replicate d f32zero
  else [f32add r.m (fnLog r.l), f32zero] ++ r.o.map fun x => f32div x r.l

/-- Bytes of an output record. -/
def recordBytes (l : List W32) : List Byte :=
  (l.take 2).flatMap (fun x => leBytes 4 x.toNat) ++ List.replicate 24 0 ++ (l.drop 2).flatMap fun x => leBytes 4 x.toNat

/-- NB_ATTEND's row operation of pair p. -/
def State.attendRow (s : State) (c : Cmd) (r : NbRun) (p i : Nat) (flt : Option Nat) : UnitEnd :=
  let pg := s.pairPhys p
  let d := attD c
  let b := attB c
  let f := attFmt c
  let slots := attSlots c r.qlen p i
  let row := rowAt (c.p 1) i p
  let x := s.nbWords r.queue pg (ceilDiv (slots.length * 2 * d * b) 32) row
  match x.1, flt with
  | .fault e, _ => (r, some ⟨e, nbDetail p 0 i⟩, x.2)
  | .bytes _, some _ => (r, some ⟨stResidue, nbDetail p 0 i⟩, x.2.nbResidue pg (nbDetail p 0 i))
  | .bytes bs, none =>
    let vals (off : Nat) : List W32 := match f.readRun d ((bs.drop off).take (d * b)) with
      | .ok es => es.map elem32
      | .error _ => []
    let sc := BitVec.ofNat 32 (fld (c.p 0) 63 32)
    let part := slots.foldl (fun a t => a.token sc r.qvec (vals (t * 2 * d * b)) (vals (t * 2 * d * b + d * b)))
      ((tget noneD r.parts p).getD (Partial.empty d))
    ({ r with parts := tput noneD r.parts p (some part) }, none, x.2)

/-- The fold of a query's partials (R217): pairs upward in a stack, then stacks upward. -/
def foldQuery (c : Cmd) (r : NbRun) : Partial :=
  let d := attD c
  let part (p : Nat) : Partial := (tget noneD r.parts p).getD (Partial.empty d)
  let stackFold (st : Nat) : Partial := match stackPairs st with
    | [] => Partial.empty d
    | p :: ps => ps.foldl (fun a x => a.combine (part x)) (part p)
  match attStacks c with
  | [] => Partial.empty d
  | st :: sts => sts.foldl (fun a x => a.combine (stackFold x)) (stackFold st)

/-! Starting commands. -/

/-- NB_FERRY's fields (Table 8.3). -/
def ferryFields (c : Cmd) : Except Fail Unit :=
  bitCheck 0 [bitIf (decide (32 < fld (c.p 0) 13 8)) 8, bitIf (decide (32 < fld (c.p 0) 21 16)) 16, lowBit (c.p 0) (bmask 31 22)]

/-- The addresses of NB_FERRY. -/
def State.ferryAddrs (s : State) (q : Nat) (c : Cmd) : Except Fail Unit :=
  let w := c.p 0
  let first := fld w 47 32
  let rows := fld w 63 48
  let sts := stacksOf (fld w 7 0)
  firstErr ([ failIf (decide (32768 < first + rows)) (badAddr 0 3),
      s.checkAddr q (c.p 1) (4 * fld w 13 8) 1 8,
      s.nbRegion q (c.p 2) (first / 2) ((first + rows + 1) / 2) 2,
      if bitAt w 14 then s.nbRegion q (c.p 3) (first / 2) ((first + rows + 1) / 2) 3 else .ok (),
      if fld w 21 16 = 0 then .ok () else s.checkAddr q (c.p 4) (32 * fld w 21 16) 4 8 ] ++
    (if bitAt w 15 then sts.map (fun st => s.checkAddr q (c.p 5 + st * 65536) 65536 5 8) else []) ++ [s.nbService sts])

/-- NB_FERRY has work: NBU_SHARD_PROGn is set, the program and broadcast words are read, every instruction is checked, the
stacks start. -/
def State.ferryStart (s : State) (q : Nat) (c : Cmd) : State :=
  let w := c.p 0
  let n := fld w 13 8
  let bcw := fld w 21 16
  let s := s.startProg (stacksOf (fld w 7 0)) (fld w 47 32) 0
  let x := s.opRead q (c.p 1) (4 * n) 1
  match x.1 with
  | .wait => x.2
  | .bytes pb =>
    let prog := (chunks 4 pb).map leNat
    match prog.findIdx? fun i => !nbInsOk (bitAt w 14) bcw i with
    | some i => x.2.failCmd q ⟨stBadParam, 0xFC + i * 256⟩
    | none =>
      let y := x.2.opRead q (c.p 4) (32 * bcw) 4
      match y.1 with
      | .wait => y.2
      | .bytes bb =>
        let sts := stacksOf (fld w 7 0)
        let first := fld w 47 32
        y.2.setNRun { newRun q 0x3001 (newStacks sts first (first + fld w 63 48)) with prog := prog, bc := chunks 32 bb }
      | o => y.2.failCmd q (nbLoose o 0)
  | o => x.2.failCmd q (nbLoose o 0)

/-- The region tag a command needs (R79, R210, R214, R243): CONV 1 and this STORED, as at the dispatch of queue q's command.
A tag that does not admit the operand is reported before pages of different tags (the spec gives no order: DESIGN CHOICE, log
entry 66). -/
def State.needTag (s : State) (q a n : Nat) (f : Fmt) (wf : Nat) : Except Fail Unit :=
  if a / 2 ^ 62 = 1 ∨ a / 2 ^ 62 = 2 then .error (mismatch wf 0 0)
  else
    let ts := (pagesOf a n).map (s.pageTag q)
    match ts with
    | [] => .ok ()
    | t :: l => if (t :: l).any fun t => fld t 9 8 != 1 || !sameFmt (tagFmt t f32one) f then .error (mismatch wf 0 0)
        else failIf (l.any fun u => u != t) (mismatch wf 2 0)

/-- Row indices of NB_OPTIMIZE: one past the highest with a shard row in a selected pair. -/
def optStop (c : Cmd) : Nat :=
  match stacksOf (fld (c.p 0) 7 0) with
  | [] => 0
  | st :: _ => shardStop (fld (c.p 1) 29 0) (st * 2048)

/-- Step 3 of R102 for NB_OPTIMIZE: N is at most 2^29 (Table 8.7). -/
def optFields (c : Cmd) : Except Fail Unit :=
  firstErr [ reservedCheck c 0 (bmask 15 10),
    bitCheck 1 [bitIf (bitAt (c.p 1) 29 && fld (c.p 1) 28 0 != 0) 0, lowBit (c.p 1) (bmask 63 30)] ]

/-- Checks of NB_OPTIMIZE (R202, R210). -/
def State.optChecks (s : State) (q : Nat) (c : Cmd) : Except Fail Unit :=
  let first := fld (c.p 0) 31 16
  let stop := max first (optStop c)
  let sts := stacksOf (fld (c.p 0) 7 0)
  let lo := first / 2
  let hi := (stop + 1) / 2
  let glo := first / 4
  let ghi := (stop + 3) / 4
  firstErr
    [ s.needTag q (c.p 2 + lo * 2 ^ 25) ((hi - lo) * 2 ^ 25) fp32Fmt 2, s.needTag q (c.p 3 + glo * 2 ^ 25) ((ghi - glo) * 2 ^ 25) fp32Fmt 3,
      s.nbRegion q (c.p 2) lo hi 2, s.nbRegion q (c.p 3) glo ghi 3,
      if bitAt (c.p 0) 9 then s.checkAddr q (c.p 8) 256 8 8 else .ok (), s.nbService sts ]

/-- NB_OPTIMIZE has work: NBU_SHARD_PROGn is set, and γ is read once (R204, R212). -/
def State.optStart (s : State) (q : Nat) (c : Cmd) : State :=
  let sts := stacksOf (fld (c.p 0) 7 0)
  let first := fld (c.p 0) 31 16
  let s := s.startProg sts first (BitVec.ofNat 32 (fld (c.p 0) 63 32))
  let x := if bitAt (c.p 0) 9 then s.opRead q (c.p 8) 256 8 else (.bytes [], s)
  match x.1 with
  | .wait => x.2
  | .bytes bs =>
    let gamma := (unpackCodes 1 (bs.length / 2) bs).map fun v => toF32 (elemVal 1 false v)
    x.2.setNRun { newRun q 0x3002 (newStacks sts first (optStop c)) with gamma := gamma }
  | o => x.2.failCmd q (nbLoose o 0)

/-- Checks of NB_ATTEND (R214, R215). -/
def State.attChecks (s : State) (q : Nat) (c : Cmd) : Except Fail Unit :=
  let w := c.p 0
  let f := attFmt c
  let qn := fld w 31 16
  let d := attD c
  firstErr
    [ fmtCheck c 2, bitCheck 0 [bitIf (decide (2 ≤ fld w 9 8)) 8, lowBit w (bmask 15 11)],
      bitCheck 2 [bitIf (f.code != 1 && f.code != 3) 0, bitIf (f.layout != 0) 4],
      if fld w 7 0 = 0 ∨ qn = 0 then .ok () else firstErr
        [ s.needTag q (c.p 1) (2 ^ 25) f 2, s.nbRegion q (c.p 1) 0 1 1, s.checkAddr q (c.p 3) (qn * (32 + 2 * d)) 3 8,
          s.checkAddr q (c.p 4) (qn * (32 + 4 * d)) 4 8, s.nbService (stacksOf (fld w 7 0)) ] ]

/-- The query of a record: LEN, whether bytes 4 to 31 are zero, and its values. -/
def queryOf (d : Nat) (bs : List Byte) : Nat × Bool × List W32 :=
  (leNat (bs.take 4), ((bs.drop 4).take 28).all (· == 0), (unpackCodes 1 d (bs.drop 32)).map fun v => toF32 (elemVal 1 false v))

/-- Load the next query's record and set its rows (R215). -/
def State.attLoad (s : State) (q : Nat) (c : Cmd) (r : NbRun) : State :=
  let d := attD c
  let x := s.opRead q (c.p 3 + r.query * (32 + 2 * d)) (32 + 2 * d) 3
  match x.1 with
  | .wait => x.2
  | .bytes bs =>
    let v := queryOf d bs
    let stop := attStop c v.1
    if !v.2.1 then (x.2.dropNRun q).failCmd q ⟨stBadParam, 0xFD + 256 + r.query % 65536 * 65536⟩
    else match firstErr [s.nbRegion q (c.p 1) 0 ((stop + 1) / 2) 1, s.needTag q (c.p 1) ((stop + 1) / 2 * 2 ^ 25) (attFmt c) 2] with
      | .error f => (x.2.dropNRun q).failCmd q f
      | .ok () => x.2.setNRun { r with qlen := v.1, qvec := v.2.2, parts := [], loaded := true,
                                       stackRuns := newStacks (attStacks c) 0 stop }
  | o => (x.2.dropNRun q).failCmd q (nbLoose o r.query)

/-! Finishing (R203, R213). -/

/-- Groups named by OUT leave once no chain-ferry command holds their stack (Table 15.8). -/
def State.nbLeave (s : State) : State :=
  (s.nbu.leaving.filter fun e => e.2 && !s.stackBusy (if e.1 < 2048 then e.1 / 256 else (e.1 - 2048) / 8)).foldl (fun s e =>
    let s := { s with nbu := { s.nbu with leaving := tput noFlag s.nbu.leaving e.1 false } }
    s.nbSet e.1 1 0 (s.nbSvc e.1).failed) s

/-- Every row operation in progress has ended. -/
def NbRun.quiet (r : NbRun) : Bool := r.stackRuns.all fun x => x.todo.isEmpty
/-- Every row index has been run. -/
def NbRun.through (r : NbRun) : Bool := r.stackRuns.all fun x => decide (x.stop ≤ x.next)

/-- End a near-bank command. -/
def State.nbEnd (s : State) (q : Nat) (st : Byte) (d : Nat) : State := ((s.dropNRun q).endCmd q st d).nbLeave

/-- End with a failing row's status, which stands before the cause of a stop (R203). -/
def State.nbEndFail (s : State) (q : Nat) (st : Byte) (d : Nat) : State :=
  match (s.q q).cmd with
  | some c => (s.setCmd q { c with stop := none }).nbEnd q st d
  | none => s.nbEnd q st d

/-- The outputs of NB_FERRY: v0 of each unit (Table 8.3). -/
def State.ferryOut (s : State) (q : Nat) (c : Cmd) (r : NbRun) : State :=
  (r.stackRuns.flatMap fun x => stackPairs x.stack).foldl (fun s p => s.opWrite q (c.p 5 + 32 * p) 5 (regGet (tget regsReset r.regs p) 0)) s

/-- A query has been passed over: its record is written and the next one loaded (R215, R218). -/
def State.attNext (s : State) (q : Nat) (c : Cmd) (r : NbRun) : State :=
  let d := attD c
  let a := c.p 4 + r.query * (32 + 4 * d)
  if s.opWaits a (32 + 4 * d) then s.holdWrite q a (32 + 4 * d)
  else
    let l := (foldQuery c r).record (bitAt (c.p 0) 10) d
    let s := (s.opWrite q a 4 (recordBytes l)).nbNf (s.pairPhys ((attStacks c).headD 0 * 2048)) (l.filter fun x => (f32 x).nonFinite).length
    let r := { r with query := r.query + 1, loaded := false }
    if r.query < fld (c.p 0) 31 16 then (s.setNRun r).attLoad q c r else s.nbEnd q stOK 0

/-- Go on once every row operation in progress has ended: stop, finish, or wait for the next issue. -/
def State.nbAdvance (s : State) (q : Nat) : State :=
  match s.nbRun q, (s.q q).cmd with
  | some r, some c =>
    if !r.quiet then s
    else if r.stopping then
      match r.stackRuns.findSome? fun x => x.fail with
      | some f => s.nbEndFail q f.2.1 f.2.2
      | none => s.nbEnd q stAborted 0
    else if !r.through then s
    else match r.op with
      | 0x3001 =>
        if bitAt (c.p 0) 15 then
          if (r.stackRuns.flatMap fun x => stackPairs x.stack).any fun p => s.opWaits (c.p 5 + 32 * p) 32 then
            (r.stackRuns.flatMap fun x => stackPairs x.stack).foldl (fun s p => s.holdWrite q (c.p 5 + 32 * p) 32) s
          else (s.ferryOut q c r).nbEnd q stOK 0
        else s.nbEnd q stOK 0
      | 0x3002 => if r.skipped = 0 then s.nbEnd q stOK 0 else s.nbEnd q stNoted (min r.skipped 0xFFFFFFFF)
      | 0x3003 => if r.loaded then s.attNext q c r else s.attLoad q c r
      | _ => s
  | _, _ => s

/-- NB_FERRY. -/
def State.nbFerry (s : State) (q : Nat) : State :=
  match s.running q 0x3001 with
  | none => s
  | some c =>
    if (s.nbRun q).isSome then s.nbAdvance q
    else match ferryFields c with
      | .error f => s.nbFail q f
      | .ok () =>
        if fld (c.p 0) 7 0 = 0 ∨ fld (c.p 0) 63 48 = 0 ∨ fld (c.p 0) 13 8 = 0 then s.endCmd q stOK 0
        else match s.ferryAddrs q c with
          | .error f => s.nbFail q f
          | .ok () => s.ferryStart q c

/-- NB_OPTIMIZE. -/
def State.nbOptimize (s : State) (q : Nat) : State :=
  match s.running q 0x3002 with
  | none => s
  | some c =>
    if (s.nbRun q).isSome then s.nbAdvance q
    else match optFields c with
      | .error f => s.nbFail q f
      | .ok () =>
        if fld (c.p 0) 7 0 = 0 ∨ fld (c.p 1) 29 0 = 0 then s.endCmd q stOK 0
        else match s.optChecks q c with
          | .error f => s.nbFail q f
          | .ok () =>
            let t := s.optStart q c
            t.nbAdvance q

/-- NB_ATTEND. -/
def State.nbAttend (s : State) (q : Nat) : State :=
  match s.running q 0x3003 with
  | none => s
  | some c =>
    match s.nbRun q with
    | some r => if r.loaded then s.nbAdvance q else s.attLoad q c r
    | none => match s.attChecks q c with
      | .error f => s.nbFail q f
      | .ok () =>
        if fld (c.p 0) 7 0 = 0 ∨ fld (c.p 0) 31 16 = 0 then s.endCmd q stOK 0
        else
          let r := newRun q 0x3003 []
          (s.setNRun r).attLoad q c r

/-! Row indices (R201). -/

/-- The pairs of a stack with work in row i. -/
def nbWork (c : Cmd) (r : NbRun) (st i : Nat) : List Nat :=
  match r.op with
  | 0x3002 => (stackPairs st).filter fun p => decide (shardRow i p < fld (c.p 1) 29 0)
  | 0x3003 => (stackPairs st).filter fun p => !(attSlots c r.qlen p i).isEmpty
  | _ => stackPairs st

/-- Replace a stack of a run. -/
def NbRun.setStack (r : NbRun) (x : NbStack) : NbRun := { r with stackRuns := r.stackRuns.map fun y => if y.stack = x.stack then x else y }

/-- The stack's row index is complete in every unit (R204). -/
def State.rowDone (s : State) (r : NbRun) (x : NbStack) : State :=
  if x.fail.isNone ∧ (r.op = 0x3001 ∨ r.op = 0x3002) then s.setProgRow x.stack (BitVec.ofNat 32 x.cur) else s

/-- The near-bank cap applies (R219): a matrix cluster is busy, or NBU_CAP.ALWAYS is 1. -/
def State.capApplies (s : State) : Bool := s.rbit 0xA00008 8 || s.mat.items.any fun e => e.2.isSome
/-- The arbiter holds a stack, or lets it go on. -/
def State.setCapHeld (s : State) (st : Nat) (v : Bool) : State :=
  { s with nbu := { s.nbu with capHeld := tput noFlag s.nbu.capHeld st v } }
/-- Column bytes that a row operation of pair p moves when nothing fails (R198, R209, R214): codewords loaded and stored by a
program; of an optimizer row the 29 codewords of the row and the 16 of its gradient read and the row's written (V's four in
neither case with FACTORED), and a free number for the unit's other pass; the tokens of an attention row. -/
def colBytes (c : Cmd) (r : NbRun) (free p i : Nat) : Nat :=
  match r.op with
  | 0x3001 => 32 * (r.prog.filter fun w => [1, 2, 4].contains (NbIns.of w).op).length
  | 0x3002 => (if bitAt (c.p 0) 9 then 2112 else 2368) + free
  | _ => alignUp ((attSlots c r.qlen p i).length * 2 * attD c * attB c) 32
def colsReset (_ : Nat) : List (Nat × Nat) := []
/-- Column bytes moved in a stack in the last 10 µs (R219). -/
def State.colsNow (s : State) (st : Nat) : Nat :=
  (((tget colsReset s.nbu.cols st).filter fun e => decide (s.pwr.time < e.1 + 10000)).map (·.2)).sum
/-- A row operation of a stack has moved n column bytes: NBU_Sn_COLB, and the window of R219. -/
def State.addCols (s : State) (st n : Nat) : State :=
  let l := (tget colsReset s.nbu.cols st).filter fun e => decide (s.pwr.time < e.1 + 10000)
  ({ s with nbu := { s.nbu with cols := tput colsReset s.nbu.cols st (l ++ [(s.pwr.time, n)]) } }).bump64 (0xA10010 + 0x20 * st) n
/-- A row index that moves n column bytes would reach the cap within the window (R219): NBU_CAP.TBPS / 8 TB/s over 10 µs. With
nothing in the window it goes on, since the arbiter only delays it (DESIGN CHOICE, log entry 58). -/
def State.overCap (s : State) (st n : Nat) : Bool :=
  s.colsNow st != 0 && decide (s.rf 0xA00008 7 0 * 1250000 ≤ s.colsNow st + n)
/-- The run whose next row index a stack issues. -/
def State.rowToIssue (s : State) (st : Nat) : Option NbRun :=
  s.nbu.runs.find? fun r => !r.stopping && (r.op != 0x3003 || r.loaded) &&
    r.stackRuns.any fun x => x.stack == st && x.todo.isEmpty && decide (x.next < x.stop)
/-- The next row index goes to the units that have work in it. -/
def State.rowStart (s : State) (st : Nat) (r : NbRun) (x : NbStack) (c : Cmd) : State :=
  let ps := nbWork c r st x.next
  let y := { x with cur := x.next, next := x.next + 1, todo := ps }
  let s := ps.foldl (fun s p => s.setHold p x.next true) (s.setNRun (r.setStack y))
  if ps.isEmpty then (s.rowDone r y).nbAdvance r.queue else s

/-- ROW_INDEX_ISSUE. While the cap applies, the arbiter holds the stack where the row index would reach it; a free value says
whether it enforces a lower cap for the limit of R3 (R219). -/
def State.rowIssue (s : State) (st : Nat) : State :=
  match s.rowToIssue st with
  | none => s
  | some r => match r.stackRuns.find? (fun x => x.stack == st), (s.q r.queue).cmd with
    | some x, some c =>
      if s.capApplies then
        if s.overCap st ((nbWork c r st x.next).map fun p => colBytes c r (Config.beats s.draws).toNat p x.next).sum ||
            bitAt (Config.freeWord s.draws).toNat 0 then ((s.setCapHeld st true).draw).evNbu 5
        else ((s.setCapHeld st false).draw).rowStart st r x c
      else (s.setCapHeld st false).rowStart st r x c
    | _, _ => s
/-- NBU_Sn_STATE.CAP_HELD (R219): a row index waits and the arbiter holds it. -/
def State.capHeldNow (s : State) (st : Nat) : Bool := tget noFlag s.nbu.capHeld st && s.capApplies && (s.rowToIssue st).isSome

/-- The stack to which a unit's row operation in progress belongs. -/
def NbRun.stackFor (r : NbRun) (u : Nat) : Option NbStack := r.stackRuns.find? fun x => x.todo.contains u

/-- ROW_OPERATION_END: unit u completes its row operation and its bank is released (R197, R199, R203). The column bytes of a
row that failed are free: they depend on the order of its accesses. -/
def State.rowEnd (s : State) (u : Nat) (flt : Option Nat) : State :=
  match s.nbu.runs.find? fun r => (r.stackFor u).isSome with
  | none => s
  | some r => match r.stackFor u, (s.q r.queue).cmd with
    | some x, some c =>
      let e : UnitEnd := match r.op with
        | 0x3001 => s.ferryRow c r u x.cur flt
        | 0x3002 => s.optimizeRow c r u x.cur flt
        | _ => s.attendRow c r u x.cur flt
      let fail := match x.fail, e.2.1 with
        | some f, some g => if u < f.1 then some (u, g.st, g.detail) else some f
        | some f, none => some f
        | none, some g => some (u, g.st, g.detail)
        | none, none => none
      let y := { x with todo := x.todo.filter (fun p => p != u), fail := fail }
      let run := (e.1.setStack y)
      let run := { run with stopping := run.stopping || fail.isSome }
      let t := (e.2.2.setHold u x.cur false).setNRun run
      let moved := if e.2.1.isSome then (Config.beats t.draws).toNat else if e.1.skipped ≠ r.skipped then 32
        else colBytes c r (Config.beats t.draws).toNat u x.cur
      let t := ((t.bump64 (0xA10008 + 0x20 * x.stack) 1).addCols x.stack moved).draw
      let t := if y.todo.isEmpty then t.rowDone run y else t
      t.nbAdvance r.queue
    | _, _ => s

/-! NB_REPAIR (R220, R221). -/

/-- A spare of a stack is in use by another group. -/
def State.spareUsed (s : State) (st t g : Nat) : Bool :=
  s.nbu.map.any fun e => e.1 / 256 == st && e.1 != g && e.2 == t

/-- Checks of NB_REPAIR. -/
def State.repairCheck (s : State) (q : Nat) (c : Cmd) : Except Fail Unit :=
  let g := fld (c.p 0) 10 0
  let t := fld (c.p 0) 19 16
  let pg := if t = 8 then g else 2048 + 8 * (g / 256) + t
  firstErr
    [ bitCheck 0 [lowBit (c.p 0) (bmask 15 11), bitIf (decide (9 ≤ t)) 16, lowBit (c.p 0) (bmask 63 20)],
      failIf (s.chan q != 0) chanFail,
      failIf (t == s.nbTarget g || (t != 8 && s.spareUsed (g / 256) t g) || (s.nbSvc pg).st != 0) (badParam 0 16) ]
where
  chanFail : Fail := ⟨stBadParam, 0xF2⟩

/-- The codewords of bank b of logical pair p in bank-aligned regions. -/
def Mem.bankWords (m : Mem) (p b : Nat) : List Nat :=
  (m.live.filter fun e => e.2.kind == 1).flatMap fun e =>
    (List.range (e.2.pages * pageBytes / 2 ^ 25)).flatMap fun k =>
      (List.range 32).map fun j => e.2.base + k * 2 ^ 25 + p * 2 ^ 11 + b * 2 ^ 10 + 32 * j

/-- Those that do not simply read as their data: all of them where the pseudo-channel has failed (R390), else those with an
error. -/
def State.copyWords (s : State) (p b : Nat) : List Nat :=
  (s.mem.bankWords p b).filter fun w => s.pcFailed (s.mem.loc w) || !(tget noPat s.mem.errs (w / 32)).isEmpty

/-- The pair and bank of a repair copy's position: eight pairs of two banks. -/
def copyBank (g k : Nat) : Nat × Nat := (8 * g + k / 2, k % 2)

/-- One codeword of a repair copy, read as a unit reads it (R198): corrected in the copy, or written poisoned. -/
def State.repairWord (q pg : Nat) (acc : Nat × State) (w : Nat) : Nat × State :=
  let x := acc.2.nbWord q pg w
  match x.1 with
  | .bytes _ => (acc.1, x.2)
  | .fault _ => (acc.1 + 1, { x.2 with mem := { x.2.mem with errs := tput noPat x.2.mem.errs (w / 32) (poisonPat 32) } })

/-- The copy of bank k of group g, which counts the words it poisons in the run. -/
def State.repairBank (s : State) (r : NbRun) (g k : Nat) : NbRun × State :=
  let b := copyBank g k
  let x := (s.copyWords b.1 b.2).foldl (State.repairWord r.queue (s.nbPhys g)) (0, s)
  ({ r with skipped := r.skipped + x.1 }, (x.2.nbPoisoned x.1).setHold b.1 b.2 false)

/-- The place of a repair copy: the bank it holds. -/
def NbRun.place (r : NbRun) : Nat := (r.stackRuns.map (·.next)).headD 0
def NbRun.atBank (r : NbRun) (k : Nat) : NbRun := { r with stackRuns := r.stackRuns.map fun x => { x with next := k } }

/-- A repair copy ends with its bank and holds the next, as a row operation holds it (R220, R197). -/
def State.repairNext (s : State) (r : NbRun) (g : Nat) : State :=
  let k := r.place
  if 16 ≤ k then s
  else
    let x := s.repairBank r g k
    let t := x.2.setNRun (x.1.atBank (k + 1))
    if k + 1 < 16 then t.setHold (copyBank g (k + 1)).1 (copyBank g (k + 1)).2 true else t

/-- NB_REPAIR: its copy begins; when the copy is under way, it goes on to the next bank. -/
def State.nbRepair (s : State) (q : Nat) : State :=
  match s.running q 0x3004 with
  | none => s
  | some c =>
    let g := fld (c.p 0) 10 0
    match s.nbRun q with
    | some r => s.repairNext r g
    | none => match s.repairCheck q c with
      | .error f => s.nbFail q f
      | .ok () => (s.setNRun (newRun q 0x3004 [⟨g / 256, 0, 0, 16, [], none⟩])).setHold (8 * g) 0 true

/-- The codewords of a logical group that hold an error. -/
def Mem.groupErrs (m : Mem) (g : Nat) : List Nat :=
  (m.errs.map (·.1 * 32)).filter fun w => match m.regionOf (w / pageBytes) with
    | some (_, r) => r.kind == 1 && pairOf ((w - r.base) % 2 ^ 25) / 8 == g
    | none => false

/-- A word as the copy in the new target holds it: poisoned, or the data that were read, with a good code. -/
def State.arriveWord (s : State) (w : Nat) : State :=
  let e := tget noPat s.mem.errs (w / 32)
  match decode32 e with
  | .poisoned _ _ => s
  | .corrected p => { s with mem := if s.qualWord w then s.mem.settle w 32 else { s.mem with errs := tput noPat s.mem.errs (w / 32) p }.settle w 32 }
  | .good _ => { s with mem := s.mem.settle w 32 }
  | .uncorrectable =>
    { s with mem := if s.qualWord w then s.mem.settle w 32 else { s.mem with errs := tput noPat s.mem.errs (w / 32) [] } }

/-- REPAIR_MAP_SWITCH: the copy has ended (banks not yet copied are copied now) and the entry switches in one step. -/
def State.repairSwitch (s : State) (st : Nat) : State :=
  match s.nbu.runs.find? fun r => r.op == 0x3004 && r.stackRuns.any fun x => x.stack == st with
  | none => s
  | some r => match (s.q r.queue).cmd with
    | none => s
    | some c =>
      let g := fld (c.p 0) 10 0
      let x := (List.range' r.place (16 - r.place)).foldl (fun a k => a.2.repairBank a.1 g k) (r, s)
      let t := (x.2.mem.groupErrs g).foldl State.arriveWord x.2
      let t := { t with nbu := { t.nbu with map := tput homeMap t.nbu.map g (fld (c.p 0) 19 16), bySw := tput noFlag t.nbu.bySw g true } }
      if x.1.skipped = 0 then t.nbEnd r.queue stOK 0 else t.nbEnd r.queue stNoted (min x.1.skipped 0xFFFFFFFF)

/-- Release the bank that a repair copy holds. -/
def State.repairLet (s : State) (r : NbRun) : State :=
  match (s.q r.queue).cmd with
  | some c => s.setHold (copyBank (fld (c.p 0) 10 0) r.place).1 (copyBank (fld (c.p 0) 10 0) r.place).2 false
  | none => s

/-- A stop request (R203): between row indices for a command with row operations in progress; a repair copy ends. -/
def State.nbStop (s : State) (q : Nat) : State :=
  match s.nbRun q with
  | none => s
  | some r =>
    if r.op = 0x3004 then (s.repairLet r).dropNRun q
    else if r.quiet then s.dropNRun q
    else s.setNRun { r with stopping := true }

/-- NBU_CTL.NF_CLR (R416). -/
def State.nbuNfClr (s : State) : State :=
  (List.range 2112).foldl (fun s g => s.setCtr (0xA20004 + 0x10 * g) 0) (s.setCtr 0xA00010 0)

end Sys2Proof.Machine
end

