-- ==== Sys2Proof/Machine/Tier.lean ====
section
/-!
DEFINITION. The tier manager (chapter 7): regions, placement, tolls, moves, fords, compression, retirement and the
tier/transfer commands.
-/
namespace Sys2Proof.Machine

/-! Frames, tolls and victims (R155, R163 to R170). -/

/-- Frames of a tier (false fast). -/
def tierFrames (cap : Bool) : Nat := if cap then 786432 else 262144
/-- Pages of the unified range. -/
def allPages : Nat := 1048576

/-- Pages of [x, x + n) in the fast tier: those of page number below 262,144, corrected by the pages that have moved. -/
def Mem.fastIn (m : Mem) (x n : Nat) : Nat :=
  let has (p : Nat) : Bool := decide (x ≤ p) && decide (p < x + n)
  let home := min fastFrames (x + n) - min fastFrames x
  let out := (m.frameOf.filter fun e => has e.1 && decide (e.1 < fastFrames) && decide (fastFrames ≤ e.2)).length
  let in_ := (m.frameOf.filter fun e => has e.1 && decide (fastFrames ≤ e.1) && decide (e.2 < fastFrames)).length
  home - out + in_

/-- Region pages of a region in a tier. -/
def Mem.pagesIn (m : Mem) (r : Region) (cap : Bool) : Nat :=
  if cap then r.pages - m.fastIn r.first r.pages else m.fastIn r.first r.pages

/-- The charge of a context in a tier (R169). -/
def Mem.charge (m : Mem) (ctx : Nat) (cap : Bool) : Nat :=
  ((m.live.filter fun e => e.2.ctx == ctx).map fun e => m.pagesIn e.2 cap).sum

/-- At power-on context 0 holds both tiers and every other context nothing (R169). -/
def grantReset (k : Nat) : Nat := if k = 0 then 262144 else if k = 1 then 786432 else 0
/-- The grant of a context in a tier. -/
def Mem.grant (m : Mem) (ctx : Nat) (cap : Bool) : Nat := tget grantReset m.grants (2 * ctx + b2n cap)
/-- Pages a context may still bring into a tier (R170). -/
def Mem.room (m : Mem) (ctx : Nat) (cap : Bool) : Nat := m.grant ctx cap - m.charge ctx cap

/-- Pages of pinned regions of a hint (2 fast, bank-aligned ones included; 3 capacity) other than region `skip`. -/
def Mem.pinned (m : Mem) (hint : Nat) (skip : Nat) : Nat :=
  ((m.live.filter fun e => e.2.hint == hint && e.1 != skip).map fun e => e.2.pages).sum

/-- An unlisted ford is not configured. -/
def fordReset (_ : Nat) : Ford := Ford.empty
def Mem.ford (m : Mem) (f : Nat) : Ford := tget fordReset m.fords f

/-- The layers of a ford's window, in the order they are brought in (R172). -/
def Ford.window (f : Ford) : List Nat :=
  if !f.stepped then []
  else if f.dir then (List.range (min f.w (f.layer + 1))).map fun i => f.layer - i
  else (List.range (min f.w (f.layers.length - f.layer))).map fun i => f.layer + i
/-- The pages of a layer. -/
def Ford.layerPages (f : Ford) (l : Nat) : List Nat :=
  match f.layers[l]? with
  | some p => (List.range p.2).map (p.1 + ·)
  | none => []
/-- Page x lies in the window of ford f. -/
def Ford.holds (f : Ford) (x : Nat) : Bool := f.window.any fun l => match f.layers[l]? with
  | some p => decide (p.1 ≤ x) && decide (x < p.1 + p.2)
  | none => false
/-- Page x lies in some ford's window. -/
def Mem.inFord (m : Mem) (x : Nat) : Bool := (List.range 8).any fun f => (m.ford f).holds x

/-- The victim class of a page (Table 7.4); none: never a victim (R164). -/
def Mem.victimClass (m : Mem) (x : Nat) : Option Nat :=
  if m.moving x || m.inFord x then none
  else match m.regionOf x with
    | none => some 1
    | some (_, r) =>
      if r.kind ≠ 0 then none
      else match r.hint with
        | 0 => some 3
        | 1 => some 2
        | 4 => some 2
        | _ => none

/-- A page's move into the other tier stays within its context's toll (R170). -/
def Mem.tollAllows (m : Mem) (x : Nat) (cap : Bool) : Bool :=
  match m.regionOf x with
  | none => true
  | some (_, r) => decide (0 < m.room r.ctx cap)

/-- The victim among the pages of a tier (R164): lowest class, lowest access counter, lowest index. `ok` limits it. -/
@[irreducible] def Mem.victim (m : Mem) (cap : Bool) (ok : Nat → Nat → Bool) : Option Nat :=
  (((List.range' 0 allPages).filter fun x => m.inCap x == cap).foldl (fun (b : Option (Nat × Nat × Nat)) x =>
    match m.victimClass x with
    | none => b
    | some c =>
      if !ok c x then b
      else
        let a := tget zeroN m.access x
        match b with
        | none => some (c, a, x)
        | some y => if c < y.1 ∨ (c = y.1 ∧ a < y.2.1) then some (c, a, x) else b) none).map (·.2.2)

/-- Exchange the frames of two pages. -/
def Mem.swapFrames (m : Mem) (x v : Nat) : Mem :=
  let fx := m.frame x
  let fv := m.frame v
  { m with frameOf := tput idN (tput idN m.frameOf x fv) v fx, pageIn := tput idN (tput idN m.pageIn fv x) fx v }

/-! Copies (R166, R182): corrected words are written corrected, uncorrectable ones poisoned. -/

/-- The 32-byte units of a codeword, numbered by local offset ÷ 32: those of its low and its high half. -/
def unitsOf (w k : Nat) (lo hi : Bool) : List Nat :=
  if k = 64 then (if lo then [w / 32] else []) ++ (if hi then [w / 32 + 1] else []) else [w / 32]

/-- One codeword of a copy read: the units that arrive poisoned. A word of a failed pseudo-channel or package is
uncorrectable (R390). -/
def State.copyWord (w k : Nat) (s : State) : List Nat × State :=
  if s.pcFailed (s.mem.loc w) then (unitsOf w k true true, s.dropWrite (s.mem.loc w) 2)
  else
    let s := s.mergeRead 2 w k
    match s.mem.decode w k with
    | .poisoned lo hi => (unitsOf w k lo hi, s)
    | _ => ([], s)

/-- The codewords of [a, a + n) in a failed pseudo-channel or package. -/
def State.failedWords (a n : Nat) (s : State) : List Nat :=
  if (s.err.pcs.any fun e => e.2.svc.failed) || s.err.pkgFailed.any fun e => e.2 then
    ((s.mem.words a n).map (·.1)).filter fun w => s.pcFailed (s.mem.loc w)
  else []

/-- Copy the codewords of [a, a + n) that hold an error; the answer is the poisoned units. -/
def State.copyErrs (a n : Nat) (s : State) : List Nat × State :=
  let hit := s.mem.errs.filter fun e => decide (a / 32 ≤ e.1) && decide (e.1 < (a + n) / 32)
  (hit.map (fun e : Nat × List (Nat × Byte) => 32 * e.1) ++ s.failedWords a n).eraseDups.foldl (fun (acc : List Nat × State) w =>
    let x := acc.2.copyWord w (acc.2.mem.wordSize a)
    (acc.1 ++ x.1, x.2)) ([], s)

/-- Mark units poisoned, as the page's present tier codes them (R373). -/
def State.poisonUnits (us : List Nat) (s : State) : State :=
  { s with mem := us.foldl (fun m u => m.poison (u * 32) 32) s.mem }

/-- A page is copied in a move: it lies in a region and has been written (R166). -/
def Mem.copied (m : Mem) (x : Nat) : Bool := (m.regionOf x).isSome && !tget noFlag m.zero x

/-- The bytes of a page that a copy moves: a packed page's coded extent only (R180). -/
def Mem.copyBytes (m : Mem) (x : Nat) : Nat :=
  if tget noFlag m.packed x then
    match m.regionOf x with
    | some (_, r) =>
      let g := m.blockExtent r x 511
      min pageBytes (g.1 + g.2 - x * pageBytes)
    | none => pageBytes
  else pageBytes

/-- Read a page for a copy: the units that arrive poisoned. -/
def State.copyPage (x : Nat) (s : State) : List Nat × State := s.copyErrs (x * pageBytes) (s.mem.copyBytes x)

/-- The error patterns in a page's frame, by offset ÷ 32. -/
def Mem.frameErrs (m : Mem) (x : Nat) : List (Nat × List (Nat × Byte)) :=
  (m.errs.filter fun e => decide (x * 65536 ≤ e.1) && decide (e.1 < (x + 1) * 65536)).map fun e => (e.1 - x * 65536, e.2)
/-- Give a page's frame these error patterns and no others. -/
def Mem.putErrs (m : Mem) (x : Nat) (l : List (Nat × List (Nat × Byte))) : Mem :=
  { m with errs := l.foldl (fun t e => tput noPat t (x * 65536 + e.1) e.2) (tclear (x * 65536) ((x + 1) * 65536) m.errs) }

/-- A page has been copied into its frame: its poisoned units; words of a failed pseudo-channel or package are not
written. -/
def State.arriveAt (x : Nat) (us : List Nat) (s : State) : State :=
  (s.failedWords (x * pageBytes) pageBytes).foldl (fun s w => s.dropWrite (s.mem.loc w) 2) (s.poisonUnits us)

/-- Exchange the frames of two pages (R166). A page that is copied (`cx`, `cv`) takes its values along; where one is not
copied, its new frame stays as it is. TIR_MIGRATIONS counts the region pages moved. -/
def State.exchange (cx cv : Bool) (x v : Nat) (s : State) : State :=
  let a := if cx then s.copyPage x else ([], s)
  let b := if cv then a.2.copyPage v else ([], a.2)
  let m := b.2.mem
  let s := { b.2 with mem := ((m.swapFrames x v).putErrs x (if cx then [] else m.frameErrs v)).putErrs v (if cv then [] else m.frameErrs x) }
  let s := if cx then s.arriveAt x a.1 else s
  let s := if cv then s.arriveAt v b.1 else s
  s.bump64 0x800030 (b2n (s.mem.regionOf x).isSome + b2n (s.mem.regionOf v).isSome)

/-- Exchange two pages with their contents. -/
def State.swapPages (x v : Nat) (s : State) : State := s.exchange (s.mem.copied x) (s.mem.copied v) x v

/-- The copies of an exchange wait for a bank hold or a pseudo-channel out of service (R197, R390). -/
def State.moveWaits (x v : Nat) (s : State) : Bool :=
  (s.mem.copied x || s.mem.copied v) &&
  (s.accessWaits (x * pageBytes) pageBytes || s.accessWaits (v * pageBytes) pageBytes)

/-- QUOTA_EXCEEDED (Table 7.10). -/
def quotaFail (cap : Bool) (cause short : Nat) : Fail := ⟨stQuota, b2n cap + cause * 2 + min short 0xFFFFFF * 256⟩

/-- How bringing pages into a tier ends. -/
inductive Brought where
  | done
  | wait
  | fail (f : Fail)
  deriving DecidableEq, Repr

/-- Bring pages into a tier in order, each for the next victim (R164), whose own move its context's toll must allow
(R170). A failure counts the pages that are still short. -/
def State.bringIn (cap : Bool) (ok : Nat → Bool) : List Nat → State → Brought × State
  | [], s => (.done, s)
  | x :: xs, s =>
    if s.mem.inCap x == cap then s.bringIn cap ok xs
    else
      let short := ((x :: xs).filter fun y => s.mem.inCap y != cap).length
      match s.mem.victim cap (fun _ v => ok v) with
      | none => (.fail (quotaFail cap 1 short), s)
      | some v =>
        if !s.mem.tollAllows v (!cap) then (.fail (quotaFail (!cap) 0 short), s.evTir 0)
        else if s.moveWaits x v then (.wait, s)
        else (s.swapPages x v).bringIn cap ok xs

/-! Regions (R156 to R161, R187). -/

/-- BAD_PARAM of a command that only channel 0 may send (Table 2.6). -/
def chanFail : Fail := ⟨stBadParam, 0xF2⟩

/-- Step 3 of R102 for TT_REGION_SET (R157). -/
def State.regionFields (s : State) (q : Nat) (c : Cmd) : Except Fail Unit :=
  let d := c.p 2
  let t := c.p 3
  let kind := fld d 22 21
  let hint := fld d 25 23
  let comp := bitAt d 28
  let conv := fld t 9 8
  let stored := if conv = 1 ∨ conv = 2 then fmtBad (fld t 7 0 + 0x3F800000 * 2 ^ 32) else none
  firstErr
    [ bitCheck 0 [lowBit (c.p 0) (bmask 63 12), bitIf ((tget noneD s.mem.regions (fld (c.p 0) 11 0)).isSome) 0],
      bitCheck 1 [lowBit (c.p 1) (bmask 20 0), lowBit (c.p 1) (bmask 63 41), if kind = 1 then lowBit (c.p 1) (bmask 24 21) else none],
      bitCheck 2 [bitIf (fld d 20 0 == 0 || decide (allPages < fld d 20 0)) 0, if kind = 1 then lowBit d (bmask 3 0) else none,
        bitIf (kind == 3) 21, bitIf (decide (4 < hint) || (kind == 1 && hint != 2) || (kind == 2 && hint != 2 && hint != 3)) 23,
        bitIf (comp && kind != 0) 28, lowBit d (bmask 63 29)],
      failIf (kind == 2 && s.chan q != 0) chanFail,
      bitCheck 3 [stored, if conv = 0 then lowBit t (bmask 7 0) else none, bitIf (conv == 3) 8,
        bitIf (bitAt t 10 && (conv == 0 || fld t 3 0 == 11 || fld t 3 0 == 12)) 10, bitIf (bitAt t 11 && conv != 0) 11,
        lowBit t (bmask 63 24)],
      if comp then bitCheck 4 [lowBit (c.p 4) (bmask 10 0), lowBit (c.p 4) (bmask 63 41)] else .ok () ]

/-- The addresses of TT_REGION_SET (R157). -/
def State.regionAddrs (s : State) (q : Nat) (c : Cmd) : Except Fail Unit :=
  let base := c.p 1
  let pages := fld (c.p 2) 20 0
  let idx := fld (c.p 4) 40 0
  let idxOk := match s.mem.regionOf (idx / pageBytes) with
    | some (_, r) => !r.compress && r.ctx == s.ctx q && decide (idx + pages * 2048 ≤ (r.first + r.pages) * pageBytes)
    | none => false
  firstErr
    [ failIf (!inRange base (pages * pageBytes)) (badAddr 1 3),
      failIf (s.mem.live.any fun e => decide (base / pageBytes < e.2.first + e.2.pages) && decide (e.2.first < base / pageBytes + pages)) (badAddr 1 2),
      failIf (bitAt (c.p 2) 28 && !idxOk) (badAddr 4 4) ]

/-- The frames of a row: the 16 fast frames whose physical addresses carry its row bits (R161). -/
def rowFrames (row : Nat) : List Nat := (List.range 16).map (16 * row + ·)
/-- The contexts whose pages a unit of pages from `first` on sends to the capacity tier by taking a row. -/
def Mem.displaced (m : Mem) (first row : Nat) : List Nat :=
  (List.range 16).filterMap fun i =>
    let v := m.pageAt (16 * row + i)
    if m.inCap (first + i) && v != first + i then (m.regionOf v).map fun e => e.2.ctx else none
/-- A row is free for the 16 pages from `first` on: it holds no page that may not move, and the tolls of those that go to
the capacity tier allow it (R170). -/
def State.rowFree (s : State) (first row : Nat) (used : List Nat) : Bool :=
  let out := s.mem.displaced first row
  !used.contains row && (out.all fun c => decide (out.count c ≤ s.mem.room c true)) &&
  (rowFrames row).all fun f => !s.mem.moving (s.mem.pageAt f) && match s.mem.regionOf (s.mem.pageAt f) with
    | some (_, r) => r.hint != 2 && !s.mem.inFord (s.mem.pageAt f)
    | none => true
/-- Rows in use by live bank-aligned regions. -/
def Mem.usedRows (m : Mem) : List Nat := m.live.flatMap fun e => e.2.rows
/-- The highest free row at or below i − 1. -/
def State.highRow (s : State) (first : Nat) (used : List Nat) : Nat → Option Nat
  | 0 => none
  | i + 1 => if s.rowFree first i used then some i else s.highRow first used i
/-- Put the 16 pages of a unit into the frames of its row. -/
def State.takeRow (s : State) (first row : Nat) : State :=
  (List.range 16).foldl (fun s i =>
    let x := first + i
    let v := s.mem.pageAt (16 * row + i)
    if v = x then s else s.swapPages x v) s
/-- Taking a row waits, as the copies it needs would (R197, R390). -/
def State.rowWaits (s : State) (first row : Nat) : Bool :=
  (List.range 16).any fun i => s.moveWaits (first + i) (s.mem.pageAt (16 * row + i))
/-- Give each unit of 16 pages its row, highest first (R161): the rows so far, and how it ends. -/
def State.giveRows (s : State) (first : Nat) : Nat → List Nat → Brought × List Nat × State
  | 0, used => (.done, used, s)
  | n + 1, used =>
    match s.highRow first (used ++ s.mem.usedRows) 16384 with
    | none => (.fail (quotaFail false 1 ((n + 1) * 16)), used, s)
    | some row => if s.rowWaits first row then (.wait, used, s) else (s.takeRow first row).giveRows (first + 16) n (used ++ [row])

/-- What a placement gives whose moves have ended so. -/
def Brought.placed (b : Brought) (rows : List Nat) (s : State) : (Except (Option Fail) (List Nat)) × State :=
  match b with
  | .done => (.ok rows, s)
  | .wait => (.error none, s)
  | .fail f => (.error (some f), s)

/-- Place the pages of a region about to be created or re-hinted (R159, R168, R170): rows of a bank-aligned region, or the
failure, or none when a copy must wait. `skip` is the region itself when it exists. -/
def State.placeRegion (s : State) (ctx first pages kind hint skip : Nat) : (Except (Option Fail) (List Nat)) × State :=
  let inside (x : Nat) : Bool := decide (first ≤ x) && decide (x < first + pages)
  let xs := (List.range pages).map (first + ·)
  if hint = 2 ∨ hint = 3 then
    let cap := hint == 3
    let excess := s.mem.pinned hint skip + pages - tierFrames cap
    let here := if skip < 4096 then (if cap then pages - s.mem.fastIn first pages else s.mem.fastIn first pages) else 0
    if 0 < excess then (.error (some (quotaFail cap 1 excess)), s.evTir 3)
    else if s.mem.room ctx cap + here < pages then (.error (some (quotaFail cap 0 (pages - (s.mem.room ctx cap + here)))), s.evTir 0)
    else if kind = 1 then
      let r := s.giveRows first (pages / 16) []
      r.1.placed r.2.1 r.2.2
    else
      let r := s.bringIn cap (fun v => !inside v) xs
      r.1.placed [] r.2
  else if skip < 4096 then (.ok [], s)
  else
    let nf := s.mem.fastIn first pages
    let rf := s.mem.room ctx false
    let rc := s.mem.room ctx true
    if nf ≤ rf ∧ pages - nf ≤ rc then (.ok [], s)
    else if rf + rc < pages then (.error (some (quotaFail false 0 (pages - rf - rc))), s.evTir 0)
    else
      let fast := xs.filter fun x => !s.mem.inCap x
      let caps := xs.filter fun x => s.mem.inCap x
      let down := s.bringIn true (fun v => !inside v) (fast.drop rf)
      match down.1 with
      | .done =>
        let up := down.2.bringIn false (fun v => !inside v) (caps.drop rc)
        up.1.placed [] up.2
      | e => e.placed [] down.2

/-- Enter a region: its pages read as zero until written (R156). -/
def State.enterRegion (s : State) (num : Nat) (r : Region) : State :=
  let xs := (List.range r.pages).map (r.first + ·)
  { s with mem := { s.mem with
      regions := tput noneD s.mem.regions num (some r),
      zero := xs.foldl (fun t x => tput noFlag t x true) s.mem.zero,
      packed := tclear r.first (r.first + r.pages) s.mem.packed,
      cleanFrom := tclear r.first (r.first + r.pages) s.mem.cleanFrom } }

/-- The end of TT_REGION_SET: the placement waits or has failed, or the region enters the table with its rows. -/
def State.regionEnd (q : Nat) (c : Cmd) (ctx : Nat) (r : (Except (Option Fail) (List Nat)) × State) : State :=
  match r.1 with
  | .error none => r.2
  | .error (some f) => r.2.failCmd q f
  | .ok rows => (r.2.enterRegion (fld (c.p 0) 11 0) ⟨c.p 1, c.p 2, c.p 3, c.p 4, ctx, rows, false⟩).endCmd q stOK 0

/-- Place the region's pages and enter it (R157, R159). -/
def State.regionPlace (s : State) (q : Nat) (c : Cmd) : State :=
  State.regionEnd q c (s.ctx q)
    (s.placeRegion (s.ctx q) (c.p 1 / pageBytes) (fld (c.p 2) 20 0) (fld (c.p 2) 22 21) (fld (c.p 2) 25 23) 4096)

/-- TT_REGION_SET. -/
def State.regionSet (s : State) (q : Nat) : State :=
  match s.running q 0x4010 with
  | none => s
  | some c =>
    match s.regionFields q c with
    | .error f => s.failCmd q f
    | .ok () => match s.regionAddrs q c with
      | .error f => s.failCmd q f
      | .ok () => s.regionPlace q c

/-- The region a command names, when its context may (R187). -/
def State.namedRegion (s : State) (q num : Nat) : Option Region :=
  match tget noneD s.mem.regions num with
  | some r => if s.ctx q = 0 ∨ r.ctx = s.ctx q then some r else none
  | none => none

/-- Pages leave their region: nothing of them is kept (R156). -/
def Mem.dropPages (m : Mem) (x n : Nat) : Mem :=
  { m with zero := tclear x (x + n) m.zero, packed := tclear x (x + n) m.packed, cleanFrom := tclear x (x + n) m.cleanFrom,
           cells := tclear (x * pageBytes) ((x + n) * pageBytes) m.cells,
           errs := tclear (x * pageBytes / 32) ((x + n) * pageBytes / 32) m.errs }
/-- Moves that a condition names are given up: each page stays in its frame (R167). -/
def Mem.dropMoves (m : Mem) (p : Move → Bool) : Mem :=
  let l := m.moves.filter fun v => !p v
  { m with moves := l, waits := m.waits.filter fun e => l.any fun v => v.page == e.2 || v.victim == e.2 }
/-- The fords lose the layers that have a page in [x, x + n) (R187). -/
def Mem.clearLayers (m : Mem) (x n : Nat) : Mem :=
  { m with fords := m.fords.map fun e => (e.1, { e.2 with
      cleared := (List.range e.2.layers.length).filter fun l =>
        e.2.cleared.contains l || (e.2.layers.getD l (0, 0) |> fun p => decide (p.1 < x + n) && decide (x < p.1 + p.2)) }) }

/-- TT_REGION_CLEAR (R156, R187). -/
def State.regionClear (s : State) (q : Nat) : State :=
  match s.running q 0x4011 with
  | none => s
  | some c =>
    match lowBit (c.p 0) (bmask 63 12), s.namedRegion q (fld (c.p 0) 11 0) with
    | some b, _ => s.failCmd q (badParam 0 b)
    | none, none => s.failCmd q (badParam 0 0)
    | none, some r =>
      let m := { s.mem with regions := tput noneD s.mem.regions (fld (c.p 0) 11 0) none }
      let m := (m.tamper r.base (r.pages * pageBytes)).dropPages r.first r.pages
      let m := m.dropMoves fun v => decide (r.first ≤ v.page) && decide (v.page < r.first + r.pages)
      ({ s with mem := m.clearLayers r.first r.pages }).endCmd q stOK 0

/-- The descriptor word with another hint. -/
def withHint (desc hint : Nat) : Nat := desc - fld desc 25 23 * 2 ^ 23 + hint * 2 ^ 23

/-- TT_REGION_HINT (R159, R187, R189). -/
def State.regionHint (s : State) (q : Nat) : State :=
  match s.running q 0x4012 with
  | none => s
  | some c =>
    let num := fld (c.p 0) 11 0
    let hint := fld (c.p 1) 2 0
    match firstErr [reservedCheck c 0 (bmask 63 12),
        match s.namedRegion q num with
          | some r => failIf (r.kind != 0) (badParam 0 0)
          | none => .error (badParam 0 0),
        bitCheck 1 [bitIf (decide (4 < hint)) 0, lowBit (c.p 1) (bmask 63 3)]] with
    | .error f => s.failCmd q f
    | .ok () => match s.namedRegion q num with
      | none => s
      | some r =>
        let p := s.placeRegion r.ctx r.first r.pages 0 hint num
        match p.1 with
        | .error none => p.2
        | .error (some f) => p.2.failCmd q f
        | .ok _ => ({ p.2 with mem := { p.2.mem with
            regions := tput noneD p.2.mem.regions num (some { r with desc := withHint r.desc hint }) } }).endCmd q stOK 0

/-! Tolls (R169, R170). -/

/-- TT_TOLL_SET. -/
def State.tollSet (s : State) (q : Nat) : State :=
  match s.running q 0x4028 with
  | none => s
  | some c =>
    let ctx := fld (c.p 0) 11 0
    let cap := bitAt (c.p 0) 16
    let g := fld (c.p 1) 19 0
    match firstErr [reservedCheck c 0 (bmask 15 12 + bmask 63 17), bitCheck 1 [bitIf (g == 0) 0, lowBit (c.p 1) (bmask 63 20)],
        failIf (s.chan q != 0) chanFail] with
    | .error f => s.failCmd q f
    | .ok () =>
      let ch := s.mem.charge ctx cap
      if g < ch then s.failCmd q (quotaFail cap 0 (ch - g))
      else ({ s with mem := { s.mem with grants := tput grantReset s.mem.grants (2 * ctx + b2n cap) g } }).endCmd q stOK 0

/-- TT_TOLL_CLOSE. -/
def State.tollClose (s : State) (q : Nat) : State :=
  match s.running q 0x4029 with
  | none => s
  | some c =>
    let ctx := fld (c.p 0) 11 0
    let cap := bitAt (c.p 0) 16
    match firstErr [reservedCheck c 0 (bmask 15 12 + bmask 63 17), failIf (s.chan q != 0) chanFail] with
    | .error f => s.failCmd q f
    | .ok () =>
      let ch := s.mem.charge ctx cap
      if 0 < ch then s.failCmd q (quotaFail cap 0 ch)
      else ({ s with mem := { s.mem with grants := tput grantReset s.mem.grants (2 * ctx + b2n cap) 0 } }).endCmd q stOK 0

/-! TT_COPY and TT_FILL (R186). -/

/-- An unlisted queue has made no progress. -/
def progReset (_ : Nat) : Prog := ⟨0, 0⟩
def State.prog (s : State) (q : Nat) : Prog := tget progReset s.mem.prog q
def State.setProg (s : State) (q : Nat) (p : Prog) : State := { s with mem := { s.mem with prog := tput progReset s.mem.prog q p } }

/-- The failure of a tier/transfer read (Table 7.10): word of the source address, 4 KiB block of the transfer. -/
def xferFail (o : Opd) (word blk : Nat) : Fail :=
  ⟨if o == .uncorrectable then stUncorrectable else stPoisoned, word + blk % 2 ^ 24 * 256⟩

/-- The word of a transfer's read from outside, with the DETAIL of its poisoned data. -/
def xferWord (word blk : Nat) : Nat := wordWith word (word + blk % 2 ^ 24 * 256)

/-- The size and address checks of a transfer; `words` are its address words. -/
def State.xferCheck (s : State) (q : Nat) (c : Cmd) (words : List Nat) : Except Fail Unit :=
  match bitCheck 0 [lowBit (c.p 0) (bmask 2 0), lowBit (c.p 0) (bmask 63 40)] with
  | .error f => .error f
  | .ok () => if fld (c.p 0) 39 0 = 0 then .ok () else firstErr (words.map fun i => s.checkAddr q (c.p i) (fld (c.p 0) 39 0) i 8)

/-- Copy block by block from where the command has come; `undef`: source and destination overlap otherwise than
exactly. -/
def State.copyBlocks (undef : Bool) (q : Nat) (c : Cmd) : Nat → State → State
  | 0, s => s
  | f + 1, s =>
    let size := fld (c.p 0) 39 0
    let k := (s.prog q).done
    let n := min 4096 (size - k * 4096)
    if n = 0 then s.endCmd q stOK 0
    else if s.opWaits (c.p 2 + k * 4096) n then s.holdWrite q (c.p 2 + k * 4096) n
    else
      let r := s.opRead q (c.p 1 + k * 4096) n (xferWord 1 k)
      match r.1 with
      | .bytes bs =>
        let g := if undef then r.2.freeBytes (c.p 2 + k * 4096) n else (bs, r.2)
        let s := if c.p 1 = c.p 2 then g.2 else g.2.opWrite q (c.p 2 + k * 4096) 2 g.1
        State.copyBlocks undef q c f (s.setProg q ⟨k + 1, 0⟩)
      | .wait => r.2
      | o => r.2.failCmd q (xferFail o 1 k)

/-- TT_COPY. -/
def State.ttCopy (s : State) (q : Nat) : State :=
  match s.running q 0x4001 with
  | none => s
  | some c =>
    match s.xferCheck q c [1, 2] with
    | .error f => (s.noteBme f).failCmd q f
    | .ok () =>
      let size := fld (c.p 0) 39 0
      let undef := c.p 1 != c.p 2 && decide (c.p 1 < c.p 2 + size) && decide (c.p 2 < c.p 1 + size)
      s.copyBlocks undef q c (size / 4096 + 2)

/-- Fill block by block (R186). -/
def State.fillBlocks (q : Nat) (c : Cmd) : Nat → State → State
  | 0, s => s
  | f + 1, s =>
    let size := fld (c.p 0) 39 0
    let k := (s.prog q).done
    let n := min 4096 (size - k * 4096)
    if n = 0 then s.endCmd q stOK 0
    else if s.opWaits (c.p 1 + k * 4096) n then s.holdWrite q (c.p 1 + k * 4096) n
    else
      let bs := (List.replicate (n / 8) (leBytes 8 (c.p 2))).flatten
      State.fillBlocks q c f ((s.opWrite q (c.p 1 + k * 4096) 1 bs).setProg q ⟨k + 1, 0⟩)

/-- TT_FILL. -/
def State.ttFill (s : State) (q : Nat) : State :=
  match s.running q 0x4002 with
  | none => s
  | some c =>
    match s.xferCheck q c [1] with
    | .error f => (s.noteBme f).failCmd q f
    | .ok () => s.fillBlocks q c (fld (c.p 0) 39 0 / 4096 + 2)

/-! TT_PLACE (R188). -/

/-- A page that TT_PLACE does not skip for what it is: in the other tier, not pinned, bank-aligned or spare, in no ford's
window. -/
def State.placeable (s : State) (x : Nat) (cap : Bool) : Bool :=
  s.mem.inCap x != cap && !s.mem.inFord x && match s.mem.regionOf x with
    | none => true
    | some (_, r) => r.kind == 0 && r.hint != 2 && r.hint != 3

/-- Place one page: skipped, moved for its victim when both tolls allow it (R170), or none: its copy waits. -/
def State.placeOne (s : State) (x : Nat) (cap : Bool) : Option Bool × State :=
  if !s.placeable x cap then (some false, s)
  else match s.mem.victim cap fun _ v => v != x with
    | none => (some false, s)
    | some v =>
      if !(s.mem.tollAllows x cap && s.mem.tollAllows v (!cap)) then (some false, s)
      else if s.moveWaits x v then (none, s)
      else (some true, s.swapPages x v)

/-- Place pages from where the command has come, counting those skipped. -/
def State.placePages (q first : Nat) (cap : Bool) (n : Nat) : Nat → State → State
  | 0, s => s
  | f + 1, s =>
    let p := s.prog q
    if n ≤ p.done then (if p.skipped = 0 then s.endCmd q stOK 0 else s.endCmd q stNoted p.skipped)
    else
      let x := s.placeOne (first + p.done) cap
      match x.1 with
      | none => x.2
      | some m => State.placePages q first cap n f (x.2.setProg q ⟨p.done + 1, if m then p.skipped else p.skipped + 1⟩)

/-- Every page of a range lies in a region of the context or a SHARED one, or, for context 0, anywhere: TT_PLACE skips
spare pages (R188) and refuses the pages of others (R158). -/
def Mem.placeRange (m : Mem) (ctx x n : Nat) : Bool :=
  (List.range n).all fun i => match m.regionOf (x + i) with
    | some (_, r) => r.ctx == ctx || r.shared || ctx == 0
    | none => ctx == 0

/-- TT_PLACE. -/
def State.ttPlace (s : State) (q : Nat) : State :=
  match s.running q 0x4020 with
  | none => s
  | some c =>
    let n := fld (c.p 1) 20 0
    match reservedCheck c 1 (bmask 31 21 + bmask 63 33) with
    | .error f => s.failCmd q f
    | .ok () =>
      if n = 0 then s.endCmd q stOK 0
      else match firstErr [failIf (c.p 0 / 2 ^ 62 != 0 || malformedAddr (c.p 0) || c.p 0 % pageBytes != 0) (badAddr 0 0),
          failIf (!inRange (c.p 0) (n * pageBytes)) (badAddr 0 3),
          failIf (!s.mem.placeRange (s.ctx q) (c.p 0 / pageBytes) n) (badAddr 0 1)] with
        | .error f => s.failCmd q f
        | .ok () => s.placePages q (c.p 0 / pageBytes) (bitAt (c.p 1) 32) n (n + 1)

/-! Background moves (R163 to R166). -/

/-- A background move of page x into the fast tier, as its hint allows (Table 7.3): the victim. -/
def State.bgVictim (s : State) (x : Nat) : Option Nat :=
  let a := tget zeroN s.mem.access x
  let hyst := s.rf 0x800010 15 8
  match s.mem.regionOf x with
  | none => none
  | some (_, r) =>
    if r.kind ≠ 0 ∨ !s.mem.inCap x ∨ s.mem.moving x then none
    else if r.hint = 0 then
      s.mem.victim false fun c v => decide (c ≤ 2) || decide (tget zeroN s.mem.access v + hyst ≤ a)
    else if (r.hint = 1 ∨ (r.hint = 4 ∧ !s.mem.inFord x)) ∧ s.rf 0x800010 7 0 ≤ a then
      s.mem.victim false fun c _ => c == 1
    else none

/-- The moves already counted in this millisecond (R163). -/
def State.movesNow (s : State) : Nat := if s.mem.moveMs = s.pwr.time / 1000000 then s.mem.moved else 0

/-- BACKGROUND_MOVE_START. -/
def State.bgStart (s : State) (x : Nat) : State :=
  if !s.rbit 0x800000 0 || s.pwr.state != 0 || decide (s.rd 0x800008 ≤ s.movesNow) then s
  else match s.bgVictim x with
    | none => s
    | some v =>
      if s.mem.tollAllows x false && s.mem.tollAllows v true then
        { s with mem := { s.mem with moves := s.mem.moves ++ [⟨x, v, .background⟩], moveMs := s.pwr.time / 1000000, moved := s.movesNow + 1 } }
      else s.evTir 0

/-- ACCESS_COUNTER_HALVING (R165). -/
def State.halve (s : State) : State :=
  if s.pwr.time < s.mem.epochAt + s.rd 0x80000C * 10000 then s
  else { s with mem := { s.mem with access := s.mem.access.filterMap (fun e => if e.2 / 2 = 0 then none else some (e.1, e.2 / 2)),
                                    epochAt := s.pwr.time } }

/-! Fords (R171 to R174). -/

def State.setFord (s : State) (f : Nat) (v : Ford) : State := { s with mem := { s.mem with fords := tput fordReset s.mem.fords f v } }

/-- The layer table's entries as read. -/
def layerOf (w : Nat) : Nat × Nat := (fld w 19 0, fld w 40 20)

/-- Two layers share a page. -/
def layersMeet : List (Nat × Nat) → Bool
  | [] => false
  | p :: l => (l.any fun r => decide (p.1 < r.1 + r.2) && decide (r.1 < p.1 + p.2)) || layersMeet l

/-- Every page of a layer lies in a stream region of the context. -/
def State.layerOk (s : State) (ctx : Nat) (p : Nat × Nat) : Bool :=
  decide (p.1 + p.2 ≤ allPages) && (List.range p.2).all fun i => match s.mem.regionOf (p.1 + i) with
    | some (_, r) => r.hint == 4 && r.ctx == ctx
    | none => false

/-- Read a table 4 KiB at a time from block k on: its bytes, or what ends the read, and the block (Table 7.10). -/
def State.readTable (s : State) (q a word : Nat) : Nat → Nat → Nat → (Opd × Nat) × State
  | 0, k, _ => ((.bytes [], k), s)
  | f + 1, k, n =>
    let r := s.opRead q (a + 4096 * k) (min 4096 n) (xferWord word k)
    match r.1 with
    | .bytes bs =>
      if n ≤ 4096 then ((.bytes bs, k), r.2)
      else
        let t := r.2.readTable q a word f (k + 1) (n - 4096)
        match t.1.1 with
        | .bytes cs => ((.bytes (bs ++ cs), k), t.2)
        | _ => t
    | o => ((o, k), r.2)

/-- TT_FORD_SET. -/
def State.fordSet (s : State) (q : Nat) : State :=
  match s.running q 0x4030 with
  | none => s
  | some c =>
    let f := fld (c.p 0) 2 0
    let w := fld (c.p 0) 14 8
    let n := fld (c.p 0) 26 16
    match bitCheck 0 [bitIf (s.mem.ford f).active 0, lowBit (c.p 0) (bmask 7 3), bitIf (w == 0 || decide (64 < w)) 8,
        lowBit (c.p 0) (bmask 15 15), bitIf (n == 0) 16, lowBit (c.p 0) (bmask 63 27)] with
    | .error e => s.failCmd q e
    | .ok () => match s.checkAddr q (c.p 1) (8 * n) 1 8 with
      | .error e => (s.noteBme e).failCmd q e
      | .ok () =>
        let r := s.readTable q (c.p 1) 1 5 0 (8 * n)
        match r.1 with
        | (.wait, _) => r.2
        | (.bytes bs, _) =>
          let ws := wordsOf n bs
          let ls := ws.map layerOf
          if ws.any (fun x => fld x 63 41 != 0 || fld x 40 20 == 0) || layersMeet ls then r.2.failCmd q (badParam 1 0)
          else if ls.any fun p => !r.2.layerOk (s.ctx q) p then r.2.failCmd q (badAddr 1 5)
          else (r.2.setFord f ⟨true, s.ctx q, w, ls, false, 0, false, [], false, []⟩).endCmd q stOK 0
        | (o, k) => r.2.failCmd q (xferFail o 1 k)

/-- The page outside every region in the capacity frame that a clean page left (R173). -/
def Mem.cleanPage (m : Mem) (x : Nat) : Option Nat :=
  match tget noneD m.cleanFrom x with
  | some f => if (m.regionOf (m.pageAt f)).isNone then some (m.pageAt f) else none
  | none => none

/-- Page x lies in a stream region. -/
def Mem.streams (m : Mem) (x : Nat) : Bool := (m.regionOf x).any fun e => e.2.hint == 4

/-- Return a page to the capacity tier (R173): to the frame it left, or by a copy into a victim's. -/
def State.fordReturn (s : State) (x : Nat) : State :=
  if s.mem.inCap x || s.mem.moving x || !s.mem.streams x then s
  else if !s.mem.tollAllows x true then s.evTir 0
  else match s.mem.cleanPage x with
    | some v => s.exchange false false x v
    | none => match s.mem.victim true fun _ _ => true with
      | some v => if s.mem.tollAllows v false then s.swapPages x v else s.evTir 0
      | none => s

/-- The first page of a layer that is not in the fast tier. -/
def State.nextPage (s : State) (f : Ford) (l : Nat) : Option Nat := (f.layerPages l).find? fun x => s.mem.inCap x
/-- A layer is resident: all of it in the fast tier. -/
def State.resident (s : State) (f : Ford) (l : Nat) : Bool := (s.nextPage f l).isNone

/-- Start the move of a page of ford f, or the tier and cause for which it cannot be made (R170, R174). -/
def State.fordMove (s : State) (f x : Nat) : Except (Bool × Nat) State :=
  if !s.mem.tollAllows x false then .error (false, 0)
  else match s.mem.victim false fun _ _ => true with
    | none => .error (false, 1)
    | some v =>
      if !s.mem.tollAllows v true then .error (true, 0)
      else .ok { s with mem := { s.mem with moves := s.mem.moves ++ [⟨x, v, .ford f⟩] } }

/-- A layer's pages are still what TT_FORD_SET found them to be: in stream regions of the context, none cleared since
(R187). -/
def State.layerKept (s : State) (f : Ford) (l : Nat) : Bool :=
  !f.cleared.contains l && s.layerOk f.ctx (f.layers.getD l (0, 0))

/-- The next page that the window still wants, in window order (R172). -/
def State.wanted (s : State) (f : Ford) : Option Nat :=
  (f.window.filter (s.layerKept f)).findSome? fun l => s.nextPage f l

/-- The steps that wait for a layer of the window cannot be served (R174): each fails with the pages its layer lacks. -/
def State.fordRefuse (s : State) (fi : Nat) (e : Bool × Nat) : State :=
  let f := s.mem.ford fi
  let out := f.waiters.filter fun w => f.window.contains w.2
  let s := (s.setFord fi { f with waiters := f.waiters.filter fun w => !f.window.contains w.2, filling := false }).evTir 0
  out.foldl (fun s w => s.failCmd w.1 (quotaFail e.1 e.2 ((f.layerPages w.2).filter s.mem.inCap).length)) s

/-- The steps of a ford whose layer has become resident complete (R172). -/
def State.fordDone (s : State) (fi : Nat) : State :=
  let f := s.mem.ford fi
  let s := s.setFord fi { f with waiters := f.waiters.filter fun w => !s.resident f w.2 }
  (f.waiters.filter fun w => s.resident f w.2).foldl (fun s w => s.endCmd w.1 stOK 0) s

/-- Go on with a ford (R172, R174): complete the steps whose layer is in, and bring in the next page of the window. -/
def State.fordAdvance (s : State) (fi : Nat) : State :=
  let s := s.fordDone fi
  let f := s.mem.ford fi
  if (s.mem.moves.any fun v => v.why == .ford fi) || !f.filling then s
  else match s.wanted f with
    | none => s.setFord fi { f with filling := false }
    | some x => match s.fordMove fi x with
      | .ok t => t
      | .error e => s.fordRefuse fi e

/-- TT_FORD_STEP. -/
def State.fordStep (s : State) (q : Nat) : State :=
  match s.running q 0x4031 with
  | none => s
  | some c =>
    let fi := fld (c.p 0) 2 0
    let l := fld (c.p 0) 26 16
    let f := s.mem.ford fi
    if f.waiters.any fun w => w.1 == q then s
    else match bitCheck 0 [bitIf (!f.active) 0, lowBit (c.p 0) (bmask 15 4), bitIf (f.active && decide (f.layers.length ≤ l)) 16,
        lowBit (c.p 0) (bmask 63 27)] with
    | .error e => s.failCmd q e
    | .ok () =>
      let g : Ford := { f with dir := bitAt (c.p 0) 3, layer := l, stepped := true, waiters := f.waiters ++ [(q, l)], filling := true }
      let back := ((List.range f.layers.length).filter (s.layerKept f)).flatMap fun i => (f.layerPages i).filter fun x => !g.holds x && !s.mem.inCap x
      if g.window.any fun i => !s.layerKept f i then s.failCmd q (badAddr 0 5)
      else if back.any fun x => (s.mem.cleanPage x).isNone && s.accessWaits (x * pageBytes) pageBytes then s
      else
        let s := { s with mem := s.mem.dropMoves fun v => v.why == MoveWhy.ford fi }
        let s := s.setFord fi g
        let s := back.foldl State.fordReturn s
        let s := if s.resident g l then s else s.evTir 1
        s.fordAdvance fi

/-- TT_FORD_END: the window empties; pages stay where they lie (R174). -/
def State.fordEnd (s : State) (q : Nat) : State :=
  match s.running q 0x4032 with
  | none => s
  | some c =>
    let fi := fld (c.p 0) 2 0
    match bitCheck 0 [bitIf (!(s.mem.ford fi).active) 0, lowBit (c.p 0) (bmask 63 3)] with
    | .error e => s.failCmd q e
    | .ok () =>
      let s := { s with mem := s.mem.dropMoves fun v => v.why == MoveWhy.ford fi }
      (s.setFord fi Ford.empty).endCmd q stOK 0

/-- A move that is no longer in the table is still one that the rules make: its page is in the capacity tier and may be
promoted (Table 7.3), and its victim is in the fast tier and of a victim class (R161, R164, R172). -/
def State.moveGood (s : State) (v : Move) : Bool :=
  s.mem.inCap v.page && !s.mem.inCap v.victim && (s.mem.victimClass v.victim).isSome &&
  match s.mem.regionOf v.page with
  | none => false
  | some (_, r) => r.kind == 0 && match v.why with
    | .background => r.hint == 0 || r.hint == 1 || (r.hint == 4 && !s.mem.inFord v.page)
    | .ford f => r.hint == 4 && (s.mem.ford f).holds v.page

/-- A move has ended, made or not. -/
def State.moveEnd (s : State) (v : Move) : State :=
  match v.why with
  | .background => s
  | .ford f => s.fordAdvance f

/-- PAGE_MOVE_SWITCH (R166): the map entries of a page in flight and of its victim change in one step. A move that the rules
no longer make is given up; one that a toll now forbids is skipped (R170). -/
def State.moveSwitch (s : State) (x : Nat) : State :=
  match s.mem.moves.find? fun v => v.page == x with
  | none => s
  | some v =>
    let t := { s with mem := s.mem.dropMoves fun w => w.page == x }
    if !t.moveGood v then t.moveEnd v
    else if !(t.mem.tollAllows x false && t.mem.tollAllows v.victim true) then (t.evTir 0).moveEnd v
    else if t.moveWaits x v.victim then s
    else
      let u := t.swapPages x v.victim
      let clean := match v.why with
        | .background => none
        | .ford _ => some (t.mem.frame x)
      ({ u with mem := { u.mem with cleanFrom := tput noneD u.mem.cleanFrom x clean } }).moveEnd v

/-! TT_COMPRESS (R176 to R179). -/

/-- The coded blocks of a page and its index entries, from the next offset in 32-byte units. -/
def packBlocks (w : Nat) : Nat → List (List Byte) → List (List Byte × Nat)
  | _, [] => []
  | off, b :: bs =>
    match packBlock w b with
    | some c => (c, idxEntry off (c.length / 32) false) :: packBlocks w (off + c.length / 32) bs
    | none => (b, idxEntry off 128 true) :: packBlocks w (off + 128) bs

/-- Pack a page whose plain bytes are known: its frame's bytes and its index entries; all raw leaves it unpacked with
zero entries. -/
def State.packPage (s : State) (r : Region) (x : Nat) (bs : List Byte) : State :=
  let l := packBlocks (packWord r.tag) 0 (chunks 4096 bs)
  if l.all fun p => bitAt p.2 23 then s.storeBytes (r.idxAt x 0) (List.replicate 2048 0)
  else
    let code := l.flatMap (·.1)
    let s := { s with mem := { s.mem with cells := tputs zeroB (tclear (x * pageBytes) ((x + 1) * pageBytes) s.mem.cells) (x * pageBytes) code,
                                          errs := tclear (x * pageBytes / 32) ((x + 1) * pageBytes / 32) s.mem.errs } }
    let s := s.storeBytes (r.idxAt x 0) (l.flatMap fun p => leBytes 4 p.2)
    { s with mem := { s.mem with packed := tput noFlag s.mem.packed x true, zero := tput noFlag s.mem.zero x false } }

/-- A residue mismatch in the tier manager (R369): DETAIL 0, the word not written. -/
def State.tirResidue (s : State) (q : Nat) : State := (s.errRec 0x01 1 8 0 0 0).failCmd q ⟨stResidue, 0⟩

/-- The bytes of n 4 KiB blocks from local offset a on, read for queue q; or what ended the read, and the block. -/
def State.readBlocks (q a : Nat) : Nat → Nat → State → (Got × Nat) × State
  | 0, k, s => ((.bytes [], k), s)
  | n + 1, k, s =>
    let r := s.memRead (.queue q) (a + 4096 * k) 4096
    match r.1 with
    | .bytes bs =>
      let t := State.readBlocks q a n (k + 1) r.2
      match t.1.1 with
      | .bytes cs => ((.bytes (bs ++ cs), k), t.2)
      | _ => t
    | g => ((g, k), r.2)

/-- The page whose bytes have been read is packed, or its residue fails, or the read has ended the command. The answer
says whether the command goes on. -/
def State.packRead (q : Nat) (r : Region) (x : Nat) (p : Prog) (flt : Bool) (g : (Got × Nat) × State) : Bool × State :=
  match g.1.1 with
  | .bytes bs =>
    if flt then (false, g.2.tirResidue q) else (true, (g.2.packPage r x bs).setProg q ⟨p.done + 1, p.skipped⟩)
  | .uncorrectable => (false, g.2.failCmd q (xferFail .uncorrectable 0 (p.done * 512 + g.1.2)))
  | _ => (false, g.2.failCmd q (xferFail .poisoned 0 (p.done * 512 + g.1.2)))

/-- One page of TT_COMPRESS: the answer says whether the command goes on. -/
def State.packOne (q : Nat) (r : Region) (first n : Nat) (flt : Bool) (s : State) : Bool × State :=
  let p := s.prog q
  if n ≤ p.done then (false, if p.skipped = 0 then s.endCmd q stOK 0 else s.endCmd q stNoted p.skipped)
  else
    let x := r.first + first + p.done
    if tget noFlag s.mem.packed x then (true, s.setProg q ⟨p.done + 1, p.skipped + 1⟩)
    else if s.writeWaits (x * pageBytes) pageBytes then (false, s.holdWrite q (x * pageBytes) pageBytes)
    else State.packRead q r x p flt (State.readBlocks q (x * pageBytes) 512 0 s)

/-- Pack pages from where the command has come (R176). -/
def State.compressPages (q : Nat) (r : Region) (first n : Nat) (flt : Bool) : Nat → State → State
  | 0, s => s
  | f + 1, s =>
    let x := State.packOne q r first n flt s
    if x.1 then State.compressPages q r first n flt f x.2 else x.2

/-- TT_COMPRESS. -/
def State.ttCompress (s : State) (q : Nat) (flt : Bool) : State :=
  match s.running q 0x4038 with
  | none => s
  | some c =>
    let first := fld (c.p 1) 20 0
    let n := fld (c.p 1) 52 32
    match firstErr [reservedCheck c 0 (bmask 63 12),
        match s.namedRegion q (fld (c.p 0) 11 0) with
          | some r => firstErr [failIf (!r.compress) (badParam 0 0),
              bitCheck 1 [bitIf (n != 0 && decide (r.pages < first + n)) 0, lowBit (c.p 1) (bmask 31 21), lowBit (c.p 1) (bmask 63 53)]]
          | none => .error (badParam 0 0)] with
    | .error f => s.failCmd q f
    | .ok () => match s.namedRegion q (fld (c.p 0) 11 0) with
      | none => s
      | some r => if n = 0 then s.endCmd q stOK 0 else s.compressPages q r first n flt (n + 1)

/-! TT_RETIRE (R182 to R184). -/

/-- 64 KiB frames of a tier. -/
def retireFrames (cap : Bool) : Nat := tierFrames cap * 32
/-- The local offset of the byte at a tier's physical address, before retirement. -/
def Mem.offsetAt (m : Mem) (cap : Bool) (p : Nat) : Nat :=
  m.pageAt (p / pageBytes + if cap then fastFrames else 0) * pageBytes + p % pageBytes

/-- TT_RETIRE. -/
def State.ttRetire (s : State) (q : Nat) : State :=
  match s.running q 0x4039 with
  | none => s
  | some c =>
    let fr := fld (c.p 0) 24 0
    let cap := bitAt (c.p 0) 32
    let spare := c.p 1
    let off := s.mem.offsetAt cap (fr * 65536)
    let backs := match s.mem.regionOf (off / pageBytes) with
      | some (_, r) => r.kind != 0
      | none => false
    let spareReg := s.mem.regionOf (spare / pageBytes)
    let other := match spareReg with
      | some (_, r) => r.hint != (if cap then 3 else 2)
      | none => false
    let isSpare := match spareReg with
      | some (_, r) => r.kind == 2
      | none => false
    let used := s.mem.remap.any fun r => r.spare == spare
    match firstErr [ bitCheck 0 [bitIf (decide (retireFrames cap ≤ fr) || backs) 0, lowBit (c.p 0) (bmask 31 25), lowBit (c.p 0) (bmask 63 33)],
        failIf (s.chan q != 0) chanFail ] with
    | .error f => s.failCmd q f
    | .ok () =>
      if s.mem.remap.any fun r => r.cap == cap && r.frame == fr then s.endCmd q stNoted 0
      else match firstErr [ failIf (spare % 65536 != 0 || spare / 2 ^ 62 != 0) (badAddr 1 0), failIf (!inRange spare 65536) (badAddr 1 3),
          failIf (!isSpare) (badAddr 1 1), failIf (other || used) (badParam 1 0) ] with
      | .error f => s.failCmd q f
      | .ok () =>
        if 8192 ≤ s.mem.remap.length then (s.evTir 2).failCmd q (quotaFail cap 2 0)
        else if s.accessWaits off 65536 || s.mem.moving (off / pageBytes) then s
        else
          let copied := s.mem.copied (off / pageBytes)
          let r := if copied then s.copyErrs off 65536 else ([], s)
          let s := { r.2 with mem := { r.2.mem with remap := r.2.mem.remap ++ [Remap.mk cap fr spare],
                                                    errs := tclear (off / 32) (off / 32 + 2048) r.2.mem.errs } }
          let s := s.poisonUnits r.1
          (if copied then (s.failedWords off 65536).foldl (fun s w => s.dropWrite (s.mem.loc w) 2) s else s).endCmd q stOK 0

/-- A stop request ends a tier/transfer command (R189): a ford step leaves its window set. -/
def State.tirStop (s : State) (q : Nat) : State :=
  let m := { s.mem with prog := tput progReset s.mem.prog q ⟨0, 0⟩,
                        fords := s.mem.fords.map fun e => (e.1, { e.2 with waiters := e.2.waiters.filter fun w => w.1 != q }) }
  { s with mem := m }

end Sys2Proof.Machine
end

