-- ==== Sys2Proof/Machine/Tide.lean ====
section
/-!
DEFINITION. TT_TIDE (chapter 6): folding tide statistics into history, choosing formats, patching parameter words (R138
to R145).
-/
namespace Sys2Proof.Machine

/-- An entry's bytes as 8-byte word i. -/
def tw (e : List Byte) (i : Nat) : Nat := leNat ((e.drop (8 * i)).take 8)
/-- The record at byte offset b of an entry. -/
def trec (e : List Byte) (b : Nat) : TideRec := TideRec.of ((e.drop b).take 32)

/-- Why an entry fails (Table 6.6). -/
def tideFail (reason entry site : Nat) : Fail := ⟨stBadParam, 0xFE + reason * 256 + entry * 65536 + site * 2 ^ 28⟩

/-- NSITES of an entry. -/
def tideSites (e : List Byte) : Nat := fld (tw e 0) 12 8

/-- The checks of one used site (R143). -/
def siteCheck (e : List Byte) (entry i : Nat) : Except Fail Unit :=
  let w := tw e (80 + 3 * i)
  if fld w 63 43 ≠ 0 then .error (tideFail 0 entry i)
  else if fld w 42 41 = 3 then .error (tideFail 3 entry i)
  else if fld w 2 0 ≠ 0 then .error ⟨stBadAddress, 0xFE + entry * 65536 + i * 2 ^ 28⟩
  else .ok ()

/-- The checks of a whole entry (R141). -/
def tideCheck (e : List Byte) (entry : Nat) : Except Fail Unit :=
  let ctl := tw e 0
  let st := tw e 2
  let low (v : Nat) : Bool := decide (s8 v < -126)
  let code := fld st 3 0
  firstErr ([ failIf (fld ctl 63 13 != 0 || fld st 31 28 != 0 || !((e.drop 24).take 40).all (· == 0)) (tideFail 0 entry 0),
      failIf (fld ctl 3 2 == 0 || fld ctl 3 2 == 3 || decide (16 < tideSites e) || !(code == 1 || code == 3 || code == 4) ||
        low (fld st 11 4) || low (fld st 19 12) || low (fld st 27 20)) (tideFail 1 entry 0) ] ++
    (List.range (min 16 (tideSites e))).map (siteCheck e entry))

/-- kfor (R142): the smallest k in −126 to 127 with r × 2^H ≤ m × 2^k, or 127. -/
def kfor (r : Val) (m h : Nat) : Int :=
  if r.isZero then 0
  else ((List.range 254).map fun i => Int.ofNat i - 126).find? (fun k => (r.scale h).le ((Val.ofNat m).scale k)) |>.getD 127

/-- The choice of R142 from the last n records. -/
structure TideChoice where
  code : Nat
  k : Int
  k4 : Int
  k5 : Int
  deriving DecidableEq, Repr

/-- R142: decide format and scale from the window. -/
def tideDecide (ctl ufl : Nat) (w : List TideRec) : TideChoice :=
  let nan := w.any fun r => (f32 r.amax).nonFinite
  let r := maxMag (w.map fun r => f32 r.amax)
  let h := fld ctl 7 4
  let k4 := kfor r 448 h
  let k5 := kfor r 57344 h
  let nz := (w.map (·.nz)).sum
  let u4 := (w.map (·.u4)).sum
  let u5 := (w.map (·.u5)).sum
  let ov := (w.map (·.ov)).sum
  let code := match fld ctl 1 0 with
    | 1 => 3
    | 2 => 4
    | 3 => 1
    | _ => if nan then 1 else if nz = 0 then 3 else if ov = 0 ∧ u4 * 2 ^ 32 ≤ fld ufl 31 0 * nz then 3
        else if u5 * 2 ^ 32 ≤ fld ufl 63 32 * nz then 4 else 1
  ⟨code, if code = 3 then k4 else if code = 4 then k5 else 0, k4, k5⟩

/-- 2^k as FP32. -/
def pow2f32 (k : Int) : Nat := (toF32 (Val.one.scale k)).toNat
/-- An 8-bit two's-complement field. -/
def i8 (k : Int) : Nat := (k % 256).toNat

/-- The STATE word of a choice (Table 6.3). -/
def stateWord (c : TideChoice) (steps : Nat) : Nat :=
  c.code + i8 c.k * 2 ^ 4 + i8 c.k4 * 2 ^ 12 + i8 c.k5 * 2 ^ 20 + steps * 2 ^ 32

/-- The word a site writes (Table 6.5), given the word that lies there. -/
def siteWord (e : List Byte) (i : Nat) (c : TideChoice) (old : Nat) : Nat :=
  match fld (tw e (80 + 3 * i)) 42 41 with
  | 0 => c.code + fld (tw e 0) 3 2 * 256 + (if c.code = 1 then 0x3F800000 else pow2f32 c.k) * 2 ^ 32
  | 1 => if c.code = 1 then tw e (82 + 3 * i) else tw e (81 + 3 * i)
  | _ => old % 2 ^ 32 + pow2f32 c.k * 2 ^ 32

/-- Write every used site in ascending index (R143). -/
def State.writeSites (e : List Byte) (c : TideChoice) : List Nat → State → State
  | [], s => s
  | i :: is, s =>
    let a := fld (tw e (80 + 3 * i)) 40 0
    let old := leNat ((List.range 8).map fun j => s.oldByte (a + j))
    State.writeSites e c is (s.memWrite a (leBytes 8 (siteWord e i c old)))

/-- The local offsets of an entry's used sites. -/
def siteAddrs (e : List Byte) : List Nat := (List.range (tideSites e)).map fun i => fld (tw e (80 + 3 * i)) 40 0

/-- One entry whose checks pass and whose step is due (R142): accumulator cleared, history folded, sites written, STATE
committed in one 8-byte store. -/
def State.tideUpdate (at_ : Nat) (e : List Byte) (stepNew : Nat) (s : State) : State :=
  let st := fld (tw e 2) 63 32
  let a := trec e (64 + 32 * (st % 2))
  let n := min (st + 1) 16
  let win := (List.range n).map fun i =>
    let j := (st + 1 - n + i) % 16
    if j = st % 16 then a else trec e (128 + 32 * j)
  let c := tideDecide (tw e 0) (tw e 1) win
  let s := s.storeBytes (at_ + 64 + 32 * ((st + 1) % 2)) (List.replicate 32 0)
  let s := s.storeBytes (at_ + 128 + 32 * (st % 16)) a.bytes
  let s := s.writeSites e c (List.range (tideSites e))
  s.storeBytes (at_ + 16) (leBytes 8 (stateWord c stepNew))

/-- Entries from where the command has come (R141, R144). -/
def State.tideEntries (q first n stepNew : Nat) (flt : Bool) : Nat → State → State
  | 0, s => s
  | f + 1, s =>
    let p := s.prog q
    if n ≤ p.done then (if p.skipped = 0 then s.endCmd q stOK 0 else s.endCmd q stNoted p.skipped)
    else
      let i := first + p.done
      let at_ := s.tideAt i
      if !inRange at_ 1024 then s.failCmd q ⟨stBadAddress, 0xFE + 256 + i * 65536⟩
      else if s.writeWaits at_ 1024 then s.holdWrite q at_ 1024
      else
        let g := s.memRead (.queue q) at_ 1024
        match g.1 with
        | .bytes e =>
          match tideCheck e i with
          | .error x => g.2.failCmd q x
          | .ok () =>
            let st := fld (tw e 2) 63 32
            if st = stepNew then State.tideEntries q first n stepNew flt f (g.2.setProg q ⟨p.done + 1, p.skipped + 1⟩)
            else if (st + 1) % 2 ^ 32 ≠ stepNew then g.2.failCmd q (tideFail 2 i 0)
            else if flt then g.2.tirResidue q
            else if (siteAddrs e).any fun a => g.2.writeWaits a 8 then (siteAddrs e).foldl (fun s a => s.holdWrite q a 8) g.2
            else State.tideEntries q first n stepNew flt f ((g.2.tideUpdate at_ e stepNew).setProg q ⟨p.done + 1, p.skipped⟩)
        | .uncorrectable => g.2.failCmd q ⟨stUncorrectable, 0xFE + i * 65536⟩
        | _ => g.2.failCmd q ⟨stPoisoned, 0xFE + i * 65536⟩

/-- TT_TIDE. -/
def State.ttTide (s : State) (q : Nat) (flt : Bool) : State :=
  match s.running q 0x4040 with
  | none => s
  | some c =>
    let first := fld (c.p 0) 11 0
    let n := fld (c.p 0) 24 12
    match firstErr [bitCheck 0 [bitIf (decide (4096 < first + n)) 0, lowBit (c.p 0) (bmask 63 25)], reservedCheck c 1 (bmask 63 32)] with
    | .error f => s.failCmd q f
    | .ok () => s.tideEntries q first n (fld (c.p 1) 31 0) flt (n + 1)

end Sys2Proof.Machine
end

