-- ==== Sys2Proof/Machine/Xch.lean ====
section
/-!
DEFINITION. The exchange engine (chapter 9): groups, owners and blocks, reduction in rank order, compression with error
feedback, gather, broadcast, the attention fold, statistics, failures across ranks.
-/
namespace Sys2Proof.Machine

/-- An unlisted group. -/
def groupReset (_ : Nat) : Group := Group.unset
/-- Group g. -/
def State.group (s : State) (g : Nat) : Group := tget groupReset s.xch.groups g
/-- Set group g. -/
def State.setGroup (s : State) (g : Nat) (v : Group) : State := { s with xch := { s.xch with groups := tput groupReset s.xch.groups g v } }
/-- The collective of a queue. -/
def State.xRun (s : State) (q : Nat) : Option XRun := s.xch.runs.find? fun r => r.queue == q
/-- Replace a run in a list, or add it. -/
def putXRun (r : XRun) : List XRun → List XRun
  | [] => [r]
  | x :: l => if x.queue = r.queue then r :: l else x :: putXRun r l
def State.setXRun (s : State) (r : XRun) : State := { s with xch := { s.xch with runs := putXRun r s.xch.runs } }
def State.dropXRun (s : State) (q : Nat) : State := { s with xch := { s.xch with runs := s.xch.runs.filter fun r => r.queue != q } }

/-- Count non-finite values (R251). -/
def State.xNf (s : State) (n : Nat) : State :=
  if n = 0 then s
  else
    let s := if s.ctr 0xC00020 = 0 then s.evXch 2 else s
    s.bump64 0xC00020 n

/-! Owners and blocks (R229). -/

/-- Blocks of owner o. -/
def XRun.units (r : XRun) (o : Nat) : Nat :=
  match r.desc.op with
  | 0x5004 => if o = r.desc.root then ceilDiv r.size 4096 else 0
  | 0x5005 => if o < r.desc.qn then (r.desc.qn - o - 1) / r.desc.nr + 1 else 0
  | _ => ceilDiv (min r.sh (r.desc.n - o * r.sh)) 4096
/-- The first element of a block, and the element after its last. -/
def XRun.elems (r : XRun) (o j : Nat) : Nat × Nat :=
  (o * r.sh + 4096 * j, min (min (o * r.sh + r.sh) r.desc.n) (o * r.sh + 4096 * j + 4096))
/-- D of an attention fold. -/
def XRun.d (r : XRun) : Nat := if r.desc.dsel = 0 then 64 else 128
/-- The query of a block of an attention fold (R245). -/
def XRun.query (r : XRun) (o j : Nat) : Nat := o + j * r.desc.nr
/-- A collective with zero elements (R247). -/
def XRun.empty (r : XRun) : Bool :=
  match r.desc.op with
  | 0x5004 => r.size == 0
  | 0x5005 => r.desc.qn == 0
  | _ => r.desc.n == 0
/-- The collective sums contributions at owners. -/
def XRun.folds (r : XRun) : Bool := r.desc.op == 0x5001 || r.desc.op == 0x5002 || r.desc.op == 0x5005
/-- The collective forms gradient-noise statistics (R240). -/
def XRun.counts (r : XRun) : Bool := (r.desc.op == 0x5001 && r.desc.rop == 0) || r.desc.op == 0x5002
/-- Results stay with their owner. -/
def XRun.keeps (r : XRun) : Bool := r.desc.scatter && (r.desc.op == 0x5001 || r.desc.op == 0x5002)

/-! Segments. -/

/-- A segment piece of a run. -/
def XRun.seg (r : XRun) (my kind owner block off total : Nat) (data : List Byte) : Seg :=
  ⟨r.group, kind, my, owner, block, r.epoch, r.cseq, r.desc, off, total, data⟩

/-- Pieces of at most 200 bytes. -/
def pieces (bs : List Byte) : List (Nat × List Byte) :=
  if bs = [] then [(0, [])] else (chunks 200 bs).mapIdx fun i l => (200 * i, l)

/-- Send a segment of the collective to a rank; its bytes count (XCH_TX_BYTES). -/
def State.xSend (s : State) (r : XRun) (rank kind owner block : Nat) (bs : List Byte) : State :=
  let g := s.group r.group
  let l := (pieces bs).map fun p => XOut.mk (r.seg g.my kind owner block p.1 bs.length p.2) rank g.chan
  ({ s with xch := { s.xch with out := s.xch.out ++ l } }).bump64 0xC00028 bs.length

/-- The other ranks of a group. -/
def Group.others (g : Group) : List Nat := (List.range g.nr).filter (· != g.my)
/-- Send a segment to every other rank. -/
def State.xSendAll (s : State) (r : XRun) (kind owner block : Nat) (bs : List Byte) : State :=
  (s.group r.group).others.foldl (fun s k => s.xSend r k kind owner block bs) s

/-! Failures (R248 to R250). -/

/-- DETAIL on the failing rank (Table 9.7). -/
def xOwn (rank blk : Nat) : Nat := rank % 32768 + 32768 + blk % 65536 * 65536

/-- The group is BROKEN (R249). -/
def State.xBreak (s : State) (g rank : Nat) (st : Byte) : State :=
  let v := s.group g
  let s := s.setGroup g { v with state := 3, failRank := rank % 32768, failStatus := st.toNat }
  if v.state = 3 then s else s.evXch 0

/-- Send the abort segment (R248). -/
def State.xAbort (s : State) (r : XRun) (st : Byte) (blk : Nat) : State :=
  s.xSendAll r 4 0 0 (leBytes 8 (st.toNat + blk % 65536 * 65536))

/-- The collective fails on this rank: abort segments, the group BROKEN, its run gone. -/
def State.xFail (s : State) (r : XRun) (st : Byte) (detail blk : Nat) : State :=
  (((s.xAbort r st blk).dropXRun r.queue).xBreak r.group (s.group r.group).my st).endCmd r.queue st detail

/-- An abort segment ends the collective: status and DETAIL of Table 9.7. -/
def State.xAborted (s : State) (r : XRun) (rank : Nat) (data : List Byte) : State :=
  let v := leNat data
  let st : Byte := BitVec.ofNat 8 v
  let d := if st = stPeer then rank % 32768 + 2 * 65536 else rank % 32768 + fld v 31 16 * 65536
  ((s.dropXRun r.queue).xBreak r.group rank st).endCmd r.queue st d

/-- A residue fault of the engine (R369, R388, R391). -/
def State.xResidue (s : State) (r : XRun) (blk : Nat) : State :=
  let d := xOwn (s.group r.group).my blk
  (((((s.bump 0xC00038 1).evXch 3).errRec 0x01 1 12 0 d 0)).persistent 4 12 0).xFail r stResidue d blk

/-- An exchange command is stopped (R248, R251): the abort carries its status with block index 0xFFFF. -/
def State.xStop (s : State) (q : Nat) : State :=
  match s.xRun q, (s.q q).cmd with
  | some r, some c =>
    match c.stop with
    | some (st, d) =>
      let d := if st = stTimeout then d.toNat else xOwn (s.group r.group).my 0xFFFF
      (s.setCmd q { c with stop := some (st, BitVec.ofNat 32 d) }).xFail r st d 0xFFFF
    | none => s
  | none, some c => if c.phase = .running then s.endCmd q stAborted 0 else s
  | _, none => s

/-! Compression (R235 to R237). -/

/-- |c| as a sort key: every NaN above infinity, −0 equal to +0. -/
def magKey (w : W32) : Nat := min (w.toNat % 2147483648) 0x7F800001

/-- Merge two lists sorted by falling key, then rising index. -/
def mergeKeys : Nat → List (Nat × Nat) → List (Nat × Nat) → List (Nat × Nat)
  | 0, a, b => a ++ b
  | _ + 1, [], b => b
  | _ + 1, a, [] => a
  | f + 1, x :: a, y :: b =>
    if y.1 < x.1 ∨ (x.1 = y.1 ∧ x.2 < y.2) then x :: mergeKeys f a (y :: b) else y :: mergeKeys f (x :: a) b
/-- Merge neighbours of a list of runs. -/
def mergePairs : List (List (Nat × Nat)) → List (List (Nat × Nat))
  | a :: b :: l => mergeKeys (a.length + b.length) a b :: mergePairs l
  | l => l
/-- Merge all runs. -/
def mergeAll : Nat → List (List (Nat × Nat)) → List (Nat × Nat)
  | 0, l => l.flatten
  | _ + 1, [] => []
  | _ + 1, [a] => a
  | f + 1, l => mergeAll f (mergePairs l)
/-- Indices in rank of |c| (R235). -/
def rankMag (c : List W32) : List Nat := (mergeAll 16 (c.mapIdx fun i w => [(magKey w, i)])).map (·.2)
/-- Insert into a rising list. -/
def insNat (a : Nat) : List Nat → List Nat
  | [] => [a]
  | b :: l => if a ≤ b then a :: b :: l else b :: insNat a l
/-- The selected indices, ascending. -/
def topK (c : List W32) (k : Nat) : List Nat := ((rankMag c).take (min k c.length)).foldr insNat []

/-- Plain E4M3 with no tensor scale, the form of R76 with M = 448. -/
def e4m3Fmt : Fmt := plainFmt 3

/-- Encode a block: its segment bytes, and the decoded value of each element sent (R235, R237). -/
def xEncode (mode k : Nat) (c : List W32) : List Byte × List (Option W32) :=
  let n := c.length
  if mode = 2 then
    let sc := toF32 ((f32 (fixedSum (c.map fun w => w &&& 0x7FFFFFFF))).div (Val.ofNat n))
    let bit (w : W32) : Bool := (f32 w).lt Val.zero
    let v := c.map fun w => some (if bit w then toF32 (f32 sc).neg else sc)
    (leBytes (ceilDiv n 8) (packNat 1 (c.map fun w => b2n (bit w))) ++ leBytes 4 sc.toNat, v)
  else
    let sel := topK c k
    let xs := sel.map fun i => f32 (c.getD i 0)
    let idx := sel.flatMap (leBytes 2)
    if mode = 1 then
      let q := xs.map fun x => convert 1 false false x
      (idx ++ q.flatMap (leBytes 2), (List.range n).map fun i => (sel.idxOf? i).map fun j => toF32 (elemVal 1 false (q.getD j 0)))
    else
      let e := e4m3Fmt.scaleFor (maxMag xs)
      let q := xs.map fun x => convert 3 false false (x.div (se8 e))
      (idx ++ q.map (BitVec.ofNat 8) ++ [BitVec.ofNat 8 e],
        (List.range n).map fun i => (sel.idxOf? i).map fun j => toF32 ((elemVal 3 false (q.getD j 0)).mul (se8 e)))

/-- Indices ascending, below n, with reserved bits zero (R237). -/
def idxOk (n : Nat) : Nat → List Nat → Bool
  | _, [] => true
  | lo, i :: l => decide (lo ≤ i) && decide (i < n) && decide (i < 4096) && idxOk n (i + 1) l

/-- Decode a segment of n elements (R235, R237); none: malformed. -/
def xDecode (mode k n : Nat) (bs : List Byte) : Option (List W32) :=
  if mode = 2 then
    let m := ceilDiv n 8
    if bs.length = m + 4 then
      let sc := BitVec.ofNat 32 (leNat (bs.drop m))
      let v := leNat (bs.take m)
      some ((List.range n).map fun i => if bitAt v i then toF32 (f32 sc).neg else sc)
    else none
  else
    let ke := min k n
    let len := if mode = 1 then 4 * ke else 3 * ke + 1
    let idx := (List.range ke).map fun i => leNat ((bs.drop (2 * i)).take 2)
    if bs.length = len ∧ idxOk n 0 idx then
      let vs := if mode = 1 then (List.range ke).map fun i => toF32 (elemVal 1 false (leNat ((bs.drop (2 * ke + 2 * i)).take 2)))
        else
          let sc := se8 (leNat (bs.drop (3 * ke)))
          (List.range ke).map fun i => toF32 ((elemVal 3 false (leNat ((bs.drop (2 * ke + i)).take 1))).mul sc)
      some ((List.range n).map fun i => match idx.idxOf? i with
        | some j => vs.getD j 0
        | none => f32zero)
    else none

/-- FP32 words as bytes, and back. -/
def words32Bytes (l : List W32) : List Byte := l.flatMap fun w => leBytes 4 w.toNat

/-- Decode a contribution of block (o, j) (R230, R235, R245); none: malformed. -/
def XRun.decode (r : XRun) (o j : Nat) (bs : List Byte) : Option (List W32) :=
  match r.desc.op with
  | 0x5005 => if bs.length = 32 + 4 * r.d then some ((words32 2 bs ++ words32 r.d (bs.drop 32)).map f32canon) else none
  | op =>
    let n := (r.elems o j).2 - (r.elems o j).1
    if op = 0x5002 then xDecode r.desc.mode r.desc.k n bs
    else if bs.length = 4 * n then some (words32 n bs) else none

/-- A partial of an attention fold as words, and back. -/
def partialOf (l : List W32) : Partial := ⟨l.getD 0 0, l.getD 1 0, l.drop 2⟩
def partialWords (p : Partial) : List W32 := p.m :: p.l :: p.o

/-- Add rank k's contribution (R230, R245): the first stands as it is. -/
def XRun.add (r : XRun) (k : Nat) (acc x : List W32) : List W32 :=
  if r.desc.op = 0x5005 then if k = 0 then x else partialWords ((partialOf acc).combine (partialOf x))
  else
    let canon (f : W32 → W32 → W32) : List W32 := if k = 0 then x else (acc.zip x).map fun p => f p.1 p.2
    match r.desc.op, r.desc.rop with
    | 0x5001, 1 => if k = 0 then x.map f32canon else canon f32max
    | 0x5001, 2 => if k = 0 then x.map f32canon else canon f32min
    | _, _ => canon f32add

/-! Operands. -/

/-- A plain FP32 operand of n elements in one row (R233): its address word stands for its format word. -/
def xOpnd (addr n word : Nat) (store : Bool) : Opnd := ⟨addr, 0, 1, n, fp32Fmt, word, word, word, store, false, false⟩
/-- The operand with its region's format; its tag has been checked. -/
def State.xAcc (s : State) (q addr n word : Nat) (store : Bool) : Option Acc :=
  match s.resolve q (xOpnd addr n word store) with
  | .ok a => some { a with entry := none }
  | .error _ => none

/-- The word index of an operand of a reduction. -/
def XRun.word (r : XRun) (which : Nat) : Nat :=
  if r.desc.op = 0x5002 then which + 3 else if which = 0 then 3 else 4

/-- Elements SRC and DST hold. -/
def XRun.dstN (r : XRun) (my : Nat) : Nat := if r.keeps then min r.sh (r.desc.n - my * r.sh) else r.desc.n

/-- Read elements [i0, i1) of an FP32 operand of the collective, and their count of R81. -/
def State.xRead (s : State) (r : XRun) (addr word i0 i1 : Nat) : (Except Bad (List W32 × Nat)) × State :=
  match s.xAcc r.queue addr r.desc.n word false with
  | none => (.error (.fail (mismatch word 0 0)), s)
  | some a =>
    let x := s.readRows r.queue 0 a [0] i0 i1
    match x.1 with
    | .ok e => (.ok ((e.1.headD []).map elem32, e.2), x.2)
    | .error b => (.error b, x.2)

/-- A failing read of a block's elements carries the DETAIL of Table 9.7. -/
def xBad (my blk : Nat) (f : Fail) : Fail :=
  if f.st = stPoisoned ∨ f.st = stUncorrectable then ⟨f.st, xOwn my blk⟩ else f

/-- Write elements from i0 on of an FP32 operand, counting non-finite ones; false: it has to wait. -/
def State.xWrite (s : State) (r : XRun) (addr n word i0 : Nat) (xs : List W32) : Bool × State :=
  match s.xAcc r.queue addr n word true with
  | none => (true, s)
  | some a =>
    let vs := xs.map f32
    if s.rowsWait a [0] i0 vs.length then (false, s.holdRows r.queue a [0] i0 vs.length)
    else (true, (s.writeRows r.queue a r.undef i0 [(0, vs)]).xNf (a.nf [vs]))

/-- Write bytes of a collective's result; false: it has to wait. -/
def State.xPut (s : State) (r : XRun) (a word : Nat) (bs : List Byte) (nf : Nat) : Bool × State :=
  if s.opWaits a bs.length then (false, s.holdWrite r.queue a bs.length)
  else (true, (s.opWrite r.queue a word bs).xNf nf)

/-! Contributions (R233, R234, R236). -/

/-- This rank's contribution to block (o, j): its bytes, after the residual has been written. What the reads count under R81
counts once, when the contribution is formed. -/
def State.xContrib (s : State) (r : XRun) (o j : Nat) : (Except Bad (List Byte)) × State :=
  let my := (s.group r.group).my
  if r.desc.op = 0x5005 then
    let x := s.opRead r.queue (r.src + r.query o j * (32 + 4 * r.d)) (32 + 4 * r.d) 1
    match x.1 with
    | .bytes bs => (.ok bs, x.2)
    | .wait => (.error .wait, x.2)
    | e => (.error (.fail ⟨(Opd.fault e).getD stPoisoned, xOwn my j⟩), x.2)
  else
    let i := r.elems o j
    let g := s.xRead r r.src (r.word 0) i.1 i.2
    match g.1 with
    | .error .wait => (.error .wait, g.2)
    | .error (.fail f) => (.error (.fail (xBad my j f)), g.2)
    | .ok gs =>
      if r.desc.op = 0x5001 then (.ok (words32Bytes gs.1), g.2.xNf gs.2)
      else if !r.res then (.ok (xEncode r.desc.mode r.desc.k gs.1).1, g.2.xNf gs.2)
      else
        let e := g.2.xRead r r.resIn (r.word 1) i.1 i.2
        match e.1 with
        | .error .wait => (.error .wait, e.2)
        | .error (.fail f) => (.error (.fail (xBad my j f)), e.2)
        | .ok es =>
          let c := (gs.1.zip es.1).map fun p => f32add p.1 p.2
          let enc := xEncode r.desc.mode r.desc.k c
          let out := (c.zip enc.2).map fun p => match p.2 with
            | some v => f32sub p.1 v
            | none => p.1
          let t := e.2.xWrite r r.resOut r.desc.n (r.word 2) i.1 out
          if t.1 then (.ok enc.1, t.2.xNf (gs.2 + es.2)) else (.error .wait, t.2)

/-- Blocks of SRC that the bytes of a result lie in have all been sent (R233): with SCATTER, a shard's result lies on the
first shards' elements when DST is SRC. -/
def XRun.mayWrite (r : XRun) (i0 i1 : Nat) : Bool :=
  if r.keeps && r.dst == r.src && r.sh != 0 then
    (List.range (i1 / r.sh + 1)).all fun o =>
      let lo := max i0 (o * r.sh)
      let hi := min i1 (o * r.sh + r.sh)
      decide (hi ≤ lo) || decide ((hi - o * r.sh - 1) / 4096 < tget zeroN r.sent o) || decide (r.desc.n ≤ lo)
  else true

/-- The bytes a gather result writes at DST: the records, or each element widened (R148, R242), and what counts. -/
def xWiden (dstkind : Bool) (cnt : Nat) (recs : List Byte) : List Byte × Nat :=
  match gatherFmt.readRun cnt recs with
  | .error _ => (recs, 0)
  | .ok es =>
    let xs := es.map elemX
    if dstkind then (recs, (xs.filter Val.nonFinite).length)
    else
      let q := xs.map fun x => convert 1 false true x
      (q.flatMap (leBytes 2), (q.filter fun c => (elemVal 1 false c).nonFinite).length)

/-- May the result of block (o, j) be written yet (R233, R245)? -/
def XRun.mayStore (r : XRun) (my o j : Nat) : Bool :=
  match r.desc.op with
  | 0x5005 => (List.range r.desc.nr).all fun o => decide (r.units o ≤ tget zeroN r.sent o)
  | _ => r.mayWrite ((r.elems o j).1 - my * r.sh) ((r.elems o j).2 - my * r.sh)

/-- Write a result of block (o, j) at DST; false: it has to wait. -/
def State.xStore (s : State) (r : XRun) (o j : Nat) (bs : List Byte) : Bool × State :=
  let i := r.elems o j
  match r.desc.op with
  | 0x5003 =>
    let w := xWiden r.desc.dstkind (i.2 - i.1) bs
    let a := if r.desc.dstkind then r.dst + 33 * (i.1 / 32) else r.dst + 2 * i.1
    if r.undef && !s.opWaits a w.1.length then
      let f := s.freeBytes a w.1.length
      f.2.xPut r a 4 f.1 0
    else s.xPut r a 4 w.1 w.2
  | 0x5004 => s.xPut r (r.dst + 4096 * j) 3 bs 0
  | 0x5005 =>
    let a := r.dst + r.query o j * (32 + 4 * r.d)
    let n := (((words32 2 bs) ++ words32 r.d (bs.drop 32)).filter fun w => (f32 w).nonFinite).length
    s.xPut r a 2 bs n
  | _ =>
    let my := (s.group r.group).my
    let i0 := if r.keeps then i.1 - my * r.sh else i.1
    let xs := words32 (bs.length / 4) bs
    s.xWrite r r.dst (r.dstN my) (r.word 3) i0 xs

/-- The records of a block of this rank's shard (R242); ranges to read. -/
def XRun.recordRanges (r : XRun) (my j : Nat) : List (Nat × Nat × Nat) :=
  let i := r.elems my j
  let n := ceilDiv (i.2 - i.1) 32
  if r.desc.srckind then
    (List.range (ceilDiv n 4)).map fun t =>
      let row := 32 * j + t
      (r.src + (2 * (row / 65536) + row / 2 % 2) * 2 ^ 25 + row / 4 % 16384 * 2048 + row % 2 * 1024 + 776, 33 * min 4 (n - 4 * t), 3)
  else [(r.src + 33 * 128 * j, 33 * n, 3)]

/-- This rank's block of a gather or a broadcast. -/
def State.xSource (s : State) (r : XRun) (j : Nat) : (Except Bad (List Byte)) × State :=
  let my := (s.group r.group).my
  let l := if r.desc.op = 0x5004 then [(r.src + 4096 * j, min 4096 (r.size - 4096 * j), 2)] else r.recordRanges my j
  let x := s.opReads r.queue l
  match x.1 with
  | .ok bs => (.ok bs.flatten, x.2)
  | .error none => (.error .wait, x.2)
  | .error (some e) => (.error (.fail ⟨e.1, xOwn my j⟩), x.2)

/-! Statistics (R240, R241). -/

/-- An owner's partials: for each contribution and for the result, the sum over its blocks. -/
def XRun.partials (r : XRun) : List W32 := (List.range (r.desc.nr + 1)).map fun k => fixedSum (r.parts.getD k [])

/-- What an unlisted owner's statistics hold. -/
def noStats (_ : Nat) : Option (List W32 × Nat) := none

/-- R2, SUM_G2, MAX_G2, MIN_G2 and NONFIN from the owners' partials. -/
def XRun.statsOf (r : XRun) : W32 × W32 × W32 × W32 × Nat :=
  let os := (List.range r.desc.nr).map fun o => (tget noStats r.statsIn o).getD ([], 0)
  let col (k : Nat) : W32 := fixedSum (os.map fun o => o.1.getD k 0)
  let g := (List.range r.desc.nr).map col
  (col r.desc.nr, fixedSum g, foldOr f32max g, foldOr f32min g, min 0xFFFFFFFF ((os.map (·.2)).sum))

/-- The statistics entry (Table 9.3). -/
def XRun.entry (r : XRun) : List Byte :=
  let t := r.statsOf
  leBytes 4 r.tag.toNat ++ leBytes 4 r.cseq.toNat ++ leBytes 4 r.epoch.toNat ++ leBytes 1 (r.group + r.desc.op % 16 * 16) ++
  leBytes 1 (if r.desc.op = 0x5002 then r.desc.mode else 0xFF) ++ leBytes 2 (r.desc.nr - 1) ++ leBytes 8 r.desc.n ++
  leBytes 4 t.1.toNat ++ leBytes 4 t.2.1.toNat ++ leBytes 4 t.2.2.1.toNat ++ leBytes 4 t.2.2.2.1.toNat ++
  leBytes 4 t.2.2.2.2 ++ List.replicate 20 0

/-- The statistics ring: log of its size, and the address of the slot of the next entry. -/
def State.sringLog (s : State) : Nat := s.rf 0xC00018 4 0
def State.sringAt (s : State) : Nat := s.rd3 0xC0000C + 64 * (s.ctr 0xC0001C % 2 ^ s.sringLog)
/-- Write the entry (R241). -/
def State.xEntry (s : State) (r : XRun) : State :=
  if s.sringLog = 0 then s.evXch 4
  else (s.memWrite s.sringAt r.entry).bumpWrap 0xC0001C

/-! Progress. -/

/-- A rank's blocks have all been contributed, for every owner. -/
def XRun.sentAll (r : XRun) : Bool := !r.folds || (List.range r.desc.nr).all fun o => decide (r.units o ≤ tget zeroN r.sent o)
/-- Every result this rank is to hold has been written. -/
def XRun.gotAll (r : XRun) (my : Nat) : Bool :=
  (List.range r.desc.nr).all fun o => (r.keeps && o != my) || decide (r.units o ≤ tget zeroN r.recv o)
/-- Every owner's statistics have arrived. -/
def XRun.statAll (r : XRun) : Bool := !r.stats || (List.range r.desc.nr).all fun o => (tget noStats r.statsIn o).isSome
/-- Every rank of the group has dispatched the collective. -/
def XRun.allHere (r : XRun) : Bool := decide (r.desc.nr ≤ r.here.length)
/-- The collective is complete on this rank. -/
def XRun.complete (r : XRun) (my : Nat) : Bool :=
  if r.empty then r.allHere
  else r.sentAll && r.gotAll my && r.statAll && (!r.counts || r.statSent)

/-- A result waits that may be written: the next step is this rank's own. -/
def XRun.storing (r : XRun) (my : Nat) : Bool :=
  match r.results with
  | (o, j, _) :: _ => r.mayStore my o j
  | [] => false

/-- The rank this rank waits for (R248); none when the next step is its own. -/
def XRun.awaited (r : XRun) (my : Nat) : Option Nat :=
  if r.empty ∨ !r.folds then
    match (List.range r.desc.nr).find? fun k => !r.here.contains k with
    | some k => some k
    | none => (List.range r.desc.nr).find? fun o => o != my && decide (tget zeroN r.recv o < r.units o)
  else if r.ownBlk < r.units my ∧ r.ownRank ≠ my then some r.ownRank
  else match (List.range r.desc.nr).find? fun o => o != my && decide (tget zeroN r.sent o < r.units o) with
    | some o => some o
    | none => match (List.range r.desc.nr).find? fun o => o != my && !r.keeps && decide (tget zeroN r.recv o < r.units o) with
      | some o => some o
      | none => if r.stats then (List.range r.desc.nr).find? fun o => (tget noStats r.statsIn o).isNone else none

/-- Bytes of a whole segment, when every piece has arrived. -/
def Asm.whole (a : Asm) : Option (List Byte) :=
  if (a.pieces.map fun p => p.2.length).sum < a.total then none
  else some ((List.range ((a.total + 199) / 200)).flatMap fun i => ((a.pieces.find? fun p => p.1 == 200 * i).map (·.2)).getD [])

/-- A whole contribution of rank k to this owner's block j. -/
def XRun.arrived (r : XRun) (my j k : Nat) : Option (List Byte) :=
  (r.asm.find? fun a => a.kind == 2 && a.owner == my && a.block == j && a.rank == k).bind Asm.whole

/-- Forget a segment that has been taken. -/
def XRun.taken (r : XRun) (kind o j k : Nat) : XRun :=
  { r with asm := r.asm.filter fun a => !(a.kind == kind && a.owner == o && a.block == j && a.rank == k) }

/-- The owner adds the next rank's contribution to its block; after the last rank the result is formed (R230). -/
def State.xAdd (s : State) (r : XRun) (my : Nat) (bs : List Byte) : State :=
  match r.decode my r.ownBlk bs with
  | none => (s.evXch 1).xFail r stBadParam (0xFB + 2 * 256 + r.ownRank % 32768 * 65536) r.ownBlk
  | some x =>
    let acc := r.add r.ownRank r.acc x
    let sq := if r.counts then r.sq ++ [fixedSumsq x] else []
    let r : XRun := { (r.taken 2 my r.ownBlk r.ownRank) with acc := acc, sq := sq, asked := false, waitAt := s.pwr.time }
    if r.ownRank + 1 < r.desc.nr then s.setXRun { r with ownRank := r.ownRank + 1 }
    else
      let out : List Byte := if r.desc.op = 0x5005 then recordBytes (Partial.record r.desc.final r.d (partialOf acc)) else words32Bytes acc
      let sq := if r.counts then sq ++ [fixedSumsq acc] else []
      let parts := if r.counts then (List.range (r.desc.nr + 1)).map fun k => r.parts.getD k [] ++ [sq.getD k 0] else []
      let s := if r.keeps then s else s.xSendAll r 3 my r.ownBlk out
      s.setXRun { r with ownBlk := r.ownBlk + 1, ownRank := 0, acc := [], sq := [], parts := parts,
                         nonfin := r.nonfin + if r.counts then (acc.filter fun w => (f32 w).nonFinite).length else 0,
                         results := r.results ++ [(my, r.ownBlk, out)] }

/-- A step of the owner: its own contribution, one that has arrived, or a credit for the next (R232). -/
def State.xOwner (s : State) (r : XRun) (my : Nat) (flt : Bool) : State :=
  let j := r.ownBlk
  if r.ownRank = my then
    if flt then s.xResidue r j
    else
      let x := s.xContrib r my j
      match x.1 with
      | .ok bs => x.2.xAdd { r with sent := tput zeroN r.sent my (j + 1) } my bs
      | .error .wait => x.2
      | .error (.fail f) => x.2.xFail r f.st f.detail j
  else match r.arrived my j r.ownRank with
    | some bs => if flt then s.xResidue r j else s.xAdd r my bs
    | none =>
      if r.asked then s
      else (s.xSend r r.ownRank 1 my j []).setXRun { r with asked := true, waitAt := s.pwr.time }

/-- Contribute to the next block of owner o. -/
def State.xGive (s : State) (r : XRun) (o : Nat) (flt : Bool) : State :=
  let j := tget zeroN r.sent o
  if flt then s.xResidue r j
  else
    let x := s.xContrib r o j
    match x.1 with
    | .ok bs => (x.2.xSend r o 2 o j bs).setXRun { r with sent := tput zeroN r.sent o (j + 1), waitAt := s.pwr.time }
    | .error .wait => x.2
    | .error (.fail f) => x.2.xFail r f.st f.detail j

/-- Send the next block of this rank's shard, or of the root (R242, R244). -/
def State.xSpread (s : State) (r : XRun) (my : Nat) : State :=
  let j := r.ownBlk
  let x := s.xSource r j
  match x.1 with
  | .ok bs => (x.2.xSendAll r 3 my j bs).setXRun { r with ownBlk := j + 1, results := r.results ++ [(my, j, bs)], waitAt := s.pwr.time }
  | .error .wait => x.2
  | .error (.fail f) => x.2.xFail r f.st f.detail j

/-- Send this owner's statistics to every rank. -/
def State.xStats (s : State) (r : XRun) (my : Nat) : State :=
  let p := r.partials
  (s.xSendAll r 5 my 0 (words32Bytes p ++ leBytes 4 (min 0xFFFFFFFF r.nonfin))).setXRun
    { r with statSent := true, statsIn := tput noStats r.statsIn my (some (p, r.nonfin)) }

/-- The collective completes: its statistics entry is written before its reply (R241). -/
def State.xFinish (s : State) (r : XRun) : State :=
  let wants := r.stats && !r.empty
  if wants && s.sringLog != 0 && s.opWaits s.sringAt 64 then s.holdWrite r.queue s.sringAt 64
  else ((if wants then s.xEntry r else s).dropXRun r.queue).endCmd r.queue stOK 0

/-- A step that is not a result's. -/
def State.xMore (s : State) (r : XRun) (my : Nat) (flt : Bool) : State :=
  if r.complete my then s.xFinish r
  else if r.empty then s
  else if r.folds then
    match (List.range r.desc.nr).find? fun o => o != my && decide (tget zeroN r.sent o < tget zeroN r.credits o) with
    | some o => s.xGive r o flt
    | none =>
      if r.ownBlk < r.units my then s.xOwner r my flt
      else if r.counts && !r.statSent then s.xStats r my else s
  else if r.allHere && decide (r.ownBlk < r.units my) then s.xSpread r my
  else s

/-- One step of a collective: a result is written, a credited block contributed, the owner's block advanced, a block
spread, the statistics sent, or the collective completes. -/
def State.xStep (s : State) (q : Nat) (flt : Bool) : State :=
  match s.xRun q with
  | none => s
  | some r =>
    let my := (s.group r.group).my
    match r.results with
    | (o, j, bs) :: rest =>
      if r.mayStore my o j then
        let t := s.xStore r o j bs
        if t.1 then t.2.setXRun { r with results := rest, recv := tput zeroN r.recv o (tget zeroN r.recv o + 1), waitAt := s.pwr.time }
        else t.2
      else s.xMore r my flt
    | [] => s.xMore r my flt

/-! Inbound segments (R228, R237). -/

/-- Put a piece with its segment. -/
def putAsm (g : Seg) : List Asm → List Asm
  | [] => [⟨g.kind, g.owner, g.block, g.rank, g.total, [(g.off, g.data)]⟩]
  | a :: l =>
    if a.kind = g.kind ∧ a.owner = g.owner ∧ a.block = g.block ∧ a.rank = g.rank then
      { a with pieces := if a.pieces.any fun p => p.1 == g.off then a.pieces else a.pieces ++ [(g.off, g.data)] } :: l
    else a :: putAsm g l

/-- A segment of the running collective is taken. -/
def XRun.absorb (r : XRun) (g : Seg) : XRun :=
  let r := { r with here := if r.here.contains g.rank then r.here else r.here ++ [g.rank] }
  match g.kind with
  | 0 => r
  | 1 => { r with credits := tput zeroN r.credits g.owner (tget zeroN r.credits g.owner + 1) }
  | k =>
    let r := { r with asm := putAsm g r.asm }
    match (r.asm.find? fun a => a.kind == k && a.owner == g.owner && a.block == g.block && a.rank == g.rank).bind Asm.whole with
    | none => r
    | some bs =>
      if k = 3 then { (r.taken 3 g.owner g.block g.rank) with results := r.results ++ [(g.owner, g.block, bs)] }
      else if k = 5 then
        let n := r.desc.nr + 1
        { (r.taken 5 g.owner g.block g.rank) with
            statsIn := tput noStats r.statsIn g.owner (some (words32 n bs, leNat ((bs.drop (4 * n)).take 4))) }
      else r

/-- Take a segment of the running collective (R228, R248): a descriptor that differs fails it. -/
def State.xTake (s : State) (r : XRun) (g : Seg) : State :=
  let s := s.bump64 0xC00030 g.data.length
  if g.kind = 4 then s.xAborted r g.rank g.data
  else if g.desc ≠ r.desc then (s.evXch 1).xFail r stBadParam (0xFB + 256 + g.rank % 32768 * 65536) 0xFFFF
  else s.setXRun { (r.absorb g) with waitAt := s.pwr.time }

/-- What becomes of an inbound segment (R228). -/
inductive SegFate where
  | discard
  | hold
  | take (r : XRun)

/-- Sort an inbound segment. -/
def State.segFate (s : State) (g : Seg) : SegFate :=
  let v := s.group g.group
  if v.state = 0 then .hold
  else if g.epoch = v.epoch then
    match s.xch.runs.find? fun r => r.group == g.group && r.epoch == g.epoch && r.cseq == g.cseq with
    | some r => if r.begun then .take r else .hold
    | none => if gtMod v.cseq g.cseq then .discard else .hold
  else if gtMod g.epoch v.epoch then .hold
  else .discard

/-- Free the landing buffers of held segments that `p` selects, and forget them. -/
def State.dropHeld (s : State) (p : Seg → Bool) : State :=
  let l := s.xch.held.filter fun h => p h.seg
  let s := l.foldl (fun s h => s.freeBufs h.chan 1) s
  { s with xch := { s.xch with held := s.xch.held.filter fun h => !p h.seg } }

/-- A dispatched collective takes the segments held for it, in the order they came. -/
def State.takeHeld (s : State) (q : Nat) : State :=
  match s.xRun q with
  | none => s
  | some r =>
    let mine (g : Seg) : Bool := g.group == r.group && g.epoch == r.epoch && g.cseq == r.cseq
    let l := (s.xch.held.filter fun h => mine h.seg).map (·.seg)
    l.foldl (fun s g => match s.xRun q with
      | some r => s.xTake r g
      | none => s) (s.dropHeld mine)

/-! Commands (R246, R247). -/

/-- The descriptor: the fields of Table 9.5 that shape the data, as the command's words give them (R227). -/
def xDesc (c : Cmd) (nr : Nat) : XDesc :=
  let w := c.p 0
  let base : XDesc := ⟨c.op, 0, 0, 0, 0, 0, false, false, false, 0, 0, false, 0, nr⟩
  let sized : XDesc := { base with n := fld (c.p 1) 37 0, sh := fld (c.p 2) 37 0 }
  match c.op with
  | 0x5001 => { sized with rop := fld w 6 4, scatter := bitAt w 7 }
  | 0x5002 => { sized with mode := fld w 5 4, k := if fld w 5 4 = 2 then 0 else fld w 26 16, scatter := bitAt w 7 }
  | 0x5003 => { sized with srckind := bitAt w 4, dstkind := bitAt w 6 }
  | 0x5004 => { base with root := fld w 30 16 }
  | _ => { base with dsel := fld w 9 8, final := bitAt w 10, qn := fld w 31 16 }

/-- N and SH of a command that has them (R229, Table 9.6); `need`: SH may not be 0. -/
def xSizes (c : Cmd) (nr : Nat) (need : Bool) : List (Except Fail Unit) :=
  let sh := fld (c.p 2) 37 0
  let n := fld (c.p 1) 37 0
  [ reservedCheck c 1 (bmask 63 38), reservedCheck c 2 (bmask 63 38),
    bitCheck 2 [bitIf (need && sh == 0) 0, lowBit sh 127], failIf (sh != 0 && decide (nr * sh < n)) (badParam 2 0) ]

/-- Reserved bits and the command's own values (Table 9.5, Table 9.6). -/
def xFields (c : Cmd) (nr : Nat) : Except Fail Unit :=
  let w := c.p 0
  match c.op with
  | 0x5001 =>
    firstErr ([bitCheck 0 [lowBit w (bmask 63 9), bitIf (decide (2 < fld w 6 4)) 4, bitIf (bitAt w 8 && fld w 6 4 != 0) 8]] ++
      xSizes c nr (bitAt w 7))
  | 0x5002 =>
    let k := fld w 26 16
    firstErr ([bitCheck 0 [lowBit w (bmask 6 6 + bmask 15 10 + bmask 63 27), bitIf (fld w 5 4 == 3) 4,
      bitIf (decide (fld w 5 4 < 2) && (k == 0 || decide (1024 < k))) 16]] ++ xSizes c nr (bitAt w 7))
  | 0x5003 => firstErr ([reservedCheck c 0 (bmask 5 5 + bmask 63 7)] ++ xSizes c nr true)
  | 0x5004 =>
    firstErr [bitCheck 0 [lowBit w (bmask 15 4 + bmask 63 31), bitIf (decide (nr ≤ fld w 30 16)) 16],
      bitCheck 1 [lowBit (c.p 1) (bmask 63 40), lowBit (c.p 1) 7]]
  | _ => bitCheck 0 [lowBit w (bmask 7 4 + bmask 15 11 + bmask 63 32), bitIf (decide (1 < fld w 9 8)) 8]

/-- The run of a command that takes CSEQ now. -/
def State.xNew (s : State) (q : Nat) (c : Cmd) (gi : Nat) : XRun :=
  let g := s.group gi
  let d := xDesc c g.nr
  let comp := c.op == 0x5002
  let addr (i : Nat) : Nat := c.p i
  { queue := q, group := gi, tag := c.tag, epoch := g.epoch, cseq := g.cseq, desc := d, begun := false,
    sh := if d.sh = 0 then 128 * ceilDiv d.n (128 * d.nr) else d.sh,
    src := match c.op with
      | 0x5004 => addr 2
      | 0x5005 => addr 1
      | _ => addr 3,
    resIn := addr 4, resOut := addr 5,
    dst := match c.op with
      | 0x5002 => addr 6
      | 0x5004 => addr 3
      | 0x5005 => addr 2
      | _ => addr 4,
    size := fld (c.p 1) 39 0, stats := bitAt (c.p 0) 8 && (c.op == 0x5001 || comp), res := comp && bitAt (c.p 0) 9,
    undef := false, here := [g.my], credits := [], sent := [], ownBlk := 0, ownRank := 0, asked := false, acc := [], sq := [],
    parts := [], nonfin := 0, statSent := false, asm := [], results := [], recv := [], statsIn := [], waitAt := s.pwr.time }

/-- The group takes the collective (R227): it comes from the group's queue, and the group has been set. -/
def State.xAccepts (s : State) (q : Nat) (c : Cmd) : Bool :=
  let g := s.group (fld (c.p 0) 3 0)
  g.state != 0 && g.queue == q

/-- A collective is dispatched: it takes the group's CSEQ, unless R227 refuses it. -/
def State.xDispatch (s : State) (q : Nat) (c : Cmd) : State :=
  let gi := fld (c.p 0) 3 0
  if 0x5001 ≤ c.op ∧ c.op ≤ 0x5005 ∧ s.xAccepts q c = true then
    (s.setXRun (s.xNew q c gi)).setGroup gi { s.group gi with cseq := (s.group gi).cseq + 1 }
  else s

/-- Two byte ranges meet without beginning at the same address. -/
def partly (a la b lb : Nat) : Bool := a != b && decide (a < b + lb) && decide (b < a + la)

/-- A local address (R246), with its region and alignment checks. -/
def State.xAddr (s : State) (q a n word : Nat) : Except Fail Unit :=
  if isHost a || isPeer a then .error (badAddr word 0) else s.checkAddr q a n word 8

/-- The operands of a reduction: name, elements, word. -/
def XRun.operands (r : XRun) (my : Nat) : List Opnd :=
  [xOpnd r.src r.desc.n (r.word 0) false] ++
  (if r.res then [xOpnd r.resIn r.desc.n 4 false, xOpnd r.resOut r.desc.n 5 true] else []) ++
  [xOpnd r.dst (r.dstN my) (r.word 3) true]

/-- The bytes SRC and DST of a gather span. -/
def XRun.gatherSpan (r : XRun) (my : Nat) : Nat × Nat :=
  let own := min r.sh (r.desc.n - my * r.sh)
  let rows := ceilDiv own 128
  (if r.desc.srckind then (if rows = 0 then 0 else (2 * ((rows - 1) / 65536) + 2) * 2 ^ 25) else 33 * ceilDiv own 32,
    if r.desc.dstkind then 33 * ceilDiv r.desc.n 32 else 2 * r.desc.n)

/-- Regions, formats and addresses (R243 to R246): the run, with what is undefined. -/
def State.xChecks (s : State) (q : Nat) (r : XRun) (my : Nat) : Except Fail XRun :=
  if r.empty then .ok r
  else match r.desc.op with
    | 0x5003 =>
      let sp := r.gatherSpan my
      match firstErr
          [ s.needTag q r.src sp.1 (if r.desc.srckind then fp32Fmt else gatherFmt) 3,
            s.needTag q r.dst sp.2 (if r.desc.dstkind then gatherFmt else bf16Fmt) 4,
            s.xAddr q r.src sp.1 3, s.xAddr q r.dst sp.2 4 ] with
      | .error f => .error f
      | .ok () => .ok { r with undef := sp.1 != 0 && decide (r.src < r.dst + sp.2) && decide (r.dst < r.src + sp.1) }
    | 0x5004 =>
      match firstErr [if my = r.desc.root then s.xAddr q r.src r.size 2 else failIf (r.src % 8 != 0) (badAddr 2 0),
          s.xAddr q r.dst r.size 3] with
      | .error f => .error f
      | .ok () => .ok r
    | 0x5005 =>
      let n := r.desc.qn * (32 + 4 * r.d)
      match firstErr [s.xAddr q r.src n 1, s.xAddr q r.dst n 2] with
      | .error f => .error f
      | .ok () => .ok { r with undef := partly r.src n r.dst n }
    | _ =>
      let os := r.operands my
      match s.resolveAll q os with
      | .error f => .error f
      | .ok as => match firstErr (as.map fun a => s.xAddr q a.addr (if a.n = 0 then 0 else a.rb) a.wa) with
        | .error f => .error f
        | .ok () => .ok { r with undef := as.any fun a => as.any fun b => partly a.addr a.rb b.addr b.rb && a.n != 0 && b.n != 0 }

/-- A dispatched collective is checked and begins (R227, R246 to R249): it tells every rank it is here, and takes the
segments held for it. -/
def State.xStart (s : State) (q : Nat) (c : Cmd) (r : XRun) : State :=
  let g := s.group r.group
  if g.state = 3 then (s.dropXRun q).failCmd q ⟨stPeer, g.my % 32768 + 3 * 65536⟩
  else match xFields c g.nr with
    | .error f => s.xFail r f.st f.detail 0xFFFF
    | .ok () => match s.xChecks q r g.my with
      | .error f => s.xFail r f.st f.detail 0xFFFF
      | .ok r =>
        let r : XRun := { r with begun := true, waitAt := s.pwr.time }
        ((s.setXRun r).xSendAll r 0 0 0 []).takeHeld q

/-- The row of a collective: its checks, then one step at a time; R227 has refused one that took no CSEQ. -/
def State.collective (s : State) (q op : Nat) (flt : Bool) : State :=
  match s.running q op with
  | none => s
  | some c => match s.xRun q with
    | some r => if r.begun then s.xStep q flt else s.xStart q c r
    | none => s.failCmd q (badParam 0xF2 0)

/-! XC_RANK_SET (R226). -/

/-- Two entries of a list are equal. -/
def hasTwin : List Nat → Bool
  | [] => false
  | a :: l => l.contains a || hasTwin l

/-- The checks of XC_RANK_SET before its table is read. -/
def State.rankFields (s : State) (q : Nat) (c : Cmd) : Except Fail Unit :=
  let w := c.p 0
  let v := c.p 1
  let nr := fld v 14 0
  let qq := fld w 12 4
  firstErr
    [ bitCheck 0 [lowBit w (bmask 15 13 + bmask 63 28), bitIf (decide (qq < 256) || decide (319 < qq)) 4, bitIf (!s.chanOpen (fld w 27 16)) 16],
      bitCheck 1 [lowBit v (bmask 15 15 + bmask 31 31), bitIf (nr == 0 || decide (16384 < nr)) 0, bitIf (decide (nr ≤ fld v 30 16)) 16],
      s.xAddr q (c.p 2) (2 * nr) 2 ]

/-- The checks of the table's entries. -/
def State.rankTable (s : State) (c : Cmd) (t : List Nat) : Except Fail Unit :=
  let ch := fld (c.p 0) 27 16
  firstErr
    [ failIf (t.any fun e => decide (16384 ≤ e)) (badParam 2 14), failIf (hasTwin t) (badParam 2 0),
      failIf (s.fab.idSrc == 0 || t.getD (fld (c.p 1) 30 16) 0 != s.fab.id) (badParam 2 0),
      failIf (decide (s.reserve ch < 8)) ⟨stQuota, ch + s.reserve ch * 65536⟩ ]

/-- XC_RANK_SET: the table is read once; the group is READY with its EPOCH, and segments of a lower epoch that have
landed are discarded. -/
def State.rankSet (s : State) (q : Nat) : State :=
  match s.running q 0x5010 with
  | none => s
  | some c =>
    match s.rankFields q c with
    | .error f => s.failCmd q f
    | .ok () =>
      let nr := fld (c.p 1) 14 0
      let x := s.opRead q (c.p 2) (2 * nr) 2
      match x.1 with
      | .wait => x.2
      | .bytes bs =>
        let t := (List.range nr).map fun i => leNat ((bs.drop (2 * i)).take 2)
        match s.rankTable c t with
        | .error f => x.2.failCmd q f
        | .ok () =>
          let gi := fld (c.p 0) 3 0
          let ep := BitVec.ofNat 32 (fld (c.p 1) 63 32)
          let s := x.2.setGroup gi ⟨1, nr, fld (c.p 1) 30 16, ep, 0, fld (c.p 0) 12 4, fld (c.p 0) 27 16, t, 0, 0⟩
          (s.dropHeld fun h => h.group == gi && gtMod ep h.epoch).endCmd q stOK 0
      | o => x.2.failCmd q ⟨(Opd.fault o).getD stPoisoned, 2⟩

/-- PEER_TIMEOUT (R248): the awaited segment of group g's oldest collective has not come in time. -/
def State.peerTimeout (s : State) (g : Nat) : State :=
  match s.xch.runs.find? fun r => r.group == g && r.begun with
  | none => s
  | some r =>
    match r.awaited (s.group g).my with
    | some k => if s.due r.waitAt (s.rd 0xC00008) ∧ !r.storing (s.group g).my then s.xFail r stPeer (k % 32768 + 65536) 0xFFFF else s
    | none => s

/-- XCH_NF_CLR (R416). -/
def State.xchNfClr (s : State) : State := s.setCtr 0xC00020 0

/-- XCH_GRPn_STATE.STATE: a READY group with a collective in flight is running. -/
def State.groupState (s : State) (g : Nat) : Nat :=
  if (s.group g).state = 1 ∧ (s.xch.runs.any fun r => r.group == g) then 2 else (s.group g).state

end Sys2Proof.Machine
end

