-- ==== Sys2Proof/Machine/Engines.lean ====
section
/-!
DEFINITION. What the front end needs to know of the engines: the parameter words of every opcode (R26), the execution
resource a command needs (R43), and how an engine stops a command (R40) and lets go of one that has ended.
-/
namespace Sys2Proof.Machine

/-- Parameter words of an opcode, token words excluded; none: no such opcode (R26). -/
def opWords (op : Nat) : Option Nat :=
  match op with
  | 0x0000 => some 0 | 0x0001 => some 2 | 0x0002 => some 1 | 0x0003 => some 1 | 0x0004 => some 1 | 0x0005 => some 1
  | 0x0006 => some 1
  | 0x1001 => some 14 | 0x1002 => some 7 | 0x1003 => some 4 | 0x1004 => some 4
  | 0x2001 => some 7 | 0x2002 => some 14 | 0x2003 => some 8 | 0x2004 => some 13 | 0x2005 => some 12 | 0x2006 => some 11
  | 0x3001 => some 6 | 0x3002 => some 9 | 0x3003 => some 5 | 0x3004 => some 1
  | 0x4001 => some 3 | 0x4002 => some 3 | 0x4010 => some 5 | 0x4011 => some 1 | 0x4012 => some 2 | 0x4020 => some 2
  | 0x4028 => some 2 | 0x4029 => some 1 | 0x4030 => some 2 | 0x4031 => some 1 | 0x4032 => some 1 | 0x4038 => some 2
  | 0x4039 => some 2 | 0x4040 => some 2
  | 0x5001 => some 5 | 0x5002 => some 7 | 0x5003 => some 5 | 0x5004 => some 4 | 0x5005 => some 3 | 0x5010 => some 3
  | 0x6001 => some 9 | 0x6010 => some 3 | 0x6011 => some 0
  | _ => none

/-- The dispatched commands of the engine with queues from `base` on, its own class only: queue and command. -/
def State.dispatched (s : State) (base : Nat) : List (Nat × Cmd) :=
  (List.range 64).filterMap fun i => match (s.q (base + i)).cmd with
    | some c => if c.phase = .running ∧ c.op / 4096 ≠ 0 then some (base + i, c) else none
    | none => none

/-- A cluster is free for a new command (R91): no dispatched command may claim it. -/
def State.clOffered (s : State) : Bool :=
  (List.range 64).any (fun c => s.clFree c && !s.mat.runs.any (s.clTakes c)) &&
  !(s.dispatched 0).any fun e => (e.2.op == 0x1001 || e.2.op == 0x1002) && (s.matRun e.1).isNone

/-- The quadrants that no dispatched command holds (R113). -/
def State.freeQuads (s : State) : List Nat := (List.range 4).filter fun d => !(s.dispatched 64).any fun e => e.2.quads.contains d

/-- The quadrants that a command takes when it is dispatched: every free one, up to its QMAX (R113). -/
def State.takeQuads (s : State) (c : Cmd) : List Nat :=
  let m := fld (c.p 0) 58 56
  s.freeQuads.take (if m = 0 then 4 else m)

/-- The engine of queue q has a free execution resource of the kind its command needs (R43, R91, R99, R113, R185, R200,
R246, R278). -/
def State.engineReady (s : State) (q : Nat) (c : Cmd) : Bool :=
  match c.op / 4096 with
  | 1 => c.op == 0x1003 || c.op == 0x1004 || s.clOffered
  | 2 => !s.freeQuads.isEmpty
  | 3 => s.nbReady c
  | 4 => decide ((s.dispatched (q / 64 * 64)).length < 8)
  | 5 => decide ((s.dispatched (q / 64 * 64)).length < 4)
  | 6 => s.itkReady
  | _ => true

/-- The command of queue q, if it is still running, ends for the cause of its stop, or for a fault its engine has already
found (R40). -/
def State.endStopped (s : State) (q : Nat) (found : Option (Byte × Nat)) : State :=
  match (s.q q).cmd with
  | some c =>
    if c.phase = .running then
      match found with
      | some f => s.endCmd q f.1 f.2
      | none => s.endCmd q stAborted 0
    else s
  | none => s

/-- Clusters that were to leave service after their work item, and no longer run one, leave (Table 15.8). -/
def State.matLeave (s : State) : State :=
  (s.mat.leaving.filter fun e => e.2 && (s.clItem e.1).isNone).foldl (fun s e => s.clLeaves e.1) s

/-- The command of queue q has ended and nothing of it is left in its engine. -/
def State.engineDone (s : State) (q : Nat) (_c : Cmd) (_st : Byte) : State :=
  match q / 64 with
  | 0 => (s.dropRun q).matLeave
  | 1 => s.dropVRun q
  | 2 => s.dropNRun q
  | 3 => s.tirStop q
  | 4 => s.dropXRun q
  | _ => s.dropBatch q

/-- Stop a near-bank command: between row indices (R203), or at once when it has ended already. -/
def State.nbHalt (s : State) (q : Nat) : State :=
  match (s.q q).cmd with
  | some c =>
    if c.phase = .running then
      let s := s.nbStop q
      if (s.nbRun q).isNone then s.endStopped q none else s
    else s.dropNRun q
  | none => s.dropNRun q

/-- The engine of queue q stops its command (R40, R58, R131, R203, R248, R306). -/
def State.engineStop (s : State) (q : Nat) : State :=
  match q / 64 with
  | 0 => ((s.matStop q).endStopped q ((s.matRun q).bind (·.fail))).matLeave
  | 1 => (s.dropVRun q).endStopped q ((s.vecRun q).bind (·.fail))
  | 2 => s.nbHalt q
  | 3 => (s.tirStop q).endStopped q none
  | 4 => s.xStop q
  | _ => s.itkStop q

/-- A read from outside for the running command of queue q has failed: a work item or row fails of it, any other command
ends (R101, R108, R133). -/
def State.engineReadFail (s : State) (q : Nat) (f : Fail) : State :=
  match q / 64 with
  | 0 => if (s.matRun q).isSome then s.matReadFail q f else (s.failCmd q f).engineStop q
  | 1 => if (s.vecRun q).isSome then s.vecReadFail q f else (s.failCmd q f).engineStop q
  | _ => (s.failCmd q f).engineStop q

end Sys2Proof.Machine
end

