-- ==== Sys2Proof/Machine/Front.lean ====
section
/-!
DEFINITION. The front end's steps on rings, lists and current commands (R27 to R44, R436, R438), and slipway conditions
(R46 to R49).
-/
namespace Sys2Proof.Machine

/-! Slipways (R46 to R49). -/

/-- Slipway n. -/
def State.slip (s : State) (n : Nat) : Slip := tget slipReset s.cqf.slips n
/-- Set slipway n. -/
def State.setSlip (s : State) (n : Nat) (v : Slip) : State :=
  { s with cqf := { s.cqf with slips := tput slipReset s.cqf.slips n v } }
/-- CQF_SLn_CTL.ENABLE. -/
def State.slipOn (s : State) (n : Nat) : Bool := s.rbit (slo n 0x1C) 0
def State.slipSlots (s : State) (n : Nat) : Nat := s.rf (slo n 0) 4 0
/-- A named queue is enabled. -/
def State.qEnabled (s : State) (q : Nat) : Bool := decide (q < 384) && s.rbit (qo q 0) 0

/-- May the slipway be enabled (R46)? -/
def State.slipValid (s : State) (n : Nat) : Bool :=
  let slots := s.slipSlots n
  let units := s.rf (slo n 4) 10 0
  let base := s.rd3 (slo n 8)
  decide (3 ≤ slots) && decide (slots ≤ 16) && decide (1 ≤ units) && decide (units ≤ 1024) && aligned base 4096 &&
  inRange base (slots * units * 4096) && s.qEnabled (s.rf (slo n 0x14) 8 0) && s.qEnabled (s.rf (slo n 0x18) 8 0)

/-- The slipway's side for an opcode: ACQUIRE and PUBLISH are the producer's. -/
def slipQueueOff (op : Nat) : Nat := if op ≤ 4 then 0x14 else 0x18

/-- (a − b) modulo 2^32 as a signed number (R48). -/
def sdiff (a b : W32) : Int := (a - b).toInt

/-- The checks of a slipway command (R45, R48, Table 2.9): reserved bits, enable and side, count. -/
def State.slipCheck (s : State) (q : Nat) (c : Cmd) : Except Fail Unit :=
  let w := c.p 0
  match lowBit w (bmask 31 6) with
  | some b => .error (badParam 0 b)
  | none =>
    let n := fld w 5 0
    let f := BitVec.ofNat 32 (fld w 63 32)
    let v := s.slip n
    if !s.slipOn n || s.rf (slo n (slipQueueOff c.op)) 8 0 != q then .error (badParam 0 0)
    else
      let slots : Int := s.slipSlots n
      let good := match c.op with
        | 3 => decide (f = v.tail)
        | 4 => decide (f = v.tail) && decide (sdiff f v.head < slots)
        | 5 => decide (f = v.head)
        | _ => decide (f = v.head) && decide (1 ≤ sdiff v.tail f)
      if good then .ok () else .error (badParam 0 32)

/-- The condition a slipway command waits for (Table 2.9). A command that would fail its checks does not wait (R49). -/
def State.slipMet (s : State) (q : Nat) (c : Cmd) : Bool :=
  match s.slipCheck q c with
  | .error _ => true
  | .ok () =>
    let n := fld (c.p 0) 5 0
    let f := BitVec.ofNat 32 (fld (c.p 0) 63 32)
    match c.op with
    | 3 => decide (sdiff f (s.slip n).head < (s.slipSlots n : Int))
    | 5 => decide (1 ≤ sdiff (s.slip n).tail f)
    | _ => true

/-! Readiness and wait reasons (R43, R44, Table 2.6). -/

/-- Dispatch is stopped (R44): DISPATCH_EN, CFG_CRC_ACTION 2, a D3hot entry, or the compute domains are off (R405). -/
def State.held (s : State) : Bool := !s.rbit 0x500000 0 || s.cqf.heldCrc || s.cqf.heldD3 || s.pwr.state != 0

/-- The opcode is a slipway command. -/
def isSlip (op : Nat) : Bool := decide (3 ≤ op) && decide (op ≤ 6)

/-- The current command's own conditions are met but for the engine's resource (R43). -/
def State.condMet (s : State) (q : Nat) (c : Cmd) : Bool :=
  s.tokMet c.waitTok && (!isSlip c.op || s.slipMet q c) && (!c.fence || s.visible q) && !s.held

/-- Queue q's current command is ready (R43). -/
def State.ready (s : State) (q : Nat) : Bool :=
  match (s.q q).cmd with
  | some c => (s.q q).state == .active && c.phase == .waiting && s.condMet q c && s.engineReady q c
  | none => false

/-- A read or write of the current command waits for a transfer tag (R52, R57). -/
def State.tagless (s : State) (q : Nat) : Bool :=
  (s.cqf.tagWait.any fun w => w.queue == q) || s.fab.tagWait.any fun w => w.req?.any fun r => r.queue == q

/-- The wait reason of a queue (Table 2.6, R44). Where a dispatch hold meets an unmet token or slipway, the token or slipway
shows; an unmet FENCE, for which Table 2.7 lists no reason, shows as 5 (DESIGN CHOICE, log entry 64). -/
def State.waitReason (s : State) (q : Nat) : Nat :=
  match (s.q q).cmd with
  | none => match (s.q q).lst with
    | some l => if !l.begun && !s.tokMet l.waitTok then 1 else if (s.q q).reads.isEmpty then 0 else 5
    | none => 0
  | some c =>
    match c.phase with
    | .waiting =>
      if !s.tokMet c.waitTok then 1
      else if isSlip c.op && !s.slipMet q c then 2
      else if s.held then 6
      else if !(!c.fence || s.visible q) then 5
      else if !s.engineReady q c then 7 else 0
    | .running =>
      if s.cqf.landing.any fun r => r.what == .queue q then 3
      else if s.tagless q then 4
      else if !(s.q q).reads.isEmpty then 5 else 0
    | .ended _ _ => if s.tagless q then 4 else 0

/-! Fetching (R34, R38, R436). -/

/-- What the front end can tell from a header before it reads parameter words (R26, R34 steps 1 to 3). -/
def headerCheck (q : Nat) (l : ListCtx) (h : Nat) : Except Fail Unit :=
  let op := fld h 15 0
  let len := fld h 23 16
  let cls := op / 4096
  let toks := b2n (bitAt h 26) + b2n (bitAt h 27)
  match opWords op with
  | none => .error ⟨stBadOpcode, op⟩
  | some k =>
    if cls != 0 && cls != q / 64 + 1 then .error ⟨stBadOpcode, op⟩
    else match lowBit h (bmask 31 29 + if cls = 1 then 0 else bmask 28 28) with
      | some b => .error (badParam 0xFF b)
      | none =>
        let past := decide (l.len < l.pos + 1 + len)
        if len != toks + k || past then
          .error ⟨stBadLength, len + 256 * (toks + k) + (if past then 0xFFFF0000 else 0)⟩
        else .ok ()

/-- Check a token word (R34 step 4): the channel's window and reserved bits, the lowest offending bit first (Table 2.6). -/
def tokenCheck (cnt idx w : Nat) : Except Fail Unit :=
  if cnt ≤ fld w 43 32 then .error (badParam idx 32)
  else match lowBit w (bmask 63 44) with
    | some b => .error (badParam idx b)
    | none => .ok ()

/-- The absolute token and value of a token word. -/
def tokenOf (base w : Nat) : Nat × W32 := (base + fld w 43 32, BitVec.ofNat 32 w)

/-- Make a command current (R38): its header, its parameter words, and a failure the front end has found. -/
def State.makeCurrent (s : State) (q : Nat) (l : ListCtx) (h : Nat) (ws : List Nat) (f : Option Fail) : State :=
  let wt := bitAt h 26
  let sg := bitAt h 27
  let base := s.tokBase (s.chan q)
  let own := ws.drop (b2n wt + b2n sg)
  let c : Cmd :=
    { op := fld h 15 0, tag := BitVec.ofNat 32 (fld h 63 32), fence := bitAt h 24, notify := bitAt h 25,
      ordered := bitAt h 28,
      waitTok := if wt then some (tokenOf base (ws.getD 0 0)) else none,
      sigTok := if sg then some (tokenOf base (ws.getD (b2n wt) 0)) else none,
      params := own.map fun w => BitVec.ofNat 64 w,
      since := if !l.begun && l.waitTok.isSome then l.since else s.pwr.time,
      phase := match f with
        | some f => .ended f.st (BitVec.ofNat 32 f.detail)
        | none => .waiting,
      stop := none }
  s.setQ q { s.q q with state := .active, cmd := some c, have_ := [],
                        lst := some { l with pos := l.pos + 1 + fld h 23 16, begun := true } }

/-- The token checks of a fetched command (R34 step 4), wait token first. -/
def State.tokenChecks (s : State) (q h : Nat) (ws : List Nat) : Option Fail :=
  let cnt := s.tokCnt (s.chan q)
  let wt := bitAt h 26
  let a := if wt then tokenCheck cnt 0xF0 (ws.getD 0 0) else .ok ()
  let b := if bitAt h 27 then tokenCheck cnt 0xF1 (ws.getD (b2n wt) 0) else .ok ()
  match a with
  | .error f => some f
  | .ok () => match b with
    | .error f => some f
    | .ok () => none

/-- A list ends (R37, R38): its signal, and the queue watches its ring again. -/
def State.endList (s : State) (q : Nat) : State :=
  match (s.q q).lst with
  | some l =>
    let s := s.signal l.sigTok
    s.setQ q { s.q q with state := .idle, lst := none, cmd := none, have_ := [] }
  | none => s

/-- A fetch of the front end would have to read host memory while Bus Master Enable is 0 (R319, R436). -/
def State.barred (s : State) (q a n : Nat) : Bool := isHost a && !s.hif.bme && !(s.q q).has a n
/-- Its failure (Table 12.3). -/
def barredFail : Fail := badAddr 0xFF 6

/-- Read the parameter words of a fetched header and make the command current. A word that cannot be read fails the
command with its TAG and DETAIL 0xFF (R436). -/
def State.fetchParams (s : State) (q : Nat) (l : ListCtx) (h : Nat) : State :=
  match headerCheck q l h with
  | .error f => s.makeCurrent q l h [] (some f)
  | .ok () =>
    let len := fld h 23 16
    let at_ := l.addr + 8 * (l.pos + 1)
    if len ≠ 0 ∧ s.barred q at_ (8 * len) then (s.evHif 2).makeCurrent q l h [] (some barredFail)
    else
    let r := s.opRead q at_ (8 * len) 0xFF
    match r.1 with
    | .bytes bs =>
      let ws := wordsOf len bs
      r.2.makeCurrent q l h ws (r.2.tokenChecks q h ws)
    | .wait => r.2
    | .uncorrectable => r.2.makeCurrent q l h [] (some ⟨stUncorrectable, 0xFF⟩)
    | _ => r.2.makeCurrent q l h [] (some ⟨stPoisoned, 0xFF⟩)

/-- Fetch the next command of the current list, or end the list (R38). -/
def State.fetchNext (s : State) (q : Nat) : State :=
  match (s.q q).lst with
  | none => s
  | some l =>
    if l.len ≤ l.pos then s.endList q
    else if s.barred q (l.addr + 8 * l.pos) 8 then (s.evHif 2).frontFail q barredFail.st barredFail.detail .header
    else
      let r := s.opRead q (l.addr + 8 * l.pos) 8 0xFF
      match r.1 with
      | .bytes bs => r.2.fetchParams q l (leNat bs)
      | .wait => r.2
      | .uncorrectable => r.2.frontFail q stUncorrectable 0xFF .header
      | _ => r.2.frontFail q stPoisoned 0xFF .header

/-! Ring entries (R27, R28, R32, R33). -/

/-- The engine address of the slot the queue expects (R28). -/
def State.slotAddr (s : State) (q : Nat) : Nat :=
  ringAddr (s.rd3 (qo q 8)) + ((s.q q).head.toNat % 2 ^ s.rf (qo q 4) 4 0) * 32
/-- The head write-back area (R27). -/
def State.headArea (s : State) (q : Nat) : Nat := ringAddr (s.rd3 (qo q 8)) + 2 ^ s.rf (qo q 4) 4 0 * 32

/-- What the sequence stamp says (R28). -/
inductive Stamp where
  | posted
  | overrun
  | notYet
  deriving DecidableEq, Repr

/-- Compare a slot's SEQ with the expected stamp (R28). -/
def stampOf (seq head : W32) : Stamp :=
  let d := (seq - head).toNat
  if d = 0 then .posted else if d < 2 ^ 31 then .overrun else .notYet

/-- The checks of a taken entry (R33): the words, and the channel's token window. -/
def entryCheck (cnt : Nat) (w : List Nat) : Except Fail Unit :=
  let w0 := w.getD 0 0
  let w1 := w.getD 1 0
  let w2 := w.getD 2 0
  let w3 := w.getD 3 0
  let res := [lowBit w0 (bmask 63 48), (lowBit w2 (bmask 46 44 + bmask 62 60)).map (128 + ·), (lowBit w3 (bmask 63 32)).map (192 + ·)]
  match res.filterMap id with
  | b :: _ => .error (badParam 0xFF b)
  | [] =>
    let len := fld w1 31 0
    if 1048576 < len then .error (badParam 0xFF 64)
    else
      let local_ := !bitAt w0 47
      if len != 0 && ((local_ && fld w0 46 41 != 0) || fld w0 2 0 != 0) then .error ⟨stBadAddress, 0xFF⟩
      else if bitAt w2 47 && decide (cnt ≤ fld w2 43 32) then .error (badParam 0xFF 160)
      else if bitAt w2 63 && decide (cnt ≤ fld w2 59 48) then .error (badParam 0xFF 176)
      else .ok ()

/-- The list a good entry names. -/
def State.entryList (s : State) (q : Nat) (w : List Nat) : ListCtx :=
  let w0 := w.getD 0 0
  let w1 := w.getD 1 0
  let w2 := w.getD 2 0
  let base := s.tokBase (s.chan q)
  { addr := ringAddr w0, len := fld w1 31 0, pos := 0,
    waitTok := if bitAt w2 47 then some (base + fld w2 43 32, BitVec.ofNat 32 w2) else none,
    sigTok := if bitAt w2 63 then some (base + fld w2 59 48, BitVec.ofNat 32 (fld w1 63 32)) else none,
    since := s.pwr.time, begun := false }

/-- Take a posted entry (R27, R28, R33): HEAD advances and is written back, then the entry is checked. -/
def State.takeEntry (s : State) (q : Nat) (w : List Nat) : State :=
  let v := s.q q
  let s := s.setQ q { v with head := v.head + 1, have_ := [] }
  let s := s.frontWrite q (s.headArea q) (leBytes 4 (v.head + 1).toNat ++ List.replicate 60 0)
  if (s.q q).state = .stopped then s
  else match entryCheck (s.tokCnt (s.chan q)) w with
    | .error f => s.frontFail q f.st f.detail .entry
    | .ok () => s.setQ q { s.q q with state := .active, lst := some (s.entryList q w) }

/-- An overrun stops the queue (R28). -/
def State.overrun (s : State) (q : Nat) (seq : W32) : State := s.frontFail q stOverrun seq.toNat .slot

/-- The queue watches its ring: IDLE, and the front end is not stopped by a power state (R405). -/
def State.watching (s : State) (q : Nat) : Bool := (s.q q).state == .idle && !(s.q q).draining && s.pwr.state == 0

/-- Look at a slot's words: take it, stop with OVERRUN, or go on watching (R28). -/
def State.seeSlot (s : State) (q : Nat) (bs : List Byte) : State :=
  let w := wordsOf 4 bs
  let seq := BitVec.ofNat 32 (w.getD 3 0)
  match stampOf seq (s.q q).head with
  | .posted => s.takeEntry q w
  | .overrun => s.overrun q seq
  | .notYet => s.setQ q { s.q q with have_ := [] }

/-- ENTRY_TAKE: read the expected slot and act on its stamp (R28, R436). A host slot is read by polls (R32). -/
def State.entryTake (s : State) (q : Nat) : State :=
  if !s.watching q then s
  else
    let a := s.slotAddr q
    if isHost a && !(s.q q).has a 32 then s
    else
      let r := s.opRead q a 32 0xFF
      match r.1 with
      | .bytes bs => r.2.seeSlot q bs
      | .wait => r.2
      | .uncorrectable => r.2.frontFail q stUncorrectable 0xFF .slot
      | _ => r.2.frontFail q stPoisoned 0xFF .slot

/-- HOST_RING_POLL: once every CQF_POLL interval the expected slot of an idle host ring is read (R32); a slot already
read that is stamped ahead stops the queue (R28). -/
def State.hostPoll (s : State) (q : Nat) : State :=
  if !s.watching q || !isHost (s.slotAddr q) then s
  else if (s.q q).has (s.slotAddr q) 32 then
    let bs := tgets zeroB s.hif.ext (s.slotAddr q) 32
    let seq := BitVec.ofNat 32 (leNat (bs.drop 24))
    match stampOf seq (s.q q).head with
    | .overrun => s.overrun q seq
    | _ => s
  else if !(s.q q).reads.isEmpty || s.pwr.time < (s.q q).polled + s.rd 0x500004 * 100 then s
  else
    let s := s.setQ q { s.q q with polled := s.pwr.time }
    if s.hif.bme then s.request q (s.slotAddr q) 32 0xFF else (s.evHif 2).frontFail q barredFail.st barredFail.detail .slot

/-! Lists and commands. -/

/-- LIST_FETCH: once a taken list's wait token is met, its first command is fetched; an empty list ends (Table
2.11). Also fetches a later header whose words had to come from the host. -/
def State.listFetch (s : State) (q : Nat) : State :=
  let v := s.q q
  match v.lst, v.cmd with
  | some l, none => if v.state == .active && s.tokMet l.waitTok && s.pwr.state == 0 then s.fetchNext q else s
  | _, _ => s

/-- COMMAND_DISPATCH: the ready command of the lowest-numbered queue of its engine (R43). The region tags it uses are those
of this moment (R79), and so are STATE of every tide entry they name (R139) and the clusters in service (R93); a vector
command takes its quadrants (R113), a collective the CSEQ of its group (R227), a batch the manifest version (R339). Its opcode's own step makes the checks of its engine before it touches memory (R102). -/
def State.dispatch (s : State) (q : Nat) : State :=
  if s.ready q && !(List.range (q % 64)).any fun i => s.ready (q / 64 * 64 + i) then
    match (s.q q).cmd with
    | some c =>
      let s := [0x800014, 0x800018, 0x80001C].foldl State.useT s
      let n := s.mat.serial
      let t := if q / 64 = 0 then { s with mat := { s.mat with serial := n + 1 } } else s
      (t.setCmd q { c with phase := .running, tags := s.tagMap, tide := s.tideMap, clusters := s.clCount, born := n,
                            quads := if c.op / 4096 = 2 then s.takeQuads c else [],
                            man := s.mgt.vers.getD 2 (1, 0) }).xDispatch q c
    | none => s
  else s

/-- Nothing of the queue is in flight: it becomes DISABLED if it was draining (R39, R41). -/
def State.drained (s : State) (q : Nat) : State :=
  if (s.q q).draining then s.disableQ q (s.q q).aborting else s

/-- A peer access that no longer serves a command of queue q. -/
def PeerReq.orphan (q : Nat) (r : PeerReq) : PeerReq := if r.queue = q then { r with queue := q + 384 } else r
/-- What waits for a tag, likewise. -/
def TagFor.orphan (q : Nat) : TagFor → TagFor
  | .access r => .access (r.orphan q)
  | .segment x => .segment x

/-- The reads of a queue are abandoned and their tags return. -/
def State.dropReads (s : State) (q : Nat) : State :=
  let n := (s.q q).reads.length
  let p := s.pool 21
  let s := s.setPool 21 { p with inUse := p.inUse - n }
  let s := s.setQ q { s.q q with reads := [], have_ := [] }
  { s with cqf := { s.cqf with tagWait := s.cqf.tagWait.filter (fun w => w.queue != q),
                               landing := s.cqf.landing.filter (fun r => r.what != .queue q) },
           fab := { s.fab with reqQ := s.fab.reqQ.filter (fun r => r.queue != q || r.bytes.isSome),
                               tagWait := s.fab.tagWait.filter (fun w => !(w.req?.any fun r => r.queue == q && r.bytes.isNone)),
                               tags := s.fab.tags.map fun e => (e.1, e.2.map fun t =>
                                 if t.req.bytes.isNone then { t with req := t.req.orphan q } else t) } }

/-- Peer writes of a command that has ended go on, for no command; a FENCE still waits for them (R36). -/
def Fab.release (f : Fab) (q : Nat) : Fab :=
  { f with reqQ := f.reqQ.map (PeerReq.orphan q), tagWait := f.tagWait.map fun w => { w with what := w.what.orphan q },
           tags := f.tags.map fun e => (e.1, e.2.map fun t => { t with req := t.req.orphan q }) }

/-- Host writes of a command that has ended are no command's any more: their loss fails none (R323). -/
def Hif.release (h : Hif) (q : Nat) : Hif :=
  { h with tlps := h.tlps.map fun t => if t.own = .engine q then { t with own := .other } else t,
           outq := h.outq.map fun o => match o with
             | .write own a bs => .write (if own = .engine q then .other else own) a bs
             | .msix v => .msix v }

/-- What a command gives back when it completes (R51). -/
def State.release (s : State) (q : Nat) : State :=
  let s := (s.freeBufs (s.chan q) (s.q q).bufs).dropReads q
  let s := { s with fab := s.fab.release q, hif := s.hif.release q }
  s.setQ q { s.q q with bufs := 0, acks := 0 }

/-- Write the reply of the current command, and raise the queue's vector when NOTIFY is set and a reply is written (R38,
R321). -/
def State.replyCmd (s : State) (q : Nat) (c : Cmd) (st : Byte) (d : W32) : State :=
  let t := s.reply q c.tag st d
  if c.notify && s.replies q then t.irq q else t

/-- The current list of a queue, one of whose commands has failed, applies no signal any more (R39). A list of which only a
header could not be read (R436) keeps its signal: after RESUME_NEXT it may still end well (DESIGN CHOICE, log entry 64). -/
def State.muteList (s : State) (q : Nat) : State :=
  s.setQ q { s.q q with lst := (s.q q).lst.map fun (l : ListCtx) => { l with sigTok := none } }

/-- COMMAND_COMPLETE: the reply in list order, then signals and the next command, or the stop (R37 to R41). -/
def State.complete (s : State) (q : Nat) : State :=
  match (s.q q).cmd with
  | some c =>
    match c.phase with
    | .ended st d =>
      if isSuccess st && !s.visible q then s
      else
        let s := ((s.engineDone q c st).release q).replyCmd q c st d
        let lost := (s.q q).state == .stopped
        let s := s.setQ q { s.q q with cmd := none }
        if isSuccess st then
          let s := s.signal c.sigTok
          if (s.q q).draining then s.drained q
          else if lost then s.setQ q { s.q q with failed := .command }
          else s.fetchNext q
        else if (s.q q).draining then s.drained q
        else
          let s := s.muteList q
          if lost then s.setQ q { s.q q with failed := .command } else s.stopQ q st c.tag .command
    | _ => s
  | none => s

/-- Ask the engine to stop the current command with a status (R40). -/
def State.requestStop (s : State) (q : Nat) (st : Byte) (d : Nat) : State :=
  match (s.q q).cmd with
  | some c =>
    if c.phase = .running ∧ c.stop = none then
      (s.setCmd q { c with stop := some (st, BitVec.ofNat 32 d) }).engineStop q
    else s
  | none => s

/-- DETAIL of a TIMEOUT reply: wait reason and milliseconds elapsed (Table 2.6). -/
def timeoutDetail (reason ms : Nat) : Nat := reason + min ms 0xFFFF * 65536

/-- QUEUE_TIMEOUT: a list's wait or a current command has exceeded CQF_Qn_TIMEOUT (R40); a command whose writes are not all
visible has not completed. -/
def State.timeout (s : State) (q : Nat) : State :=
  let v := s.q q
  let lim := s.rd (qo q 0x18)
  if lim = 0 ∨ v.state ≠ .active then s
  else match v.cmd with
    | none => match v.lst with
      | some l =>
        if !l.begun && l.waitTok.isSome && !s.tokMet l.waitTok && s.due l.since lim then
          let d := timeoutDetail 1 (s.msSince l.since)
          (s.errRec 0x0B 1 5 q d 0).frontFail q stTimeout d .listWait
        else s
      | none => s
    | some c =>
      if s.due c.since lim && c.stop.isNone then
        let d := timeoutDetail (s.waitReason q) (s.msSince c.since)
        match c.phase with
        | .waiting => (s.errRec 0x0B 1 5 q d 0).failCmd q ⟨stTimeout, d⟩
        | .running => (s.errRec 0x0B 1 5 q d 0).requestStop q stTimeout d
        | .ended st _ =>
          if isSuccess st && !s.visible q then
            (s.errRec 0x0B 1 5 q d 0).setCmd q { c with phase := .ended stTimeout (BitVec.ofNat 32 d) }
          else s
      else s

/-- RESUME_NEXT: continue after the step that failed (R39). -/
def State.resumeNext (s : State) (q : Nat) : State :=
  let v := s.q q
  if v.state ≠ .stopped ∨ v.draining then s
  else match v.failed with
    | .entry => s.setQ q { v with state := .idle, lst := none, failed := .none }
    | .slot => s.setQ q { v with state := .idle, failed := .none, have_ := [] }
    | .listWait =>
      (s.setQ q { v with state := .active, failed := .none, lst := v.lst.map fun l => { l with waitTok := none } }).fetchNext q
    | _ =>
      if v.lst.isSome then (s.setQ q { v with state := .active, failed := .none }).fetchNext q
      else s.setQ q { v with state := .idle, failed := .none }

/-- DROP_LIST: abandon the rest of the list without its signal (R39). -/
def State.dropList (s : State) (q : Nat) : State :=
  let v := s.q q
  if v.state ≠ .stopped ∨ v.draining then s
  else s.setQ q { v with state := .idle, lst := none, failed := .none, have_ := [] }

/-- Clear CQF_Qn_CTL.ENABLE. -/
def State.clearEnable (s : State) (q : Nat) : State := s.setReg (qo q 0) (s.rd (qo q 0) / 2 * 2)

/-- Abandon a queue (R39, R58): the current command that is not dispatched is answered, a dispatched one is asked to
stop with `d` as DETAIL; DISABLED once nothing is in flight. -/
def State.abandonQ (s : State) (q d : Nat) : State :=
  let s := s.clearEnable q
  match (s.q q).cmd with
  | none => (s.release q).disableQ q true
  | some c =>
    match c.phase with
    | .waiting => ((s.release q).replyCmd q c stAborted (BitVec.ofNat 32 d)).disableQ q true
    | .running => (s.setQ q { s.q q with draining := true, aborting := true }).requestStop q stAborted d
    | .ended st e =>
      let r := endStatus (some (stAborted, BitVec.ofNat 32 d)) st e
      s.setQ q { s.q q with draining := true, aborting := true, cmd := some { c with phase := .ended r.1 r.2 } }

/-- RESET of a queue (R39): ignored only when DISABLED. -/
def State.resetQ (s : State) (q : Nat) : State := if (s.q q).state = .disabled then s else s.abandonQ q 0

/-- ENABLE ← 0 (R41): no entry is taken; a current command not dispatched gets ABORTED_RESET; DISABLED once nothing is in
flight. -/
def State.disable (s : State) (q : Nat) : State :=
  let s := s.clearEnable q
  if (s.q q).state = .disabled ∨ (s.q q).draining then s
  else match (s.q q).cmd with
    | none => (s.release q).disableQ q false
    | some c =>
      match c.phase with
      | .waiting => ((s.release q).replyCmd q c stAborted 0).disableQ q false
      | _ => s.setQ q { s.q q with draining := true }

/-- Refuse a queue's enable or configuration write (R41, R42). -/
def State.refuseQ (s : State) (q : Nat) : State := (s.event (qo q 0x38) 3).evCqf 3

/-- May ENABLE ← 1 take effect (R41, R410)? -/
def State.enableValid (s : State) (q : Nat) : Bool :=
  let sz := s.rf (qo q 4) 4 0
  let st := s.rf (qo q 0x1C) 4 0
  let b := s.rd3 (qo q 8)
  let t := s.rd3 (qo q 0x20)
  decide (1 ≤ sz) && decide (sz ≤ 16) && decide (1 ≤ st) && decide (st ≤ 16) && s.chanOpen (s.chan q) &&
  (bitAt b 47 || fld b 46 41 == 0) && (bitAt t 47 || fld t 46 41 == 0) && (s.q q).state == .disabled && !s.cfg.recovery

/-- ENABLE ← 1 (R29, R41): changes nothing on an enabled queue; refused, or the queue starts at HEAD 0. -/
def State.enable (s : State) (q : Nat) : State :=
  if s.rbit (qo q 0) 0 then s
  else if s.enableValid q then
    let s := s.setReg (qo q 0) (s.rd (qo q 0) ||| 1)
    let s := s.setQ q { Queue.reset with state := .idle, err := (s.q q).err, errTag := (s.q q).errTag }
    s.frontWrite q (s.headArea q) (List.replicate 64 0)
  else s.refuseQ q

/-- A front-end read of the queue has failed (R436, Table 12.3): a slot, a header, or a parameter word of a list. -/
def State.frontReadFail (s : State) (q : Nat) (addr : Nat) (st : Byte) (detail : Nat) : State :=
  let v := s.q q
  match v.lst with
  | none => s.frontFail q st detail .slot
  | some l =>
    if hostAddr addr < l.addr + 8 * (l.pos + 1) then s.frontFail q st detail .header
    else s.makeCurrent q l (leNat (tgets zeroB s.hif.ext (l.addr + 8 * l.pos) 8)) [] (some ⟨st, detail⟩)

/-- An engine's or the front end's host read has failed: every read of the queue in flight is abandoned (R319). -/
def State.hostReadFail (s : State) (q : Nat) (r : HostReq) (st : Byte) (detail : Nat) : State :=
  let s := s.dropReads q
  if r.word = 0xFF then s.frontReadFail q r.addr st detail
  else match (s.q q).cmd with
    | some c => if c.phase = .running then s.engineReadFail q ⟨st, detail⟩ else s
    | none => s

/-- HOST_COMPLETION: the oldest read of the queue in flight completes (R319, Table 12.3). -/
def State.hostComplete (s : State) (q : Nat) (res : HostResult) : State :=
  match (s.q q).reads with
  | [] => s
  | r :: rest =>
    let word (reason : Nat) : Nat := addrWord r.word + 256 * reason
    match res with
    | .data bs =>
      if bs.length = r.len then
        let s := s.freeTag 21
        let s := { s with hif := { s.hif with ext := tputs zeroB s.hif.ext (hostAddr r.addr) bs } }
        let s := s.setQ q { s.q q with reads := rest, have_ := (s.q q).have_ ++ [(hostAddr r.addr, r.len)] }
        let s := if r.word = 0xFF then s else (s.bump64 0x400020 r.len).bump64 (bo (s.chan q) 0x30) r.len
        if (s.q q).state == .idle && hostAddr r.addr == s.slotAddr q && r.len == 32 then
          let seq := BitVec.ofNat 32 (leNat (bs.drop 24))
          match stampOf seq (s.q q).head with
          | .overrun => s.overrun q seq
          | .notYet => s.setQ q { s.q q with have_ := [] }
          | .posted => s
        else s
      else s
    | .ur => ((s.evHif 3).bump 0x400044 1).hostReadFail q r stBadAddress (word 7)
    | .ca => ((s.evHif 4).bump 0x400044 1).hostReadFail q r stBadAddress (word 8)
    | .poisoned => ((s.evHif 6).aerEvent 12).hostReadFail q r stPoisoned (dataWord r.word)

/-- The milliseconds the current command has been current. -/
def State.cmdMs (s : State) (q : Nat) : Nat :=
  match (s.q q).cmd with
  | some c => s.msSince c.since
  | none => 0

/-- The shortest timeout, in ns, of a Completion Timeout Value of Device Control 2, as PCI Express defines ranges A to D. -/
def cplLeast (v : Nat) : Nat :=
  match v with
  | 2 => 1000000 | 5 => 16000000 | 6 => 65000000 | 9 => 260000000 | 10 => 1000000000 | 13 => 4000000000 | 14 => 17000000000
  | _ => 50000

/-- HOST_COMPLETION_TIMEOUT (Table 12.3): where Device Control 2 allows it, and not before its range does. A front-end read
fails with [2:0] = 5 too, the DETAIL of Table 12.3 and not R436's 0xFF (DESIGN CHOICE, log entry 64). -/
def State.hostTimeout (s : State) (q : Nat) : State :=
  match (s.q q).reads with
  | [] => s
  | r :: _ =>
    if s.hif.conf.cplOff ∨ s.pwr.time < r.since + cplLeast s.hif.conf.cplRange then s
    else (((s.evHif 5).bump 0x400040 1).aerEvent 14).hostReadFail q r stTimeout (timeoutDetail 5 (s.cmdMs q))

end Sys2Proof.Machine
end

