-- ==== Sys2Proof/Machine/Rs.lean ====
section
/-!
DEFINITION. The frame code RS(224,206) of the fabric (R255): systematic encoding, and decoding of up to nine symbol errors
by the Berlekamp–Massey algorithm, a search for the roots of the locator and Forney's formula.
-/
namespace Sys2Proof.Machine

/-- The multiplicative inverse. -/
def gfInv (a : Byte) : Byte := gfPow a 254

/-- Multiply a polynomial (constant term first) by (x − r). -/
def polyTimesRoot (r : Byte) (p : List Byte) : List Byte :=
  List.zipWith (· ^^^ ·) (0 :: p) ((p.map fun c => gfMul c r) ++ [0])

/-- The generator polynomial, constant term first: the product of (x − α^i) for i = 0 to 17. -/
def rsGen : List Byte := (List.range 18).foldl (fun p i => polyTimesRoot (gfAlpha i) p) [1]

/-- One step of the division of data × x^18 by the generator: `g` is the generator's coefficients of x^17 to x^0, the
remainder's coefficients stand highest degree first. -/
def rsShift (g : List Byte) (rem : List Byte) (d : Byte) : List Byte :=
  let fb := d ^^^ rem.getD 0 0
  List.zipWith (fun a b => a ^^^ gfMul fb b) (rem.drop 1 ++ [0]) g

/-- The 18 parity symbols of 206 data symbols, the first symbol of the highest degree (R255). -/
def rsParity (data : List Byte) : List Byte :=
  data.foldl (rsShift (rsGen.reverse.drop 1)) (List.replicate 18 0)

/-- The value of a polynomial, highest degree first, at x. -/
def polyEval (x : Byte) (p : List Byte) : Byte := p.foldl (fun s c => gfMul s x ^^^ c) 0
/-- The syndromes of a received word. -/
def rsSyndromes (r : List Byte) : List Byte := (List.range 18).map fun i => polyEval (gfAlpha i) r

/-- The state of the Berlekamp–Massey algorithm: locator and its last copy (constant term first), length, shift, last
discrepancy. -/
structure BmState where
  c : List Byte
  b : List Byte
  l : Nat
  m : Nat
  d : Byte

/-- Add two polynomials, constant term first. -/
def polyAdd : List Byte → List Byte → List Byte
  | [], q => q
  | p, [] => p
  | a :: p, b :: q => (a ^^^ b) :: polyAdd p q

/-- One step of Berlekamp–Massey on syndrome n. -/
def bmStep (syn : List Byte) (t : BmState) (n : Nat) : BmState :=
  let d := (List.range (t.l + 1)).foldl (fun s i => s ^^^ gfMul (t.c.getD i 0) (syn.getD (n - i) 0)) 0
  if d = 0 then { t with m := t.m + 1 }
  else
    let k := gfMul d (gfInv t.d)
    let c := polyAdd t.c (List.replicate t.m 0 ++ t.b.map fun x => gfMul k x)
    if 2 * t.l ≤ n then ⟨c, t.c, n + 1 - t.l, 1, d⟩ else { t with c := c, m := t.m + 1 }

/-- The value of a polynomial with constant term first. -/
def polyEvalUp (x : Byte) (p : List Byte) : Byte := polyEval x p.reverse

/-- The formal derivative: odd coefficients move down, even ones vanish. -/
def polyDeriv (p : List Byte) : List Byte := (p.drop 1).mapIdx fun i c => if i % 2 = 0 then c else 0

/-- Decode a received word of 224 symbols: the corrected word and the symbols corrected, or none when it has more errors
than nine (R255). -/
def rsDecode (r : List Byte) : Option (List Byte × Nat) :=
  let syn := rsSyndromes r
  if syn.all (· == 0) then some (r, 0)
  else
    let t := (List.range 18).foldl (bmStep syn) ⟨[1], [1], 0, 1, 1⟩
    if 9 < t.l then none
    else
      let roots := (List.range 224).filter fun j => polyEvalUp (gfAlpha (255 - (223 - j) % 255)) t.c == 0
      if roots.length ≠ t.l then none
      else
        let om := ((List.range 18).map fun n =>
          (List.range (n + 1)).foldl (fun s i => s ^^^ gfMul (t.c.getD i 0) (syn.getD (n - i) 0)) 0)
        let dv := polyDeriv t.c
        let fix (j : Nat) (v : Byte) : Byte :=
          if roots.contains j then
            let x := gfAlpha (223 - j)
            let xi := gfAlpha (255 - (223 - j) % 255)
            v ^^^ gfMul x (gfMul (polyEvalUp xi om) (gfInv (polyEvalUp xi dv)))
          else v
        let w := r.mapIdx fix
        if (rsSyndromes w).all (· == 0) then some (w, roots.length) else none

/-- Codeword c of a frame: bytes 4k + c for k = 0 to 223 (R255). -/
def frameCodeword (f : List Byte) (c : Nat) : List Byte := (chunks 4 f).map fun q => q.getD c 0

/-- The 72 parity bytes of 824 frame bytes. -/
def frameParity (f : List Byte) : List Byte :=
  let ps := (List.range 4).map fun c => rsParity (frameCodeword f c)
  (List.range 18).flatMap fun s => ps.map fun p => p.getD s 0

/-- A frame of a header and a payload area: CRC-64 and parity appended (Table 10.2). -/
def frameBytes (header payload : List Byte) : List Byte :=
  let body := header ++ payload
  let body := body ++ leBytes 8 (crc64xz body).toNat
  body ++ frameParity body

/-- Decode a frame: bytes 0 to 815 and the symbols corrected, when it is good (R256). -/
def frameDecode (f : List Byte) : Option (List Byte × Nat) :=
  match rsDecode (frameCodeword f 0), rsDecode (frameCodeword f 1), rsDecode (frameCodeword f 2), rsDecode (frameCodeword f 3) with
  | some a, some b, some c, some d =>
    let bs := (a.1.zip (b.1.zip (c.1.zip d.1))).flatMap fun z => [z.1, z.2.1, z.2.2.1, z.2.2.2]
    if leNat ((bs.drop 816).take 8) = (crc64xz (bs.take 816)).toNat then some (bs.take 816, a.2 + b.2 + c.2 + d.2) else none
  | _, _, _, _ => none

end Sys2Proof.Machine
end

