-- ==== Sys2Proof/Machine/Link.lean ====
section
/-!
DEFINITION. The fabric's link layer and routing (R254 to R264, R269, R270, R273): frames, packets, credits, retry, port
states, next-hop choice.
-/
namespace Sys2Proof.Machine

/-- An unlisted port. -/
def portReset (_ : Nat) : Port := Port.reset
/-- Port p. -/
def State.port (s : State) (p : Nat) : Port := tget portReset s.fab.ports p
/-- Set port p. -/
def State.setPort (s : State) (p : Nat) (v : Port) : State :=
  { s with fab := { s.fab with ports := tput portReset s.fab.ports p v } }
/-- The twelve ports. -/
def portList : List Nat := List.range 12
/-- FAB_Pn register. -/
def po (p f : Nat) : Nat := 0xD10000 + 0x40 * p + f
/-- FAB_Pn_CTL.ENABLE and ADMIT. -/
def State.portOn (s : State) (p : Nat) : Bool := s.rbit (po p 0) 0
def State.portAdmit (s : State) (p : Nat) : Bool := s.rbit (po p 0) 1

/-! Packets (Table 10.4). -/

/-- The bytes of a packet: header, data, and zeros to a multiple of 16. -/
def Packet.bytes (k : Packet) : List Byte :=
  let h := k.dst + put k.src 14 + put k.vc 28 + put k.kind 30 + put k.words 34 + put k.chan 40 + put k.flow 52 +
    put k.offset 64 + put k.tag 105 + put k.hops 121
  let n := if k.kind = 1 then 0 else k.data.length
  leBytes 16 h ++ padTo (alignUp n 16) (k.data.take n)

/-- The virtual channel of a kind (Table 10.5). -/
def kindVc (k : Nat) : Option Nat :=
  match k with
  | 0 => some 0
  | 1 => some 0
  | 2 => some 1
  | 3 => some 1
  | 4 => some 2
  | 5 => some 2
  | 6 => some 3
  | 7 => some 3
  | _ => none

/-- Data bytes that follow a header. -/
def Packet.dataLen (k : Packet) : Nat := if k.kind = 1 then 0 else 8 * k.words

/-- A packet header; none for a protocol error (R257). -/
def Packet.ofHeader (h : Nat) : Option Packet :=
  let k : Packet := ⟨fld h 13 0, fld h 27 14, fld h 29 28, fld h 33 30, fld h 39 34, fld h 51 40, fld h 63 52, fld h 104 64,
    fld h 120 105, fld h 124 121, []⟩
  if fld h 127 125 = 0 ∧ k.words ≤ 32 ∧ kindVc k.kind = some k.vc then some k else none

/-- 32-byte units of a packet (R261). -/
def Packet.units (k : Packet) : Nat := ceilDivN (16 + alignUp (8 * k.words) 16) 32
where
  /-- ⌈a / b⌉ -/
  ceilDivN (a b : Nat) : Nat := (a + b - 1) / b

/-- Ingress buffer of a VC in units (Table 10.6). -/
def vcSize (v : Nat) : Nat := if v ≤ 1 then 1024 else if v = 2 then 1792 else 256

/-- A module's own packet. -/
def State.newPacket (s : State) (kind dst chan flow offset tag words : Nat) (data : List Byte) : Packet :=
  ⟨dst, s.fab.id, (kindVc kind).getD 0, kind, words, chan, flow, offset, tag, 15, data⟩

/-! Routing (R269, R270). -/

/-- An unlisted entry of a routing table: no route. -/
def rtReset (_ : Nat) : W16 := 0xFFFF
/-- The active and the shadow table. -/
def State.rtActive (s : State) : Tbl W16 := if s.fab.active then s.fab.rt1 else s.fab.rt0
def State.rtShadow (s : State) : Tbl W16 := if s.fab.active then s.fab.rt0 else s.fab.rt1
def State.setShadow (s : State) (t : Tbl W16) : State :=
  if s.fab.active then { s with fab := { s.fab with rt0 := t } } else { s with fab := { s.fab with rt1 := t } }

/-- The next hops of an entry: HOP0 on, up to the first nibble that holds 0xF. -/
def hopsOf (e : Nat) : List Nat := ((List.range 4).map fun i => fld e (4 * i + 3) (4 * i)).takeWhile (· != 15)

/-- The candidates for a destination: next hops whose port is ACTIVE. -/
def State.candidates (s : State) (dst : Nat) : List Nat :=
  (hopsOf (tget rtReset s.rtActive dst).toNat).filter fun p => decide (p < 12) && (s.port p).state == 4

/-- The port a packet leaves on (R270). -/
def State.route (s : State) (k : Packet) : Option Nat :=
  let ports := s.candidates k.dst
  let h := (crc32c (leBytes 5 (k.src + put k.dst 14 + put k.flow 28))).toNat
  if ports = [] then none else ports[h % ports.length]?

/-- The module holds a fabric ID. -/
def State.hasId (s : State) : Bool := s.fab.idSrc != 0

/-- Put a packet in a port's output queue. -/
def State.pushOut (s : State) (p : Nat) (o : OutPkt) : State := s.setPort p { s.port p with outq := (s.port p).outq ++ [o] }

/-- Put a packet into a port's ingress buffer. -/
def State.pushIn (s : State) (p : Nat) (k : Packet) (loop : Bool) : State :=
  let s := s.setPort p { s.port p with inq := (s.port p).inq ++ [⟨s.fab.serial, k, false, loop⟩] }
  { s with fab := { s.fab with serial := s.fab.serial + 1 } }

/-- Return the units of a packet that leaves port p's ingress buffer (R261). -/
def State.returnUnits (s : State) (p : Nat) (k : Packet) : State :=
  let v := s.port p
  s.setPort p { v with returned := tput zeroN v.returned k.vc ((tget zeroN v.returned k.vc + k.units) % 65536) }

/-- A REFUSAL of a packet (R259, R270): back to its source. -/
def State.refusalOf (s : State) (k : Packet) (st : Byte) (detail : Nat) : Packet :=
  { s.newPacket 3 k.src k.chan k.flow k.offset k.tag 1 (leBytes 8 (st.toNat + put detail 32)) with hops := 15 }

/-- Send a packet that has no candidate to fall back on: a COMPLETION, a REFUSAL or a segment; the module's own ID is
delivered locally. -/
def State.sendOr (s : State) (k : Packet) (ingress : Option Nat) (tagged : Bool) (otherwise : State → State) : State :=
  if k.dst = s.fab.id ∧ s.hasId then s.pushIn 0 k true
  else match s.route k with
    | some p => s.pushOut p ⟨k, ingress, tagged⟩
    | none => otherwise s

/-- Send a COMPLETION or a REFUSAL; without a route it is removed (R270), and a module without an ID sends none (R268). -/
def State.sendReply (s : State) (k : Packet) : State := if s.hasId then s.sendOr k none false id else s

/-- Refuse a packet (R259, R270). -/
def State.refuse (s : State) (k : Packet) (st : Byte) (detail : Nat) : State :=
  if s.hasId then (s.bump 0xD00048 1).sendReply (s.refusalOf k st detail) else s

/-- DETAIL of PEER_UNREACHABLE (R275). -/
def peerDetail (id reason : Nat) : Nat := id + reason * 65536

/-- A packet of another module arrives at port p: it is forwarded, or removed and counted (R270). -/
def State.forward (s : State) (p : Nat) (k : Packet) : State :=
  let answer := k.kind != 2 && k.kind != 3
  if k.hops = 0 then
    let s := ((s.returnUnits p k).bump 0xD00044 1).evFab 5
    if answer then s.refuse k stPeer (peerDetail k.dst 3) else s
  else match s.route k with
    | some o => s.pushOut o ⟨{ k with hops := k.hops - 1 }, some p, false⟩
    | none =>
      let s := s.returnUnits p k
      if answer then s.refuse k stPeer (peerDetail k.dst 0) else s

/-- A packet arrives whole at port p (R257, R268, R270). -/
def State.arrive (s : State) (p : Nat) (k : Packet) : State :=
  let s := s.bump64 (po p 0x38) (16 + alignUp k.dataLen 16)
  if k.vc = 3 then s.pushIn p k false
  else if !s.hasId then s.returnUnits p k
  else if k.dst = s.fab.id then s.pushIn p k false
  else s.forward p k

/-- Take packets off a port's stream (R257); a protocol error discards the rest and counts. -/
def State.parse (p : Nat) : Nat → List Byte → State → State
  | 0, bs, s => s.setPort p { s.port p with rx := bs }
  | f + 1, bs, s =>
    if bs.length < 16 then s.setPort p { s.port p with rx := bs }
    else
      let h := leNat (bs.take 16)
      if fld h 33 30 = 15 ∧ fld h 127 125 = 0 ∧ fld h 39 34 ≤ 32 then s.setPort p { s.port p with rx := [] }
      else match Packet.ofHeader h with
        | none => (s.setPort p { s.port p with rx := [] }).bump (po p 0x18) 1
        | some k =>
          let n := 16 + alignUp k.dataLen 16
          if bs.length < n then s.setPort p { s.port p with rx := bs }
          else State.parse p f (bs.drop n) (s.arrive p { k with data := (bs.drop 16).take k.dataLen })

/-! Port states (Table 10.8). -/

/-- Enter a port state: its time, PORT_DOWN for DRAINING and FAILED, a LINK record for FAILED. -/
def State.portState (s : State) (p st : Nat) : State :=
  let v := s.port p
  let s := s.setPort p { v with state := st, since := s.pwr.time }
  let s := if st = 5 ∨ st = 7 then s.evFab 3 else s
  if st = 7 then s.errRec 0x09 2 13 p st ((v.nbr.map (·.1)).getD 0) else s

/-- Packets lost in a port: those begun and not wholly acknowledged, and those that still waited if `all`. -/
def Port.lostCount (v : Port) (all : Bool) : Nat :=
  (v.replay.map (·.pkts)).sum + (match v.replay with
    | f :: _ => b2n f.cont
    | [] => b2n (v.part != [])) + if all then v.outq.length else 0

/-- The tags that waiting packets of a port hold. -/
def Port.heldTags (v : Port) : Nat := (v.outq.filter (·.tagged)).length

/-- Packets of a port are lost (R264, R273). -/
def State.lost (s : State) (p n : Nat) : State := if n = 0 then s else (s.bump (po p 0x24) n).evFab 8

/-- The packets that wait to leave a port are given up: ingress buffers and tags return. -/
def State.dropQueue (s : State) (p : Nat) : State :=
  let v := s.port p
  let s := v.outq.foldl (fun s o => match o.ingress with
      | some i => s.returnUnits i o.pkt
      | none => s) s
  let s := s.setPool (9 + p) { s.pool (9 + p) with inUse := (s.pool (9 + p)).inUse - v.heldTags }
  s.setPort p { s.port p with outq := [] }

/-- The replay buffer is discarded and its packets are lost (R264, R273); a packet partly sent goes with them. -/
def State.loseReplay (s : State) (p : Nat) (all : Bool) : State :=
  let n := (s.port p).lostCount all
  let s := if all then s.dropQueue p else s
  (s.setPort p { s.port p with replay := [], replayPos := none, part := [] }).lost p n

/-- A packet that no longer returns units of port p. -/
def OutPkt.unhook (p : Nat) (o : OutPkt) : OutPkt := if o.ingress = some p then { o with ingress := none } else o

/-- A port trains anew (Table 10.8): the link below begins from nothing. What its buffers still hold returns no credits on the
new link, whose counts begin anew (R261). -/
def State.train (s : State) (p : Nat) : State :=
  let s := s.portState p 1
  let v := s.port p
  let s := s.setPort p { Port.reset with state := v.state, since := v.since, outq := v.outq, inq := v.inq.map fun k => { k with loop := true } }
  { s with fab := { s.fab with ports := s.fab.ports.map fun e => (e.1, { e.2 with outq := e.2.outq.map (OutPkt.unhook p) }) } }

/-- A port enters FAILED (R264, R265). -/
def State.portFail (s : State) (p : Nat) : State := (s.loseReplay p true).portState p 7

/-- A port enters RETRAINING (R264): errors on a link that carries frames. -/
def State.retrain (s : State) (p : Nat) : State :=
  let v := s.port p
  if v.state = 3 ∨ v.state = 4 then
    ((s.setPort p { v with resume := v.state }).portState p 6).bump (po p 0x20) 1
  else s

/-- DRAINING ends when nothing is left to replay (Table 10.8); a packet partly sent is lost. -/
def State.drainEnd (s : State) (p : Nat) : State :=
  let v := s.port p
  if v.state = 5 ∧ v.replay = [] ∧ v.ctl = [] then (s.loseReplay p false).train p else s

/-- A control message of a type (R265): its payload area. -/
def ctlMsg (l : List Byte) : List Byte := padTo 800 l

/-- A port enters DRAINING (R273): what is not acknowledged is replayed. -/
def State.drainBegin (s : State) (p : Nat) : State :=
  let s := s.portState p 5
  s.setPort p { s.port p with replayPos := if (s.port p).replay = [] then none else some 0 }

/-- A port that carries control frames enters DRAINING with a LINK_NOTICE to the neighbour (R273, R274); one that carries none
trains anew. -/
def State.drain (s : State) (p reason : Nat) : State :=
  let v := s.port p
  if v.state = 1 ∨ v.state = 7 then s.train p
  else (s.setPort p { v with ctl := v.ctl ++ [ctlMsg [2, BitVec.ofNat 8 reason]] }).drainBegin p

/-! Sending (R254, R257, R261, R263). -/

/-- Unused credits of a VC (R261). -/
def Port.credits (v : Port) (vc : Nat) : Nat :=
  vcSize vc - (tget zeroN v.sent vc + 65536 - tget zeroN v.credit vc) % 65536

/-- May a packet be sent in the port's state (Table 10.8) within its credits? -/
def Port.maySend (v : Port) (k : Packet) : Bool :=
  (v.state == 4 || (v.state == 3 && k.vc == 3)) && decide (k.units ≤ v.credits k.vc)

/-- The first packet that may be sent, and the others; a module without an ID sends only VC3 (R268). -/
def pickOut (v : Port) (hasId : Bool) : List OutPkt → Option (OutPkt × List OutPkt)
  | [] => none
  | o :: l => if v.maySend o.pkt && (hasId || o.pkt.vc == 3) then some (o, l) else (pickOut v hasId l).map fun r => (r.1, o :: r.2)

/-- A packet begins to be sent: credits are used, its ingress buffer is left, its tag returns. -/
def State.begun (s : State) (p : Nat) (o : OutPkt) (rest : List OutPkt) : State :=
  let v := s.port p
  let s := s.setPort p { v with outq := rest, sent := tput zeroN v.sent o.pkt.vc ((tget zeroN v.sent o.pkt.vc + o.pkt.units) % 65536) }
  let s := s.bump64 (po p 0x30) (16 + alignUp o.pkt.dataLen 16)
  let s := match o.ingress with
    | some i => s.returnUnits i o.pkt
    | none => s
  if o.tagged then s.freeTag (9 + p) else s

/-- Fill a payload area: the rest of a packet, then packets while they may be sent (R257). `n` counts packets begun. -/
def State.fill (p : Nat) : Nat → List Byte → Nat → State → List Byte × Nat × State
  | 0, acc, n, s => (acc, n, s)
  | f + 1, acc, n, s =>
    if 800 ≤ acc.length then (acc, n, s)
    else
      let v := s.port p
      match pickOut v s.hasId v.outq with
      | none => (acc, n, s)
      | some (o, rest) => State.fill p f (acc ++ o.pkt.bytes) (n + 1) (s.begun p o rest)

/-- The padding of a payload area: a PAD header and zeros (R257). -/
def padArea (l : List Byte) : List Byte :=
  if l.length < 800 then padTo 800 (l ++ leBytes 16 (put 15 30)) else l.take 800

/-- The next data frame of a port, kept in its replay buffer (R263); none when there is nothing to send. -/
def State.nextData (s : State) (p : Nat) : Option (ReplayFrame × State) :=
  let v := s.port p
  if 512 ≤ v.replay.length then none
  else
    let r := State.fill p 64 v.part 0 s
    if r.1 = [] then none
    else
      let fr : ReplayFrame := ⟨v.nextSeq, padArea r.1, r.2.1, v.part != []⟩
      let s := r.2.2
      let v := s.port p
      let since := if v.replay = [] then s.pwr.time else v.progressAt
      some (fr, s.setPort p { v with part := r.1.drop 800, replay := v.replay ++ [fr], nextSeq := (v.nextSeq + 1) % 65536,
                                     progressAt := since })

/-- The last packet a port sends before it drains: in one data frame with what is left of a packet partly sent (R257, R274);
without credits or room for the frame it is not sent. -/
def State.sendLast (s : State) (p : Nat) (k : Packet) : State :=
  let v := s.port p
  if v.maySend k ∧ v.replay.length < 512 then
    (s.setPort p { v with part := [], replay := v.replay ++ [⟨v.nextSeq, padArea (v.part ++ k.bytes), 1, v.part != []⟩],
                          nextSeq := (v.nextSeq + 1) % 65536, progressAt := if v.replay = [] then s.pwr.time else v.progressAt,
                          sent := tput zeroN v.sent k.vc ((tget zeroN v.sent k.vc + k.units) % 65536) }).bump64 (po p 0x30) (16 + alignUp k.dataLen 16)
  else s

/-- The header of a frame (Table 10.3). -/
def frameHeader (v : Port) (type seq : Nat) : List Byte :=
  leBytes 16 (type + put seq 8 + put ((v.expect + 65535) % 65536) 24 + put (b2n v.nakDue) 40 +
    put (tget zeroN v.returned 0) 48 + put (tget zeroN v.returned 1) 64 + put (tget zeroN v.returned 2) 80 +
    put (tget zeroN v.returned 3) 96)

/-- Put a frame on the wire; a NAK that was due has been sent. -/
def State.emit (s : State) (p type seq : Nat) (payload : List Byte) : State :=
  let v := s.port p
  s.setPort p { v with wire := frameBytes (frameHeader v type seq) payload, nakDue := false }

/-- One frame of a port (R254, R263): control messages first, then a replay, then data, else idle. -/
def State.sendFrame (s : State) (p : Nat) : State :=
  let v := s.port p
  let idle := List.replicate 800 (0 : Byte)
  if v.state = 1 then if v.locked then s.emit p 1 0 idle else s
  else if v.state = 0 ∨ v.state = 6 ∨ v.state = 7 then s
  else match v.ctl with
    | m :: l => ((s.setPort p { v with ctl := l }).emit p 2 0 m).drainEnd p
    | [] =>
      match v.replayPos with
      | some k =>
        match v.replay[k]? with
        | some fr => (s.setPort p { v with replayPos := if k + 1 < v.replay.length then some (k + 1) else none }).emit p 0 fr.seq fr.payload
        | none => (s.setPort p { v with replayPos := none }).emit p 1 0 idle
      | none =>
        if v.state = 3 ∨ v.state = 4 then
          match s.nextData p with
          | some (fr, s) => s.emit p 0 fr.seq fr.payload
          | none => s.emit p 1 0 idle
        else s.emit p 1 0 idle

/-! Receiving (R256, R263). -/

/-- Begin a replay; sixteen in a row without ACK progress put the port into RETRAINING (R263, R264). -/
def State.startReplay (s : State) (p : Nat) : State :=
  let v := s.port p
  if v.replay = [] then s
  else
    let s := (s.setPort p { v with replayPos := some 0, replays := v.replays + 1, progressAt := s.pwr.time }).bump (po p 0x1C) 1
    if 16 ≤ v.replays + 1 then s.retrain p else s

/-- Apply ACK: frames up to it leave the replay buffer. -/
def State.ackTo (s : State) (p ack : Nat) : State :=
  let v := s.port p
  match v.replay.findIdx? fun r => r.seq == ack with
  | none => s
  | some i => s.setPort p { v with replay := v.replay.drop (i + 1),
                                   replayPos := v.replayPos.bind fun k => if k ≤ i then (if i + 1 < v.replay.length then some 0 else none) else some (k - (i + 1)),
                                   progressAt := s.pwr.time, replays := 0 }

/-- The credits a frame returns (Table 10.3). -/
def State.takeCredits (s : State) (p h : Nat) : State :=
  let v := s.port p
  let c (i : Nat) : Nat := fld h (63 + 16 * i) (48 + 16 * i)
  s.setPort p { v with credit := [0, 1, 2, 3].foldl (fun t i => tput zeroN t i (c i)) v.credit }

/-- A discard asks for a replay, once until the expected frame arrives (R263). -/
def State.askReplay (s : State) (p : Nat) : State :=
  let v := s.port p
  if v.nak then s else s.setPort p { v with nak := true, nakDue := true, nakAt := s.pwr.time }

/-- A good data frame (R263). -/
def State.takeData (s : State) (p seq : Nat) (payload : List Byte) : State :=
  let v := s.port p
  if seq = v.expect then
    let s := s.setPort p { v with expect := (v.expect + 1) % 65536, nak := false, nakDue := false }
    State.parse p 64 (v.rx ++ payload) s
  else s.askReplay p

/-- A good frame on a port (R263): ACK, NAK, credits, then its content. -/
def State.takeFrame (s : State) (p : Nat) (body : List Byte) : State :=
  let h := leNat (body.take 16)
  let type := fld h 1 0
  let payload := body.drop 16
  let st := (s.port p).state
  if type = 3 then s
  else
    let link := st == 3 || st == 4 || st == 5
    let s := if link then (s.ackTo p (fld h 39 24)).takeCredits p h else s
    let s := if link && bitAt h 40 then s.startReplay p else s
    let s := if type = 0 ∧ link then s.takeData p (fld h 23 8) payload
      else if type = 2 ∧ (link ∨ st = 2) then s.setPort p { s.port p with ctlIn := (s.port p).ctlIn ++ [payload] }
      else s
    s.drainEnd p

/-- FRAME_RECEIVE: decode, check, accept or discard with NAK (R255, R256, R263). -/
def State.frameReceive (s : State) (p : Nat) (f : List Byte) : State :=
  let st := (s.port p).state
  if st = 0 ∨ st = 6 ∨ st = 7 ∨ (st = 1 ∧ !(s.port p).locked) then s
  else match (if f.length = 896 then frameDecode f else none) with
    | some (body, n) => (s.bump64 (po p 0x28) n).takeFrame p body
    | none =>
      let s := s.bump (po p 0x18) 1
      if 3 ≤ st then s.askReplay p else s

/-- REPLAY_TIMEOUT: 1 µs without ACK progress (R263). -/
def State.replayTimeout (s : State) (p : Nat) : State :=
  let v := s.port p
  if (v.state = 3 ∨ v.state = 4 ∨ v.state = 5) ∧ v.replay ≠ [] ∧ v.progressAt + 1000 ≤ s.pwr.time then s.startReplay p else s

/-- NAK_REPEAT: the NAK is repeated every 1 µs (R263). -/
def State.nakRepeat (s : State) (p : Nat) : State :=
  let v := s.port p
  if v.nak ∧ v.nakAt + 1000 ≤ s.pwr.time then s.setPort p { v with nakDue := true, nakAt := s.pwr.time } else s

end Sys2Proof.Machine
end

