-- ==== Sys2Proof/Machine/Fabric.lean ====
section
/-!
DEFINITION. The Agsipel fabric above its link layer (chapter 10): peer accesses and exchange segments on their way, port
states, packets at their destination, discovery, fabric IDs, routes and swaps, notices.
-/
namespace Sys2Proof.Machine

/-! Peer accesses (R258, R260, R268, R275). -/

/-- The fabric ID and the offset a peer address names (Table 0.5). -/
def peerId (a : Nat) : Nat := fld a 54 41
def peerOff (a : Nat) : Nat := a % 2 ^ 41

/-- Two accesses of which one writes share a byte. -/
def PeerReq.clash (a b : PeerReq) : Bool :=
  (a.bytes.isSome || b.bytes.isSome) && decide (a.addr < b.addr + b.len) && decide (b.addr < a.addr + a.len)

/-- A peer access of queue q has failed (R259, R275): a read for a work item or row fails it, and the failure takes the place of
a success already reached. -/
def State.peerEnd (s : State) (q : Nat) (read : Bool) (st : Byte) (detail : Nat) : State :=
  match (s.q q).cmd with
  | some c =>
    match c.phase with
    | .running =>
      let s := s.dropReads q
      if read then s.engineReadFail q ⟨st, detail⟩ else (s.failCmd q ⟨st, detail⟩).engineStop q
    | .ended e _ => if isSuccess e then s.setCmd q { c with phase := .ended st (BitVec.ofNat 32 detail) } else s
    | .waiting => s
  | none => s

/-- An unlisted TAG is free. -/
def State.peerTag (s : State) (t : Nat) : Option PeerTag := tget noneD s.fab.tags t
def State.setPeerTag (s : State) (t : Nat) (v : Option PeerTag) : State := { s with fab := { s.fab with tags := tput noneD s.fab.tags t v } }

/-- An access ends without an answer: a write is no longer waited for, and the command it serves fails. -/
def State.peerLost (s : State) (r : PeerReq) (st : Byte) (detail : Nat) : State :=
  if 384 ≤ r.queue then s
  else
    let s := if r.bytes.isSome then s.setQ r.queue { s.q r.queue with acks := (s.q r.queue).acks - 1 } else s
    s.peerEnd r.queue r.bytes.isNone st detail

/-- The packet of an access: whole words; the bytes of a word that the access does not name are open, the same for every packet
of the address. -/
def State.peerPacket (s : State) (r : PeerReq) (tag : Nat) : Packet :=
  let off := peerOff r.addr
  let lo := off / 8 * 8
  let n := (alignUp (off + r.len) 8 - lo) / 8
  let data := match r.bytes with
    | some bs => (List.range (8 * n)).map fun i =>
        if lo + i < off ∨ off + r.len ≤ lo + i then Config.freeByte 0 (lo + i) else bs.getD (lo + i - off) 0
    | none => []
  s.newPacket (if r.bytes.isSome then 0 else 1) (peerId r.addr) r.chan r.flow lo tag n data

/-- The TAGs of port p's pool: 1,024 in flight, and others of which the late answers may still come (R275). -/
def portTags (p : Nat) : List Nat := List.range' (1365 * p) 1365
/-- The TAG of the next access on port p: one that is neither in flight nor given up, else the one given up longest. -/
def State.nextTag (s : State) (p : Nat) : Option Nat :=
  match (portTags p).find? fun t => (s.peerTag t).isNone && !s.fab.stale.contains t with
  | some t => some t
  | none => s.fab.stale.find? fun t => (portTags p).contains t && (s.peerTag t).isNone

/-- Send an access that has been given a tag of the pool of port p. -/
def State.peerSend (s : State) (p : Nat) (r : PeerReq) : State :=
  match s.nextTag p with
  | none => s
  | some t =>
    let k := s.peerPacket r t
    let s := s.setPeerTag t (some ⟨r, p, s.pwr.time⟩)
    let s := { s with fab := { s.fab with stale := s.fab.stale.filter (· != t) } }
    if k.dst = s.fab.id then s.pushIn p k true else s.pushOut p ⟨k, none, false⟩

/-- The port an access leaves on; its own ID is reached through port 0's buffers. -/
def State.peerRoute (s : State) (r : PeerReq) : Option Nat :=
  if !s.hasId then none
  else if peerId r.addr = s.fab.id then some 0
  else s.route (s.newPacket 0 (peerId r.addr) r.chan r.flow 0 0 0 [])

/-- Give an access a tag of port p's pool, or let it wait (R57). -/
def State.peerTake (s : State) (p : Nat) (r : PeerReq) : State :=
  if (s.pool (9 + p)).inUse < poolSize (9 + p) ∧ !(s.fab.tagWait.any fun w => w.port == p) then (s.takeTag (9 + p)).peerSend p r
  else { s with fab := { s.fab with tagWait := s.fab.tagWait ++ [⟨.access r, p⟩] } }

/-- The block transfer of an access may have requests on their way: it has some already, or its engine port has room (R56). -/
def State.portRoom (s : State) (r : PeerReq) : Bool :=
  decide (91 ≤ r.port) || (s.fab.onWay.any fun x => x.port == r.port && x.xfer == r.xfer) || decide (s.portLoad r.port < 8)

/-- Issue the accesses that may be issued, in order; those that clash with one before them wait (R260), and so do those of a
block transfer that may not begin (R56). The first argument bounds the accesses looked at. -/
def State.issueReqs : Nat → List PeerReq → List PeerReq → State → State
  | 0, l, kept, s => { s with fab := { s.fab with reqQ := kept ++ l } }
  | _ + 1, [], kept, s => { s with fab := { s.fab with reqQ := kept } }
  | f + 1, r :: l, kept, s =>
    if (s.fab.onWay ++ kept).any r.clash || !s.portRoom r then State.issueReqs f l (kept ++ [r]) s
    else match s.peerRoute r with
      | some p => State.issueReqs f l kept (s.peerTake p r)
      | none =>
        let s := s.peerLost r stPeer (peerDetail (peerId r.addr) 0)
        State.issueReqs f (l.filter fun x => x.bytes.isSome || x.queue != r.queue) kept s

/-! Exchange segments as packets (R228, R246). -/

/-- The words of a segment piece; their places are the model's own. -/
def Seg.words (g : Seg) : List Nat :=
  [g.group + put g.kind 4 + put g.rank 8 + put g.owner 23, g.epoch.toNat + put g.cseq.toNat 32,
    g.desc.n + put g.desc.op 38 + put g.desc.rop 54 + put g.desc.mode 57 + put (b2n g.desc.scatter) 59 +
      put (b2n g.desc.srckind) 60 + put (b2n g.desc.dstkind) 61 + put (b2n g.desc.final) 62,
    g.desc.sh + put g.desc.k 38 + put g.desc.dsel 49, g.desc.root + put g.desc.qn 15 + put g.desc.nr 31, g.block,
    g.off + put g.total 32]

/-- The bytes a segment packet carries. -/
def Seg.payload (g : Seg) : List Byte := padTo (56 + alignUp g.data.length 8) (wordBytes g.words ++ g.data)

/-- A segment piece from a packet's data. -/
def Seg.of (bs : List Byte) : Option Seg :=
  if bs.length < 56 then none
  else
    let w := wordsOf 7 bs
    let f (i hi lo : Nat) : Nat := fld (w.getD i 0) hi lo
    let off := f 6 31 0
    let total := f 6 63 32
    let d : XDesc := ⟨f 2 53 38, f 2 37 0, f 3 37 0, f 2 56 54, f 2 58 57, f 3 48 38, f 2 59 59 == 1, f 2 60 60 == 1, f 2 61 61 == 1,
      f 4 14 0, f 3 50 49, f 2 62 62 == 1, f 4 30 15, f 4 45 31⟩
    some ⟨f 0 3 0, f 0 7 4, f 0 22 8, f 0 37 23, w.getD 5 0, BitVec.ofNat 32 (f 1 31 0), BitVec.ofNat 32 (f 1 63 32), d, off, total,
      (bs.drop 56).take (min 200 (total - off))⟩

/-- The packet of a segment: FLOW of R270. -/
def State.segPacket (s : State) (x : XOut) : Packet :=
  let g := x.seg
  let bs := g.payload
  s.newPacket 4 ((s.group g.group).table.getD x.toRank 0) x.chan (0x800 + 16 * (g.block % 128) + g.group) 0 (0x8000 + x.toRank) (bs.length / 8) bs

/-- A rank of a group cannot be reached: its collective fails (Table 9.7). -/
def State.rankLost (s : State) (g rank reason : Nat) : State :=
  match s.xch.runs.find? fun r => r.group == g with
  | some r => s.xFail r stPeer (rank % 32768 + reason * 65536) 0xFFFF
  | none => s

/-- Segments of port p that hold a tag or wait for one: the block transfers of its engine port (R56, R246). -/
def State.segLoad (s : State) (p : Nat) : Nat :=
  (s.port p).heldTags + (s.fab.tagWait.filter fun w => w.port == p && w.req?.isNone).length

/-- Give a segment a tag of port p's pool and send it, or let it wait (R57). -/
def State.segTake (s : State) (p : Nat) (x : XOut) : State :=
  if (s.pool (9 + p)).inUse < poolSize (9 + p) ∧ !(s.fab.tagWait.any fun w => w.port == p) then
    (s.takeTag (9 + p)).pushOut p ⟨s.segPacket x, none, true⟩
  else { s with fab := { s.fab with tagWait := s.fab.tagWait ++ [⟨.segment x, p⟩] } }

/-- Send the segments that leave on port p, at most 8 at a time (R56); one without a route fails its collective. The first
argument bounds the segments looked at. -/
def State.issueSegs (p : Nat) : Nat → List XOut → List XOut → State → State
  | 0, l, kept, s => { s with xch := { s.xch with out := kept ++ l } }
  | _ + 1, [], kept, s => { s with xch := { s.xch with out := kept } }
  | f + 1, x :: l, kept, s =>
    let k := s.segPacket x
    match (if s.hasId then s.route k else none) with
    | some o =>
      if o = p ∧ s.segLoad p < 8 then State.issueSegs p f l kept (s.segTake p x)
      else State.issueSegs p f l (kept ++ [x]) s
    | none =>
      if x.seg.kind = 4 then State.issueSegs p f l kept s
      else
        let s1 := ({ s with xch := { s.xch with out := [] } }).rankLost x.seg.group x.toRank 0
        let stay (y : XOut) : Bool := y.seg.group != x.seg.group || y.seg.kind == 4
        State.issueSegs p f (l.filter stay) (kept.filter stay ++ s1.xch.out) s1

/-- Everything that waits is put on its way as far as it can. -/
def State.pump (s : State) (p : Nat) : State :=
  let s := State.issueReqs s.fab.reqQ.length s.fab.reqQ [] { s with fab := { s.fab with reqQ := [] } }
  State.issueSegs p s.xch.out.length s.xch.out [] { s with xch := { s.xch with out := [] } }

/-! Tags (R57). -/

/-- What has waited for a tag of port p receives it. An access goes out, or fails if the module has lost its ID (R268); a segment
goes out, or back to be routed anew when its port no longer carries it. -/
def State.tagTo (s : State) (p : Nat) : TagFor → State
  | .access r => if s.hasId then (s.takeTag (9 + p)).peerSend p r else s.peerLost r stPeer (peerDetail (peerId r.addr) 0)
  | .segment x =>
    if s.hasId ∧ (s.port p).state = 4 then (s.takeTag (9 + p)).pushOut p ⟨s.segPacket x, none, true⟩
    else { s with xch := { s.xch with out := s.xch.out ++ [x] } }

/-- TRANSFER_TAG_GRANT: the first request waiting on a pool receives a freed tag. -/
def State.tagGrant (s : State) (pool : Nat) : State :=
  if poolSize pool ≤ (s.pool pool).inUse then s
  else if pool = 21 then
    match s.cqf.tagWait.find? fun w => w.pool == 21 with
    | none => s
    | some w =>
      let s := (s.takeTag 21).setQ w.queue { s.q w.queue with reads := (s.q w.queue).reads ++ [w.req] }
      { s with cqf := { s.cqf with tagWait := s.cqf.tagWait.erase w } }
  else match s.fab.tagWait.find? fun w => 9 + w.port == pool with
    | none => s
    | some w => ({ s with fab := { s.fab with tagWait := s.fab.tagWait.erase w } }).tagTo w.port w.what

/-! The link-state database (R266). -/

/-- Discovery takes place (R266, R268). -/
def State.discovering (s : State) : Bool := s.rbit 0xD00000 0 && s.pwr.ready
/-- This module's serial. -/
def State.serialNo (s : State) : Nat := s.cfg.serial.toNat
/-- Ports that carry VC3. -/
def State.vc3Ports (s : State) : List Nat := portList.filter fun p => (s.port p).state == 3 || (s.port p).state == 4

/-- What an LSA says of the ports. -/
def State.lsaPorts (s : State) : List (Nat × Nat × Nat) :=
  portList.map fun p =>
    let v := s.port p
    ((v.nbr.map (·.1)).getD 0, (v.nbr.map (·.2)).getD 0, v.state)

/-- The module's own entry. -/
def State.ownEntry (s : State) : LsaEntry :=
  ⟨s.serialNo, if s.hasId then some s.fab.id else none, s.fab.lsaSeq, s.lsaPorts, s.pwr.time⟩

/-- The bytes of an LSA; the places of the port fields within their 12 bytes are the model's own. -/
def LsaEntry.bytes (e : LsaEntry) : List Byte :=
  leBytes 8 e.serial ++ leBytes 4 (match e.id with
    | some i => i + 2 ^ 31
    | none => 0) ++ leBytes 4 e.seq.toNat ++
  e.ports.flatMap fun p => leBytes 8 p.1 ++ leBytes 1 p.2.1 ++ leBytes 1 p.2.2 ++ [0, 0]

/-- An LSA from its bytes, seen now. -/
def LsaEntry.of (bs : List Byte) (now : Nat) : LsaEntry :=
  let n (o k : Nat) : Nat := leNat ((bs.drop o).take k)
  ⟨n 0 8, if bitAt (n 8 4) 31 then some (fld (n 8 4) 13 0) else none, BitVec.ofNat 32 (n 12 4),
    portList.map fun p => (n (16 + 12 * p) 8, n (24 + 12 * p) 1, n (25 + 12 * p) 1), now⟩

/-- What the database says of a module apart from its sequence and age. -/
def LsaEntry.same (a b : LsaEntry) : Bool := a.serial == b.serial && a.id == b.id && a.ports == b.ports

/-- The database has changed (R266): grants made from now on are new ones, and are forwarded again (R267). -/
def State.dbChanged (s : State) : State :=
  let s := if s.fab.settled then s.evFab 1 else s
  { s with fab := { s.fab with changedAt := s.pwr.time, settled := false, grants := [] } }

/-- Store an entry, in ascending serial. -/
def putEntry (e : LsaEntry) : List LsaEntry → List LsaEntry
  | [] => [e]
  | x :: l => if e.serial = x.serial then e :: l else if e.serial < x.serial then e :: x :: l else x :: putEntry e l

/-- Store an entry of the database. -/
def State.dbPut (s : State) (e : LsaEntry) : State :=
  let old := s.fab.db.find? fun x => x.serial == e.serial
  let s := { s with fab := { s.fab with db := putEntry e s.fab.db } }
  match old with
  | some x => if x.same e then s else s.dbChanged
  | none => s.dbChanged

/-- Send a VC3 packet on ports. -/
def State.flood (s : State) (ps : List Nat) (k : Packet) : State := ps.foldl (fun s p => s.pushOut p ⟨k, none, false⟩) s
/-- An LSA as a packet. -/
def State.lsaPacket (s : State) (e : LsaEntry) : Packet := s.newPacket 6 0 0 0 0 0 20 e.bytes

/-- Send the module's own LSA (R266). -/
def State.advertise (s : State) : State :=
  if s.discovering then
    let s := { s with fab := { s.fab with lsaSeq := s.fab.lsaSeq + 1, lsaAt := s.pwr.time } }
    let e := s.ownEntry
    (s.dbPut e).flood s.vc3Ports (s.lsaPacket e)
  else s

/-- Do something, and advertise if it changes the ports (R266). -/
def State.portsChange (s : State) (f : State → State) : State :=
  let t := f s
  if t.lsaPorts = s.lsaPorts then t else t.advertise

/-- LSA_REFRESH. -/
def State.lsaRefresh (s : State) : State := if s.due s.fab.lsaAt (s.rd 0xD00028) then s.advertise else s

/-- LSA_EXPIRY (R266). -/
def State.lsaExpiry (s : State) (serial : Nat) : State :=
  match s.fab.db.find? fun e => e.serial == serial with
  | some e =>
    if serial ≠ s.serialNo ∧ s.due e.seen (3 * s.rd 0xD00028) then
      ({ s with fab := { s.fab with db := s.fab.db.filter fun x => x.serial != serial } }).dbChanged
    else s
  | none => s

/-! Fabric IDs (R267). -/

/-- The other module's claim to the module's own ID stands before it (R267). -/
def State.loses (s : State) (e : LsaEntry) : Bool :=
  let mine := s.fab.idSrc == 1
  let theirs := Config.idConfigured (BitVec.ofNat 64 e.serial)
  s.hasId && e.serial != s.serialNo && e.id == some s.fab.id && (if mine == theirs then decide (e.serial < s.serialNo) else theirs)

/-- Give up an ID that another module keeps. -/
def State.conflict (s : State) : State :=
  if s.fab.db.any s.loses then
    let s := if s.fab.idSrc = 1 then s.evFab 2 else s
    ({ s with fab := { s.fab with id := 0, idSrc := 0 } }).advertise
  else s

/-- FAB_ID_CFG has changed (R267): the ID held follows it. -/
def State.idConfig (s : State) : State :=
  let s := s.useT 0xD00008
  let v := s.rdT 0xD00008
  let f := if bitAt v 15 then { s.fab with id := fld v 13 0, idSrc := 1 }
    else if s.fab.idSrc = 1 then { s.fab with id := 0, idSrc := 0 } else s.fab
  (({ s with fab := f }).advertise).conflict

/-- Take a granted ID. -/
def State.takeId (s : State) (id : Nat) : State :=
  let s := s.useT 0xD00008
  if s.hasId || bitAt (s.rdT 0xD00008) 15 then s
  else (({ s with fab := { s.fab with id := id, idSrc := 2 } }).advertise).conflict

/-- The leader (R267): the lowest serial. -/
def Fab.leader (f : Fab) : Option Nat := f.db.head?.map (·.serial)

/-- The smallest fabric ID that is not in use. -/
@[irreducible] def freeId (used : List Nat) : Option Nat := (List.range' 0 16384).find? fun i => !used.contains i

/-- Grants of the leader: each module without an ID gets the lowest that no module holds (R267). -/
def State.grantAll : List LsaEntry → List Nat → State → State
  | [], _, s => s
  | e :: l, used, s =>
    let cfg := if e.serial = s.serialNo then bitAt (s.rdT 0xD00008) 15 else Config.idConfigured (BitVec.ofNat 64 e.serial)
    if e.id.isSome || cfg then State.grantAll l used s
    else match freeId used with
      | none => s
      | some id =>
        let s := if e.serial = s.serialNo then s.takeId id
          else
            let s := { s with fab := { s.fab with grants := s.fab.grants ++ [(e.serial, id)] } }
            s.flood s.vc3Ports (s.newPacket 7 id 0 0 0 0 1 (leBytes 8 e.serial))
        State.grantAll l (id :: used) s

/-! Routes (R271, R272). -/

/-- The hops a module's ports make: the port and the neighbour's serial. -/
def LsaEntry.hops (db : List LsaEntry) (e : LsaEntry) : List (Nat × Nat) :=
  (e.ports.mapIdx fun i p => (i, p)).filterMap fun x =>
    if (x.2.2.2 = 3 ∨ x.2.2.2 = 4) ∧ (db.any fun y => y.serial == x.2.1) then some (x.1, x.2.1) else none

/-- Breadth-first levels from the leader: modules by distance. -/
def levelsF (db : List LsaEntry) : Nat → Nat → List (Nat × Nat) → List Nat → List (Nat × Nat)
  | 0, _, acc, _ => acc
  | f + 1, d, acc, front =>
    let next := ((db.filter fun e => front.contains e.serial).flatMap fun e => (e.hops db).map (·.2)).eraseDups
    let new := next.filter fun x => !acc.any fun a => a.1 == x
    if new = [] then acc else levelsF db f (d + 1) (acc ++ new.map fun x => (x, d + 1)) new
/-- The level of a module; a module the leader does not reach lies below all others. -/
def levelOf (lv : List (Nat × Nat)) (x : Nat) : Nat := ((lv.find? fun a => a.1 == x).map (·.2)).getD lv.length
/-- A hop is up (R271). -/
def isUp (lv : List (Nat × Nat)) (a b : Nat) : Bool :=
  decide (levelOf lv b < levelOf lv a) || (levelOf lv b == levelOf lv a && decide (b < a))

/-- Modules (true: still going up) that reach the destination by a legal path of at most one hop more than those of `r`. -/
def reachMore (db : List LsaEntry) (lv : List (Nat × Nat)) (r : List (Nat × Bool)) : List (Nat × Bool) :=
  (r ++ db.flatMap fun e =>
    (e.hops db).flatMap fun h =>
      if isUp lv e.serial h.2 then (if r.contains (h.2, true) then [(e.serial, true)] else [])
      else if r.contains (h.2, false) then [(e.serial, true), (e.serial, false)] else []).eraseDups

/-- The ports of `me` that begin a shortest legal path, from what reaches the destination in k hops on. -/
def firstPorts (db : List LsaEntry) (lv : List (Nat × Nat)) (me : LsaEntry) : Nat → List (Nat × Bool) → List Nat
  | 0, _ => []
  | f + 1, r =>
    let ps := ((me.hops db).filter fun h => r.contains (h.2, isUp lv me.serial h.2)).map (·.1)
    if ps ≠ [] then ps else firstPorts db lv me f (reachMore db lv r)

/-- A routing-table entry of up to four ports (R269). -/
def entryOf (ps : List Nat) : W16 :=
  BitVec.ofNat 16 (((ps.take 4 ++ List.replicate (4 - ps.length) 15).mapIdx fun i p => put p (4 * i)).sum)

/-- The routes firmware computes (R271). -/
def State.routes (s : State) : Tbl W16 :=
  let db := s.fab.db
  match s.fab.leader, db.find? fun e => e.serial == s.serialNo with
  | some ld, some me =>
    let lv := levelsF db db.length 0 [(ld, 0)] [ld]
    db.foldl (fun t e => match e.id with
      | some d => if e.serial = me.serial then t
          else tput rtReset t d (entryOf (firstPorts db lv me (2 * db.length) [(e.serial, true), (e.serial, false)]))
      | none => t) []
  | _, _ => []

/-- A swap (R272): the tables exchange and admitted ports become ACTIVE at one instant. -/
def State.doSwap (s : State) : State :=
  let s := (({ s with fab := { s.fab with active := !s.fab.active } }).bumpWrap 0xD00040).evFab 7
  portList.foldl (fun s p => if (s.port p).state = 3 ∧ s.portAdmit p then s.portState p 4 else s) s

/-- SWAP: dropped while a copy is in progress (R272). -/
def State.swap (s : State) : State := if s.fab.copying then s.evFab 6 else s.portsChange State.doSwap

/-- COPY and its end (R272). -/
def State.copyStart (s : State) : State := { s with fab := { s.fab with copying := true } }
def State.copyDone (s : State) : State :=
  if s.fab.copying then
    let s := s.setShadow s.rtActive
    { s with fab := { s.fab with copying := false } }
  else s

/-- FAB_RT_SHADOW_WRITE (R269, R272). -/
def State.shadowWrite (s : State) (v : Nat) : State :=
  if s.fab.copying then s.evFab 6
  else
    let i := s.rf 0xD00034 13 0
    (s.setShadow (tput rtReset s.rtShadow i (BitVec.ofNat 16 v))).setReg 0xD00034 ((i + 1) % 16384)

/-- DATABASE_SETTLED (R266, R267, R271). -/
def State.settle (s : State) : State :=
  if s.fab.settled || !s.discovering || s.fab.db.isEmpty || decide (s.pwr.time < s.fab.changedAt + 10000 * s.rd 0xD00024) || s.fab.copying then s
  else
    let s := ({ s with fab := { s.fab with settled := true } }).evFab 0
    let s := if s.fab.leader = some s.serialNo then State.grantAll s.fab.db (s.fab.db.filterMap (·.id)) s else s
    if s.rbit 0xD00000 1 then (s.setShadow s.routes).portsChange State.doSwap else s

/-! Port states (R265, R273, Table 10.8). -/

/-- The highest link-protocol minor the ports offer (R265, R338, R339). -/
def State.linkMinor (s : State) : Nat :=
  let top := match s.mgt.supp with
    | some x => x.raise.getD 3 0
    | none => 0
  if s.mgt.attached then min top (s.mgt.vers.getD 3 (1, 0)).2 else top

/-- VERSION_OFFER of a port: major 1 only. -/
def State.offer (s : State) (p : Nat) : List Byte :=
  ctlMsg ([0] ++ leBytes 8 s.serialNo ++ leBytes 1 p ++ leBytes 2 2 ++ [0, BitVec.ofNat 8 s.linkMinor])

/-- A port begins negotiation (R265). -/
def State.negotiate (s : State) (p : Nat) : State :=
  let s := s.portState p 2
  s.setPort p { s.port p with ctl := (s.port p).ctl ++ [s.offer p] }

/-- PORT_LOCK (R265). -/
def State.portLock (s : State) (p : Nat) : State :=
  let v := s.port p
  if v.state = 1 then
    let s := s.setPort p { v with locked := true }
    if s.pwr.ready then s.portsChange (·.negotiate p) else s
  else s

/-- The module has become ready (R265, R268): ports held locked begin negotiation, discovery starts. -/
def State.fabReady (s : State) : State :=
  let s := portList.foldl (fun s p => if (s.port p).state = 1 ∧ (s.port p).locked then s.negotiate p else s) s
  s.advertise

/-- TRAINING_TIMEOUT: 100 ms without lock (R265). -/
def State.trainTimeout (s : State) (p : Nat) : State :=
  let v := s.port p
  if v.state = 1 ∧ !v.locked ∧ s.due v.since 100 then s.portsChange (·.portFail p) else s

/-- FAILED_RETRY (R265). -/
def State.failedRetry (s : State) (p : Nat) : State :=
  let v := s.port p
  if v.state = 7 ∧ s.portOn p ∧ s.due v.since 100 then s.portsChange (·.train p) else s

/-- Take the first control message of a type from a port. -/
def State.takeCtl (s : State) (p type : Nat) : Option (List Byte × State) :=
  let v := s.port p
  match v.ctlIn.find? fun m => (m.headD 0).toNat == type with
  | some m => some (m, s.setPort p { v with ctlIn := v.ctlIn.erase m })
  | none => none

/-- Version agreed (Table 10.8): both sides chose the same. -/
def State.agree (s : State) (p : Nat) : State :=
  let v := s.port p
  if v.state = 2 ∧ v.chosen.isSome ∧ v.chosen = v.accept then s.portsChange (·.portState p 3) else s

/-- VERSION_OFFER: the neighbour's offer is answered, or no major is common (R265). -/
def State.versionOffer (s : State) (p : Nat) : State :=
  if (s.port p).state ≠ 2 then s
  else match s.takeCtl p 0 with
    | none => s
    | some (m, s) =>
      let n (o k : Nat) : Nat := leNat ((m.drop o).take k)
      let s := s.setPort p { s.port p with nbr := some (n 1 8, n 9 1) }
      if bitAt (n 10 2) 1 then
        let minor := min (n 13 1) s.linkMinor
        let v := s.port p
        (s.setPort p { v with chosen := some (1, minor), ctl := v.ctl ++ [ctlMsg [1, 1, BitVec.ofNat 8 minor]] }).agree p
      else s.evFab 4

/-- VERSION_ACCEPT (R265). -/
def State.versionAccept (s : State) (p : Nat) : State :=
  if (s.port p).state ≠ 2 then s
  else match s.takeCtl p 1 with
    | none => s
    | some (m, s) => (s.setPort p { s.port p with accept := some ((m.getD 1 0).toNat, (m.getD 2 0).toNat) }).agree p

/-- VERSION_RETRY: a port without a common major offers again every 100 ms (R265). -/
def State.versionRetry (s : State) (p : Nat) : State :=
  let v := s.port p
  if v.state = 2 ∧ s.due v.since 100 then (s.setPort p { v with chosen := none, accept := none }).negotiate p else s

/-- LINK_NOTICE: the port enters DRAINING at once (R273). -/
def State.linkNotice (s : State) (p : Nat) : State :=
  match s.takeCtl p 2 with
  | none => s
  | some (_, s) => s.portsChange fun s =>
    let v := s.port p
    if v.state = 2 ∨ v.state = 3 ∨ v.state = 4 ∨ v.state = 6 then (s.drainBegin p).drainEnd p else s

/-- DRAIN_TIMEOUT: after 100 µs what is not acknowledged is lost (R273). -/
def State.drainTimeout (s : State) (p : Nat) : State :=
  let v := s.port p
  if v.state = 5 ∧ v.since + 100000 ≤ s.pwr.time then s.portsChange fun s => (s.loseReplay p false).train p else s

/-- LOCK_LOSS (R264): a link that carries frames retrains; one that has not come up trains on. -/
def State.lockLoss (s : State) (p : Nat) : State :=
  let v := s.port p
  s.portsChange fun s =>
    match v.state with
    | 1 => s.setPort p { v with locked := false, since := s.pwr.time }
    | 2 => s.train p
    | 3 => s.retrain p
    | 4 => s.retrain p
    | 5 => (s.loseReplay p false).train p
    | _ => s

/-- RETRAIN_DONE (R264): within 1 ms and with the same neighbour and version the port goes on from ACK + 1. -/
def State.retrainDone (s : State) (p : Nat) (ok : Bool) : State :=
  let v := s.port p
  if v.state ≠ 6 then s
  else s.portsChange fun s =>
    if ok ∧ s.pwr.time ≤ v.since + 1000000 then
      let s := s.portState p v.resume
      s.setPort p { s.port p with replayPos := if v.replay = [] then none else some 0, replays := 0, progressAt := s.pwr.time }
    else s.portFail p

/-- RETRAIN_TIMEOUT (R264). -/
def State.retrainTimeout (s : State) (p : Nat) : State :=
  let v := s.port p
  if v.state = 6 ∧ v.since + 1000000 ≤ s.pwr.time then s.portsChange (·.portFail p) else s

/-- PORT_RESET (R273): LINK_NOTICE with reason 0, then DRAINING. -/
def State.portReset (s : State) (p : Nat) : State :=
  let v := s.port p
  if v.state = 0 ∨ v.state = 5 then s else s.portsChange (·.drain p 0)

/-- A port leaves or enters DISABLED (R265, Table 10.8). -/
def State.portEnable (s : State) (p : Nat) (en : Bool) : State :=
  let s := s.setReg (po p 0) (s.rd (po p 0) / 2 * 2 + b2n en)
  let v := s.port p
  s.portsChange fun s =>
    if en then (if v.state = 0 ∧ s.pwr.off = 0 ∧ !s.hif.rrs ∧ !s.cfg.recovery then s.train p else s)
    else if v.state = 0 then s
    else
      let s := (s.loseReplay p true).portState p 0
      s.setPort p { Port.reset with since := s.pwr.time, inq := (s.port p).inq }

/-- A port group is powered off: automatic while all its ports are DISABLED (R394), and in the power states. -/
def State.groupOff (s : State) (g : Nat) : Bool := (List.range 4).all fun i => (s.port (4 * g + i)).state == 0

/-- FRAME_TRANSMIT: what waits is put on its way, then one frame goes out (R254). -/
def State.frameTransmit (s : State) (p : Nat) : State := (s.pump p).portsChange (·.sendFrame p)

/-- Send a packet as the last of the port it leaves on; without a route or an ID it is not sent. -/
def State.routeLast (s : State) (k : Packet) : State :=
  match (if s.hasId then s.route k else none) with
  | some p => s.sendLast p k
  | none => s

/-- Notices of a reset or a power state (R274): the abort segments of the collectives that ended, NOTICE packets to every other
module of the database, then LINK_NOTICE on every port, which drains. No other packet is issued. -/
def State.fabNotice (s : State) (reason : Nat) : State :=
  let aborts := s.xch.out.filter fun x => x.seg.kind == 4
  let s := { s with xch := { s.xch with out := [] } }
  let s := aborts.foldl (fun s x => s.routeLast (s.segPacket x)) s
  let s := s.fab.db.foldl (fun s e => match e.id with
    | some d => if e.serial = s.serialNo then s else s.routeLast (s.newPacket 5 d 0 0 0 0 1 (leBytes 8 reason))
    | none => s) s
  portList.foldl (fun s p => if (s.port p).state = 0 then s else s.drain p reason) s

/-! Packets at their destination. -/

/-- The oldest packet of a virtual channel at port p. -/
def State.oldest (s : State) (p vc : Nat) : Option InPkt := (s.port p).inq.find? fun k => k.pkt.vc == vc
/-- The oldest packet of its channel, when it has this kind. -/
def State.inbound (s : State) (p kind : Nat) : Option InPkt :=
  match s.oldest p ((kindVc kind).getD 0) with
  | some k => if k.pkt.kind = kind then some k else none
  | none => none
/-- A packet leaves the ingress buffer of port p, and its credits return (R261). -/
def State.leave (s : State) (p : Nat) (k : InPkt) : State :=
  let s := s.setPort p { s.port p with inq := (s.port p).inq.filter fun x => x.id != k.id }
  if k.loop then s else s.returnUnits p k.pkt
/-- The landing buffer of a packet has been granted. -/
def State.markGranted (s : State) (p : Nat) (k : InPkt) : State :=
  s.setPort p { s.port p with inq := (s.port p).inq.map fun x => if x.id = k.id then { x with granted := true } else x }

/-- Why a peer access is refused (R259): DETAIL names word 0xFF. -/
def State.peerCheck (s : State) (k : Packet) (n : Nat) : Except Fail Unit :=
  if !s.chanOpen k.chan || s.chanKind k.chan != 1 || s.rf (bo k.chan 0x8) 13 0 != k.src then
    .error ⟨stPeer, peerDetail s.fab.id 2⟩
  else if !inRange k.offset n then .error (badAddr 0xFF 3)
  else if s.mem.allowed (s.chanCtx k.chan) k.offset n then .ok () else .error (badAddr 0xFF 1)

/-- A COMPLETION for a packet. -/
def State.completionOf (s : State) (k : Packet) (data : List Byte) : Packet :=
  s.newPacket 2 k.src k.chan k.flow k.offset k.tag (data.length / 8) data

/-- WRITE: accepted into a landing buffer and memory, or refused (R259, R262). -/
def State.pktWrite (s : State) (p : Nat) : State :=
  match s.inbound p 0 with
  | none => s
  | some x =>
    let k := x.pkt
    let n := k.data.length
    match s.peerCheck k n with
    | .error f =>
      let s := if x.granted then s.freeBufs k.chan 1 else s
      (s.leave p x).refuse k f.st f.detail
    | .ok () =>
      let g := if x.granted then (true, s) else s.askBufs k.chan 1 (.packet x.id)
      if !g.1 then g.2
      else if g.2.writeWaits k.offset n then (g.2.holdWrite (384 + p) k.offset n).markGranted p x
      else
        let s := (g.2.memWrite k.offset k.data).freeBufs k.chan 1
        ((s.bump64 (bo k.chan 0x30) n).leave p x).sendReply (s.completionOf k [])

/-- READ: answered with data, or refused (R259). -/
def State.pktRead (s : State) (p : Nat) : State :=
  match s.inbound p 1 with
  | none => s
  | some x =>
    let k := x.pkt
    let n := 8 * k.words
    match s.peerCheck k n with
    | .error f => (s.leave p x).refuse k f.st f.detail
    | .ok () =>
      if s.accessWaits k.offset n then s
      else
        let r := s.memRead .other k.offset n
        match r.1 with
        | .bytes bs => (r.2.leave p x).sendReply (r.2.completionOf k bs)
        | .uncorrectable => (r.2.leave p x).refuse k stUncorrectable 0xFF
        | _ => (r.2.leave p x).refuse k stPoisoned 0xFF

/-- A tag has come back: it is freed. -/
def State.tagBack (s : State) (t : Nat) (g : PeerTag) : State := (s.setPeerTag t none).freeTag (9 + g.port)

/-- The answer to an access that has been given up is discarded, and its TAG may serve again (R275). -/
def State.tagLate (s : State) (t : Nat) : State := { s with fab := { s.fab with stale := s.fab.stale.filter (· != t) } }

/-- COMPLETION (R258): read data arrives, or a write is acknowledged; a late one is discarded (R275). -/
def State.pktCompletion (s : State) (p : Nat) : State :=
  match s.inbound p 2 with
  | none => s
  | some x =>
    let s := s.leave p x
    match s.peerTag x.pkt.tag with
    | none => s.tagLate x.pkt.tag
    | some g =>
      if peerId g.req.addr ≠ x.pkt.src then s
      else
        let s := s.tagBack x.pkt.tag g
        if 384 ≤ g.req.queue then s
        else if g.req.bytes.isNone then
          let q := g.req.queue
          let bs := (x.pkt.data.drop (g.req.addr % 8)).take g.req.len
          let s := { s with hif := { s.hif with ext := tputs zeroB s.hif.ext g.req.addr bs } }
          (s.setQ q { s.q q with have_ := (s.q q).have_ ++ [(g.req.addr, g.req.len)] }).bump64 (bo (s.chan q) 0x30) g.req.len
        else s.setQ g.req.queue { s.q g.req.queue with acks := (s.q g.req.queue).acks - 1 }

/-- REFUSAL (R259): it carries the status and DETAIL of the source command; a late one is discarded (R275). A status byte outside
Table 0.6, or the code of a success, is reported as it stands: the spec says nothing of one (DESIGN CHOICE, log entry 65). -/
def State.pktRefusal (s : State) (p : Nat) : State :=
  match s.inbound p 3 with
  | none => s
  | some x =>
    let s := s.leave p x
    let k := x.pkt
    if 0x8000 ≤ k.tag then s.rankLost (k.flow % 16) (k.tag - 0x8000) 0
    else match s.peerTag k.tag with
      | none => s.tagLate k.tag
      | some g =>
        let v := leNat (k.data.take 8)
        (s.tagBack k.tag g).peerLost g.req (BitVec.ofNat 8 v) (fld v 63 32)

/-- CPL_TIMEOUT (R275): the tag is freed, and the answer that may still come belongs to no access. -/
def State.cplTimeout (s : State) (t : Nat) : State :=
  match s.peerTag t with
  | none => s
  | some g =>
    if s.due g.since (s.rd 0xD0002C) then
      let s := s.tagBack t g
      ({ s with fab := { s.fab with stale := s.fab.stale ++ [t] } }).peerLost g.req stPeer (peerDetail (peerId g.req.addr) 1)
    else s

/-- A segment lands in a buffer of its channel (R51, R232): held there, or taken by its collective, which then steps. -/
def State.segLand (s : State) (p : Nat) (x : InPkt) (g : Seg) (flt : Bool) : State :=
  let a := if x.granted then (true, s) else s.askBufs x.pkt.chan 1 (.packet x.id)
  if a.1 then
    let s := a.2.leave p x
    match s.segFate g with
    | .take r =>
      let s := (s.freeBufs x.pkt.chan 1).xTake r g
      if (s.xRun r.queue).isSome then s.xStep r.queue flt else s
    | _ => { s with xch := { s.xch with held := s.xch.held ++ [⟨g, x.pkt.chan⟩] } }
  else a.2

/-- A segment at port p (R228): refused when its channel is closed (R53), discarded, or landed. -/
def State.segIn (s : State) (p : Nat) (x : InPkt) (g : Seg) (flt : Bool) : State :=
  let gone := (if x.granted then s.freeBufs x.pkt.chan 1 else s).leave p x
  if !s.chanOpen x.pkt.chan then gone.refuse x.pkt stPeer (peerDetail s.fab.id 2)
  else match s.segFate g with
    | .discard => gone
    | _ => s.segLand p x g flt

/-- SEGMENT and ABORT_SEGMENT: the oldest packet of VC2, when it is a segment (kind 4 of a segment is an abort). -/
def State.pktSegment (s : State) (p : Nat) (abort flt : Bool) : State :=
  match s.inbound p 4 with
  | none => s
  | some x => match Seg.of x.pkt.data with
    | none => if abort then s else s.leave p x
    | some g => if (g.kind == 4) == abort then s.segIn p x g flt else s

/-- NOTICE (R274): the packet is consumed; the spec gives it no other effect at its destination. -/
def State.pktNotice (s : State) (p : Nat) : State :=
  match s.inbound p 5 with
  | none => s
  | some x => s.leave p x

/-- LSA (R266): newer ones are stored and flooded. -/
def State.pktLsa (s : State) (p : Nat) : State :=
  match s.inbound p 6 with
  | none => s
  | some x =>
    let s := s.leave p x
    let e := LsaEntry.of x.pkt.data s.pwr.time
    let old := s.fab.db.find? fun y => y.serial == e.serial
    if !s.discovering || e.serial == s.serialNo || (match old with
        | some y => !gtMod e.seq y.seq
        | none => false) then s
    else ((s.dbPut e).flood (s.vc3Ports.filter (· != p)) x.pkt).conflict

/-- ID_GRANT (R267): taken by the module it names, flooded once to the others; once more when the database has changed since. -/
def State.pktGrant (s : State) (p : Nat) : State :=
  match s.inbound p 7 with
  | none => s
  | some x =>
    let s := s.leave p x
    let serial := leNat (x.pkt.data.take 8)
    let id := x.pkt.dst
    if serial = s.serialNo then s.takeId id
    else if s.fab.grants.contains (serial, id) then s
    else ({ s with fab := { s.fab with grants := s.fab.grants ++ [(serial, id)] } }).flood (s.vc3Ports.filter (· != p)) x.pkt

end Sys2Proof.Machine
end

