-- ==== Sys2Proof/Machine/Common.lean ====
section
/-!
DEFINITION. The common commands (Table 2.8), and the front end's steps on slipways, berths, the landing pool and its
configuration (R42, R44, R46, R48 to R54).
-/
namespace Sys2Proof.Machine

/-! Writes and the configuration CRC (R426). -/

/-- The voted payload of any control register. -/
def State.payload (s : State) (off : Nat) : Nat :=
  match regAt off with
  | some a => if a.reg.tMask = 0 then s.rd off else s.rdT off
  | none => 0

/-- Offsets whose entries differ between two register files. -/
def diffKeys (a b : Tbl W16) : List Nat := ((a.filter fun e => !b.contains e) ++ b.filter fun e => !a.contains e).map (·.1)

/-- A C field differs between two states. -/
def State.cDiffers (s t : State) : Bool :=
  (diffKeys s.regs t.regs ++ diffKeys s.regs1 t.regs1 ++ diffKeys s.regs2 t.regs2).any fun k =>
    match regAt k with
    | some a => s.payload k &&& a.reg.cMask != t.payload k &&& a.reg.cMask
    | none => false

/-- A write from BAR0, the mailbox or the towpath: DIRTY sets when it changes a C field (R426). -/
def State.byWrite (s : State) (f : State → State) : State :=
  let t := f s
  if s.cDiffers t then { t with cfg := { t.cfg with dirty := true } } else t

/-! Common commands (R45). -/

/-- NOP. -/
def State.nop (s : State) (q : Nat) : State :=
  match s.running q 0 with
  | some _ => s.endCmd q stOK 0
  | none => s

/-- WRITE_IMM: the 8-byte value at the address, in any space. -/
def State.writeImm (s : State) (q : Nat) : State :=
  match s.running q 1 with
  | some c =>
    match s.checkAddr q (c.p 0) 8 0 8 with
    | .error f => (s.noteBme f).failCmd q f
    | .ok () =>
      if s.opWaits (c.p 0) 8 then s.holdWrite q (c.p 0) 8
      else (s.opWrite q (c.p 0) 0 (leBytes 8 (c.p 1))).endCmd q stOK 0
  | none => s

/-- TOKEN_SET: the counter takes VALUE unconditionally (R37). -/
def State.tokenSet (s : State) (q : Nat) : State :=
  match s.running q 2 with
  | some c =>
    match tokenCheck (s.tokCnt (s.chan q)) 0 (c.p 0) with
    | .error f => s.failCmd q f
    | .ok () =>
      let t := tokenOf (s.tokBase (s.chan q)) (c.p 0)
      (s.setTok t.1 t.2).endCmd q stOK 0
  | none => s

/-- What a slipway command does to its slipway (Table 2.9). -/
def State.slipEffect (s : State) (op n : Nat) (f : W32) : State :=
  match op with
  | 4 => s.setSlip n { s.slip n with tail := f + 1 }
  | 6 => s.setSlip n { s.slip n with head := f + 1 }
  | _ => s

/-- A slipway command (R48, Table 2.9); a failed check sets MISUSE. -/
def State.slipCmd (s : State) (q op : Nat) : State :=
  match s.running q op with
  | some c =>
    let n := fld (c.p 0) 5 0
    match s.slipCheck q c with
    | .error f =>
      let s := if lowBit (c.p 0) (bmask 31 6) = none then s.event (slo n 0x28) 1 else s
      s.failCmd q f
    | .ok () =>
      if s.slipMet q c then (s.slipEffect op n (BitVec.ofNat 32 (fld (c.p 0) 63 32))).endCmd q stOK 0 else s
  | none => s

/-! Slipways. -/

/-- Refuse a slipway's enable or configuration write (R42, R46). -/
def State.refuseSl (s : State) (n : Nat) : State := (s.event (slo n 0x28) 0).evCqf 3

/-- SLIPWAY_ENABLE (R42, R46): changes nothing on an enabled slipway. -/
def State.slipEnable (s : State) (n : Nat) (en : Bool) : State :=
  if en then
    if s.slipOn n then s
    else if s.slipValid n then (s.setSlip n ⟨0, 0⟩).setReg (slo n 0x1C) 1
    else s.refuseSl n
  else s.setReg (slo n 0x1C) 0

/-! Berths (R50, R53, R54). -/

/-- May the channel be opened (R50)? -/
def State.openValid (s : State) (b : Nat) : Bool :=
  decide (1 ≤ s.ceiling b) && decide (s.ceiling b ≤ landingBuffers) && decide (s.reserve b ≤ s.ceiling b) &&
  decide (s.totalReserve + s.reserve b ≤ landingBuffers) && decide (s.tokBase b + s.tokCnt b ≤ 4096)

/-- Refuse a berth's opening or closing. -/
def State.refuseB (s : State) (b bit : Nat) : State := (s.event (bo b 0x24) bit).evCqf 3

/-- BERTH_OPEN: changes nothing on an open channel (R42). -/
def State.berthOpen (s : State) (b : Nat) : State :=
  if s.chanOpen b then s
  else if s.openValid b then s.setReg (bo b 0) (s.rd (bo b 0) ||| 1)
  else s.refuseB b 2

/-- A queue bound to the channel is not DISABLED. -/
def State.bound (s : State) (b : Nat) : Bool := (List.range 384).any fun q => s.chan q == b && (s.q q).state != .disabled

/-- A channel's buffers are freed and their data discarded: waiting requests, granted packets, held segments. -/
def State.emptyBerth (s : State) (b : Nat) : State :=
  let s := s.setBerth b { s.berth b with held := 0, overNs := 0 }
  let s := portList.foldl (fun s p =>
    s.setPort p { s.port p with inq := (s.port p).inq.map fun k => if k.pkt.chan = b then { k with granted := false } else k }) s
  { s with cqf := { s.cqf with landing := s.cqf.landing.filter fun r => r.chan != b },
           xch := { s.xch with held := s.xch.held.filter fun h => h.chan != b } }

/-- BERTH_CLOSE (R53). -/
def State.berthClose (s : State) (b : Nat) : State :=
  if !s.chanOpen b then s
  else if s.bound b then s.refuseB b 3
  else (s.emptyBerth b).setReg (bo b 0) (s.rd (bo b 0) / 2 * 2)

/-- The ports whose ingress buffers hold packet number id. -/
def State.packetPort (s : State) (id : Nat) : Option Nat := portList.find? fun p => (s.port p).inq.any fun k => k.id == id

/-- LANDING_BUFFER_GRANT: the first queued request, in strict arrival order, once it can be granted (R51). A request
whose packet is gone is dropped. -/
def State.landingGrant (s : State) : State :=
  match s.cqf.landing with
  | [] => s
  | r :: rest =>
    let t := { s with cqf := { s.cqf with landing := rest } }
    match r.what with
    | .queue q => if s.canGrant r.chan r.n then (t.takeBufs r.chan r.n).setQ q { s.q q with bufs := (s.q q).bufs + r.n } else s
    | .packet id =>
      match s.packetPort id with
      | none => t
      | some p =>
        if s.canGrant r.chan r.n then
          let t := t.takeBufs r.chan r.n
          t.setPort p { t.port p with inq := (t.port p).inq.map fun k => if k.id = id then { k with granted := true } else k }
        else s

/-- The masked payload of a 4-byte write to a control register (R415): old payload, data, storable bits. -/
def maskedWrite (old data mask : Nat) : Nat :=
  let m := data / 65536 &&& mask
  (old &&& (0xFFFF ^^^ m)) ||| (data &&& m)

/-- WEIR_WRITE (R54): may be written at any time. -/
def State.weirWrite (s : State) (b data : Nat) : State :=
  let off := bo b 0x14
  (s.setReg off (maskedWrite (s.rd off) data 0x3FFF)).weirCheck b

/-- CQF_PEAK_CLR: every PEAK field of CQF becomes the current value. -/
def State.cqfPeakClr (s : State) : State :=
  let s := (List.range 22).foldl (fun s i => s.setPool i { s.pool i with peak := (s.pool i).inUse }) s
  { s with cqf := { s.cqf with berths := s.cqf.berths.foldl (fun t e => tput berthReset t e.1 { e.2 with peak := e.2.held }) s.cqf.berths } }

/-- DISPATCH_HOLD (R44). -/
def State.dispatchHold (s : State) (en : Bool) : State := s.setReg 0x500000 (b2n en)

end Sys2Proof.Machine
end

