-- ==== Sys2Proof/Machine/Shake.lean ====
section
/-!
DEFINITION. SHAKE256 as FIPS 202 defines it, the hash of every digest, measurement and key identifier of chapter 14.
FIPS 202 is a standard outside the spec's own text (PRESUMED, log entry 60).
-/
namespace Sys2Proof.Machine

/-- One step of the generator of round constants: a shift register over GF(2) of eight bits, whose bit 0 comes out. -/
def shakeLfsr (r : Nat) : Nat := if r < 128 then 2 * r else (2 * r) ^^^ 0x171

/-- The constant of the round that begins at a register state, and the state after the round: output j of the seven
a round takes goes to bit 2^j - 1. -/
def shakeRound (r : Nat) : W64 × Nat :=
  (List.range 7).foldl (fun p j => (if p.2 % 2 = 1 then p.1 ||| BitVec.ofNat 64 (2 ^ (2 ^ j - 1)) else p.1, shakeLfsr p.2))
    (0, r)

/-- The constants of a number of rounds from a register state on. -/
def shakeConsts : Nat → Nat → List W64
  | 0, _ => []
  | k + 1, r => (shakeRound r).1 :: shakeConsts k (shakeRound r).2

/-- The path of a word through the 24 places of a state other than place 0: from (x, y) to (y, 2x + 3y), with the place it
leaves, the place it reaches and the rotation on the way, a triangular number. -/
def shakePath : Nat → Nat × Nat → List (Nat × Nat × Nat)
  | 0, _ => []
  | k + 1, (x, y) =>
    let q := (y, (2 * x + 3 * y) % 5)
    (x + 5 * y, q.1 + 5 * q.2, (24 - k) * (25 - k) / 2 % 64) :: shakePath k q

/-- The parity of each of the five columns. -/
def shakeParity (a : List W64) : List W64 := (chunks 5 a).foldl (List.zipWith (· ^^^ ·)) (List.replicate 5 0)

/-- Every word with the parities of the column before it and, turned by one, of the column after it. -/
def shakeDiffuse (a : List W64) : List W64 :=
  let p := shakeParity a
  let m := List.zipWith (fun (u v : W64) => u ^^^ v.rotateLeft 1) (p.rotateLeft 4) (p.rotateLeft 1)
  (chunks 5 a).flatMap fun row => List.zipWith (· ^^^ ·) row m

/-- The words moved and turned along the path. -/
def shakeMove (a : List W64) : List W64 :=
  (shakePath 24 (1, 0)).foldl (fun b m => b.set m.2.1 ((a.getD m.1 0).rotateLeft m.2.2)) a

/-- Every word of a row with what the next two words of the row select. -/
def shakeSelect (a : List W64) : List W64 :=
  (chunks 5 a).flatMap fun row => List.zipWith (· ^^^ ·) row (List.zipWith (fun (u v : W64) => v &&& ~~~u) (row.rotateLeft 1) (row.rotateLeft 2))

/-- The permutation: 24 rounds, each ending with its constant in place 0. -/
def shakePermute (a : List W64) : List W64 :=
  (shakeConsts 24 1).foldl (fun s k => (shakeSelect (shakeMove (shakeDiffuse s))).modify 0 (· ^^^ k)) a

/-- Absorb a block of 136 bytes. -/
def absorb (a : List W64) (block : List Byte) : List W64 :=
  let ws := wordsOf 17 block
  shakePermute (a.mapIdx fun i w => w ^^^ BitVec.ofNat 64 (ws.getD i 0))

/-- SHAKE256 padding of the last part: the suffix 1111, then pad10*1. -/
def shakePad (l : List Byte) : List Byte :=
  let k := l.length
  if k = 135 then l ++ [0x9F] else l ++ [0x1F] ++ List.replicate (134 - k) 0 ++ [0x80]

/-- The first n bytes (at most 136) of SHAKE256 of a message. -/
def shake256 (n : Nat) (msg : List Byte) : List Byte :=
  let full := msg.length / 136
  let a := (chunks 136 (msg.take (136 * full))).foldl absorb (List.replicate 25 0)
  let a := absorb a (shakePad (msg.drop (136 * full)))
  (a.flatMap fun w => leBytes 8 w.toNat).take n

end Sys2Proof.Machine
end

