-- ==== Sys2Proof/Machine/Sec.lean ====
section
/-!
DEFINITION. The security block (chapter 14): the firmware's reads of its sources, verification (R360 to R362), the device
identity (R357 to R359), measurements (R363, R364), reports and certificates.
-/
namespace Sys2Proof.Machine

/-! What the firmware reads at an engine address (R342, R364, R434). -/

/-- The outcome of a firmware read. -/
inductive FwRes where
  | bytes (bs : List Byte)
  | wait
  | fail (f : Fail)
  deriving DecidableEq, Repr

/-- Read local memory a poison unit at a time; a failing word gives its offset from `base` (Table 13.11). -/
def State.fwLocal (base : Nat) : Nat → Nat → Nat → State → FwRes × State
  | 0, _, _, s => (.bytes [], s)
  | f + 1, a, e, s =>
    if e ≤ a then (.bytes [], s)
    else
      let m := min (e - a) (32 - a % 32)
      if s.accessWaits a m then (.wait, s)
      else
        let r := s.memRead .other a m
        match r.1 with
        | .bytes bs =>
          let t := State.fwLocal base f (a + m) e r.2
          (match t.1 with
            | .bytes l => .bytes (bs ++ l)
            | x => x, t.2)
        | .uncorrectable => (.fail ⟨stUncorrectable, max base (s.mem.wordBase a) - base⟩, r.2)
        | _ => (.fail ⟨stPoisoned, a - base⟩, r.2)

/-- What the outside world answers to a firmware read of host memory (Table 12.3): a free value chooses. -/
def State.fwHost (s : State) (a n : Nat) : FwRes × State :=
  let k := (Config.freeWord s.draws).toNat % 5
  let d := s.draws
  let s := s.draw
  if k = 0 then (.fail (badAddr 0 7), (s.evHif 3).bump 0x400044 1)
  else if k = 1 then (.fail (badAddr 0 8), (s.evHif 4).bump 0x400044 1)
  else if k = 2 then (.fail ⟨stPoisoned, 0⟩, (s.evHif 6).aerEvent 12)
  else if k = 3 then (.fail ⟨stTimeout, timeoutDetail 5 0⟩, ((s.evHif 5).bump 0x400040 1).aerEvent 14)
  else (.bytes ((List.range n).map fun i => Config.freeByte d (a + i)), s)

/-- A firmware read of peer memory: a free value chooses the outcome. -/
def State.fwPeer (s : State) (a n : Nat) : FwRes × State :=
  let k := (Config.freeWord s.draws).toNat % 4
  let d := s.draws
  (if k < 3 then .fail ⟨stPeer, peerDetail (peerId a) k⟩ else .bytes ((List.range n).map fun i => Config.freeByte d (a + i)), s.draw)

/-- The firmware reads [a, a + n) of a source that begins at `base`. -/
def State.fwRead (s : State) (base a n : Nat) : FwRes × State :=
  if n = 0 then (.bytes [], s)
  else if malformedAddr a then (.fail (badAddr 0 0), s)
  else if isHost a then
    if 3 * 2 ^ 62 < a + n then (.fail (badAddr 0 0), s)
    else if !s.hif.bme then (.fail (badAddr 0 6), s.evHif 2)
    else if !s.hif.up then (.wait, s)
    else s.fwHost a n
  else if isPeer a then if inRange (addrOffset a) n then s.fwPeer a n else (.fail (badAddr 0 3), s)
  else if inRange a n then State.fwLocal base (n / 32 + 2) a (a + n) s
  else (.fail (badAddr 0 3), s)

/-! Verification. -/

/-- Byte i of bs, zero beyond its end. -/
def byteAt (bs : List Byte) (i : Nat) : Nat := (bs.getD i 0).toNat
/-- n little-endian bytes at offset o. -/
def numAt (bs : List Byte) (o n : Nat) : Nat := leNat ((bs.drop o).take n)
/-- n bytes at offset o. -/
def part (bs : List Byte) (o n : Nat) : List Byte := (bs.drop o).take n
/-- The first byte of [o, o + n) that is not zero. -/
def firstNonZero (bs : List Byte) (o n : Nat) : Option Nat := ((List.range n).find? fun i => byteAt bs (o + i) != 0).map (o + ·)

/-- Sizes of Table 14.1. -/
def certBytes : Nat := 5325
def sigBytes : Nat := 3309
def keyBytes : Nat := 1952

/-- The root public key in module flash. -/
def rootKey : List Byte := (List.range keyBytes).map Config.rootKey
/-- The device certificate in module flash. -/
def deviceCert : List Byte := (List.range certBytes).map Config.deviceCert
/-- The key identifier of a public key (R356). -/
def keyId (pk : List Byte) : List Byte := shake256 32 pk
/-- The public key a certificate names. -/
def certKey (cert : List Byte) : List Byte := part cert 64 keyBytes

/-- The fields of a certificate for a role (R362, Table 14.1). -/
def certFields (cert : List Byte) (role : Nat) : Bool :=
  cert.length == certBytes && numAt cert 0 4 == 0x54524543 && numAt cert 4 2 == 1 && byteAt cert 6 == role && byteAt cert 7 == 0 &&
  part cert 16 32 == keyId rootKey && (firstNonZero cert 48 16).isNone

/-- The root key matches the ROM hash (R360). -/
def rootOk : Bool := shake256 64 rootKey == (List.range 64).map Config.romRootHash

/-- Does a certificate stand under the root key for a role? -/
def certOk (cert : List Byte) (role : Nat) : Bool :=
  certFields cert role && Config.mldsaVerify rootKey (cert.take 2016) (cert.drop 2016)

/-- A verification has failed: SEC_VERIFY_FAILS, and ROOT_MISMATCH where the root key is the cause. -/
def State.verifyFailed (s : State) : State :=
  let s := s.bump 0x1000088 1
  if rootOk then s else s.evSec 1

/-- Verify a signed object against a role (R362). -/
def State.verify (s : State) (obj sig cert : List Byte) (role : Nat) : Bool × State :=
  if rootOk && certOk cert role && Config.mldsaVerify (certKey cert) obj sig then (true, s) else (false, s.verifyFailed)

/-! Identity. -/

/-- The device's public key from ξ. -/
def devKey (xi : List Byte) : List Byte := (List.range keyBytes).map (Config.mldsaPublic xi)

/-- Identity at start-up step 4 (R357, R359): the seed the PUF gives, and the check value when there is helper data. -/
def State.identify (s : State) (seed : List Byte) (check : Option (List Byte)) : State :=
  let good := match check with
    | some c => c == shake256 32 (ascii "NGUTO-ZT2048-PUFCHK-1" ++ seed)
    | none => false
  if good then
    let xi := shake256 32 (ascii "NGUTO-ZT2048-DEVKEY-1" ++ seed)
    { s with sec := { s.sec with id := 1, xi := xi, dkid := keyId (devKey xi) } }
  else ({ s with sec := { s.sec with id := 2, xi := [], dkid := [] } }).evSec 0

/-- The device certificate at start (R359, Table 14.2). -/
def State.checkDevCert (s : State) : State :=
  if rootOk && certOk deviceCert 3 then
    if s.sec.id ≠ 1 then s
    else if certKey deviceCert = devKey s.sec.xi then { s with sec := { s.sec with devCertOk := true } }
    else s.evSec 4
  else s.verifyFailed

/-! Measurements (Table 14.3). -/

/-- A measurement reads as 64 zero bytes while it has no value. -/
def measured (m : List Byte) : List Byte := padTo 64 m
/-- M_ROM. -/
def mRom : List Byte := (List.range 64).map Config.romMeasurement
/-- The measurement of an index. -/
def State.measurement (s : State) (i : Nat) : List Byte :=
  match i with
  | 0 => if 3 ≤ s.pwr.step then mRom else measured []
  | 1 => measured s.sec.mSupp
  | 2 => measured s.sec.mCfg
  | _ => measured s.sec.mProg

/-- Extend M_PROG with the bytes read (R364). -/
def State.extendProg (s : State) (bs : List Byte) : State :=
  let s := { s with sec := { s.sec with mProg := shake256 64 (measured s.sec.mProg ++ shake256 64 bs) } }
  s.bump 0x1000080 1
/-- Clear M_PROG. -/
def State.clearProg (s : State) : State := ({ s with sec := { s.sec with mProg := [] } }).setCtr 0x1000080 0

/-- The negotiated major and minor of every interface, two bytes each. -/
def State.versionBytes (s : State) : List Byte := s.mgt.vers.flatMap fun v => [BitVec.ofNat 8 v.1, BitVec.ofNat 8 v.2]

/-- The supplement version, 0 when none is loaded. -/
def State.suppVersion (s : State) : Nat := (s.mgt.supp.map (·.version.toNat)).getD 0

/-- The body of a report (Table 14.5) with REPORT_SEQ `seq`. -/
def State.reportBody (s : State) (nonce : List Byte) (towpath : Bool) (seq : Nat) : List Byte :=
  let count := s.ctr 0x1000080
  let flags := b2n s.mgt.supp.isSome + put (b2n (count != 0)) 1 + put (b2n towpath) 2 + put (b2n s.sec.devCertOk) 3
  leBytes 4 0x54535441 ++ leBytes 2 1 ++ leBytes 2 flags ++ leBytes 8 s.cfg.serial.toNat ++ nonce ++ padTo 32 s.sec.dkid ++
  leBytes 4 Config.romVersion.toNat ++ leBytes 4 s.suppVersion ++ leBytes 4 s.cfg.version ++ s.versionBytes ++ leBytes 2 0 ++
  leBytes 8 s.pwr.time ++ leBytes 4 seq ++ leBytes 4 (s.ctr 0xF00010) ++ leBytes 4 (s.ctr 0x40001C) ++ leBytes 4 count ++
  (List.range 4).flatMap s.measurement ++ List.replicate 64 0

/-- The report and its signature (R366). -/
def State.report (s : State) (nonce : List Byte) (towpath : Bool) : List Byte × State :=
  let s := s.bumpWrap 0x1000084
  let body := s.reportBody nonce towpath (s.ctr 0x1000084)
  (body ++ (List.range sigBytes).map (Config.mldsaSign s.sec.xi body), s)

/-- The objects CERT_READ returns (R367). -/
def State.certObject (s : State) (i : Nat) : List Byte :=
  match i with
  | 0 => rootKey
  | 1 => deviceCert
  | 2 => s.sec.cfgCert
  | _ => (s.mgt.supp.map (·.cert)).getD []

end Sys2Proof.Machine
end

