-- ==== Sys2Proof/Machine/CfgStore.lean ====
section
/-!
DEFINITION. The configuration record (R432 to R434), the configuration CRC (R425 to R429), and the votes of triplicated
fields (R423, R424).
-/
namespace Sys2Proof.Machine

/-! The record. -/

/-- A record that has passed the rules of R432. -/
structure Record where
  version : Nat
  serial : Nat
  bodyEnd : Nat
  cert : List Byte
  sig : List Byte
  /-- type, offset and size of each section -/
  secs : List (Nat × Nat × Nat)
  deriving DecidableEq, Repr

/-- The bytes of the section of a type. -/
def Record.section_ (r : Record) (bs : List Byte) (t : Nat) : Option (List Byte) :=
  (r.secs.find? fun x => x.1 == t).map fun x => part bs x.2.1 x.2.2

/-- The first failing byte offset of a list of conditions. -/
def firstBad : List (Bool × Nat) → Option Nat
  | [] => none
  | (ok, o) :: l => if ok then firstBad l else some o

/-- Two ranges share no byte. -/
def apart (a n b m : Nat) : Bool := decide (a + n ≤ b) || decide (b + m ≤ a)

/-- The size a section's contents need (Table 17.5). -/
def sectionSizeOk (t n : Nat) : Bool :=
  match t with
  | 4 => n == 2048
  | 5 => decide (32 ≤ n)
  | 6 => n == 8
  | 7 => n == 2
  | _ => true

/-- Conditions on section s of a record (R432). -/
def sectionRules (bs : List Byte) (bodyEnd : Nat) (s : Nat) : List (Bool × Nat) :=
  let o := 64 + 16 * s
  let t := numAt bs o 2
  let zero (a n : Nat) : Bool × Nat := ((firstNonZero bs a n).isNone, (firstNonZero bs a n).getD a)
  [([1, 2, 4, 5, 6, 7].contains t, o), (!((List.range s).any fun i => numAt bs (64 + 16 * i) 2 == t), o), zero (o + 2) 2,
    (decide (numAt bs (o + 4) 4 + numAt bs (o + 8) 4 ≤ bodyEnd), o + 4), (sectionSizeOk t (numAt bs (o + 8) 4), o + 8), zero (o + 12) 4]

/-- The near-bank repair map of section 4: every target is 0 to 8, and a spare serves one group (R195). -/
def repairMapBad (m : List Byte) : Option Nat :=
  (List.range 2048).find? fun g =>
    let t := byteAt m g
    decide (8 < t) || (decide (t < 8) && (List.range (g % 256)).any fun i => byteAt m (g / 256 * 256 + i) == t)

/-- Read a record of `size` bytes by the rules of R432; the offset of the failing field, or 0xFFFF. -/
def parseRecord (bs : List Byte) (size : Nat) : Except Nat Record :=
  let nsect := numAt bs 6 2
  let bodyEnd := numAt bs 36 4
  let co := numAt bs 24 4
  let so := numAt bs 32 4
  let zero := firstNonZero bs 40 24
  let secs := (List.range nsect).map fun s => (numAt bs (64 + 16 * s) 2, numAt bs (68 + 16 * s) 4, numAt bs (72 + 16 * s) 4)
  let rules := [(decide (256 ≤ size) && decide (size ≤ 1048576), 12), (numAt bs 0 4 == 0x47464352, 0), (numAt bs 4 2 == 1, 4),
    (decide (1 ≤ nsect) && decide (nsect ≤ 16), 6), (numAt bs 12 4 == size, 12), (numAt bs 28 4 == certBytes, 28),
    (decide (bodyEnd ≤ size) && decide (64 + 16 * nsect ≤ bodyEnd), 36),
    (decide (bodyEnd ≤ co) && decide (co + certBytes ≤ size), 24),
    (decide (bodyEnd ≤ so) && decide (so + sigBytes ≤ size) && apart co certBytes so sigBytes, 32),
    (zero.isNone, zero.getD 40)] ++ (List.range (min nsect 16)).flatMap (sectionRules bs bodyEnd) ++
    [(secs.any fun x => x.1 == 1, 0xFFFF), (secs.any fun x => x.1 == 6, 0xFFFF)]
  match firstBad rules with
  | some o => .error o
  | none =>
    let r : Record := ⟨numAt bs 8 4, numAt bs 16 8, bodyEnd, part bs co certBytes, part bs so sigBytes, secs⟩
    match r.secs.find? fun x => x.1 == 4 with
    | some x =>
      match repairMapBad (part bs x.2.1 x.2.2) with
      | some g => .error (min 0xFFFF (x.2.1 + g))
      | none => .ok r
    | none => .ok r

/-- A record whose verification has failed is flagged. -/
def recordVerdict (v : Bool × State) : Bool × State := if v.1 then v else (false, v.2.evSec 2)
/-- Verify a record's signature with role 1 (R432, R362). -/
def State.verifyRecord (s : State) (r : Record) (bs : List Byte) : Bool × State :=
  recordVerdict (s.verify (bs.take r.bodyEnd) r.sig r.cert 1)

/-- The near-bank map from the targets of the logical groups. -/
def mapOf (targets : List (Nat × Nat)) : Tbl Nat := targets.foldl (fun t e => tput homeMap t e.1 e.2) []

/-- Put an applied record's values in force (R309, R431, R195, R363). -/
def State.applyValues (s : State) (version serial : Nat) (pci : List Nat) (fab : Nat) (targets : List (Nat × Nat)) (meas cert : List Byte) : State :=
  let s := { s with cfg := { s.cfg with version := version, serial := BitVec.ofNat 64 serial, pciId := pci, recovery := false },
                    sec := { s.sec with mCfg := meas, cfgCert := cert },
                    nbu := { s.nbu with map := mapOf targets, bySw := [] } }
  let s := s.setReg 0xD00008 fab
  if bitAt fab 15 then { s with fab := { s.fab with id := fld fab 13 0, idSrc := 1 } } else s

/-- Apply a record held in flash. -/
def State.applyRecord (s : State) (r : Record) (bs : List Byte) : State :=
  let pci := ((r.section_ bs 6).getD []) 
  let fab := match r.section_ bs 7 with
    | some x => leNat x &&& 0xBFFF
    | none => 0
  let targets := match r.section_ bs 4 with
    | some m => (List.range 2048).map fun g => (g, byteAt m g)
    | none => []
  s.applyValues r.version r.serial ((List.range 4).map fun i => numAt pci (2 * i) 2) fab targets (shake256 64 bs) r.cert

/-- The check value at the end of the helper data (R357). -/
def Record.checkValue (r : Record) (bs : List Byte) : Option (List Byte) :=
  (r.section_ bs 5).map fun h => h.drop (h.length - 32)

/-- Start in recovery (R410): the recovery identity, whose Device ID has bit 15 set, is the ROM's. -/
def State.recover (s : State) : State :=
  { s with cfg := { s.cfg with version := 0, serial := 0, recovery := true,
                               pciId := (List.range 4).map fun i => if i = 1 then (Config.freeWord i).toNat % 32768 + 32768 else (Config.freeWord i).toNat % 65536 },
           pwr := { s.pwr with fail := 1 } }

/-! The configuration CRC. -/

/-- The byte stream of R425. -/
def State.cStream (s : State) : List Byte := cRegs.flatMap fun e => leBytes 4 (s.payload e.1 &&& e.2.reg.cMask)
/-- The configuration CRC. -/
def State.cfgCrc (s : State) : W32 := crc32c s.cStream

/-- ADOPT (R427). -/
def State.adopt (s : State) : State := { s with cfg := { s.cfg with adopting := true } }
/-- The device's own adoption at the end of a reset (R429). -/
def State.adoptSelf (s : State) : State := s.adopt.event 0x100024 1

/-- The reference takes a value; its registers show it. -/
def State.setRef (s : State) (v : W32) : State :=
  (({ s with cfg := { s.cfg with crcRef := v } }).setReg 0x100010 (v.toNat % 65536)).setReg 0x100014 (v.toNat / 65536)

/-- A write to CFG_CRC_REF_HI: it commits the reference and clears DIRTY (R427); an empty mask changes nothing. -/
def State.refHiWrite (s : State) (data : Nat) : State :=
  if data / 65536 = 0 then s
  else
    let s := s.setReg 0x100014 (maskedWrite (s.rdT 0x100014) data 0xFFFF)
    { s with cfg := { s.cfg with crcRef := BitVec.ofNat 32 (s.rdT 0x100010 + 65536 * s.rdT 0x100014), dirty := false } }

/-- What a scan leads to. -/
inductive ScanEnd where
  | nothing
  | matched
  | mismatched
  deriving DecidableEq, Repr

/-- A scan that is due (R426, R427): CFG_CRC_LIVE, CFG_CRC_SCANS, adoption or comparison. It takes T fields at their voted
values, and votes repair as everywhere (R423). -/
def State.scan (s : State) : ScanEnd × State :=
  let v := s.cfgCrc
  let s := ({ s with cfg := { s.cfg with crcLive := v, scanMs := s.pwr.time / 1000000 } }).bumpWrap 0x10001C
  if s.cfg.adopting then
    let t := s.setRef v
    (.nothing, { t with cfg := { t.cfg with dirty := false, adopting := false } })
  else if s.cfg.dirty then (.nothing, s)
  else if v = s.cfg.crcRef then (.matched, { s with cqf := { s.cqf with heldCrc := false } })
  else (.mismatched, s)

/-- The reaction of CFG_CRC_ACTION 0 to 2 (R428, Table 17.2). -/
def State.crcReact (s : State) : State :=
  let s := ((s.event 0x100024 0).errRec 0x07 1 1 0 s.cfg.crcLive.toNat s.cfg.crcRef.toNat).useT 0x10000C
  let a := fld (s.rdT 0x10000C) 1 0
  let s := if 1 ≤ a ∧ s.rbit 0x30 0 then s.irq 385 else s
  if a = 2 then { s with cqf := { s.cqf with heldCrc := true } } else s

/-! Votes. -/

/-- An upset of bits of one copy of a register's stored fields: no write, so DIRTY does not set (R426). -/
def State.regUpset (s : State) (off : Nat) (copy : Fin 3) (x : W16) : State :=
  match regAt off with
  | none => s
  | some a =>
    let m := BitVec.ofNat 16 (if copy = 0 then a.reg.storeMask else a.reg.tMask)
    match copy with
    | 0 => { s with regs := tput regReset s.regs off (tget regReset s.regs off ^^^ (x &&& m)) }
    | 1 => { s with regs1 := tput regReset s.regs1 off (tget regReset s.regs1 off ^^^ (x &&& m)) }
    | 2 => { s with regs2 := tput regReset s.regs2 off (tget regReset s.regs2 off ^^^ (x &&& m)) }
/-- Several upsets. -/
def State.regUpsets (s : State) (l : List (Nat × Fin 3 × W16)) : State := l.foldl (fun s e => s.regUpset e.1 e.2.1 e.2.2) s

/-- A vote of every T field. -/
def State.voteAll (s : State) : State := tRegs.foldl (fun s e => s.voteReg e.1 e.2.reg.tMask) s

/-- VOTE_SCAN: once every millisecond of TIM_TIME every T field is voted (R423). -/
def State.voteScan (s : State) : State :=
  let ms := s.pwr.time / 1000000
  if ms ≤ s.cfg.voteMs then s
  else { s with cfg := { s.cfg with voteMs := ms } }.voteAll

/-! CONFIG_UPDATE (R434). -/

/-- The slot that is not active takes a record (R434). -/
def State.writeSlot (s : State) (bs : List Byte) : State :=
  { s with flash := if s.flash.active then { s.flash with slot0 := some bs } else { s.flash with slot1 := some bs } }
/-- The active marker moves; the record in the other slot awaits the next start (R434). -/
def State.commitRecord (s : State) : State :=
  { s with flash := { s.flash with active := !s.flash.active }, cfg := { s.cfg with pending := true } }

end Sys2Proof.Machine
end

