-- ==== Sys2Proof/Machine/ErrSvc.lean ====
section
/-!
DEFINITION. Scrubbing (R375, R376), qualification mode (R379), the persistent history (R383), units leaving and returning
to service (R385, R387 to R390).
-/
namespace Sys2Proof.Machine

/-! Scrubbing. -/

/-- Codewords of a tier: 512 GiB of 32 bytes, 1,536 GiB of 64 bytes. -/
def scrubWords (cap : Bool) : Nat := if cap then 2 ^ 39 * 3 / 64 else 2 ^ 39 / 32
/-- The size of a tier's codeword. -/
def tierWord (cap : Bool) : Nat := if cap then 64 else 32

/-- The scrubber of a tier. -/
def State.scrubber (s : State) (cap : Bool) : Scrub := if cap then s.mem.scrubCap else s.mem.scrubFast
def State.setScrub (s : State) (cap : Bool) (v : Scrub) : State :=
  if cap then { s with mem := { s.mem with scrubCap := v } } else { s with mem := { s.mem with scrubFast := v } }

/-- The local offset of the codeword at physical position `pos` of a tier; none in a retired frame. -/
def State.scrubAt (s : State) (cap : Bool) (pos : Nat) : Option Nat :=
  let p := pos * tierWord cap
  if s.mem.remap.any fun r => r.cap == cap && r.frame == p / 65536 then none
  else
    let f := p / pageBytes + if cap then fastFrames else 0
    some (s.mem.pageAt f * pageBytes + p % pageBytes)

/-- Add an upset of the array to a codeword's error pattern: symbol and XOR value. -/
def addUpset (k : Nat) (p : List (Nat × Byte)) (l : List (Nat × Byte)) : List (Nat × Byte) :=
  l.foldl (fun p e => if e.1 < k + k / 8 then tput zeroB p e.1 (tget zeroB p e.1 ^^^ e.2) else p) p

/-- Upsets of codewords anywhere in the tiers: a local offset in the word, symbol and XOR value. -/
def State.strike (s : State) (l : List (Nat × Nat × Byte)) : State :=
  l.foldl (fun s e =>
    let w := s.mem.wordBase e.1
    { s with mem := { s.mem with errs := tput noPat s.mem.errs (w / 32) (addUpset (s.mem.wordSize e.1) (tget noPat s.mem.errs (w / 32)) [e.2]) } }) s

/-- The pass goes on to the next codeword; a pass that ends is counted (ERR_SCRUB_PASSES). -/
def State.scrubNext (s : State) (cap : Bool) : State :=
  let v := s.scrubber cap
  if v.pos + 1 < scrubWords cap then s.setScrub cap { v with pos := v.pos + 1 }
  else (s.setScrub cap ⟨0, []⟩).bump (if cap then 0x110001C else 0x1100018) 1

/-- A corrected word of the pass: the count of its 64 KiB frame, and one CE_THRESHOLD record when it reaches the
threshold (R376). -/
def State.scrubCount (s : State) (cap : Bool) (l : Loc) : State :=
  let v := s.scrubber cap
  let frame := v.pos * tierWord cap / 65536
  let n := tget zeroN v.counts frame + 1
  let s := s.setScrub cap { v with counts := tput zeroN v.counts frame n }
  if n = s.rd 0x1100020 ∧ s.rbit 0x1100000 3 then
    s.errRec 0x0D 0 (tierBlock l) l.unit n (l.location / 65536 * 65536)
  else s

/-- Handle a codeword read by the scrubber (R372 to R374, R378). -/
def State.scrubWord (s : State) (cap : Bool) (w : Nat) : State :=
  let k := tierWord cap
  match s.mem.decode w k with
  | .poisoned _ _ => s
  | .good _ => s
  | .corrected _ =>
    let q := s.qualWord w
    let t := (s.readWord .other 0x05 0 w k w (w + k)).2
    if q then t else t.scrubCount cap (s.mem.loc w)
  | .uncorrectable => (s.readWord .other 0x05 0 w k w (w + k)).2

/-- SCRUB_READ: the next codeword of a tier, with what its cells have suffered since they were last read. A pass skips a
failed pseudo-channel (R390); it waits behind bank holds, page moves and self-refresh (R375). -/
def State.scrubRead (s : State) (cap : Bool) (upset : List (Nat × Byte)) : State :=
  if (if cap then s.mem.refreshCap else s.mem.refreshFast) then s
  else match s.scrubAt cap (s.scrubber cap).pos with
    | none => s.scrubNext cap
    | some w =>
      let m := s.mem
      let s := { s with mem := { m with errs := tput noPat m.errs (w / 32) (addUpset (tierWord cap) (tget noPat m.errs (w / 32)) upset) } }
      if s.pcFailed (s.mem.loc w) then s.scrubNext cap
      else if s.writeWaits w (tierWord cap) then s
      else (s.scrubWord cap w).scrubNext cap

/-! Qualification mode (R379). -/

/-- QUAL_WRITE: set only while every queue bound to a channel other than 0 is DISABLED. -/
def State.qualWrite (s : State) (on : Bool) : State :=
  let v := s.rd 0x1100000 &&& 0xFFFD
  if on then
    if (List.range 384).all fun q => s.chan q == 0 || (s.q q).state == .disabled then s.setReg 0x1100000 (v + 2)
    else s.evErr 2
  else s.setReg 0x1100000 v

/-! The persistent history (R383, R384). -/

/-- A history entry that only the driver adds. -/
def HistEntry.byDriver (e : HistEntry) : Bool := e.kind == 1 || e.kind == 2

/-- The bytes of a history entry (Table 15.5). -/
def HistEntry.bytes (e : HistEntry) : List Byte :=
  leBytes 4 e.kind ++ leBytes 4 e.unit ++ leBytes 8 e.location ++ leBytes 4 e.starts ++ leBytes 4 e.cfgVersion ++ leBytes 8 0

/-! Service (R387 to R389). -/

/-- KIND and INDEX of an ERR_SVC_UNIT value. -/
def svcKind (u : Nat) : Nat := fld u 14 12
def svcIdx (u : Nat) : Nat := fld u 11 0
/-- The unit exists. -/
def svcKnown (u : Nat) : Bool :=
  match svcKind u with
  | 0 => decide (svcIdx u < 64)
  | 1 => decide (svcIdx u < 2112)
  | 2 => decide (svcIdx u < 512)
  | _ => false

/-- A pseudo-channel. -/
def State.pc (s : State) (n : Nat) : Pc := tget pcOk s.err.pcs n
/-- Change a pseudo-channel's service state, with its record. -/
def State.pcSet (s : State) (n new cause : Nat) (failed : Bool) : State :=
  let old := (s.pc n).svc.st
  let s := { s with err := { s.err with pcs := tput pcOk s.err.pcs n { s.pc n with svc := ⟨new, failed⟩ } } }
  s.svcRecord 9 2 n old new cause

/-- The service state of a unit. -/
def State.unitSvc (s : State) (u : Nat) : Svc :=
  match svcKind u with
  | 0 => s.clSvc (svcIdx u)
  | 1 => s.nbSvc (svcIdx u)
  | _ => (s.pc (svcIdx u)).svc
/-- Change a unit's service state, with its record. -/
def State.unitSet (s : State) (u new cause : Nat) (failed : Bool) : State :=
  match svcKind u with
  | 0 => s.clSet (svcIdx u) new cause failed
  | 1 => s.nbSet (svcIdx u) new cause failed
  | _ => s.pcSet (svcIdx u) new cause failed

/-- The stack of a physical group: 256 home groups each, then 8 spares each. -/
def groupStack (pg : Nat) : Nat := if pg < 2048 then pg / 256 else (pg - 2048) / 8

/-- OUT of a unit in service (Table 15.8): a cluster after its work item, a group when its stack is free. -/
def State.unitLeave (s : State) (u : Nat) : State :=
  let i := svcIdx u
  match svcKind u with
  | 0 =>
    if (s.clItem i).isSome then { s with mat := { s.mat with leaving := tput noFlag s.mat.leaving i true } }
    else s.clOut i 0
  | 1 => ({ s with nbu := { s.nbu with leaving := tput noFlag s.nbu.leaving i true } }).nbLeave
  | _ => s.pcSet i 1 0 (s.pc i).svc.failed

/-- OUT (R389): from state 0 or 3. -/
def State.svcOut (s : State) (u : Nat) : State :=
  if !svcKnown u then s.evErr 3
  else match (s.unitSvc u).st with
    | 0 => s.unitLeave u
    | 3 => s.unitSet u 1 0 (s.unitSvc u).failed
    | _ => s.evErr 3

/-- REQUALIFY (R389): from state 1. -/
def State.requalify (s : State) (u : Nat) : State :=
  if svcKnown u && (s.unitSvc u).st == 1 then s.unitSet u 2 0 (s.unitSvc u).failed else s.evErr 3

/-- ADMIT (R389): from state 3; a cluster takes work of commands dispatched from now on (R109). -/
def State.admitSvc (s : State) (u : Nat) : State :=
  if svcKnown u && (s.unitSvc u).st == 3 then
    let s := s.unitSet u 0 0 (s.unitSvc u).failed
    if svcKind u = 0 then { s with mat := { s.mat with joined := tput zeroN s.mat.joined (svcIdx u) s.mat.serial } } else s
  else s.evErr 3

/-- An action on the unit is in progress (ERR_SVC_RESULT.BUSY). -/
def State.svcBusy (s : State) (u : Nat) : Bool :=
  svcKnown u && (match svcKind u with
    | 0 => tget noFlag s.mat.leaving (svcIdx u)
    | 1 => tget noFlag s.nbu.leaving (svcIdx u)
    | _ => false) || (svcKnown u && (s.unitSvc u).st == 2)

/-- A TRAINING record of a pseudo-channel (block 9) or package (block 11): lanes spared, spares exhausted (R385). -/
def State.trainingRecord (s : State) (block unit lanes : Nat) (exhausted : Bool) : State :=
  s.errRec 0x0E (if exhausted then 2 else 1) block unit (lanes + put (b2n exhausted) 8) 0

/-- A pseudo-channel has been retrained (R385): the lane its spare replaces, and the spares of its stack. -/
def State.pcTrained (s : State) (n : Nat) (spared : Option (Fin 37)) : State :=
  let p := s.pc n
  let p := match spared with
    | some l => { p with spared := true, lane := l.val }
    | none => { p with spared := false, lane := 0 }
  let s := { s with err := { s.err with pcs := tput pcOk s.err.pcs n p } }
  let count := ((List.range 64).filter fun i => (s.pc (n / 64 * 64 + i)).spared).length
  { s with err := { s.err with spares := tput zeroN s.err.spares (n / 64) count } }

/-- REQUALIFICATION_END (R387): pass to probation, fail to out of service with FAILED. A pseudo-channel that fails with no
lane spared has more failing lanes than spares (R385). -/
def State.requalEnd (s : State) (u : Nat) (r : QualResult) : State :=
  if !svcKnown u || (s.unitSvc u).st != 2 then s
  else
    let s := if svcKind u = 2 then s.pcTrained (svcIdx u) r.spared else s
    if r.pass then s.unitSet u 3 2 false
    else
      let s := s.unitSet u 1 3 true
      if svcKind u = 2 ∧ r.spared = none then s.trainingRecord 9 (svcIdx u) 1 true else s

/-- PSEUDO_CHANNEL_LOCK_LOSS (R388): reported, and removed while AUTO_OOS is 1. -/
def State.pcLockLoss (s : State) (n : Nat) : State :=
  if (s.pc n).svc.st ≠ 0 then s
  else
    let s := s.trainingRecord 9 n 0 false
    if s.autoOos then (s.pcSet n 1 1 (s.pc n).svc.failed).pcSet n 2 1 (s.pc n).svc.failed else s

end Sys2Proof.Machine
end

