-- ==== Sys2Proof/Machine/Resets.lean ====
section
/-!
DEFINITION. The resets (R58, R324, R325, R327, R412 to R414, Table 16.10) and the shutdowns (R392): what each stops, what it
keeps, and what returns to its reset value.
-/
namespace Sys2Proof.Machine

/-! Register fields (R414). -/

/-- The resets that return register fields to their reset values. -/
inductive ResetKind where
  | msr
  | flr
  | er (e : Nat)
  deriving DecidableEq, Repr

/-- Does a field of a register survive a reset? `kindOf` gives the kind of a channel: a function level reset spares the
channels that are not the host's (R58). -/
def ResetKind.keeps (k : ResetKind) (kindOf : Nat → Nat) (a : RegAt) (kept : Kept) : Bool :=
  match k with
  | .msr => kept.msr
  | .flr => kept.flr || (a.grp.base == 0x540000 && kindOf a.n != 0)
  | .er e => if a.grp.anyEr || a.grp.owner a.n == some e then kept.er else true

/-- A payload table after a reset. -/
def resetPayloads (keep : RegAt → Kept → Bool) (t : Tbl W16) : Tbl W16 :=
  t.foldl (fun u e => match regAt e.1 with
    | some a => tput regReset u e.1 (BitVec.ofNat 16 (a.reg.afterReset a.n e.2.toNat fun f => keep a f.kept))
    | none => u) []

/-- A status or count register survives. -/
def statKept (keep : RegAt → Kept → Bool) (off : Nat) : Bool :=
  match regAt off with
  | some a =>
    match a.reg.kind with
    | .stat _ k => keep a k
    | .rc k => keep a k
    | .cnt _ k => keep a k
    | _ => true
  | none => true

/-- Reset the register file (R414). -/
def State.resetRegs (s : State) (k : ResetKind) : State :=
  let keep := k.keeps s.chanKind
  { s with regs := resetPayloads keep s.regs, regs1 := resetPayloads keep s.regs1, regs2 := resetPayloads keep s.regs2,
           stats := s.stats.filter fun e => statKept keep e.1, ctrs := s.ctrs.filter fun e => statKept keep e.1 }

/-! Engines. -/

/-- Every near-bank command stops at a row boundary: row operations in progress complete (R203). -/
def State.nbDrain (s : State) : State :=
  let s := s.nbu.runs.foldl (fun s r => s.nbStop r.queue) s
  (s.nbu.runs.flatMap fun r => r.stackRuns.flatMap (·.todo)).foldl (fun s u => s.rowEnd u none) s

/-- Every group that is set becomes BROKEN (R251). -/
def State.breakGroups (s : State) : State :=
  s.xch.groups.foldl (fun s e => if e.2.state = 0 ∨ e.2.state = 3 then s else (s.setGroup e.1 { e.2 with state := 3 }).evXch 0) s

/-- Every collective ends under R248 with ABORTED_RESET, and every group is BROKEN (R251). -/
def State.xchReset (s : State) : State :=
  let s := s.xch.runs.foldl (fun s r => s.xFail r stAborted (xOwn (s.group r.group).my 0xFFFF) 0xFFFF) s
  (s.dropHeld fun _ => true).breakGroups

/-- Every ford ends (R174); the moves it had begun are abandoned. -/
def State.endFords (s : State) : State :=
  { s with mem := { s.mem with fords := [], moves := s.mem.moves.filter fun v => v.why == .background } }

/-- The intake pipeline and the cache are empty (R301, R306), and the window's PEAK returns to its reset value. -/
def State.itkReset (s : State) : State := { s with itk := { s.itk with batches := [], roi := .none, cache := [], peak := 0 } }

/-- Every PEAK field begins anew, from what is in use: no such field is kept across a reset (R414). -/
def State.peaksReset (s : State) : State := s.cqfPeakClr.itkPeakClr

/-- Every command of every engine stops at its own boundary, without replies (R324 step 1, R327). -/
def State.stopEngines (s : State) : State :=
  let s := ((s.nbDrain).xchReset).itkReset
  { s with mat := { s.mat with runs := [], items := [], handles := [] }, vec := { s.vec with runs := [], items := [] },
           nbu := { s.nbu with runs := [], holds := [], capHeld := [] },
           mem := { s.mem with prog := [], waits := s.mem.waits.filter fun w => decide (384 ≤ w.1),
                               fords := s.mem.fords.map fun e => (e.1, { e.2 with waiters := [] }) } }

/-- Units that wait for their engine to be free leave service now. -/
def State.leaveNow (s : State) : State := s.matLeave.nbLeave

/-! Module self-reset (R324 to R326, Table 16.10). -/

/-- A port gives up what waits in its buffers, in either direction; what it has begun to send it drains. -/
def State.portGiveUp (s : State) (p : Nat) : State :=
  let n := (s.port p).outq.length
  let s := (s.dropQueue p).lost p n
  s.setPort p { s.port p with inq := [], ctlIn := [] }

/-- The fabric at a self-reset (R274): notices go out, no packet is issued any more, and the ports drain and then train anew.
The answers to the accesses in flight come too late. -/
def State.fabReset (s : State) : State :=
  let s := s.fabNotice 1
  let s := portList.foldl State.portGiveUp s
  { s with fab := { s.fab with reqQ := [], tagWait := [], tags := [], stale := s.fab.stale ++ s.fab.inFlight, db := [], settled := false,
                               changedAt := s.pwr.time, lsaAt := s.pwr.time, grants := [], copying := false } }

/-- The management core goes through its ROM again; the supplement is discarded (R336, R343, R346). -/
def Mgt.selfReset (m : Mgt) (cause : Nat) : Mgt :=
  { Mgt.reset with cause := cause, taken := m.taken, log := m.log, baseDie := m.baseDie, lastReply := m.lastReply, acts := m.acts }

/-- A module self-reset. `cause`: 4 link loss, 5 PERST# and what is treated as it; 4 also for CFG_CRC_ACTION 3. -/
def State.selfReset (s : State) (cause : Nat) : State :=
  if s.pwr.off ≠ 0 then s
  else
    let s := (s.stopEngines.leaveNow).fabReset
    let s := s.resetRegs .msr
    let s : State := { s with
      cqf := Cqf.reset,
      mem := { s.mem with fords := [], prog := [], moves := [], waits := [], refreshFast := true, refreshCap := true },
      hif := { Hif.reset with gwBase := s.hif.gwBase, sent := s.hif.sent, perst := s.hif.perst, ext := s.hif.ext },
      mgt := s.mgt.selfReset cause,
      sec := { s.sec with mSupp := [], mProg := [] },
      err := { s.err with histPend := [] },
      cfg := { s.cfg with dirty := false, adopting := true },
      pwr := { s.pwr with state := 0, deepAt := none, deepNoticed := none, ready := false, cause := 5, nbuCap := s.rf 0xA00008 7 0, matRatio := 16,
                          imposed := 850, calm := 0, limEp := false, thermEp := false, posted := [], rstBusy := [], flrWait := false },
      mat := { s.mat with svc := [], gated := [], leaving := [], autoOut := [], joined := [] },
      vec := { s.vec with gated := [] },
      itk := { s.itk with gated := false },
      xch := { s.xch with held := [] } }
    (s.bump 0x40001C 1).evHif 10

/-! Function level reset (R58, R327, R336, Table 16.10). -/

/-- Return a queue to its reset values; what it had in flight is released. -/
def State.flrQueue (s : State) (q : Nat) : State := (s.release q).setQ q Queue.reset

/-- Channels of kind host lose their buffers. -/
def State.flrBerths (s : State) : State :=
  s.cqf.berths.foldl (fun s e => if s.chanKind e.1 = 0 then (s.emptyBerth e.1).setBerth e.1 ⟨0, 0, 0⟩ else s) s

/-- A function level reset applies. -/
def State.flrApply (s : State) : State :=
  let s := s.stopEngines.leaveNow
  let s := s.cqf.queues.foldl (fun s e => s.flrQueue e.1) s
  let s := s.flrBerths.peaksReset
  let s := s.resetRegs .flr
  let s : State := { s with
    cqf := { s.cqf with tokens := [], slips := [] },
    mem := { s.mem with waits := s.mem.waits.filter fun w => decide (w.1 < 400) },
    hif := { s.hif with gwBase := 0, latch := none, bme := false, msixOn := false, funcMask := false, msix := [], pba := [],
                        outq := [], gwReply := none, gwPend := [], barReply := none, conf := PciConf.reset, aer := 0, aerLog := [] },
    mgt := { s.mgt with req := [], rpl := [], ahead := none, vers := Mgt.reset.vers, attached := false, towVer := (1, 0),
                        msg := s.mgt.msg.map fun m => { m with silent := true },
                        interrupted := s.mgt.interrupted.map fun m => { m with silent := true } },
    sec := { s.sec with mProg := [] },
    err := { s.err with histPend := s.err.histPend.filter HistEntry.byDriver },
    pwr := { s.pwr with flrWait := false } }
  s.adoptSelf

/-- An engine reset is in progress. -/
def State.rstBusy (s : State) : Bool := s.pwr.rstBusy.any fun e => e.2

/-- FUNCTION_LEVEL_RESET: it waits for PWR_RST_BUSY to clear (Table 16.9). -/
def State.functionReset (s : State) : State :=
  if s.pwr.off ≠ 0 then s
  else if s.rstBusy then { s with pwr := { s.pwr with flrWait := true } }
  else s.flrApply

/-- A function level reset that waits applies once no engine reset is in progress. -/
def State.flrDue (s : State) : State := if s.pwr.flrWait && !s.rstBusy then s.flrApply else s

/-! Engine reset (R412). -/

/-- A reset of an engine that owns the producer or the consumer queue clears a slipway's ENABLE and counts (R46). -/
def State.slipResets (s : State) (e : Nat) : State :=
  (List.range 64).foldl (fun s n =>
    if s.rf (slo n 0x14) 8 0 / 64 = e ∨ s.rf (slo n 0x18) 8 0 / 64 = e then
      let s := (s.setSlip n ⟨0, 0⟩).setReg (slo n 0x1C) 0
      { s with stats := tput statReset s.stats (slo n 0x28) 0 }
    else s) s

/-- Begin the reset of one engine: its queues are abandoned with DETAIL 1 (Table 2.6); the decoded-sample cache is empty after a
reset of any engine (Table 16.10). -/
def State.resetEngine (s : State) (e : Nat) : State :=
  let s := { s with pwr := { s.pwr with rstBusy := tput noFlag s.pwr.rstBusy e true } }
  let s := (List.range 64).foldl (fun s i => if (s.q (64 * e + i)).state = .disabled then s else s.abandonQ (64 * e + i) 1) s
  let s := { s with itk := { s.itk with cache := [] } }
  let s := match e with
    | 0 => { s with mat := { s.mat with handles := [] } }
    | 3 => s.endFords
    | 4 => (s.dropHeld fun _ => true).breakGroups
    | 5 => s.itkReset
    | _ => s
  s.slipResets e

/-- ENGINE_RESET: a busy bit is absorbed; ignored in slack water and D3hot (R412). -/
def State.engineReset (s : State) (mask : Nat) : State :=
  if mask = 0 then s
  else if s.pwr.state ≠ 0 then s.evPwr 5
  else (List.range 6).foldl (fun s e => if bitAt mask e && !tget noFlag s.pwr.rstBusy e then s.resetEngine e else s) s

/-- ENGINE_RESET_DONE: every command of the engine has ended; its registers return to their reset values and the device
adopts (R412, R414, R429). -/
def State.engineResetDone (s : State) (e : Nat) : State :=
  if tget noFlag s.pwr.rstBusy e && (List.range 64).all fun i => (s.q (64 * e + i)).state == .disabled then
    (({ s with pwr := { s.pwr with rstBusy := tput noFlag s.pwr.rstBusy e false } }.resetRegs (.er e)).adoptSelf).flrDue
  else s

/-! Shutdown and power-on (R392, R407, R413). -/

/-- What outlives the rails: module flash, host memory, the PERST# pin, the waiting commands. -/
def State.afresh (s : State) : State :=
  { State.reset with flash := s.flash, draws := s.draws, pending := s.pending, mgt := { Mgt.reset with acts := s.mgt.acts },
                     hif := { Hif.reset with perst := s.hif.perst, ext := s.hif.ext, sent := s.hif.sent } }

/-- The rails switch off: 1 deep off, 2 brown-out, 3 over-voltage, 4 thermal trip. -/
def State.powerOff (s : State) (why : Nat) : State :=
  let t := s.afresh
  { t with pwr := { t.pwr with off := why } }

end Sys2Proof.Machine
end

