-- ==== Sys2Proof/Machine/Power.lean ====
section
/-!
DEFINITION. Power, temperature and time (chapter 16): posted writes (R430), the arbiter (R398 to R400), the input voltage
(R392), the power states (R404 to R407), start-up (Table 16.7, R410, R411).
-/
namespace Sys2Proof.Machine

/-! Posted writes (R395, R398, R430). -/

/-- The slow domain of a posted register: 0 PWR, 1 FTC, 2 CTC. -/
def postBlk (off : Nat) : Nat := if off < 0x300000 then 0 else if off < 0xA00000 then 1 else 2
/-- The PSTAT register of a slow domain. -/
def pstatOf (blk : Nat) : Nat := match blk with
  | 0 => 0x200000
  | 1 => 0x900000
  | _ => 0xB00000

/-- A field of a new payload takes effect only within its range; else it keeps its old value. -/
def keepField (old new hi lo a b : Nat) : Nat :=
  let v := fld new hi lo
  if a ≤ v ∧ v ≤ b then new else (new &&& (0xFFFF ^^^ bmask hi lo)) ||| (old &&& bmask hi lo)

/-- What a posted write leaves of its payload: none when the whole write is refused. -/
def postPayload (off old new : Nat) : Option Nat :=
  if off = 0x20000C then (if 650 ≤ new ∧ new ≤ 850 ∧ new % 5 = 0 then some new else none)
  else if off = 0x200010 then (if 300 ≤ new ∧ new ≤ 1200 then some new else none)
  else if off = 0x200014 then some (keepField old (keepField old new 7 0 1 131) 12 8 1 16)
  else if off = 0x200018 then some (keepField old new 7 0 1 255)
  else if off = 0x20001C then some (keepField old (keepField old new 7 0 60 105) 15 8 60 100)
  else some new

/-- A write to a posted register: dropped while BUSY, refused or ignored when out of range, else posted. -/
def State.postWrite (s : State) (off data mask : Nat) : State :=
  let blk := postBlk off
  if data / 65536 = 0 then s
  else if (tget noneD s.pwr.posted blk).isSome then s.event (pstatOf blk) 1
  else match postPayload off (s.rd off) (maskedWrite (s.rd off) data mask) with
    | none => s.evPwr 5
    | some v => { s with pwr := { s.pwr with posted := tput noneD s.pwr.posted blk (some (off, BitVec.ofNat 16 v)) } }

/-- POSTED_WRITE_APPLY: the register takes the value and BUSY clears. -/
def State.postApply (s : State) (blk : Nat) : State :=
  match tget noneD s.pwr.posted blk with
  | none => s
  | some p => ({ s with pwr := { s.pwr with posted := tput noneD s.pwr.posted blk none } }).byWrite fun s => s.setReg p.1 p.2.toNat

/-! The arbiter. -/

/-- The requested setpoint, the full near-bank cap, and the limit in force in W (R392, R398). -/
def State.setpoint (s : State) : Nat := s.rf 0x20000C 9 0
def State.nbuTbps (s : State) : Nat := s.rf 0xA00008 7 0
def State.limitW (s : State) : Nat := let l := s.rf 0x200010 10 0; if s.pwr.low then min l 900 else l

/-- Default of temperature tables. -/
def stackT0 (_ : Nat) : Int × Int := (0, 0)
def pkgT0 (_ : Nat) : Int := 0

/-- Record what a sensor shows. -/
def State.setTemp (s : State) (x : Sensor) (t : Int) : State :=
  match x with
  | .compute => { s with pwr := { s.pwr with tCompute := t } }
  | .hub => { s with pwr := { s.pwr with tHub := t } }
  | .stackCore i => { s with pwr := { s.pwr with stackT := tput stackT0 s.pwr.stackT i.val (t, (tget stackT0 s.pwr.stackT i.val).2) } }
  | .stackBase i => { s with pwr := { s.pwr with stackT := tput stackT0 s.pwr.stackT i.val ((tget stackT0 s.pwr.stackT i.val).1, t) } }
  | .package i => { s with pwr := { s.pwr with pkgT := tput pkgT0 s.pwr.pkgT i.val t } }

/-- The throttle and trip thresholds of a sensor (Table 16.4). -/
def State.throttleAt (s : State) : Sensor → Int
  | .compute => s.rf 0x20001C 7 0
  | .hub => s.rf 0x20001C 7 0
  | .stackCore _ => s.rf 0x20001C 15 8
  | .stackBase _ => s.rf 0x20001C 15 8
  | .package _ => 95
def tripAt : Sensor → Int
  | .compute => 110
  | .hub => 110
  | _ => 105

/-- A sensor stands above its throttle threshold. -/
def State.tooHot (s : State) : Bool :=
  decide (s.throttleAt .compute < s.pwr.tCompute) || decide (s.throttleAt .hub < s.pwr.tHub) ||
  (s.pwr.stackT.any fun e => decide (s.throttleAt (.stackCore 0) < max e.2.1 e.2.2)) ||
  s.pwr.pkgT.any fun e => decide (95 < e.2)

/-- A reduction is in force. -/
def State.reduced (s : State) : Bool :=
  decide (s.pwr.nbuCap < s.nbuTbps) || decide (s.pwr.matRatio < 16) || decide (s.pwr.imposed < s.setpoint)

/-- One reduction step (R399, R400): the cap while the near-bank units work, and the issue ratio; else the setpoint. -/
def State.reduce (s : State) (power heat : Bool) : State :=
  let p := s.pwr
  let floorN := s.rf 0x200014 7 0
  let floorM := s.rf 0x200014 12 8
  let capDown := decide (floorN < p.nbuCap) && !s.nbu.runs.isEmpty
  let ratioDown := decide (floorM < p.matRatio)
  let t := { s with pwr := { p with
    calm := 0,
    nbuCap := if capDown then max floorN (p.nbuCap - 4) else p.nbuCap,
    matRatio := if ratioDown then p.matRatio - 1 else p.matRatio,
    imposed := if capDown || ratioDown then p.imposed else max 650 (min p.imposed s.setpoint - 10),
    limEp := p.limEp || power, thermEp := p.thermEp || heat } }
  let t := if capDown || ratioDown then t else t.evPwr 4
  let t := if power && !p.limEp then t.evPwr 0 else t
  if heat && !p.thermEp then t.evPwr 1 else t

/-- One relaxation step (R399). An imposed setpoint that has come back to PWR_SETPOINT is lifted. -/
def State.relax (s : State) : State :=
  let p := s.pwr
  let t : State := if p.imposed < s.setpoint then
      let v := p.imposed + 10
      { s with pwr := { p with imposed := if v < s.setpoint then v else 850 } }
    else { s with pwr := { p with matRatio := min 16 (p.matRatio + 1), nbuCap := min s.nbuTbps (p.nbuCap + 4) } }
  if t.reduced then t else { t with pwr := { t.pwr with limEp := false, thermEp := false } }

/-- What the arbiter measures over a window. -/
def State.measure (s : State) (m : PowerSample) : State :=
  let s := m.temps.foldl (fun s e => s.setTemp e.1 e.2) s
  let s := { s with pwr := { s.pwr with vin := m.mv, high := s.pwr.high && decide (60000 < m.mv),
                                        pinHist := (m.mw :: s.pwr.pinHist).take 100 } }
  s.bump64 0x200050 m.mj

/-- ARBITER_WINDOW: the end of a window of 10 µs (R399). -/
def State.arbiterWindow (s : State) (m : PowerSample) : State :=
  let n := s.pwr.time / 10000
  if s.pwr.off ≠ 0 ∨ n ≤ s.pwr.windowAt then s
  else
    let s := (s.measure m)
    let s := { s with pwr := { s.pwr with windowAt := n } }
    let lim := s.limitW * 1000
    let power := decide (lim < m.mw)
    let heat := s.tooHot
    if power || heat then s.reduce power heat
    else if m.mw < lim - s.rf 0x200018 7 0 * 1000 then
      if s.pwr.calm + 1 < 10 then { s with pwr := { s.pwr with calm := s.pwr.calm + 1 } }
      else { s with pwr := { s.pwr with calm := 0 } }.relax
    else { s with pwr := { s.pwr with calm := 0 } }

/-- May a work item be issued now (R400)? The first r sixteenths of a window. -/
def State.issueAllowed (s : State) : Bool :=
  decide (s.pwr.matRatio = 16) || decide (s.pwr.time % 10000 * 16 < s.pwr.matRatio * 10000)

/-! Input voltage and temperature (R392, R397). -/

/-- The rails are on. -/
def State.powered (s : State) : Bool := s.pwr.off == 0

/-- INPUT_LOW, INPUT_HIGH and INPUT_RESTORED. -/
def State.inputLow (s : State) : State := if s.powered then ({ s with pwr := { s.pwr with low := true } }).evPwr 2 else s
def State.inputHigh (s : State) : State := if s.powered then ({ s with pwr := { s.pwr with high := true } }).evPwr 3 else s
def State.inputRestored (s : State) : State := { s with pwr := { s.pwr with low := false, high := false } }

/-- A shutdown: 2 brown-out, 3 over-voltage, 4 thermal trip; a module already shut down stays as it is. -/
def State.shutdown (s : State) (why : Nat) : State := if s.pwr.off ≤ 1 then s.powerOff why else s

/-- THERMAL_TRIP: a junction above its trip threshold. -/
def State.thermalTrip (s : State) (x : Sensor) (t : Int) : State :=
  if s.powered ∧ tripAt x < t then s.shutdown 4 else s

/-- HOT_C_REACHED: a stack or package reaches HOT_C; it only raises interrupts (R397). -/
def State.hotReached (s : State) (x : Sensor) (t : Int) : State :=
  let hot (ctl pstat src : Nat) : State :=
    if s.powered ∧ (s.rf ctl 15 8 : Int) ≤ t then (s.setTemp x t).raiseIf pstat 2 src (s.rbit ctl 0) else s
  match x with
  | .stackCore _ => hot 0x900004 0x900000 393
  | .stackBase _ => hot 0x900004 0x900000 393
  | .package _ => hot 0xB00004 0xB00000 395
  | _ => s

/-- OSCILLATOR_FAIL (R401): the record's class and INFO are the device's own, which Table 15.4 does not list. -/
def State.oscillatorFail (s : State) : State :=
  if s.pwr.oscInt ∨ !s.powered then s
  else
    let w := (Config.freeWord s.draws).toNat
    let s := ({ s with pwr := { s.pwr with oscInt := true } }).draw.evTim 0
    s.errRec (fld w 7 0) (fld w 9 8) 3 0 (fld w 31 10) 0

/-! Domains and telemetry (R394, R409). -/

/-- Is a domain powered (Table 16.2)? -/
def State.domainOn (s : State) (d : Nat) : Bool :=
  s.powered && (
    if d < 64 then s.pwr.state == 0 && !tget noFlag s.mat.gated d
    else if d < 68 then s.pwr.state == 0 && !tget noFlag s.vec.gated (d - 64)
    else if d < 71 then s.pwr.state == 0
    else if d < 74 then !s.groupOff (d - 71)
    else if d = 74 then decide (3 ≤ s.pwr.step)
    else if d < 77 then true
    else if d = 77 then s.pwr.state == 0 && !s.itk.gated
    else if d = 78 then s.pwr.state == 0
    else d == 79)

/-- Bits [n + 32·w…] of PWR_DOM_ON. -/
def State.domWord (s : State) (w : Nat) : Nat :=
  (List.range 32).foldl (fun v i => if s.domainOn (32 * w + i) then v + 2 ^ i else v) 0

/-- PWR_PIN: input power over the last millisecond, in mW. -/
def State.pin (s : State) : Nat := s.pwr.pinHist.sum / max 1 s.pwr.pinHist.length

/-- The hottest of a list of temperatures. -/
def hottest (l : List Int) : Int := l.foldl max (l.headD 0)
/-- Hottest sensor of the stacks and of the packages. -/
def State.tStack (s : State) : Int := hottest ((List.range 8).flatMap fun i => let t := tget stackT0 s.pwr.stackT i; [t.1, t.2])
def State.tCap (s : State) : Int := hottest ((List.range 24).map fun i => tget pkgT0 s.pwr.pkgT i)

/-- A signed byte. -/
def sByte (t : Int) : Byte := BitVec.ofInt 8 t

/-- PWR_STATE.STATE: 3 while a D3hot entry waits for dispatched commands. -/
def State.pwrState (s : State) : Nat := if s.cqf.heldD3 ∧ s.pwr.state ≠ 2 then 3 else s.pwr.state

/-- The TELEMETRY reply (Table 16.6); the beat rate is measured. -/
def State.telemetryBytes (s : State) : List Byte :=
  leBytes 2 s.pwr.vin ++ leBytes 2 s.pwr.eff ++ leBytes 4 s.pin ++ leBytes 2 s.limitW ++
  leBytes 2 ((Config.freeWord s.draws).toNat % 65536) ++ [sByte s.pwr.tCompute, sByte s.pwr.tHub, sByte s.tStack, sByte s.tCap] ++
  leBytes 2 s.pwr.nbuCap ++ leBytes 1 s.pwr.matRatio ++ leBytes 1 s.pwrState ++
  leBytes 1 (b2n s.pwr.limEp + put (b2n s.pwr.thermEp) 1 + put (b2n s.pwr.low) 2 + put (b2n s.pwr.high) 3) ++ leBytes 3 0 ++
  leBytes 10 (s.domWord 0 + put (s.domWord 1) 32 + put (s.domWord 2 % 65536) 64) ++ leBytes 6 0 ++
  leBytes 8 (s.ctr 0x200050) ++ leBytes 8 s.pwr.time ++ leBytes 8 0

/-! Power states (R404 to R407). -/

/-- Why an entry to slack water or deep off is refused: DETAIL [7:0]. -/
def State.slackRefuse (s : State) : Option Nat :=
  if s.cqf.queues.any fun e => e.2.state == .active then some 1
  else if s.totalHeld ≠ 0 then some 2
  else if s.pwr.state = 2 ∨ s.cqf.heldD3 then some 3
  else none

/-- Ports that carry frames. -/
def State.livePorts (s : State) : List Nat := portList.filter fun p => (s.port p).state == 3 || (s.port p).state == 4

/-- Ports go on in PROBATION (R405). -/
def State.portsProbation (s : State) (ps : List Nat) : State :=
  ps.foldl (fun s p => s.setPort p { s.port p with state := 3, since := s.pwr.time }) s

/-- The entry of R405: groups BROKEN, notices, compute die off, tiers in self-refresh. The ports that carried frames stay
trained in PROBATION; the others drain and train anew. -/
def State.slackEnter (s : State) (st : Nat) : State :=
  let ps := s.livePorts
  let s := s.xchReset.fabNotice 2
  let s := s.portsChange (·.portsProbation ps)
  { s with mat := { s.mat with handles := [] }, mem := { s.mem with refreshFast := true, refreshCap := true },
           cqf := { s.cqf with heldD3 := false }, pwr := { s.pwr with state := st } }

/-- The exit of R405: domains powered, tiers out of self-refresh. -/
def State.slackExit (s : State) : State :=
  { s with mem := { s.mem with refreshFast := false, refreshCap := false }, pwr := { s.pwr with state := 0 } }

/-- No command is dispatched. -/
def State.quiet (s : State) : Bool :=
  s.cqf.queues.all fun e => match e.2.cmd with
    | some c => decide (c.phase = .waiting)
    | none => true

/-- A D3hot entry that waits ends once every dispatched command has completed (R406). -/
def State.d3Settle (s : State) : State := if s.cqf.heldD3 && s.quiet then s.slackEnter 2 else s

/-- D3HOT_ENTRY (R406). -/
def State.d3hotEntry (s : State) : State :=
  if !s.powered ∨ s.pwr.state = 2 ∨ s.cqf.heldD3 then s.d3Settle
  else if s.pwr.state = 1 then { s with pwr := { s.pwr with state := 2 } }
  else match s.slackRefuse with
    | none => s.slackEnter 2
    | some _ => (({ s with cqf := { s.cqf with heldD3 := true } }).evPwr 6).d3Settle

/-- D3HOT_EXIT (R406). -/
def State.d3hotExit (s : State) : State :=
  if !s.powered then s
  else if s.pwr.state = 2 then s.slackExit
  else { s with cqf := { s.cqf with heldD3 := false } }

/-- Deep off has given its notices (R274): the rails switch off once no port drains any more, after 100 µs at the latest. -/
def State.deepOffEnd (s : State) (since : Nat) : State :=
  if (portList.any fun p => (s.port p).state == 5) && decide (s.pwr.time < since + 100000) then s else s.powerOff 1

/-- DEEP_OFF_BEGIN (R407): 1 ms after the reply the collectives end and notices go out. -/
def State.deepOffBegin (s : State) : State :=
  match s.pwr.deepAt with
  | some t =>
    if !s.powered ∨ s.pwr.time < t then s
    else match s.pwr.deepNoticed with
      | some n => s.deepOffEnd n
      | none =>
        let s := s.xchReset.fabNotice 3
        { s with pwr := { s.pwr with deepNoticed := some s.pwr.time } }
  | none => s

/-- A deep off that has begun goes on by itself. -/
def State.deepOffTick (s : State) : State := if s.pwr.deepNoticed.isSome then s.deepOffBegin else s

/-- TIER_SELF_REFRESH_RETURN (R405): 1 ms without access. -/
def State.tierReturn (s : State) (cap : Bool) : State :=
  if s.pwr.state ≠ 1 then s
  else if cap then
    if s.mem.wokeCap + 1000000 ≤ s.pwr.time then { s with mem := { s.mem with refreshCap := true } } else s
  else if s.mem.wokeFast + 1000000 ≤ s.pwr.time then { s with mem := { s.mem with refreshFast := true } } else s

/-! Start-up (Table 16.7). -/

/-- A start-up step is reached: PWR_START.STEP and the log. -/
def State.stepReached (s : State) (n : Nat) : State := ({ s with pwr := { s.pwr with step := n } }).logWrite 0x0001 0 [n] |>.trace 0 2

/-- The watchdog is armed with the period set (R403). -/
def State.wdtArm (s : State) : State :=
  let s := s.useT 0x300010
  { s with mgt := { s.mgt with wdtOn := true, kickAt := s.pwr.time, wdtPeriod := s.rdT 0x300010 } }

/-- Step 4 with the record of a slot: verified and applied, or recovery (R433, R410). -/
def State.bootRecord (s : State) (bs : List Byte) : State :=
  let s := match parseRecord bs (numAt bs 12 4) with
    | .error _ => (s.evSec 2).recover.identify s.sec.xi none
    | .ok r =>
      let v := s.verifyRecord r bs
      if v.1 then ((v.2.applyRecord r bs).identify s.sec.xi (r.checkValue bs)).logWrite 0x0002 0 [r.version]
      else v.2.recover.identify s.sec.xi none
  (s.checkDevCert).stepReached 4

/-- Step 4 with the factory's record, which outside has verified or not. -/
def State.bootFactory (s : State) (r : Option FactoryRecord) : State :=
  let s := match r with
    | none => (s.evSec 2).recover.identify s.sec.xi none
    | some r =>
      let fab := match r.fabricId with
        | some x => x.toNat &&& 0xBFFF
        | none => 0
      let targets := r.repairMap.map fun (e : Fin 2048 × Fin 9) => (e.1.val, e.2.val)
      ((s.applyValues r.version.toNat r.serial.toNat (r.pciId.map fun (x : W16) => x.toNat) fab targets r.measurement r.cert).identify s.sec.xi r.check).logWrite
        0x0002 0 [r.version.toNat]
  (s.checkDevCert).stepReached 4

/-- Start-up steps 1 and 2 at a power-on (Table 16.7): everything afresh, the management core runs. -/
def State.powerAfresh (s : State) (puf : List Byte) : State :=
  let cause := s.pwr.off
  let s := s.afresh
  let s := { s with flash := { s.flash with starts := (s.flash.starts + 1) % 4294967296 }, pwr := { s.pwr with cause := cause },
                    sec := { s.sec with xi := puf }, cfg := { s.cfg with slot := s.flash.active } }
  { s.stepReached 2 with mgt := { (s.stepReached 2).mgt with core := 1 } }

/-- Start-up step 4: the firmware reads the active record. The factory's is in flash too: its values are those of the start that
read it first. -/
def State.powerBoot (s : State) : State :=
  match (if s.flash.active then s.flash.slot1 else s.flash.slot0) with
  | some bs => s.bootRecord bs
  | none => match s.flash.factory with
    | some r => s.bootFactory r
    | none => s

/-- The first read of the factory's record. -/
def State.readFactory (s : State) (r : Option FactoryRecord) : State :=
  ({ s with flash := { s.flash with factory := some r } }).bootFactory r

/-- POWER_ON: steps 1 to 4 (Table 16.7). The factory's record is read for the first time by START_UP_END. `puf` is the
seed the PUF gives (R357). -/
def State.powerOn (s : State) (puf : List Byte) : State :=
  if s.powered ∧ 2 ≤ s.pwr.step then s else ((s.powerAfresh puf).stepReached 3).wdtArm.powerBoot

/-- A unit fails start-up qualification. -/
def State.startFail (s : State) (u : Nat) : State := if (s.unitSvc u).st = 0 then s.unitSet u 1 3 true else s

/-- What training and qualification of step 5 found (R379, R385). -/
def State.trained (s : State) (r : StartResult) : State :=
  let s := r.spared.foldl (fun s e => s.pcTrained e.1.val (some e.2)) s
  let s := { s with err := { s.err with spares := r.pkgSpares.foldl (fun t (e : Fin 24 × Fin 5) => tput zeroN t (8 + e.1.val) e.2.val) s.err.spares } }
  let s := r.clusters.foldl (fun s c => s.startFail c.val) s
  let s := r.groups.foldl (fun s g => s.startFail (4096 + g.val)) s
  let s := r.pcs.foldl (fun s n => (s.trainingRecord 9 n.val 1 true).startFail (8192 + n.val)) s
  let s := r.packages.foldl (fun s p =>
    ({ s with err := { s.err with pkgFailed := tput noFlag s.err.pkgFailed p.val true } }).trainingRecord 11 p.val 4 true) s
  { s with itk := { s.itk with lanesOut := r.lanesOut.map fun (l : Fin 32) => l.val } }

/-- Soft repair of every stack (R5): how many rows it repairs, the record's trims decide, whose contents the spec leaves open. -/
def State.softRepair (s : State) : State :=
  (List.range 8).foldl (fun s n =>
    ({ s with err := { s.err with softRows := tput zeroN s.err.softRows n ((Config.freeWord s.draws).toNat % 65536) } }).draw) s

/-- Ports with ENABLE set begin training (R265). -/
def State.portsTrain (s : State) : State :=
  portList.foldl (fun s p => if (s.port p).state = 0 ∧ s.portOn p then s.train p else s) s

/-- Step 5: repair and training, but in recovery (R410). -/
def State.startTrain (s : State) (r : StartResult) : State := if s.cfg.recovery then s else s.softRepair.trained r

/-- Step 6: the tiers leave self-refresh, the host's configuration requests are answered, the ports train. -/
def State.startOpen (s : State) : State :=
  let s := { s with mem := { s.mem with refreshFast := false, refreshCap := false }, hif := { s.hif with rrs := false } }
  let s := if s.cfg.recovery then s else s.portsTrain
  (s.wdtArm.qualWrite false).stepReached 6

/-- Step 4 at a START_UP_END that follows a power-on: the first read of the factory's record. -/
def State.startRecord (s : State) (r : StartResult) : State :=
  if s.pwr.cause ≠ 5 ∧ s.pwr.step < 4 then s.readFactory r.record else s

/-- The log entry of a start after a module self-reset (Table 13.10). -/
def State.startLog (s : State) : State := if s.pwr.cause = 5 then s.logWrite 0x0008 1 [b2n (s.mgt.cause == 5)] else s

/-- The management core runs. -/
def State.coreRuns (s : State) : State := { s with mgt := { s.mgt with core := 1 } }

/-- START_UP_END: steps 4 to 6 (Table 16.7); after a module self-reset, R326. -/
def State.startUpEnd (s : State) (r : StartResult) : State :=
  if !s.powered ∨ !s.hif.rrs then s
  else ((((s.startRecord r).coreRuns).startTrain r).startOpen).startLog.adoptSelf

/-- The module becomes ready (R411): never in recovery. -/
def State.becomeReady (s : State) : State :=
  if s.pwr.ready ∨ s.cfg.recovery ∨ s.hif.rrs ∨ !s.powered then s
  else
    let s := ({ s with pwr := { s.pwr with ready := true } }).stepReached 8
    s.portsChange (·.fabReady)

end Sys2Proof.Machine
end

