-- ==== Sys2Proof/Machine/Mbox.lean ====
section
/-!
DEFINITION. The mailbox and the towpath (R330 to R336, R353, R354): posting and taking a request, its checks, its reply;
firmware restarts (R345 to R348); the MCTP endpoint (R351, R352).
-/
namespace Sys2Proof.Machine

/-! Areas. -/

/-- SEQ of the request area. -/
def State.reqSeq (s : State) : Nat := leNat (tgets zeroB s.mgt.req 12 4)
/-- The expected sequence (R331). -/
def State.expected (s : State) : Nat := (s.mgt.taken.toNat + 1) % 4294967296
/-- A request is posted. -/
def State.posted (s : State) : Bool := s.reqSeq == s.expected

/-- Write bytes of the request area; a request that becomes posted takes its place after the towpath requests that wait. -/
def State.reqWrite (s : State) (o : Nat) (bs : List Byte) : State :=
  let t := { s with mgt := { s.mgt with req := tputs zeroB s.mgt.req o bs } }
  { t with mgt := { t.mgt with ahead := if !t.posted then none else if s.posted then s.mgt.ahead else some s.mgt.towQ.length } }

/-! Message types (Table 13.3). -/

/-- Types of command set 1.0. -/
def msgTypes : List Nat :=
  [0x7000, 0x7001, 0x7002, 0x7010, 0x7011, 0x7020, 0x7021, 0x7030, 0x7040, 0x7041, 0x7050, 0x7051, 0x7060, 0x7061, 0x7070, 0x7080]
/-- Types marked T. -/
def towTypes : List Nat := [0x7000, 0x7001, 0x7002, 0x7011, 0x7021, 0x7030, 0x7040, 0x7041, 0x7060]
/-- Types a module in recovery accepts (R410). -/
def recoveryTypes : List Nat := [0x7000, 0x7002, 0x7021, 0x7030, 0x7060, 0x7050, 0x7080]

/-- The length a type requires; none: any length up to 4,032 (ECHO). -/
def msgLength (type : Nat) (pl : List Byte) : Option Nat :=
  match type with
  | 0x7000 => none
  | 0x7001 => some 100
  | 0x7010 => some 16
  | 0x7020 => some 4
  | 0x7021 => some 8
  | 0x7040 => match numAt pl 0 4 with
    | 0 => some 36
    | 1 => some 20
    | _ => some 4
  | 0x7041 => some 8
  | 0x7050 => some 4
  | 0x7051 => some 4
  | 0x7060 => some 8
  | 0x7061 => some 32
  | 0x7070 => some 8
  | 0x7080 => some 16
  | _ => some 0

/-- DETAIL of BAD_LENGTH. -/
def badLength (len : Nat) (req : Option Nat) : Fail := ⟨stBadLength, len % 65536 + put (req.getD 0xFFFF) 16⟩
/-- DETAIL of BAD_PARAM for a payload byte. -/
def badByte (o : Nat) : Fail := ⟨stBadParam, o⟩

/-- The first failing payload byte of a list of conditions. -/
def payCheck (l : List (Bool × Nat)) : Except Fail Unit :=
  match firstBad l with
  | some o => .error (badByte o)
  | none => .ok ()

/-- Bytes that must be zero, as conditions on each byte. -/
def zeros (pl : List Byte) (o n : Nat) : List (Bool × Nat) := (List.range n).map fun i => (byteAt pl (o + i) == 0, o + i)

/-- The checks of step 5 that need only the payload (R354, and the chapter of each type). -/
def payloadCheck (type : Nat) (pl : List Byte) : Except Fail Unit :=
  match type with
  | 0x7001 => payCheck ((List.range 5).flatMap fun i => zeros pl (20 * i + 2) 2)
  | 0x7010 => if numAt pl 8 4 = 0 then .error (badLength 16 none) else payCheck (zeros pl 12 4)
  | 0x7020 => payCheck ((byteAt pl 0 < 2, 0) :: zeros pl 1 3)
  | 0x7021 => payCheck [(decide (numAt pl 4 4 ≤ 125), 4)]
  | 0x7040 => payCheck [(decide (numAt pl 0 4 ≤ 2), 0), (numAt pl 0 4 != 1 || decide (numAt pl 12 8 < 2 ^ 40), 12)]
  | 0x7041 => payCheck [(decide (numAt pl 0 4 ≤ 3), 0)]
  | 0x7050 => payCheck ((decide (byteAt pl 0 < 4) && byteAt pl 0 != 2, 0) :: zeros pl 1 3)
  | 0x7051 => payCheck ((decide (300 ≤ numAt pl 0 2) && decide (numAt pl 0 2 ≤ 1200), 0) :: zeros pl 2 2)
  | 0x7060 => payCheck [(decide (numAt pl 4 4 ≤ 125), 4)]
  | 0x7061 => payCheck ((byteAt pl 0 == 1 || byteAt pl 0 == 2, 0) ::
      (zeros pl 1 3 ++ (if byteAt pl 0 = 2 then zeros pl 8 8 else []) ++ zeros pl 24 8))
  | 0x7070 =>
    let t := byteAt pl 0
    let units := if t = 0 then 512 else if t = 1 then 24 else 12
    let lanes := if t = 0 then 37 else if t = 1 then 68 else 4
    payCheck ([(decide (t ≤ 2), 0), (decide (byteAt pl 1 ≤ 1), 1), (decide (numAt pl 2 2 < units), 2), (decide (numAt pl 4 2 < lanes), 4)] ++
      zeros pl 6 2)
  | 0x7080 => if numAt pl 8 4 = 0 then .error (badLength 16 none) else payCheck (zeros pl 12 4)
  | _ => .ok ()

/-! Replies. -/

/-- A taken request. -/
def msgOf (tow : Bool) (bs : List Byte) : Msg :=
  { towpath := tow, type := numAt bs 6 2, seq := BitVec.ofNat 32 (numAt bs 12 4), notify := bitAt (byteAt bs 17) 0,
    htag := BitVec.ofNat 64 (numAt bs 24 8), len := numAt bs 8 4, payload := part bs 64 (min 4032 (numAt bs 8 4)),
    verMajor := byteAt bs 4, verMinor := byteAt bs 5, committed := false, silent := false }

/-- The mailbox version in force on a path. -/
def State.boxVer (s : State) (tow : Bool) : Nat × Nat := if tow then s.mgt.towVer else s.mgt.vers.getD 1 (1, 0)

/-- The reply header and payload (Table 13.2). -/
def State.replyImage (s : State) (m : Msg) (st : Byte) (detail : Nat) (pl : List Byte) : List Byte :=
  let v := s.boxVer m.towpath
  leBytes 4 0x584F424D ++ leBytes 1 v.1 ++ leBytes 1 v.2 ++ leBytes 2 m.type ++ leBytes 4 pl.length ++ leBytes 4 m.seq.toNat ++
  [st, 0, 0, 0] ++ leBytes 4 detail ++ leBytes 8 m.htag.toNat ++ leBytes 8 s.pwr.time ++ leBytes 24 0 ++ pl

/-- End a message with its reply (R334): nothing more of it is in progress. A mailbox request that is refused is logged;
SUPPLEMENT_LOAD has an event of its own (Table 13.10). -/
def State.msgReply (s : State) (m : Msg) (st : Byte) (detail : Nat) (pl : List Byte) : State :=
  let s := { s with mgt := { s.mgt with msg := none } }
  let s := s.trace 2 2
  let s := if m.type = 0x7050 ∨ m.type = 0x7051 then s.trace 8 4 else if m.type = 0x7060 ∨ m.type = 0x7061 then s.trace 12 4 else s
  let s := if isSuccess st then s
    else if m.type = 0x7010 then (s.evMgt 3).logWrite 0x0004 2 [st.toNat, detail]
    else if m.towpath then s
    else s.logWrite 0x0009 1 [m.type, st.toNat]
  if m.silent then s
  else
    let r : Reply := ⟨m.towpath, m.seq, st, BitVec.ofNat 32 detail, pl⟩
    if m.towpath then { s with mgt := { s.mgt with lastReply := some r } }
    else
      let s := { s with mgt := { s.mgt with lastReply := some r, rpl := tputs zeroB s.mgt.rpl 0 (s.replyImage m st detail pl) } }
      if m.notify then s.irq 402 else s

/-! Taking a request (R332, R333). -/

/-- The first offending byte of a request header (step 1). -/
def headerBad (bs : List Byte) : Option Nat :=
  firstBad ([(byteAt bs 0 == 0x4D, 0), (byteAt bs 1 == 0x42, 1), (byteAt bs 2 == 0x4F, 2), (byteAt bs 3 == 0x58, 3),
    (decide (byteAt bs 17 < 2), 17)] ++ zeros bs 18 2 ++ zeros bs 32 32)

/-- The checks of R333 in order. -/
def State.msgCheck (s : State) (m : Msg) (bs : List Byte) : Except Fail Unit :=
  let v := s.boxVer m.towpath
  let need := msgLength m.type m.payload
  match headerBad bs with
  | some o => .error ⟨stBadParam, o + 0xFFFF0000⟩
  | none =>
    firstErr [
      failIf (m.verMajor != v.1 || decide (v.2 < m.verMinor)) ⟨stVersion, m.verMajor + put m.verMinor 8⟩,
      failIf (!msgTypes.contains m.type || (s.cfg.recovery && !recoveryTypes.contains m.type)) ⟨stBadOpcode, 0⟩,
      failIf (m.towpath && !towTypes.contains m.type) ⟨stBadOpcode, 0x100⟩,
      failIf (decide (4032 < m.len) || (m.type == 0x7040 && decide (m.len < 4))) (badLength m.len (if m.len ≤ 4032 then none else need)),
      match need with
        | some n => failIf (m.len != n) (badLength m.len (if m.type = 0x7040 then none else some n))
        | none => .ok (),
      payloadCheck m.type m.payload,
      failIf (m.towpath && m.type == 0x7040 && numAt m.payload 0 4 != 0) ⟨stBadOpcode, 0x100⟩]

/-- Take a request: it comes into progress, or ends at a failed check. -/
def State.takeMsg (s : State) (tow : Bool) (bs : List Byte) : State :=
  let m := msgOf tow bs
  match s.msgCheck m bs with
  | .ok () => { s with mgt := { s.mgt with msg := some m } }
  | .error f => s.msgReply m f.st f.detail []

/-- The next request of the single queue is a towpath request. -/
def State.towNext (s : State) : Bool :=
  s.mgt.core == 1 && s.mgt.msg.isNone && !s.mgt.towQ.isEmpty && !(s.posted && s.mgt.ahead == some 0)

/-- Take waiting towpath requests while they are next (R335). -/
def State.takeTow : Nat → State → State
  | 0, s => s
  | f + 1, s =>
    if s.towNext then
      match s.mgt.towQ with
      | bs :: rest =>
        State.takeTow f ({ s with mgt := { s.mgt with towQ := rest, ahead := s.mgt.ahead.map (· - 1) } }.takeMsg true bs)
      | [] => s
    else s

/-- After a message ends, a towpath request that is next in the queue is taken. -/
def State.nextMsg (s : State) : State := State.takeTow s.mgt.towQ.length s

/-- End a message with its reply, and go on. -/
def State.finish (s : State) (m : Msg) (st : Byte) (detail : Nat) (pl : List Byte) : State := (s.msgReply m st detail pl).nextMsg
/-- End a message with a failure. -/
def State.finishFail (s : State) (m : Msg) (f : Fail) : State := s.finish m f.st f.detail []

/-- MAILBOX_TAKE: the firmware reads SEQ of the request area (R331, R332). -/
def State.mailboxTake (s : State) : State :=
  if s.mgt.core ≠ 1 ∨ s.mgt.msg.isSome ∨ !s.powered then s
  else if s.reqSeq = s.mgt.taken.toNat then s
  else if !s.posted then s.evMgt 5
  else if s.towNext then s.nextMsg
  else
    let bs := tgets zeroB s.mgt.req 0 4096
    let s := { s with mgt := { s.mgt with taken := BitVec.ofNat 32 s.reqSeq, ahead := none } }
    (s.takeMsg false bs).nextMsg

/-- A towpath message as it lies in its buffer of 4,096 bytes, like a mailbox request in its area: what it does not fill reads as
zero, and what it has beyond is not read (DESIGN CHOICE, log entry 4). -/
def towImage (bs : List Byte) : List Byte := padTo 4096 (bs.take 4096)

/-- TOWPATH_REQUEST: a management message, as its header and payload. It is silent unless the core runs (R353). -/
def State.towpathRequest (s : State) (bs : List Byte) : State :=
  if s.mgt.core ≠ 1 ∨ !s.powered then s
  else { s with mgt := { s.mgt with towQ := s.mgt.towQ ++ [towImage bs] } }.nextMsg

/-- The message in progress, when it is of a type and the core runs. -/
def State.msgIn (s : State) (type : Nat) : Option Msg :=
  match s.mgt.msg with
  | some m => if s.mgt.core = 1 ∧ m.type = type ∧ s.powered then some m else none
  | none => none

/-! The supplement's discard (R343). -/

/-- The supplement is gone: the offered minors fall back, and negotiated versions above them. -/
def State.suppDiscard (s : State) : State :=
  let low (v : Nat × Nat) : Nat × Nat := if 0 < v.2 then (1, 0) else v
  { s with mgt := { s.mgt with supp := none, vers := s.mgt.vers.map low, towVer := low s.mgt.towVer }, sec := { s.sec with mSupp := [] } }

/-! Firmware restart (R345 to R348). -/

/-- A restart cause (0 watchdog, 1 requested, 2 residue mismatch, 3 uncorrectable SRAM word in the core); a second one is
absorbed. -/
def State.fwRestartBy (s : State) (cause : Nat) (discard : Bool) : State :=
  if s.mgt.core = 2 ∨ s.mgt.core = 3 ∨ !s.powered then s
  else
    let s := (s.evMgt 0).bump 0xF00010 1
    let s := if cause = 0 then (s.evMgt 1).bump 0xF00014 1 else s
    let s := s.errRec 0x0A 1 15 0 (min cause 2) 0
    { s with mgt := { s.mgt with core := 2, cause := cause, discard := discard, msg := none, interrupted := s.mgt.msg, wdtOn := false },
             err := { s.err with histPend := [] } }

/-- WATCHDOG_EXPIRY: three within 10 s halt the core (R348). -/
def State.watchdogExpiry (s : State) : State :=
  if !s.mgt.wdtOn || !s.due s.mgt.kickAt s.mgt.wdtPeriod || s.mgt.core == 2 || s.mgt.core == 3 then s
  else
    let now := s.pwr.time
    let times := (now :: s.mgt.wdtTimes).take 3
    let halt := decide (times.length = 3) && decide (now ≤ times.getD 2 0 + 10000000000)
    let s := { s with mgt := { s.mgt with wdtTimes := times } }
    if halt then
      let s := ((s.logWrite 0x0006 3 []).fwRestartBy 0 false).evMgt 6
      { s with mgt := { s.mgt with core := 3, interrupted := none } }
    else s.fwRestartBy 0 false

/-- CORE_FAULT (R329). -/
def State.coreFault (s : State) (k : CoreFaultKind) : State :=
  if !s.powered then s
  else match k with
    | .sram => ((s.draw).errRec 0x06 1 15 0 4 (Config.freeWord s.draws).toNat).fwRestartBy 3 false
    | .residue => (s.errRec 0x01 1 15 0 0 0).fwRestartBy 2 false

/-- The checks of R347: the stored supplement still matches. An SRAM fault may have struck it: a free value says. -/
def State.suppIntact (s : State) : Bool × State :=
  if s.mgt.cause = 3 ∧ s.mgt.supp.isSome then (bitAt (Config.freeWord s.draws).toNat 0, s.draw) else (true, s)

/-- FIRMWARE_RESTART_DONE (R346, R347). -/
def State.restartDone (s : State) : State :=
  if s.mgt.core ≠ 2 then s
  else
    let c := s.suppIntact
    let s := c.2
    let s := if s.mgt.discard then s.suppDiscard else if c.1 then s else s.suppDiscard.evMgt 4
    let m := s.mgt.interrupted
    let s := { s with mgt := { s.mgt with core := 1, discard := false, interrupted := none }, fab := { s.fab with changedAt := s.pwr.time } }
    let s := (s.wdtArm.logWrite 0x0005 2 [min s.mgt.cause 2, b2n s.mgt.supp.isSome]).trace 12 4
    match m with
    | some m => if m.type = 0x7020 then s.finish m stOK 0 [] else s.finish m stAborted (b2n m.committed + put (min s.mgt.cause 2) 1) []
    | none => s.nextMsg

/-- WDT_KICK (R403): by the management core. -/
def State.wdtKick (s : State) : State := if s.mgt.core = 1 ∧ s.mgt.wdtOn then s.wdtArm else s

/-! The sideband endpoint (R351, R352). -/

/-- An answer to an MCTP control message. -/
def State.mctpReply (s : State) (pl : List Byte) : State :=
  if s.mgt.core = 1 ∧ s.powered then { s with mgt := { s.mgt with lastReply := some ⟨true, 0, stOK, 0, pl⟩ } } else s

/-- ENTDAA: the dynamic address (R351). -/
def State.entdaa (s : State) (a : Nat) : State :=
  if s.powered then { s with cfg := { s.cfg with dynAddr := a, addrValid := true } } else s

/-- Set Endpoint ID; 0 and 0xFF name no endpoint. -/
def State.setEid (s : State) (eid : Nat) : State :=
  if s.mgt.core ≠ 1 ∨ !s.powered then s
  else if eid = 0 ∨ eid = 255 then s.mctpReply [2]
  else ({ s with cfg := { s.cfg with eid := eid } }).mctpReply [0, 0, BitVec.ofNat 8 eid, 0]

/-- Get Endpoint ID. -/
def State.getEid (s : State) : State := s.mctpReply [0, BitVec.ofNat 8 s.cfg.eid, 0, 0]

/-- Get MCTP Version Support: the version numbers of the specifications are the device's own. -/
def State.getMctpVersion (s : State) (type : Nat) : State :=
  if type = 0x00 ∨ type = 0x7E ∨ type = 0xFF then (s.mctpReply ([0, 1] ++ leBytes 4 (Config.freeWord s.draws).toNat)).draw
  else s.mctpReply [0x80]

/-- Get Message Type Support: vendor defined, PCI. -/
def State.getMsgTypes (s : State) : State := s.mctpReply [0, 1, 0x7E]

/-- Get Vendor Defined Message Support: one vendor, the PCI Vendor ID of R309. -/
def State.getVendorMsgs (s : State) (sel : Nat) : State :=
  if sel = 0 then
    let v := s.cfg.pciId.getD 0 0
    (s.mctpReply ([0, 0xFF, 0, BitVec.ofNat 8 (v / 256), BitVec.ofNat 8 v] ++ leBytes 2 (Config.freeWord s.draws).toNat)).draw
  else s.mctpReply [2]

end Sys2Proof.Machine
end

