-- ==== Sys2Proof/Machine/Mgt.lean ====
section
/-!
DEFINITION. The management messages (chapter 13, and the messages of chapters 14 to 17): attach, information, the firmware
supplement, attestation, power, error history, margining, configuration update.
-/
namespace Sys2Proof.Machine

/-! Information (R337). -/

/-- ECHO. -/
def State.msgEcho (s : State) : State :=
  match s.msgIn 0x7000 with
  | some m => s.finish m stOK 0 m.payload
  | none => s

/-- MGT_STATE.SUPP: 0 none, 1 loading, 2 loaded. -/
def State.suppState (s : State) : Nat :=
  if s.mgt.supp.isSome then 2
  else match s.mgt.msg with
    | some m => if m.type = 0x7010 then 1 else 0
    | none => 0

/-- The GET_INFO reply (Table 13.4). -/
def State.infoBytes (s : State) : List Byte :=
  let held := s.fab.idSrc != 0
  leBytes 8 s.cfg.serial.toNat ++ leBytes 4 Config.romVersion.toNat ++ leBytes 4 s.suppVersion ++ leBytes 4 s.cfg.version ++
  leBytes 2 (if held then s.fab.id % 16384 + 32768 else 0) ++ leBytes 1 s.mgt.core ++ leBytes 1 s.suppState ++
  leBytes 4 (s.ctr 0xF00010) ++ leBytes 4 (s.ctr 0x40001C) ++ leBytes 32 0

/-- GET_INFO. -/
def State.msgGetInfo (s : State) : State :=
  match s.msgIn 0x7002 with
  | some m => s.finish m stOK 0 s.infoBytes
  | none => s

/-- SUPPLEMENT_STATUS. -/
def State.msgSuppStatus (s : State) : State :=
  match s.msgIn 0x7011 with
  | some m => s.finish m stOK 0 (leBytes 4 s.suppState ++ measured s.sec.mSupp)
  | none => s

/-- A log entry's bytes (Table 13.9). -/
def LogEntry.bytes (e : LogEntry) : List Byte :=
  leBytes 8 e.time ++ leBytes 4 e.seq.toNat ++ leBytes 2 e.event ++ leBytes 1 e.severity ++ leBytes 1 e.source ++
  (List.range 4).flatMap fun i => leBytes 4 (e.args.getD i 0).toNat

/-- The oldest entry still in the ring. -/
def State.logOldest (s : State) : Nat :=
  let n := s.ctr 0xF00018
  match tget noneD s.mgt.log (n % 2048) with
  | some e => e.seq.toNat
  | none => 0

/-- LOG_READ: entries from max(FIRST, OLDEST), up to COUNT of them or to the last written. -/
def State.msgLogRead (s : State) : State :=
  match s.msgIn 0x7021 with
  | some m =>
    let first := max (numAt m.payload 0 4) s.logOldest
    let n := min (numAt m.payload 4 4) (s.ctr 0xF00018 - first)
    let es := (List.range n).filterMap fun i => tget noneD s.mgt.log ((first + i) % 2048)
    s.finish m stOK 0 (leBytes 4 s.logOldest ++ leBytes 4 n ++ es.flatMap LogEntry.bytes)
  | none => s

/-- TELEMETRY (R409): the measured beat rate takes a free value. -/
def State.msgTelemetry (s : State) : State :=
  match s.msgIn 0x7030 with
  | some m => s.draw.finish m stOK 0 s.telemetryBytes
  | none => s

/-! Attach (R338 to R340). -/

/-- The highest minor the device offers for an interface within major 1 (R338). -/
def State.offerMinor (s : State) (i : Nat) : Nat := (s.mgt.supp.map fun x => x.raise.getD i 0).getD 0

/-- The version chosen for an interface; none when no major is common: the device lists major 1 only (R431). -/
def State.choose (s : State) (pl : List Byte) (i : Nat) : Option (Nat × Nat) :=
  if bitAt (numAt pl (20 * i) 2) 1 then some (1, min (byteAt pl (20 * i + 5)) (s.offerMinor i)) else none

/-- The ATTACH reply payload (Table 13.6). -/
def attachBytes (l : List (Option (Nat × Nat))) : List Byte :=
  (l.flatMap fun v => [BitVec.ofNat 8 (v.getD (255, 255)).1, BitVec.ofNat 8 (v.getD (255, 255)).2]) ++ leBytes 6 0

/-- DETAIL of VERSION_UNSUPPORTED: the interfaces without a common major. -/
def attachDetail (l : List (Option (Nat × Nat))) : Nat :=
  (List.range 5).foldl (fun d i => if (l.getD i none).isNone then d + 2 ^ i else d) 0

/-- ATTACH. From the towpath it sets only the mailbox version that towpath messages use (R340). -/
def State.msgAttach (s : State) : State :=
  match s.msgIn 0x7001 with
  | some m =>
    let want := (List.range 5).map fun i =>
      if m.towpath ∧ i ≠ 1 then some (s.mgt.vers.getD i (1, 0)) else s.choose m.payload i
    if want.any (·.isNone) then s.finish m stVersion (attachDetail want) (attachBytes want)
    else
      let v := want.map fun x => x.getD (1, 0)
      let s := if m.towpath then { s with mgt := { s.mgt with towVer := v.getD 1 (1, 0) } }
        else { s with mgt := { s.mgt with vers := v, attached := true } }
      let bs := attachBytes want
      (s.logWrite 0x0007 0 [numAt bs 0 4, numAt bs 4 4, numAt bs 8 2]).finish m stOK 0 bs
  | none => s

/-! The supplement (R341, R342). -/

/-- BAD_PARAM of SUPPLEMENT_LOAD: image offset and reason. -/
def suppBad (o reason : Nat) : Fail := ⟨stBadParam, min o 0xFFFF + put reason 16⟩

/-- A section of a supplement image: type, offset, size, load offset. -/
structure SuppSec where
  type : Nat
  off : Nat
  size : Nat
  load : Nat
  deriving DecidableEq, Repr

/-- Section s of a header. -/
def suppSec (h : List Byte) (s : Nat) : SuppSec :=
  let o := 64 + 96 * s
  ⟨byteAt h o, numAt h (o + 4) 4, numAt h (o + 8) 4, numAt h (o + 12) 4⟩

/-- The end of the header. -/
def hdrEnd (n : Nat) : Nat := 64 + 96 * n

/-- The fixed part of the header (Table 13.7), as conditions on fields. -/
def suppFixed (h : List Byte) (size : Nat) : List (Bool × Nat) :=
  let zero (a n : Nat) : Bool × Nat := ((firstNonZero h a n).isNone, (firstNonZero h a n).getD a)
  [(numAt h 0 4 == 0x50555346, 0), (numAt h 4 2 == 1, 4), (decide (1 ≤ numAt h 6 2) && decide (numAt h 6 2 ≤ 8), 6),
    (numAt h 8 4 == size, 8), zero 27 5, (numAt h 36 4 == certBytes, 36), zero 44 20,
    (decide (hdrEnd (numAt h 6 2) ≤ size), 6)]

/-- The ranges of the image that must not overlap: header, certificate, signature. -/
def suppFrames (h : List Byte) (n : Nat) : List (Nat × Nat) :=
  [(0, hdrEnd n), (numAt h 32 4, certBytes), (numAt h 40 4, sigBytes)]

/-- Certificate and signature lie within the image, apart from the header and each other. -/
def suppPlaces (h : List Byte) (n size : Nat) : List (Bool × Nat) :=
  let c := numAt h 32 4
  let g := numAt h 40 4
  [(decide (c + certBytes ≤ size) && apart c certBytes 0 (hdrEnd n), 32),
    (decide (g + sigBytes ≤ size) && apart g sigBytes 0 (hdrEnd n) && apart g sigBytes c certBytes, 40)]

/-- The form of section s (Table 13.7). -/
def secForm (h : List Byte) (s : Nat) : List (Bool × Nat) :=
  let o := 64 + 96 * s
  let zero (a n : Nat) : Bool × Nat := ((firstNonZero h a n).isNone, (firstNonZero h a n).getD a)
  [(byteAt h o == 1 || byteAt h o == 2, o), zero (o + 1) 3, zero (o + 16) 16]

/-- The bounds of section s: in the image, apart from what comes before it, in its load space (R341). -/
def secBounds (h : List Byte) (n size s : Nat) : List (Bool × Nat) :=
  let x := suppSec h s
  let o := 64 + 96 * s
  let room := if x.type = 1 then 640 * 1024 else 1280 * 1024
  let before := (List.range s).map (suppSec h)
  [(decide (x.off + x.size ≤ size) && (suppFrames h n).all (fun f => apart x.off x.size f.1 f.2) &&
      before.all (fun y => apart x.off x.size y.off y.size), o + 4),
    (decide (x.load + x.size ≤ room) && before.all (fun y => y.type != x.type || apart x.load x.size y.load y.size), o + 12)]

/-- The checks of step 2 on the header. -/
def suppHeaderCheck (h : List Byte) (n size : Nat) : Except Fail Unit :=
  match firstBad (suppPlaces h n size ++ (List.range n).flatMap (secForm h)) with
  | some o => .error (suppBad o 2)
  | none => match firstBad ((List.range n).flatMap (secBounds h n size)) with
    | some o => .error (suppBad o 5)
    | none => .ok ()

/-- How a load ends. -/
inductive LoadEnd where
  | wait
  | fail (f : Fail) (signature : Bool)
  | done (x : Supp)
  deriving DecidableEq, Repr

/-- Step 4: the sections, each read once and compared with its digest. -/
def State.suppSections (base : Nat) (h : List Byte) : List Nat → State → Except LoadEnd (List (Nat × Nat × List Byte)) × State
  | [], s => (.ok [], s)
  | i :: more, s =>
    let x := suppSec h i
    let r := s.fwRead base (base + x.off) x.size
    match r.1 with
    | .wait => (.error .wait, r.2)
    | .fail f => (.error (.fail f false), r.2)
    | .bytes bs =>
      if shake256 64 bs ≠ part h (96 + 96 * i) 64 then (.error (.fail (suppBad (96 + 96 * i) 4) false), r.2)
      else
        let t := State.suppSections base h more r.2
        (match t.1 with
          | .ok l => .ok ((x.type, x.load, bs) :: l)
          | .error e => .error e, t.2)

/-- What follows the signature's verdict: the versions, then the sections. -/
def State.suppVerified (base n : Nat) (h cert : List Byte) (v : Bool × State) : LoadEnd × State :=
  if !v.1 then (.fail (suppBad 0xFFFF 3) true, v.2)
  else
    let oldRom := decide (Config.romVersion.toNat < numAt h 16 4)
    let badAbi := byteAt h 20 != 1
    if oldRom || badAbi then (.fail ⟨stVersion, put (b2n oldRom) 16 + put (b2n badAbi) 17⟩ false, v.2)
    else
      let t := State.suppSections base h (List.range n) v.2
      match t.1 with
      | .error e => (e, t.2)
      | .ok secs =>
        (.done ⟨h, secs, BitVec.ofNat 32 (numAt h 12 4), (List.range 5).map fun i => byteAt h (22 + i), cert, shake256 64 h⟩, t.2)

/-- Steps 2 (signature) to 4 once the header is read. -/
def State.suppLoadBody (s : State) (base size n : Nat) (h : List Byte) : LoadEnd × State :=
  match suppHeaderCheck h n size with
  | .error f => (.fail f false, s)
  | .ok () =>
    let c := s.fwRead base (base + numAt h 32 4) certBytes
    match c.1 with
    | .wait => (.wait, c.2)
    | .fail f => (.fail f false, c.2)
    | .bytes cert =>
      let g := c.2.fwRead base (base + numAt h 40 4) sigBytes
      match g.1 with
      | .wait => (.wait, g.2)
      | .fail f => (.fail f false, g.2)
      | .bytes sig => State.suppVerified base n h cert (g.2.verify h sig cert 2)

/-- Steps 1 to 4 of R342. -/
def State.suppLoadTry (s : State) (base size : Nat) : LoadEnd × State :=
  if s.cqf.queues.any fun e => e.2.state != .disabled then (.fail (suppBad 0xFFFF 0) false, s)
  else if s.mgt.supp.isSome then (.fail (suppBad 0xFFFF 1) false, s)
  else if !malformedAddr base && base / 2 ^ 62 != 0 && base / 2 ^ 62 != 2 then (.fail (badByte 7) false, s)
  else if size < 64 ∨ 2 * 1024 * 1024 < size then (.fail (suppBad 8 2) false, s)
  else
    let r := s.fwRead base base 64
    match r.1 with
    | .wait => (.wait, r.2)
    | .fail f => (.fail f false, r.2)
    | .bytes h0 =>
      match firstBad (suppFixed h0 size) with
      | some o => (.fail (suppBad o 2) false, r.2)
      | none =>
        let n := numAt h0 6 2
        let t := r.2.fwRead base (base + 64) (96 * n)
        match t.1 with
        | .wait => (.wait, t.2)
        | .fail f => (.fail f false, t.2)
        | .bytes h1 => t.2.suppLoadBody base size n (h0 ++ h1)

/-- Step 5: the supplement is active (R342). -/
def State.suppCommit (s : State) (x : Supp) : State :=
  let s := { s with mgt := { s.mgt with supp := some x, baseDie := s.mgt.baseDie || x.sections.any fun y => y.1 == 2 },
                    sec := { s.sec with mSupp := x.measurement } }
  ((s.evMgt 2).logWrite 0x0003 0 [x.version.toNat]).becomeReady

/-- SUPPLEMENT_LOAD (R342). -/
def State.msgSuppLoad (s : State) : State :=
  match s.msgIn 0x7010 with
  | some m =>
    let r := s.suppLoadTry (numAt m.payload 0 8) (numAt m.payload 8 4)
    match r.1 with
    | .wait => s
    | .fail f signature => (if signature then r.2.evSec 3 else r.2).finishFail m f
    | .done x => (r.2.suppCommit x).finish m stOK 0 x.measurement
  | none => s

/-- FW_RESTART: the restart is the commit; its reply follows the restart (R336). -/
def State.msgFwRestart (s : State) : State :=
  match s.msgIn 0x7020 with
  | some m =>
    ({ s with mgt := { s.mgt with msg := some { m with committed := true } } }).fwRestartBy 1 (bitAt (byteAt m.payload 0) 0)
  | none => s

/-! Attestation (R364 to R367). -/

/-- The ATTEST message of an OP. -/
def State.attestIn (s : State) (op : Nat) : Option Msg :=
  match s.msgIn 0x7040 with
  | some m => if numAt m.payload 0 4 = op then some m else none
  | none => none

/-- ATTEST_REPORT; without an identity it fails (R359). -/
def State.msgReport (s : State) : State :=
  match s.attestIn 0 with
  | some m =>
    if s.sec.id ≠ 1 then s.finishFail m ⟨stOutOfService, 1⟩ else
    let r := s.report (part m.payload 4 32) m.towpath
    r.2.finish m stOK 0 r.1
  | none => s

/-- ATTEST_EXTEND. -/
def State.msgExtend (s : State) : State :=
  match s.attestIn 1 with
  | some m =>
    let a := numAt m.payload 4 8
    let n := numAt m.payload 12 8
    let answer (t : State) : State := t.finish m stOK 0 (leBytes 4 (t.ctr 0x1000080) ++ measured t.sec.mProg)
    if n = 0 then answer s
    else
      let r := s.fwRead a a n
      match r.1 with
      | .wait => s
      | .fail f => r.2.finishFail m f
      | .bytes bs => answer (r.2.extendProg bs)
  | none => s

/-- ATTEST_CLEAR. -/
def State.msgClear (s : State) : State :=
  match s.attestIn 2 with
  | some m => s.clearProg.finish m stOK 0 []
  | none => s

/-- CERT_READ (R367). -/
def State.msgCertRead (s : State) : State :=
  match s.msgIn 0x7041 with
  | some m =>
    let obj := s.certObject (numAt m.payload 0 4)
    let o := numAt m.payload 4 4
    let n := min 4024 (obj.length - o)
    s.finish m stOK 0 (leBytes 4 obj.length ++ leBytes 4 n ++ part obj o n)
  | none => s

/-! Power (R404 to R408). -/

/-- The POWER_STATE message of a state. -/
def State.powerIn (s : State) (st : Nat) : Option Msg :=
  match s.msgIn 0x7050 with
  | some m => if byteAt m.payload 0 = st then some m else none
  | none => none

/-- The reply: the state now in force. -/
def State.powerReply (s : State) (m : Msg) : State := s.finish m stOK 0 (leBytes 4 s.pwrState)

/-- POWER_STATE 0: leaves slack water; it cannot leave D3hot (R406). -/
def State.msgPowerRun (s : State) : State :=
  match s.powerIn 0 with
  | some m =>
    if s.pwr.state = 2 ∨ s.cqf.heldD3 then s.finishFail m ⟨stBadParam, 3⟩
    else if s.pwr.state = 1 then s.slackExit.powerReply m
    else s.powerReply m
  | none => s

/-- POWER_STATE 1: enters slack water (R405). -/
def State.msgSlack (s : State) : State :=
  match s.powerIn 1 with
  | some m =>
    if s.pwr.state = 1 then s.powerReply m
    else match s.slackRefuse with
      | some d => s.finishFail m ⟨stBadParam, d⟩
      | none => (s.slackEnter 1).powerReply m
  | none => s

/-- POWER_STATE 3: deep off follows 1 ms after the reply (R407). -/
def State.msgDeepOff (s : State) : State :=
  match s.powerIn 3 with
  | some m =>
    match s.slackRefuse with
    | some d => s.finishFail m ⟨stBadParam, d⟩
    | none => ({ s with pwr := { s.pwr with deepAt := some (s.pwr.time + 1000000) } }).powerReply m
  | none => s

/-- POWER_LIMIT (R408): PWR_LIMIT is written at once. -/
def State.msgPowerLimit (s : State) : State :=
  match s.msgIn 0x7051 with
  | some m =>
    let s := s.byWrite fun s => s.setReg 0x200010 (numAt m.payload 0 2)
    s.finish m stOK 0 (leBytes 4 s.limitW)
  | none => s

/-! Error history and margining (R383 to R386). -/

/-- ERR_HISTORY_READ. -/
def State.msgHistRead (s : State) : State :=
  match s.msgIn 0x7060 with
  | some m =>
    let es := (s.flash.hist.drop (numAt m.payload 0 4)).take (numAt m.payload 4 4)
    s.finish m stOK 0 (leBytes 4 s.flash.hist.length ++ leBytes 4 es.length ++ es.flatMap HistEntry.bytes)
  | none => s

/-- ERR_HISTORY_ADD: the flash write begins; the reply follows its end. -/
def State.msgHistAdd (s : State) : State :=
  match s.msgIn 0x7061 with
  | some m =>
    if s.err.histPend.any HistEntry.byDriver then s
    else if 4096 ≤ s.histCount then (s.evErr 4).finishFail m ⟨stQuota, 0⟩
    else s.histAdd (numAt m.payload 0 1) (numAt m.payload 4 4) (numAt m.payload 8 8)
  | none => s

/-- HISTORY_WRITE_DONE: the oldest entry in progress is in flash. -/
def State.histWritten (s : State) : State :=
  match s.err.histPend with
  | [] => s
  | e :: rest =>
    let s := { s with err := { s.err with histPend := rest }, flash := { s.flash with hist := s.flash.hist ++ [e] } }
    match e.byDriver, s.msgIn 0x7061 with
    | true, some m => s.finish m stOK 0 []
    | _, _ => s

/-- The target of MARGIN is trained (R386). -/
def State.marginable (s : State) (target unit : Nat) : Bool :=
  match target with
  | 0 => !(s.pc unit).svc.failed
  | 1 => !tget noFlag s.err.pkgFailed unit
  | _ => [2, 3, 4, 5, 6].contains (s.port unit).state

/-- MARGIN: `lo` and `hi` are the steps the sampler passes on either side; the step size code is a free value. -/
def State.msgMargin (s : State) (lo hi : Nat) : State :=
  match s.msgIn 0x7070 with
  | some m =>
    let t := byteAt m.payload 0
    let limit := if t = 2 then 48 else 32
    if !s.marginable t (numAt m.payload 2 2) then s.finishFail m ⟨stOutOfService, 0⟩
    else s.draw.finish m stOK 0 (leBytes 2 (min lo limit) ++ leBytes 2 (min hi limit) ++ leBytes 2 limit ++
      leBytes 2 ((Config.freeWord s.draws).toNat % 65536))
  | none => s

/-! CONFIG_UPDATE (R434). -/

/-- BAD_PARAM of CONFIG_UPDATE: record offset and reason. -/
def cfgBad (o reason : Nat) : Fail := ⟨stBadParam, min o 0xFFFF + put reason 16⟩

/-- What follows the verdict on a record: its serial number (R434). -/
def State.cfgVerdict (s : State) (r : Record) (v : Bool × State) : Except Fail Record × State :=
  if !v.1 then (.error (cfgBad 0xFFFF 2), v.2)
  else if s.cfg.serial ≠ 0 ∧ s.cfg.serial.toNat ≠ r.serial then (.error (cfgBad 16 1), v.2)
  else (.ok r, v.2)

/-- Check a record read from `size` bytes. -/
def State.cfgCheck (s : State) (bs : List Byte) (size : Nat) : Except Fail Record × State :=
  match parseRecord bs size with
  | .error o => (.error (cfgBad o 0), s.evSec 2)
  | .ok r => s.cfgVerdict r (s.verifyRecord r bs)

/-- CONFIG_UPDATE. What the slot reads back is the flash's own: a free value says whether and where it differs, and then the
active marker stays. -/
def State.msgConfigUpdate (s : State) : State :=
  match s.msgIn 0x7080 with
  | some m =>
    let a := numAt m.payload 0 8
    let size := numAt m.payload 8 4
    if size < 256 ∨ 1048576 < size then (s.evSec 2).finishFail m (cfgBad 12 0)
    else
      let r := s.fwRead a a size
      match r.1 with
      | .wait => s
      | .fail f => r.2.finishFail m f
      | .bytes bs =>
        let c := r.2.cfgCheck bs size
        match c.1 with
        | .error f => c.2.finishFail m f
        | .ok x =>
          let d := c.2.draw
          match Config.flashBad c.2.draws size with
          | some o => (d.writeSlot bs).finishFail m ⟨stUncorrectable, o % size⟩
          | none => ((d.writeSlot bs).commitRecord).finish m stOK 0 (leBytes 4 x.version)
  | none => s

end Sys2Proof.Machine
end

