-- ==== Sys2Proof/Machine/HostIf.lean ====
section
/-!
DEFINITION. The host interface (chapter 12): the gangway (R312 to R315), MSI-X (R320), the data link and its loss (R322 to
R325).
-/
namespace Sys2Proof.Machine

/-- The host's accesses to the BARs reach the module: its rails are on, the host has enabled Memory Space, and it is not in
D3hot, which disables it (R315). -/
def State.barOpen (s : State) : Bool := s.powered && s.hif.conf.memSpace && s.pwr.state != 2

/-- A BAR access that the function answers with Unsupported Request (R315): AER logs it. -/
def State.barRefuse (s : State) : State := if s.powered then s.aerEvent 20 else s

/-! The gangway. -/

/-- The size of BAR2. -/
def barTwo : Nat := 2 ^ 28
/-- The local offset of byte b of BAR2 (R312). -/
def State.gwAddr (s : State) (b : Nat) : Nat := s.hif.gwBase * 2 ^ 20 + b

/-- A gangway access in slack water wakes the tiers it meets (R315, R405); the time of the access is kept. -/
def State.gwWake (s : State) (a n : Nat) : State :=
  if s.pwr.state ≠ 1 then s
  else (pagesOf a n).foldl (fun s x =>
    if s.mem.inCap x then { s with mem := { s.mem with refreshCap := false, wokeCap := s.pwr.time } }
    else { s with mem := { s.mem with refreshFast := false, wokeFast := s.pwr.time } }) s

/-- A tier that the access meets is in self-refresh. -/
def State.gwAsleep (s : State) (a n : Nat) : Bool :=
  (pagesOf a n).any fun x => if s.mem.inCap x then s.mem.refreshCap else s.mem.refreshFast

/-- A gangway read (R314); none: it waits. What is poisoned or uncorrectable is answered with zeros and the Poisoned bit, and
reported under AER as the host has configured it: Poisoned TLP Egress Blocked, or Completer Abort. -/
def State.gwRead (s : State) (a n : Nat) : Option State :=
  let s := s.gwWake a n
  if s.gwAsleep a n || s.accessWaits a n then none
  else
    let r := s.memRead .gangway a n
    let t := r.2.bump64 0x400030 n
    match r.1 with
    | .bytes bs => some { t with hif := { t.hif with gwReply := some ⟨bs, false, false⟩ } }
    | _ => some ((({ t with hif := { t.hif with gwReply := some ⟨List.replicate n 0, true, false⟩ } }).evHif 7).aerEvent
        (if t.hif.conf.egressBlock then 26 else 15))

/-- A gangway write (R314); none: it waits. -/
def State.gwWrite (s : State) (a : Nat) (bs : List Byte) : Option State :=
  let s := s.gwWake a bs.length
  if s.gwAsleep a bs.length || s.writeWaits a bs.length then none
  else some ((s.memWrite a bs).bump64 0x400038 bs.length)

/-- A request that has arrived. -/
def State.gwTry (s : State) : GwReq → Option State
  | .read a n => s.gwRead a n
  | .write a bs => s.gwWrite a bs

/-- What a request that waits does: it wakes its tier, and a write that waits for a page move is counted. -/
def State.gwHold (s : State) : GwReq → State
  | .read a n => s.gwWake a n
  | .write a bs => (s.gwWake a bs.length).holdWrite 400 a bs.length

/-- The oldest request that has arrived is done, unless it waits; requests are done in their order of arrival (R313). -/
def State.gwStep (s : State) : State :=
  match s.hif.gwPend with
  | [] => s
  | r :: l => match s.gwTry r with
    | some t => { t with hif := { t.hif with gwPend := l } }
    | none => s.gwHold r

/-- A request arrives. -/
def State.gwArrive (s : State) (r : GwReq) : State :=
  ({ s with hif := { s.hif with gwPend := s.hif.gwPend ++ [r] } }).gwStep

/-- An access lies in BAR2. -/
def gwFormed (b n : Nat) : Bool := decide (0 < n) && decide (b + n ≤ barTwo)

/-- GANGWAY_READ (R313 to R315): it uses the base in force now. What does not lie in BAR2 is no request of the gangway. -/
def State.gangwayRead (s : State) (b n : Nat) : State :=
  if !gwFormed b n then s
  else if s.barOpen then s.gwArrive (.read (s.gwAddr b) n)
  else if s.powered then { s with hif := { s.hif with gwReply := some ⟨[], false, true⟩ } }.barRefuse else s

/-- GANGWAY_WRITE (R313 to R315). -/
def State.gangwayWrite (s : State) (b : Nat) (bs : List Byte) : State :=
  if !gwFormed b bs.length then s
  else if s.barOpen then s.gwArrive (.write (s.gwAddr b) bs)
  else s.barRefuse

/-- HIF_GW_BASE_HI: commits the whole base, or refuses it (R312). -/
def State.gwCommit (s : State) (data : Nat) : State :=
  if data / 65536 &&& 0x1F = 0 then s
  else
    let hi := maskedWrite (s.rd 0x400010) data 0x1F
    let base := s.rd 0x40000C + 65536 * hi
    if 0x1FFF00 < base then s.evHif 9
    else
      let s := s.setReg 0x400010 hi
      { s with hif := { s.hif with gwBase := base } }

/-! MSI-X (R320). -/

/-- A pending vector that nothing masks any more is sent. -/
def State.msixDeliver (s : State) (v : Nat) : State :=
  if tget noFlag s.hif.pba v && s.hif.msixOn && !s.hif.funcMask && !s.vecMasked v then s.sendMsix v else s

/-- Every pending vector. -/
def State.deliverAll (s : State) : State := s.hif.pba.foldl (fun s e => s.msixDeliver e.1) s

/-- MSI-X Enable and the Function Mask are set: what nothing holds back any more is sent (R320). -/
def State.msixSet (s : State) (on mask : Bool) : State :=
  { s with hif := { s.hif with msixOn := on, funcMask := mask } }.deliverAll

/-- MSIX_ENABLE. -/
def State.msixEnable (s : State) : State := if s.powered then s.msixSet true s.hif.funcMask else s

/-- A word of the MSI-X table is written; clearing a vector's mask bit sends what is pending. -/
def State.msixWord (s : State) (k : Nat) (v : W32) : State :=
  { s with hif := { s.hif with msix := tput msixReset s.hif.msix k v } }.msixDeliver (k / 4)

/-- MSIX_UNMASK: a vector's mask bit, or the Function Mask. -/
def State.msixUnmask (s : State) (v : Option Nat) : State :=
  if !s.powered then s
  else match v with
    | some n => s.msixWord (4 * n + 3) (tget msixReset s.hif.msix (4 * n + 3) &&& 0xFFFFFFFE)
    | none => { s with hif := { s.hif with funcMask := false } }.deliverAll

/-! The data link (R307, R308, R322, R323). -/

/-- A write that the link has lost (R323): host memory keeps what it held. -/
def State.tlpUndo (s : State) (t : HostTlp) : State :=
  { s with hif := { s.hif with ext := tputs zeroB s.hif.ext (hostAddr t.addr) t.old } }

/-- The command of a write that the link has lost fails (Table 12.3). -/
def State.tlpLost (s : State) (t : HostTlp) : State :=
  match t.own with
  | .engine q => s.peerEnd q false stTimeout (timeoutDetail 5 (s.cmdMs q))
  | _ => s

/-- The last n writes sent had not been acknowledged when the link went down: they are lost, the newest undone first. -/
def State.loseTlps (s : State) (n : Nat) : State :=
  let l := s.hif.tlps
  let gone := l.drop (l.length - n)
  let s := gone.reverse.foldl State.tlpUndo { s with hif := { s.hif with tlps := [] } }
  gone.foldl State.tlpLost s

/-- What the link had sent when it went down: how many of the last writes it had not acknowledged, the spec leaves open, so a
free value says (log entry 70). -/
def State.loseUnacked (s : State) : State :=
  if s.hif.tlps = [] then s
  else (s.draw).loseTlps ((Config.freeWord s.draws).toNat % (s.hif.tlps.length + 1))

/-- DL_DOWN: writes not acknowledged and reads in flight are lost, the timer starts if it is armed. -/
def State.dlDown (s : State) : State :=
  if !s.hif.up then s
  else
    let s := { s with hif := { s.hif with up := false, rate := 0, width := 0, flit := false,
                                          downAt := if s.hif.armed then some s.pwr.time else none } }
    let s := (s.evHif 0).loseUnacked
    s.cqf.queues.foldl (fun s e => match (s.q e.1).reads with
      | r :: _ => s.hostReadFail e.1 r stTimeout (timeoutDetail 5 (s.cmdMs e.1))
      | [] => s) s

/-- What waited for the link goes out in order. -/
def State.flushOut : List HostOut → State → State
  | [], s => s
  | .write own a bs :: l, s => State.flushOut l (s.hostWrite own a bs)
  | .msix v :: l, s => State.flushOut l (s.sendMsix v)

/-- The queues whose front-end writes wait. -/
def frontsOf (l : List HostOut) : List Nat :=
  (l.filterMap fun o => match o with
    | .write (.front q) _ _ => some q
    | _ => none).eraseDups

/-- It is no write of the front end. -/
def HostOut.others : HostOut → Bool
  | .write (.front _) _ _ => false
  | _ => true

/-- What waits goes out when the link is up and Bus Master Enable is 1; while it is 0 the front end's own writes that would now
have to go are discarded and stop their queues (R438). -/
def State.outFlow (s : State) : State :=
  let wait := s.hif.outq
  if s.hostOpen then State.flushOut wait { s with hif := { s.hif with outq := [] } }
  else if s.hif.up then
    (frontsOf wait).foldl State.bmeLost { s with hif := { s.hif with outq := wait.filter HostOut.others } }
  else s

/-- The link can come up so (R307, R308). -/
def linkFormed (l : LinkInfo) : Bool :=
  decide (1 ≤ l.rate) && decide (l.rate ≤ 7) && (l.width == 4 || l.width == 8 || l.width == 16) && (l.flit || decide (l.rate < 6))

/-- The function takes such a configuration (Table 12.1): sizes and completion timeout ranges it supports. -/
def confFormed (c : PciConf) : Bool := [128, 256, 512].contains c.mps && [0, 1, 2, 5, 6, 9, 10, 13, 14].contains c.cplRange

/-- The host has written the configuration; one the function does not support leaves it as it was. -/
def State.confSet (s : State) (bme : Bool) (c : PciConf) : State :=
  if confFormed c then { s with hif := { s.hif with bme := bme, conf := c } } else s

/-- DL_UP. -/
def State.dlUp (s : State) (l : LinkInfo) : State :=
  if !s.powered ∨ s.hif.up ∨ s.hif.perst ∨ !linkFormed l then s
  else
    let s := { s with hif := { s.hif with up := true, rate := l.rate, width := l.width, flit := l.flit, armed := true, downAt := none } }
    let s := if l.width < 16 ∨ l.rate < 7 then s.evHif 1 else s
    (s.confSet l.bme l.conf).outFlow

/-! The configuration space (R307, R309, R310). -/

/-- The function answers configuration requests (R326). -/
def State.confOpen (s : State) : Bool := s.powered && s.hif.up && !s.hif.rrs

/-- A configuration write. -/
def State.confWrite (s : State) (bme : Bool) (c : PciConf) (aerClear : W32) : State :=
  if s.confOpen then
    ({ s with hif := { s.hif with aer := s.hif.aer &&& ~~~aerClear } }.confSet bme c).outFlow
  else s

/-- A configuration write of MSI-X Enable and the Function Mask. -/
def State.msixControl (s : State) (on mask : Bool) : State := if s.confOpen then s.msixSet on mask else s

/-- The capability structures of the configuration space: power management, PCI Express, MSI-X, AER, Device Serial Number. -/
inductive PciCap where
  | pm
  | express
  | msix
  | aer
  | serial
  deriving DecidableEq, Repr
/-- Their 4-byte word numbers, which the spec leaves open. -/
def PciCap.at_ : PciCap → Nat
  | .pm => (Config.pciCap 0).toNat
  | .express => (Config.pciCap 1).toNat
  | .msix => (Config.pciCap 2).toNat
  | .aer => (Config.pciCap 3).toNat
  | .serial => (Config.pciCap 4).toNat

/-- The code of a Max Payload Size. -/
def mpsCode (m : Nat) : Nat := if m = 128 then 0 else if m = 256 then 1 else 2

/-- A word of a capability structure (R307, R309, R406): word k of it. -/
def State.capWord (s : State) (c : PciCap) (k : Nat) : Option Nat :=
  let h := s.hif
  match c, k with
  | .pm, 1 => some ((if s.pwr.state = 2 then 3 else 0) + put 1 3)
  | .express, 2 => some (put (mpsCode h.conf.mps) 5)
  | .express, 10 => some (h.conf.cplRange + put (b2n h.conf.cplOff) 4)
  | .msix, 0 => some ((Config.pciWord (PciCap.at_ .msix)).toNat % 65536 + put (2047 + put (b2n h.funcMask) 14 + put (b2n h.msixOn) 15) 16)
  | .msix, 1 => some 0x440000
  | .msix, 2 => some 0x448000
  | .aer, 1 => some h.aer.toNat
  | .aer, 2 => some h.conf.aerMask.toNat
  | .aer, 3 => some h.conf.aerSeverity.toNat
  | .aer, k => if 7 ≤ k ∧ k ≤ 10 then some (h.aerLog.getD (k - 7) 0).toNat else none
  | .serial, 1 => some (s.cfg.serial.toNat % 2 ^ 32)
  | .serial, 2 => some (s.cfg.serial.toNat / 2 ^ 32)
  | _, _ => none

/-- A word of the header of the configuration space (R309, R310): identity, class code, command, BARs with their type bits. -/
def State.headWord (s : State) (w : Nat) : Option Nat :=
  let id (i : Nat) : Nat := s.cfg.pciId.getD i 0
  match w with
  | 0 => some (id 0 + put (id 1) 16)
  | 1 => some (put (b2n s.hif.conf.memSpace) 1 + put (b2n s.hif.bme) 2 + put 1 20)
  | 2 => some ((Config.pciWord 2).toNat % 256 + put 0x120000 8)
  | 4 => some (s.hif.conf.bar0.toNat / 2 ^ 25 * 2 ^ 25 + 4)
  | 5 => some 0
  | 6 => some (s.hif.conf.bar2.toNat / barTwo * barTwo + 12)
  | 7 => some 0
  | 8 => some 0
  | 9 => some 0
  | 11 => some (id 2 + put (id 3) 16)
  | 12 => some 0
  | 15 => some ((Config.pciWord 15).toNat % 256)
  | _ => none

/-- A 4-byte word of the configuration space: what the spec gives of it, else open. -/
def State.confDword (s : State) (w : Nat) : Nat :=
  match s.headWord w with
  | some v => v
  | none => ([PciCap.pm, .express, .msix, .aer, .serial].findSome? fun c =>
      if c.at_ ≤ w then s.capWord c (w - c.at_) else none).getD (Config.pciWord w).toNat

/-- A configuration read; without a normal answer (Request Retry Status, or no link) it gives nothing. -/
def State.confRead (s : State) (w : Nat) : State :=
  { s with hif := { s.hif with barReply := if s.confOpen then some (leBytes 4 (s.confDword w)) else none } }

/-- LINK_LOSS_TIMEOUT (R324). -/
def State.linkLoss (s : State) : State :=
  match s.hif.downAt with
  | some t =>
    let s := s.useT 0x400014
    if s.due t (s.rdT 0x400014) then s.selfReset 4 else s
  | none => s

/-- PERST_ASSERT (R325); in a shutdown or deep off nothing runs that could reset. -/
def State.perstAssert (s : State) : State := { s with hif := { s.hif with perst := true } }.selfReset 5
/-- PERST_DEASSERT. -/
def State.perstDeassert (s : State) : State := { s with hif := { s.hif with perst := false } }

/-! The scan of the configuration CRC, whose reaction may be a self-reset (R426, R428). -/

/-- CRC_SCAN: once every millisecond of TIM_TIME. -/
def State.crcScan (s : State) : State :=
  if !s.powered ∨ s.pwr.time / 1000000 ≤ s.cfg.scanMs then s
  else
    let r := s.voteAll.scan
    match r.1 with
    | .mismatched =>
      let t := r.2.crcReact
      if fld (t.rdT 0x10000C) 1 0 = 3 then t.selfReset 4 else t
    | _ => r.2

end Sys2Proof.Machine
end

