-- ==== Sys2Proof/Machine/RegView.lean ====
section
/-!
DEFINITION. What a read of BAR0 returns (R9, R311, R415 to R423): the stored registers, the read-only registers that show
other state, the mailbox areas and the windows of the log, the record ring and the MSI-X structures.
-/
namespace Sys2Proof.Machine

/-- A field of a register value, cut to its width. -/
def fput (v hi lo : Nat) : Nat := v % 2 ^ (hi + 1 - lo) * 2 ^ lo
/-- A bit of a register value. -/
def bput (b : Bool) (lo : Nat) : Nat := b2n b * 2 ^ lo

/-- The status registers of a block, numbered as in Table 15.3. -/
def blockStats (b : Nat) : List Nat :=
  match b with
  | 0 => [0x34] | 1 => [0x100024] | 2 => [0x200000, 0x200008] | 3 => [0x300004] | 4 => [0x400004] | 5 => [0x500008]
  | 6 => [0x600004] | 7 => [0x700004] | 8 => [0x800004] | 9 => [0x900000] | 10 => [0xA00004] | 11 => [0xB00000]
  | 12 => [0xC00004] | 13 => [0xD00004] | 14 => [0xE00004] | 15 => [0xF00004] | 16 => [0x1000004] | 17 => [0x1100004]
  | _ => []

/-- The bits i of [0, n) that satisfy p. -/
def bitsOf (n : Nat) (p : Nat → Bool) : Nat := (List.range n).foldl (fun v i => if p i then v + 2 ^ i else v) 0

/-- GLB_VERSIONSw (R431). -/
def State.versionsWord (s : State) (w : Nat) : Nat :=
  match w with
  | 0 => Config.romVersion.toNat
  | 1 => s.suppVersion
  | 2 => s.cfg.version
  | _ => fput 2 15 0 + fput (s.offerMinor (w - 3)) 31 24

/-- Views of GLB, CFG, PWR and TIM. -/
def State.viewLow (s : State) (name : String) (off : Nat) : Nat :=
  match name with
  | "GLB_ID" => 0x2048 + fput Config.stepping.toNat 31 16
  | "GLB_SERIAL" => s.cfg.serial.toNat
  | "GLB_BLOCK_STAT" => bitsOf 18 fun b => (blockStats b).any fun o => (s.stat o).toNat % 2 ^ 24 != 0
  | "CFG_REC_VERSION" => s.cfg.version
  | "CFG_REC_STATE" => b2n s.cfg.slot + bput s.cfg.pending 1 + bput s.cfg.recovery 2
  | "CFG_CRC_LIVE" => s.cfg.crcLive.toNat
  | "CFG_CRC_STATE" => b2n s.cfg.dirty + bput s.cfg.adopting 1 + bput s.cqf.heldCrc 2
  | "CFG_I3C" => fput s.cfg.dynAddr 6 0 + bput s.cfg.addrValid 7 + fput s.cfg.eid 15 8
  | "PWR_STATE" => s.pwrState
  | "PWR_EFFECTIVE" => fput s.pwr.eff 9 0
  | "PWR_ARB_STATE" => fput s.pwr.nbuCap 7 0 + fput s.pwr.matRatio 12 8
  | "PWR_VIN" => fput s.pwr.vin 15 0
  | "PWR_PIN" => fput s.pin 31 0
  | "PWR_DOM_ON0" => s.domWord 0
  | "PWR_DOM_ON1" => s.domWord 1
  | "PWR_DOM_ON2" => s.domWord 2 % 65536
  | "PWR_RST_BUSY" => bitsOf 6 fun e => tget noFlag s.pwr.rstBusy e
  | "PWR_START" => fput s.pwr.step 3 0 + fput s.pwr.fail 7 4 + fput s.pwr.cause 10 8
  | "PWR_STARTS" => s.flash.starts % 2 ^ 32
  | "TIM_TIME" => s.pwr.time
  | "TIM_WDT_REMAIN" => if s.mgt.wdtOn then s.mgt.wdtPeriod - s.msSince s.mgt.kickAt else 0
  | "TIM_OSC" => b2n s.pwr.oscInt
  | _ => s.versionsWord ((off - 0x10) / 4)

/-- Table 2.7's code of a queue's state. Between taking an entry and fetching its list, and for a ready command not yet dispatched,
it is WAITING, with reason 0 (DESIGN CHOICE, log entry 64). -/
def State.qCode (s : State) (q : Nat) : Nat :=
  match (s.q q).state with
  | .disabled => 0
  | .idle => 1
  | .stopped => 4
  | .active => match (s.q q).cmd with
    | some c => if c.phase = .waiting ∨ s.waitReason q = 3 ∨ s.waitReason q = 4 then 3 else 2
    | none => 3

/-- Views of HIF and CQF. -/
def State.viewFront (s : State) (name : String) (n : Nat) : Nat :=
  match name with
  | "HIF_LINK" =>
    let narrow := s.hif.up && s.pwr.state == 1 && s.rbit 0x400000 0
    fput s.hif.rate 3 0 + fput (if narrow then 4 else s.hif.width) 8 4 + bput s.hif.flit 9 +
      fput (if !s.hif.up then 0 else if s.pwr.state = 2 then 3 else if narrow then 2 else 1) 12 10 + bput s.hif.up 13
  | "HIF_LL_ELAPSED" => match s.hif.downAt with
    | some t => min 0xFFFF (s.msSince t)
    | none => 0
  | "CQF_LANDING" => fput (landingBuffers - s.totalHeld) 13 0 + fput s.sharedFree 29 16
  | "CQF_LANDING_RESV" => fput s.totalReserve 13 0
  | "CQF_TOKEN_VAL" => (s.tok (s.rf 0x500014 11 0)).toNat
  | "CQF_Q_STOPPED" => bitsOf 32 fun b => (s.q (32 * n + b)).state == .stopped
  | "CQF_TAGUSE" => fput (s.pool n).inUse 12 0 + fput (s.pool n).peak 28 16
  | "CQF_Qn_HEAD" => (s.q n).head.toNat
  | "CQF_Qn_STATE" => s.qCode n + fput (s.waitReason n) 6 4 + fput (s.q n).err.toNat 15 8
  | "CQF_Qn_ERRTAG" => (s.q n).errTag.toNat
  | "CQF_SLn_TAIL" => (s.slip n).tail.toNat
  | "CQF_SLn_HEAD" => (s.slip n).head.toNat
  | "CQF_Bn_OCC" => fput (s.berth n).held 13 0 + fput (s.berth n).peak 29 16
  | _ => 0

/-- Views of MAT and VEC. -/
def State.viewCompute (s : State) (name : String) (n : Nat) : Nat :=
  match name with
  | "MAT_SVC_LO" => bitsOf 32 fun b => s.clIn b
  | "MAT_SVC_HI" => bitsOf 32 fun b => s.clIn (32 + b)
  | "MAT_SVC_CNT" => s.clCount
  | "MAT_HANDLES" => fput s.handlesOpen 7 0 + fput s.handleCap 23 16
  | "MAT_Cn_STATE" => fput (s.clSvc n).st 1 0 + bput (s.clItem n).isSome 2 + bput (tget noFlag s.mat.gated n) 3 +
      fput (s.slotsOf n).length 5 4 + fput (n / 8) 10 8 + fput (n % 8) 13 11
  | "MAT_Hh" => match s.handle n with
    | some h => 1 + bput h.lost 1 + fput h.slot 3 2 + fput h.cluster 13 8 + fput h.mh 23 16 + fput h.nh 31 24
    | none => 0
  | "VEC_QDn_STATE" => b2n (s.qdItem n).isSome + bput (tget noFlag s.vec.gated n) 1
  | _ => 0

/-- The region shown by TIR_REG_SEL. -/
def State.regShown (s : State) : Option Region := tget noneD s.mem.regions (s.rf 0x800050 11 0)
/-- The page shown by TIR_PAGE_SEL. -/
def State.pageShown (s : State) : Nat := s.rf 0x800078 15 0 + 65536 * s.rf 0x80007C 3 0
/-- TIR_PAGE_INFO. -/
def State.pageInfo (s : State) (x : Nat) : Nat :=
  let r := s.mem.regionOf x
  b2n (s.mem.inCap x) + bput (s.mem.moving x) 1 + bput (tget noFlag s.mem.packed x) 2 + bput (tget noFlag s.mem.zero x) 3 +
    bput r.isSome 4 + fput (tget zeroN s.mem.access x) 15 8 + fput ((r.map (·.1)).getD 0) 27 16

/-- Pages of every region in a tier. -/
def State.regionPages (s : State) (cap : Bool) : Nat := (s.mem.live.map fun e => s.mem.pagesIn e.2 cap).sum

/-- LINK of a stack's or package's training: 0 untrained, 1 trained, 2 self-refresh, 3 failed. -/
def State.memLink (s : State) (asleep failed : Bool) : Nat :=
  if asleep then 2 else if s.hif.rrs ∨ s.cfg.recovery then 0 else if failed then 3 else 1

/-- Views of TIR, FTC and CTC. -/
def State.viewTiers (s : State) (name : String) (n : Nat) : Nat :=
  match name with
  | "TIR_PAGES_FAST" => fput (s.regionPages false) 19 0
  | "TIR_PAGES_CAP" => fput (s.regionPages true) 19 0
  | "TIR_PINNED_FAST" => fput (s.mem.pinned 2 4096) 19 0
  | "TIR_REMAP" => fput s.mem.remap.length 13 0 + fput 8192 29 16
  | "TIR_TOLL_GRANT" => fput (s.mem.grant (s.rf 0x800044 11 0) (s.rbit 0x800044 12)) 19 0
  | "TIR_TOLL_USED" => fput (s.mem.charge (s.rf 0x800044 11 0) (s.rbit 0x800044 12)) 19 0
  | "TIR_REG_BASE" => match s.regShown with
    | some r => fput r.base 40 0 + fput r.ctx 59 48 + put 1 63
    | none => 0
  | "TIR_REG_DESC" => (s.regShown.map (·.desc)).getD 0
  | "TIR_REG_TAG" => (s.regShown.map (·.tag)).getD 0
  | "TIR_REG_IDX" => (s.regShown.map (·.idx)).getD 0
  | "TIR_PAGE_INFO" => s.pageInfo s.pageShown
  | "TIR_FORDn_STATE" =>
    let f := s.mem.ford n
    b2n f.active + bput f.dir 1 + bput (f.stepped && (s.wanted f).isNone) 2 + fput f.w 14 8 + fput f.layer 26 16
  | "FTC_Sn_STATE" =>
    let lost := (List.range 64).all fun i => (s.pc (64 * n + i)).svc.failed
    fput (s.memLink s.mem.refreshFast lost) 1 0 + fput (tget zeroN s.err.spares n) 11 4
  | "FTC_Sn_REPAIR" =>
    fput (tget zeroN s.err.softRows n) 15 0 + fput (8 * ((List.range 256).filter fun g => s.nbTarget (256 * n + g) != 8).length) 31 16
  | "FTC_Sn_TEMP" => let t := tget stackT0 s.pwr.stackT n; (sByte t.1).toNat + put (sByte t.2).toNat 8
  | "CTC_Pn_STATE" =>
    fput (s.memLink s.mem.refreshCap (tget noFlag s.err.pkgFailed n)) 1 0 + fput (n / 12) 2 2 + fput (tget zeroN s.err.spares (8 + n)) 11 4
  | "CTC_Pn_TEMP" => (sByte (tget pkgT0 s.pwr.pkgT n)).toNat
  | _ => 0

/-- The logical group whose rows a physical group holds (R195). -/
def State.groupOf (s : State) (pg : Nat) : Option Nat :=
  (List.range 256).findSome? fun g => let l := 256 * groupStack pg + g; if s.nbPhys l = pg then some l else none

/-- An NB_REPAIR copy runs: the group of a repair in a stack. -/
def State.repairing (s : State) (st : Nat) : Option Nat :=
  s.cqf.queues.findSome? fun e => match e.2.cmd with
    | some c => if c.op = 0x3004 ∧ c.phase = .running ∧ cmdStacks c = [st] then some (fld (c.p 0) 10 0) else none
    | none => none

/-- Spare groups of a stack in service and unused. -/
def State.spareFree (s : State) (st : Nat) : Nat :=
  ((List.range 8).filter fun t => (s.nbSvc (2048 + 8 * st + t)).st == 0 && (s.groupOf (2048 + 8 * st + t)).isNone).length

/-- Views of NBU and XCH. -/
def State.viewUnits (s : State) (name : String) (n : Nat) : Nat :=
  match name with
  | "NBU_MAP" =>
    let g := s.rf 0xA00020 10 0
    fput (s.nbTarget g) 3 0 + bput (tget noFlag s.nbu.bySw g) 4 + bput (s.repairing (g / 256) == some g) 5
  | "NBU_SHARD_PROGn" => (tget progRowReset s.nbu.progRow n).toNat + put (tget progStepReset s.nbu.progStep n).toNat 32
  | "NBU_Sn_STATE" => b2n (s.stackBusy n) + bput (s.capHeldNow n) 1 + bput (s.repairing n).isSome 2 + fput (s.spareFree n) 7 4
  | "NBU_Gn_STATE" =>
    let l := s.groupOf n
    fput (s.nbSvc n).st 1 0 + bput (decide (2048 ≤ n)) 2 + bput l.isSome 3 + fput (l.getD 0) 14 4
  | "XCH_GRPn_STATE" => fput (s.groupState n) 1 0 + fput (s.group n).chan 15 4 + fput (s.group n).queue 24 16
  | "XCH_GRPn_RANK" => fput (s.group n).nr 14 0 + fput (s.group n).my 30 16
  | "XCH_GRPn_EPOCH" => (s.group n).epoch.toNat
  | "XCH_GRPn_CSEQ" => (s.group n).cseq.toNat
  | "XCH_GRPn_FAIL" => fput (s.group n).failRank 14 0 + fput (s.group n).failStatus 23 16
  | "XCH_GRPn_HELD" => fput (s.xch.held.filter fun h => h.seg.group == n).length 13 0
  | _ => 0

/-- The database entry of a port's neighbour. -/
def State.nbrEntry (s : State) (p : Nat) : Option LsaEntry :=
  match (s.port p).nbr with
  | some v => s.fab.db.find? fun e => e.serial == v.1
  | none => none

/-- Views of FAB and ITK. -/
def State.viewFabItk (s : State) (name : String) (n : Nat) : Nat :=
  match name with
  | "FAB_ID" => fput s.fab.id 13 0 + fput s.fab.idSrc 15 14
  | "FAB_SERIAL" => s.serialNo
  | "FAB_LEADER" => s.fab.leader.getD 0
  | "FAB_MODULES" => fput s.fab.db.length 14 0
  | "FAB_RT_ACTIVE" => (tget rtReset s.rtActive (s.rf 0xD00034 13 0)).toNat
  | "FAB_Pn_STATE" => fput (s.port n).state 2 0 + bput (s.groupOff (n / 4)) 3 + fput (((s.port n).nbr.map (·.2)).getD 0) 11 8
  | "FAB_Pn_VER" => match (s.port n).chosen with
    | some v => fput v.1 15 8 + fput v.2 7 0
    | none => 0
  | "FAB_Pn_NBR_ID" => match (s.nbrEntry n).bind (·.id) with
    | some d => fput d 13 0 + put 1 15
    | none => 0
  | "FAB_Pn_NBR_SERIAL" => ((s.port n).nbr.map (·.1)).getD 0
  | "ITK_VOCAB" => match s.itk.vocab with
    | some v => fput v.1.length 20 0 + put 1 31
    | none => 0
  | "ITK_VOCAB_BYTEBASE" => (s.itk.vocab.map (·.2)).getD 0
  | "ITK_WINDOW" => fput s.itk.occ 9 0 + fput s.itk.peak 25 16
  | "ITK_LANES" => fput s.itk.lanesIn 5 0 + fput s.itk.lanesBusy 13 8
  | _ => 0

/-- Views of MGT, SEC and ERR. -/
def State.viewHigh (s : State) (name : String) (n : Nat) : Nat :=
  match name with
  | "MGT_STATE" => fput s.mgt.core 1 0 + fput s.suppState 3 2 + bput s.mgt.attached 4 + bput s.mgt.msg.isSome 5 +
      bput ((s.mgt.msg.map (·.towpath)).getD false) 6
  | "MGT_MBOX_TAKEN" => s.mgt.taken.toNat
  | "MGT_SUPP_VER" => s.suppVersion
  | "MGT_VERn" => fput (s.mgt.vers.getD n (1, 0)).2 7 0 + fput (s.mgt.vers.getD n (1, 0)).1 15 8 + fput (s.offerMinor n) 23 16
  | "SEC_STATE" => fput s.sec.id 1 0 + bput s.sec.devCertOk 2 + bput (!s.sec.mSupp.isEmpty) 3
  | "SEC_MEAS" => numAt (s.measurement (s.rf 0x1000030 1 0)) (4 * n) 4
  | "ERR_SVC_RESULT" =>
    let u := s.rd 0x1100024
    fput (s.unitSvc u).st 1 0 + bput (s.svcBusy u) 2 + bput (s.unitSvc u).failed 3
  | "ERR_HIST" => fput s.flash.hist.length 15 0 + fput 4096 31 16
  | "ERR_PCn_STATE" =>
    let p := s.pc n
    fput p.svc.st 1 0 + bput p.svc.failed 2 + bput p.spared 3 + fput p.lane 9 4
  | _ => 0

/-- SEC_DKIDw. -/
def State.dkidWord (s : State) (off : Nat) : Nat := numAt s.sec.dkid (off - 0x1000010) 4

/-- The value of a read-only register computed from other state. -/
def State.view (s : State) (a : RegAt) (off : Nat) : Nat :=
  match off / 0x100000 with
  | 0 => s.viewLow a.reg.name off
  | 1 => s.viewLow a.reg.name off
  | 2 => s.viewLow a.reg.name off
  | 3 => s.viewLow a.reg.name off
  | 4 => s.viewFront a.reg.name a.n
  | 5 => s.viewFront a.reg.name a.n
  | 6 => s.viewCompute a.reg.name a.n
  | 7 => s.viewCompute a.reg.name a.n
  | 8 => s.viewTiers a.reg.name a.n
  | 9 => s.viewTiers a.reg.name a.n
  | 10 => s.viewUnits a.reg.name a.n
  | 11 => s.viewTiers a.reg.name a.n
  | 12 => s.viewUnits a.reg.name a.n
  | 13 => s.viewFabItk a.reg.name a.n
  | 14 => s.viewFabItk a.reg.name a.n
  | 16 => if off < 0x1000030 ∧ 0x1000010 ≤ off then s.dkidWord off else s.viewHigh a.reg.name a.n
  | _ => s.viewHigh a.reg.name a.n

/-- The value of a register: 32 or 64 bits. -/
def State.regValue (s : State) (a : RegAt) (off : Nat) : Nat :=
  match a.reg.kind with
  | .ctl _ =>
    if off = 0x200004 then s.rd off + bput s.pwr.ready 1
    else if off = 0xD00038 then (tget rtReset s.rtShadow (s.rf 0xD00034 13 0)).toNat
    else if off = 0xD00030 then bput s.fab.copying 2 + bput s.fab.active 3
    else s.payload off
  | .stat _ _ =>
    let busy (blk : Nat) : Nat := b2n (tget noneD s.pwr.posted blk).isSome
    (s.stat off).toNat + (if off = 0x200000 then busy 0 else if off = 0x900000 then busy 1 else if off = 0xB00000 then busy 2 else 0)
  | .rc _ => (s.stat off).toNat
  | .cnt _ _ => s.ctr off
  | .view _ => s.view a off

/-- A 64-bit register. -/
def RegDef.wide (r : RegDef) : Bool :=
  match r.kind with
  | .cnt w _ => w
  | .view w => w
  | _ => false

/-- The bytes of an error record in its ring slot (Table 15.3). -/
def ErrRec.bytes (r : ErrRec) : List Byte :=
  leBytes 8 r.time ++ leBytes 4 r.seq.toNat ++ leBytes 1 r.cls ++ leBytes 1 r.severity ++ leBytes 1 r.block ++ [0] ++
  leBytes 4 r.unit ++ leBytes 4 r.info ++ leBytes 8 r.location

/-- A 32-bit word of BAR0; zero where nothing is implemented (R9). -/
def State.barWord (s : State) (off : Nat) : Nat :=
  if 0xF10000 ≤ off ∧ off < 0xF11000 then leNat (tgets zeroB s.mgt.req (off - 0xF10000) 4)
  else if 0xF11000 ≤ off ∧ off < 0xF12000 then leNat (tgets zeroB s.mgt.rpl (off - 0xF11000) 4)
  else if 0xF20000 ≤ off ∧ off < 0xF30000 then
    match tget noneD s.mgt.log ((off - 0xF20000) / 32) with
    | some e => numAt e.bytes (off % 32) 4
    | none => 0
  else if 0x1110000 ≤ off ∧ off < 0x1112000 then
    match tget noneD s.err.ring ((off - 0x1110000) / 32) with
    | some r => numAt r.bytes (off % 32) 4
    | none => 0
  else if 0x440000 ≤ off ∧ off < 0x448000 then (tget msixReset s.hif.msix ((off - 0x440000) / 4)).toNat
  else if 0x448000 ≤ off ∧ off < 0x448100 then bitsOf 32 fun b => tget noFlag s.hif.pba ((off - 0x448000) * 8 + b)
  else match regAt off with
    | some a => s.regValue a off % 4294967296
    | none => match regAt (off - 4) with
      | some a => if a.reg.wide ∧ 4 ≤ off then s.regValue a (off - 4) / 4294967296 % 4294967296 else 0
      | none => 0

/-- A read that no latched half answers. -/
def State.plainRead (s : State) (w off n : Nat) : Nat × State :=
  let v := s.barWord w / 2 ^ (8 * (off % 4)) % 2 ^ (8 * n)
  match regAt w with
  | some a =>
    let s := s.useT w
    if n = 4 ∧ a.reg.wide then (v, { s with hif := { s.hif with latch := some (w + 4, BitVec.ofNat 32 (s.barWord (w + 4))) } })
    else (v, s)
  | none => (v, s)

/-- A BAR0 read of 1 to 8 naturally aligned bytes (R311): a 4-byte read of the low half of a 64-bit register latches its
high half, and the next 4-byte read of that half returns what was latched. Any other read returns zero and is flagged. -/
def State.barRead (s : State) (off n : Nat) : Nat × State :=
  if !s.barOpen then (0, s)
  else if !([1, 2, 4, 8].contains n && off % n == 0) then (0, s.evHif 8)
  else if n = 8 then (s.barWord off + 4294967296 * s.barWord (off + 4), (s.useT off).useT (off + 4))
  else
    let w := off / 4 * 4
    match s.hif.latch with
    | some l =>
      if n = 4 ∧ l.1 = w then (l.2.toNat, { s with hif := { s.hif with latch := none } })
      else s.plainRead w off n
    | none => s.plainRead w off n
end Sys2Proof.Machine
end

