-- ==== Sys2Proof/Machine/RegWrite.lean ====
section
/-!
DEFINITION. A write to BAR0 (R310, R415 to R422, R427, R430, R435): the masked write common to every control register, and
what each register map says of its own registers.
-/
namespace Sys2Proof.Machine

/-- A field-level range: outside [a, b] the field keeps its old value. -/
def rangeWrite (old new : Nat) (l : List (Nat × Nat × Nat × Nat)) : Nat :=
  l.foldl (fun v f => keepField old v f.1 f.2.1 f.2.2.1 f.2.2.2) new

/-- Registers whose write of 0 is ignored: the poll interval, the tier manager's rates, the peer deadline, the fabric's
times, the corrected-word threshold. -/
def zeroIgnored : List Nat := [0x500004, 0x800008, 0x80000C, 0xC00008, 0xD00024, 0xD00028, 0xD0002C, 0x1100020]

/-- Value ranges of fields outside which a field's write is ignored: (hi, lo, lowest, highest). -/
def fieldRanges (off : Nat) : List (Nat × Nat × Nat × Nat) :=
  match off with
  | 0x300010 => [(15, 0, 10, 10000)]
  | 0xA00008 => [(7, 0, 1, 131)]
  | 0xC00018 => [(4, 0, 0, 20)]
  | 0x1100014 => [(7, 0, 1, 4), (15, 8, 1, 8)]
  | _ => if zeroIgnored.contains off then [(15, 0, 1, 65535)] else []

/-! One function per block: `v` is the masked payload, `act` the action bits written as 1. -/

/-- GLB to HIF. -/
def State.writeLow (s : State) (off data v act : Nat) : State :=
  match off with
  | 0x100008 => if bitAt act 0 then s.adopt else s
  | 0x100014 => s.refHiWrite data
  | 0x200004 => let s := s.setReg off v; if bitAt act 1 then s.becomeReady else s
  | 0x200040 => s.engineReset act
  | 0x300014 => s
  | 0x400010 => s.gwCommit data
  | 0x400014 => if 10 ≤ v ∧ v ≤ 10000 then s.setReg off v else s.evHif 9
  | _ => s.setReg off v

/-- A queue's registers (R39, R41, R42). -/
def State.writeQueue (s : State) (q f off m v act : Nat) : State :=
  match f with
  | 0 =>
    if (s.q q).state ≠ .disabled ∧ fld v 1 1 ≠ fld (s.rd off) 1 1 then s.refuseQ q
    else if bitAt m 0 && bitAt v 0 && !s.rbit (qo q 0) 0 && !s.enableValid q then s.refuseQ q
    else
      let s := s.setReg off (fld v 2 1 * 2 + s.rd off % 2)
      if bitAt m 0 then (if bitAt v 0 then s.enable q else s.disable q) else s
  | 0x2C => if act = 1 then s.resumeNext q else if act = 2 then s.dropList q else if act = 3 then s.resetQ q else s
  | _ => if (s.q q).state ≠ .disabled ∧ v ≠ s.rd off then s.refuseQ q else s.setReg off v

/-- A slipway's registers (R42, R46). -/
def State.writeSlip (s : State) (n f off m v : Nat) : State :=
  if f = 0x1C then (if bitAt m 0 then s.slipEnable n (bitAt v 0) else s)
  else if s.slipOn n ∧ v ≠ s.rd off then s.refuseSl n
  else s.setReg off v

/-- A berth's registers (R42, R50, R53, R54). -/
def State.writeBerth (s : State) (b f off data m v : Nat) : State :=
  if f = 0 then
    if s.chanOpen b ∧ fld v 2 1 ≠ s.chanKind b then s.evCqf 3
    else
      let s := s.setReg off (fld v 3 1 * 2 + s.rd off % 2)
      if bitAt m 0 then (if bitAt v 0 then s.berthOpen b else s.berthClose b) else s
  else if f = 0x14 then s.weirWrite b data
  else if s.chanOpen b ∧ v ≠ s.rd off then s.evCqf 3
  else s.setReg off v

/-- CQF. -/
def State.writeCqf (s : State) (n off data m v act : Nat) : State :=
  if off < 0x510000 then
    let s := s.setReg off v
    if off = 0x500000 ∧ bitAt act 1 then s.cqfPeakClr else s
  else if off < 0x520000 then s.writeQueue n (off % 0x40) off m v act
  else if off < 0x540000 then s.writeSlip n (off % 0x40) off m v
  else s.writeBerth n (off % 0x40) off data m v

/-- NBU_CAP (R398): the effective cap follows a new cap it was not held below. -/
def State.capWrite (s : State) (v : Nat) : State :=
  let old := s.nbuTbps
  let s := s.setReg 0xA00008 v
  { s with pwr := { s.pwr with nbuCap := if s.pwr.nbuCap = old then s.nbuTbps else min s.pwr.nbuCap s.nbuTbps } }

/-- MAT to XCH. -/
def State.writeEngines (s : State) (off v act : Nat) : State :=
  match off with
  | 0x600000 => let s := s.setReg off v; if bitAt act 2 then s.matNfClr else s
  | 0x700000 => let s := s.setReg off v; if bitAt act 1 then s.vecNfClr else s
  | 0xA00000 => if bitAt act 0 then s.nbuNfClr else s
  | 0xA00008 => s.capWrite v
  | 0xC00000 => let s := s.setReg off v; if bitAt act 0 then s.xchNfClr else s
  | _ => s.setReg off v

/-- FAB (R265, R267, R269, R272, R273). -/
def State.writeFab (s : State) (n off m v act : Nat) : State :=
  match off with
  | 0xD00008 => if v = s.payload off then s else s.setReg off v |>.idConfig
  | 0xD00030 => let s := if bitAt act 0 then s.swap else s; if bitAt act 1 then s.copyStart else s
  | 0xD00038 =>
    let old := (tget rtReset s.rtShadow (s.rf 0xD00034 13 0)).toNat
    s.shadowWrite ((old &&& (0xFFFF ^^^ m)) ||| (v &&& m))
  | _ =>
    if 0xD10000 ≤ off then
      let s := s.portsChange fun s => s.setReg off (fld v 1 1 * 2 + s.rd off % 2)
      let s := if bitAt act 2 then s.portReset n else s
      if bitAt m 0 then s.portEnable n (bitAt v 0) else s
    else s.setReg off v

/-- ITK (R296, R301). -/
def State.writeItk (s : State) (off v act : Nat) : State :=
  match off with
  | 0xE00000 =>
    let s := s.setReg off v
    let s := if bitAt act 2 then s.itkNfClr else s
    if bitAt act 3 then s.itkPeakClr else s
  | 0xE00008 => if !s.pipeEmpty then s.evItk 6 else s.setReg off v
  | 0xE0000C => if !s.pipeEmpty then s.evItk 6 else if v = s.rd off then s else s.setReg off v |>.cacheEmpty
  | _ => s.setReg off v

/-- MGT to ERR. -/
def State.writeHigh (s : State) (off m v act : Nat) : State :=
  match off with
  | 0xF00000 =>
    let s := s.setReg off v
    if bitAt act 0 then s.fwRestartBy 1 (bitAt act 1) else s
  | 0x1100000 =>
    let s := s.setReg off (v &&& 0xFFFD ||| s.rd off &&& 2)
    if bitAt m 1 then s.qualWrite (bitAt v 1) else s
  | 0x1100028 =>
    let u := s.rd 0x1100024
    if act = 1 then s.svcOut u else if act = 2 then s.requalify u else if act = 3 then s.admitSvc u else s
  | _ => s.setReg off v

/-- A 4-byte write to a control register (R415, R416, R435). -/
def State.ctlWrite (s : State) (a : RegAt) (off data : Nat) : State :=
  let m := data / 65536 &&& (a.reg.storeMask ||| a.reg.actMask)
  let act := data &&& m &&& a.reg.actMask
  let old := s.payload off
  let v := rangeWrite old (maskedWrite old data a.reg.storeMask) (fieldRanges off)
  if m = 0 then s
  else if off < 0x500000 then s.writeLow off data v act
  else if off < 0x600000 then
    s.writeCqf a.n off data m v act
  else if off < 0xD00000 then s.writeEngines off v act
  else if off < 0xE00000 then s.writeFab a.n off m (if off = 0xD00038 then data % 65536 else v) act
  else if off < 0xF00000 then s.writeItk off v act
  else s.writeHigh off m v act

/-- A 4-byte write at a 4-byte boundary of BAR0. Plain registers and locations that hold nothing ignore it (R9). -/
def State.barWordWrite (s : State) (off data : Nat) : State :=
  if 0x440000 ≤ off ∧ off < 0x448000 then s.msixWord ((off - 0x440000) / 4) (BitVec.ofNat 32 data)
  else match regAt off with
    | none => s
    | some a =>
      match a.reg.kind with
      | .ctl true => s.postWrite off data a.reg.storeMask
      | .ctl false => s.ctlWrite a off data
      | .stat ev _ => { s with stats := tput statReset s.stats off (seqClear ev (s.stat off) (BitVec.ofNat 32 data)) }
      | .rc _ => { s with stats := tput statReset s.stats off (countClear (s.stat off) (BitVec.ofNat 32 data)) }
      | .cnt _ _ => s
      | .view _ => s

/-- A BAR0 write of `size` bytes of `data` (R310, R311, R417): the mailbox request area takes any size up to the Max Payload
Size, registers take 4 or 8 naturally aligned bytes; any other write is discarded and flagged. -/
def State.regWrite (s : State) (off size data : Nat) : State :=
  if !s.barOpen then s.barRefuse
  else s.byWrite fun s =>
    if 0xF10000 ≤ off ∧ off + size ≤ 0xF11000 ∧ size ≤ s.hif.conf.mps then s.reqWrite (off - 0xF10000) (leBytes size data)
    else if size = 4 ∧ off % 4 = 0 then s.barWordWrite off (data % 4294967296)
    else if size = 8 ∧ off % 8 = 0 then
      (s.barWordWrite off (data % 4294967296)).barWordWrite (off + 4) (data / 4294967296 % 4294967296)
    else s.evHif 8

/-- An action or event commanded through BAR0, by its own row. -/
def State.barDo (s : State) (f : State → State) : State := if s.barOpen then s.byWrite f else s.barRefuse

/-- An access lies in BAR0. -/
def barFormed (off n : Nat) : Bool := decide (0 < n) && decide (off + n ≤ 2 ^ 25)

/-- A read of BAR0: its answer, or Unsupported Request (R315). -/
def State.regRead (s : State) (off n : Nat) : State :=
  if s.barOpen then
    let r := s.barRead off n
    { r.2 with hif := { r.2.hif with barReply := some (leBytes n r.1) } }
  else { s with hif := { s.hif with barReply := none } }.barRefuse

/-- An access of the host to BAR0 or to the configuration space. What does not lie in BAR0 is none of its accesses. -/
def State.hostAccess (s : State) (off size : Nat) : HostAccess → State
  | .write data => if barFormed off size then s.regWrite off size data else s
  | .read => if barFormed off size then s.regRead off size else s
  | .configWrite bme conf clr => s.confWrite bme conf clr
  | .msixWrite on mask => s.msixControl on mask
  | .configRead => s.confRead (off / 4)

end Sys2Proof.Machine
end

