-- ==== Sys2Proof/Machine/Tick.lean ====
section
/-!
DEFINITION. What one period of the reference oscillator does (R401, R402), and small operations that several meanings call.
-/
namespace Sys2Proof.Machine

/-- What a meaning answers. -/
abbrev Out := Host.Outcome State Fault Refusal

/-- What the management core's firmware does, while it runs (R327, R345). -/
def State.byCore (s : State) (f : State → State) : State := if s.mgt.core = 1 then f s else s

/-- DATABASE_SETTLED: the firmware settles the database, logs it, and start-up comes to its last step when it is the
first (R266, Table 13.9, Table 16.7). -/
def State.databaseSettled (s : State) : State :=
  let t := s.settle
  if t.fab.settled && !s.fab.settled then
    let t := (t.logWrite 0x000A 0 [t.fab.db.length, t.fab.leader.getD 0 % 4294967296]).trace 4 4
    if t.pwr.step = 8 then t.stepReached 9 else t
  else t

/-- Is the offset one of a kind of register? -/
def isStat (off : Nat) : Bool :=
  match regAt off with
  | some a => match a.reg.kind with
    | .stat _ _ => true
    | _ => false
  | none => false
/-- Is it a sequence-cleared count? -/
def isRc (off : Nat) : Bool :=
  match regAt off with
  | some a => match a.reg.kind with
    | .rc _ => true
    | _ => false
  | none => false
/-- Is it a front-end register whose writes R42 governs: a queue's, a slipway's or a berth's? -/
def isCqfConfig (off : Nat) : Bool := decide (0x510000 ≤ off) && decide (off < 0x600000)

/-- STATUS_SEQ_CLEAR: a 4-byte write to a status register. -/
def State.seqWrite (s : State) (off data : Nat) : State := if isStat off then s.regWrite off 4 data else s
/-- COUNT_SEQ_CLEAR: a 4-byte write to a sequence-cleared count. -/
def State.countWrite (s : State) (off data : Nat) : State := if isRc off then s.regWrite off 4 data else s
/-- CQF_CONFIG_WRITE: a 4-byte write to a queue's, slipway's or berth's register. -/
def State.cqfWrite (s : State) (off data : Nat) : State := if isCqfConfig off then s.regWrite off 4 data else s

/-! One period of the oscillator. -/

/-- The berths at or above their weir count the time (R54). -/
def State.tickBerth (s : State) (b : Nat) : State :=
  if s.weirMet b then
    let n := (s.berth b).overNs + 10
    if n < 1000 then s.setBerth b { s.berth b with overNs := n }
    else (s.setBerth b { s.berth b with overNs := n - 1000 }).bump64 (bo b 0x28) 1
  else s

/-- The rail moves 1 mV each microsecond toward the lower of PWR_SETPOINT and what the arbiter imposes (R395). -/
def State.tickRail (s : State) : State :=
  let goal := min s.setpoint s.pwr.imposed
  if s.pwr.eff = goal then { s with pwr := { s.pwr with slewAt := s.pwr.time } }
  else if s.pwr.time < s.pwr.slewAt + 1000 then s
  else { s with pwr := { s.pwr with slewAt := s.pwr.time, eff := if s.pwr.eff < goal then s.pwr.eff + 1 else s.pwr.eff - 1 } }

/-- NBU_Sn_HELDT counts while the arbiter holds a stack (R219). -/
def State.tickHeld (s : State) : State :=
  (List.range 8).foldl (fun s n => if s.capHeldNow n then s.bump64 (0xA10018 + 0x20 * n) 10 else s) s

/-- One period: TIM_TIME advances by 10 once start-up step 2 is reached, and what follows time by itself goes on: what the link
has sent is acknowledged, a gangway request that waits is tried, and a deep off that has begun goes on. -/
def State.tick (s : State) : State :=
  if s.pwr.off ≠ 0 ∨ s.pwr.step < 2 then s
  else
    let s := { s with pwr := { s.pwr with time := (s.pwr.time + 10) % 2 ^ 64 } }
    let s := s.cqf.berths.foldl (fun s e => s.tickBerth e.1) s
    let s := s.tickHeld
    let s := if s.reduced then s.bump64 0x200058 10 else s
    let s := { s with hif := { s.hif with tlps := [] } }
    (s.tickRail).d3Settle.gwStep.deepOffTick

end Sys2Proof.Machine
end

