-- ==== Sys2Proof/Machine/ExecCommon.lean ====
section
/-!
DEFINITION. The meanings of the rows of the commands common to every queue (Table 2.8) and the front end (chapter 2).
-/
namespace Sys2Proof.Machine

/-- NOP (R45). -/
def execNop (q : QId) (s : State) : Out := .next (s.nop q.val)

/-- WRITE_IMM (R45). -/
def execWriteImm (q : QId) (s : State) : Out := .next (s.writeImm q.val)

/-- TOKEN_SET (R45). -/
def execTokenSet (q : QId) (s : State) : Out := .next (s.tokenSet q.val)

/-- SLIP_ACQUIRE (R48). -/
def execSlipAcquire (q : QId) (s : State) : Out := .next (s.slipCmd q.val 3)

/-- SLIP_PUBLISH (R48). -/
def execSlipPublish (q : QId) (s : State) : Out := .next (s.slipCmd q.val 4)

/-- SLIP_WAIT (R48). -/
def execSlipWait (q : QId) (s : State) : Out := .next (s.slipCmd q.val 5)

/-- SLIP_RELEASE (R48). -/
def execSlipRelease (q : QId) (s : State) : Out := .next (s.slipCmd q.val 6)

/-- ENTRY_TAKE (R28). -/
def execEntryTake (q : QId) (s : State) : Out := .next (s.entryTake q.val)

/-- HOST_RING_POLL (R32). -/
def execHostRingPoll (q : QId) (s : State) : Out := .next (s.hostPoll q.val)

/-- LIST_FETCH (R38). -/
def execListFetch (q : QId) (s : State) : Out := .next (s.listFetch q.val)

/-- COMMAND_DISPATCH (R43). -/
def execCommandDispatch (q : QId) (s : State) : Out := .next (s.dispatch q.val)

/-- COMMAND_COMPLETE (R38). -/
def execCommandComplete (q : QId) (s : State) : Out := .next ((s.complete q.val).d3Settle)

/-- QUEUE_TIMEOUT (R40). -/
def execQueueTimeout (q : QId) (s : State) : Out := .next (s.timeout q.val)

/-- RESUME_NEXT (R39). -/
def execResumeNext (q : QId) (s : State) : Out := .next (s.barDo fun s => s.resumeNext q.val)

/-- DROP_LIST (R39). -/
def execDropList (q : QId) (s : State) : Out := .next (s.barDo fun s => s.dropList q.val)

/-- QUEUE_RESET (R39). -/
def execQueueReset (q : QId) (s : State) : Out := .next (s.barDo fun s => s.resetQ q.val)

/-- QUEUE_ENABLE (R41). -/
def execQueueEnable (q : QId) (s : State) : Out := .next (s.barDo fun s => s.enable q.val)

/-- QUEUE_DISABLE (R41). -/
def execQueueDisable (q : QId) (s : State) : Out := .next (s.barDo fun s => s.disable q.val)

/-- DISPATCH_HOLD (R44). -/
def execDispatchHold (en : Bool) (s : State) : Out := .next (s.barDo fun s => s.dispatchHold en)

/-- CQF_PEAK_CLR (R416). -/
def execCqfPeakClr (s : State) : Out := .next (s.barDo State.cqfPeakClr)

/-- SLIPWAY_ENABLE (R46). -/
def execSlipwayEnable (sl : Fin 64) (en : Bool) (s : State) : Out := .next (s.barDo fun s => s.slipEnable sl.val en)

/-- BERTH_OPEN (R50). -/
def execBerthOpen (b : Fin 4096) (s : State) : Out := .next (s.barDo fun s => s.berthOpen b.val)

/-- BERTH_CLOSE (R53). -/
def execBerthClose (b : Fin 4096) (s : State) : Out := .next (s.barDo fun s => s.berthClose b.val)

/-- LANDING_BUFFER_GRANT (R51). -/
def execLandingBufferGrant (s : State) : Out := .next (s.landingGrant)

/-- TRANSFER_TAG_GRANT (R57). -/
def execTransferTagGrant (pool : Fin 22) (s : State) : Out := .next (s.tagGrant pool.val)

/-- WEIR_WRITE (R54). -/
def execWeirWrite (b : Fin 4096) (data : W32) (s : State) : Out := .next (s.barDo fun s => s.weirWrite b.val data.toNat)

/-- CQF_CONFIG_WRITE (R42). -/
def execCqfConfigWrite (off : Nat) (data : W32) (s : State) : Out := .next (s.cqfWrite off data.toNat)

end Sys2Proof.Machine
end

