-- ==== Sys2Proof/Machine/ExecCompute.lean ====
section
/-!
DEFINITION. The meanings of the rows of the matrix array, the vector engine and the near-bank units (chapters 4, 5 and 8).
-/
namespace Sys2Proof.Machine

/-- MM_PRODUCT (R103). -/
def execMmProduct (q : QId) (s : State) : Out := .next (s.mmProduct q.val)

/-- MM_COMBINE (R104). -/
def execMmCombine (q : QId) (s : State) : Out := .next (s.mmCombine q.val)

/-- MM_ACC_OPEN (R97). -/
def execMmAccOpen (q : QId) (s : State) : Out := .next (s.accOpen q.val)

/-- MM_ACC_FLUSH (R99). -/
def execMmAccFlush (a : FlushArg) (s : State) : Out := .next (s.accFlush a.q.val (a.flt.map Fin.val))

/-- VX_CONVERT (R120). -/
def execVxConvert (q : QId) (s : State) : Out := .next (s.vStart q.val 0x2001)

/-- VX_ELTWISE (R121). -/
def execVxEltwise (q : QId) (s : State) : Out := .next (s.vStart q.val 0x2002)

/-- VX_REDUCE (R122). -/
def execVxReduce (q : QId) (s : State) : Out := .next (s.vStart q.val 0x2003)

/-- VX_NORM (R123). -/
def execVxNorm (q : QId) (s : State) : Out := .next (s.vStart q.val 0x2004)

/-- VX_SOFTMAX (R124). -/
def execVxSoftmax (q : QId) (s : State) : Out := .next (s.vStart q.val 0x2005)

/-- VX_OPT_DELAYED (R129). -/
def execVxOptDelayed (q : QId) (s : State) : Out := .next (s.vStart q.val 0x2006)

/-- VEC_ROW_ISSUE (R113). -/
def execVecRowIssue (d : Fin 4) (s : State) : Out := .next (s.vIssue d.val)

/-- VEC_ROW_END (R113). -/
def execVecRowEnd (d : Fin 4) (flt : Option (Fin 9)) (s : State) : Out := .next (s.vItemEnd d.val (flt.map Fin.val))

/-- QUADRANT_WAKE (R114). -/
def execQuadrantWake (d : Fin 4) (s : State) : Out := .next (s.qdWake d.val)

/-- NB_FERRY (R205). -/
def execNbFerry (q : QId) (s : State) : Out := .next (s.nbFerry q.val)

/-- NB_OPTIMIZE (R211). -/
def execNbOptimize (q : QId) (s : State) : Out := .next (s.nbOptimize q.val)

/-- NB_ATTEND (R216). -/
def execNbAttend (q : QId) (s : State) : Out := .next (s.nbAttend q.val)

/-- NB_REPAIR (R220). -/
def execNbRepair (q : QId) (s : State) : Out := .next (s.nbRepair q.val)

/-- ROW_INDEX_ISSUE (R201). -/
def execRowIndexIssue (st : Fin 8) (s : State) : Out := .next (s.rowIssue st.val)

/-- ROW_OPERATION_END (R197). -/
def execRowOperationEnd (u : Fin 16384) (flt : Option (Fin 8)) (s : State) : Out := .next (s.rowEnd u.val (flt.map Fin.val))

/-- REPAIR_MAP_SWITCH (R220). -/
def execRepairMapSwitch (st : Fin 8) (s : State) : Out := .next (s.repairSwitch st.val)

/-- WORK_ITEM_ISSUE (R91). -/
def execWorkItemIssue (c : Fin 64) (s : State) : Out := .next (if s.issueAllowed then s.itemIssue c.val else s)

/-- WORK_ITEM_COMPLETE (R92). -/
def execWorkItemComplete (c : Fin 64) (flt : Option (Fin 10)) (s : State) : Out :=
  .next (s.itemComplete c.val (flt.map Fin.val))

/-- CLUSTER_WAKE (R110). -/
def execClusterWake (c : Fin 64) (s : State) : Out := .next (s.clusterWake c.val)

end Sys2Proof.Machine
end

