-- ==== Sys2Proof/Machine/ExecExchange.lean ====
section
/-!
DEFINITION. The meanings of the rows of the exchange engine and the intake pipeline (chapters 9 and 11).
-/
namespace Sys2Proof.Machine

/-- XC_REDUCE (R233). -/
def execXcReduce (q : QId) (flt : Bool) (s : State) : Out := .next (s.collective q.val 0x5001 flt)

/-- XC_REDUCE_COMP (R234). -/
def execXcReduceComp (q : QId) (flt : Bool) (s : State) : Out := .next (s.collective q.val 0x5002 flt)

/-- XC_GATHER (R242). -/
def execXcGather (q : QId) (s : State) : Out := .next (s.collective q.val 0x5003 false)

/-- XC_BROADCAST (R244). -/
def execXcBroadcast (q : QId) (s : State) : Out := .next (s.collective q.val 0x5004 false)

/-- XC_ATTN_COMBINE (R245). -/
def execXcAttnCombine (q : QId) (flt : Bool) (s : State) : Out := .next (s.collective q.val 0x5005 flt)

/-- XC_RANK_SET (R226). -/
def execXcRankSet (q : QId) (s : State) : Out := .next (s.rankSet q.val)

/-- PEER_TIMEOUT (R248). -/
def execPeerTimeout (g : Fin 16) (s : State) : Out := .next (s.peerTimeout g.val)

/-- IK_BATCH (R279). -/
def execIkBatch (q : QId) (s : State) : Out := .next (s.ikBatch q.val)

/-- IK_VOCAB_LOAD (R290). -/
def execIkVocabLoad (q : QId) (s : State) : Out := .next (s.vocabLoad q.val)

/-- IK_CACHE_FLUSH (R301). -/
def execIkCacheFlush (q : QId) (s : State) : Out := .next (s.cacheFlush q.val)

/-- DECODE_START (R295). -/
def execDecodeStart (lane : Fin 32) (s : State) : Out := .next (s.decodeStart lane.val)

/-- DECODE_END (R297). -/
def execDecodeEnd (lane : Fin 32) (s : State) : Out := .next (s.decodeEnd lane.val)

/-- STAGING_RESERVE (R296). -/
def execStagingReserve (lane : Fin 32) (s : State) : Out := .next (s.stagingReserve lane.val)

/-- TRANSFORM_SAMPLE (R291). -/
def execTransformSample (flt : Bool) (s : State) : Out := .next (s.transformSample flt)

/-- ROI_POLL (R293). -/
def execRoiPoll (s : State) : Out := .next (s.roiPoll)

/-- INTAKE_DOMAIN_WAKE (R394). -/
def execIntakeDomainWake (s : State) : Out := .next (s.itkWake)

end Sys2Proof.Machine
end

