-- ==== Sys2Proof/Machine/ExecFabric.lean ====
section
/-!
DEFINITION. The meanings of the rows of the fabric (chapter 10).
-/
namespace Sys2Proof.Machine

/-- FRAME_TRANSMIT (R254). -/
def execFrameTransmit (p : Fin 12) (s : State) : Out := .next (s.frameTransmit p.val)

/-- FRAME_RECEIVE (R263). -/
def execFrameReceive (p : Fin 12) (bytes : List Byte) (s : State) : Out := .next (s.frameReceive p.val bytes)

/-- REPLAY_TIMEOUT (R263). -/
def execReplayTimeout (p : Fin 12) (s : State) : Out := .next (s.replayTimeout p.val)

/-- NAK_REPEAT (R263). -/
def execNakRepeat (p : Fin 12) (s : State) : Out := .next (s.nakRepeat p.val)

/-- LOCK_LOSS (R264). -/
def execLockLoss (p : Fin 12) (s : State) : Out := .next (s.lockLoss p.val)

/-- RETRAIN_DONE (R264). -/
def execRetrainDone (p : Fin 12) (ok : Bool) (s : State) : Out := .next (s.retrainDone p.val ok)

/-- RETRAIN_TIMEOUT (R264). -/
def execRetrainTimeout (p : Fin 12) (s : State) : Out := .next (s.retrainTimeout p.val)

/-- PORT_LOCK (R265). -/
def execPortLock (p : Fin 12) (s : State) : Out := .next (s.portLock p.val)

/-- TRAINING_TIMEOUT (R265). -/
def execTrainingTimeout (p : Fin 12) (s : State) : Out := .next (s.trainTimeout p.val)

/-- FAILED_RETRY (R265). -/
def execFailedRetry (p : Fin 12) (s : State) : Out := .next (s.failedRetry p.val)

/-- VERSION_RETRY (R265). -/
def execVersionRetry (p : Fin 12) (s : State) : Out := .next (s.versionRetry p.val)

/-- VERSION_OFFER (R265). -/
def execVersionOffer (p : Fin 12) (s : State) : Out := .next (s.versionOffer p.val)

/-- VERSION_ACCEPT (R265). -/
def execVersionAccept (p : Fin 12) (s : State) : Out := .next (s.versionAccept p.val)

/-- LINK_NOTICE (R273). -/
def execLinkNotice (p : Fin 12) (s : State) : Out := .next (s.linkNotice p.val)

/-- DRAIN_TIMEOUT (R273). -/
def execDrainTimeout (p : Fin 12) (s : State) : Out := .next (s.drainTimeout p.val)

/-- WRITE (R259). -/
def execWrite (p : Fin 12) (s : State) : Out := .next (s.pktWrite p.val)

/-- READ (R259). -/
def execRead (p : Fin 12) (s : State) : Out := .next (s.pktRead p.val)

/-- COMPLETION (R258). -/
def execCompletion (p : Fin 12) (s : State) : Out := .next (s.pktCompletion p.val)

/-- REFUSAL (R259). -/
def execRefusal (p : Fin 12) (s : State) : Out := .next (s.pktRefusal p.val)

/-- SEGMENT (R228). -/
def execSegment (p : Fin 12) (flt : Bool) (s : State) : Out := .next (s.pktSegment p.val false flt)

/-- ABORT_SEGMENT (R248). -/
def execAbortSegment (p : Fin 12) (s : State) : Out := .next (s.pktSegment p.val true false)

/-- NOTICE (R274). -/
def execNotice (p : Fin 12) (s : State) : Out := .next (s.byCore fun s => s.pktNotice p.val)

/-- LSA (R266). -/
def execLsa (p : Fin 12) (s : State) : Out := .next (s.byCore fun s => s.pktLsa p.val)

/-- ID_GRANT (R267). -/
def execIdGrant (p : Fin 12) (s : State) : Out := .next (s.byCore fun s => s.pktGrant p.val)

/-- CPL_TIMEOUT (R275). -/
def execCplTimeout (tag : Fin 16384) (s : State) : Out := .next (s.cplTimeout tag.val)

/-- LSA_REFRESH (R266). -/
def execLsaRefresh (s : State) : Out := .next (s.byCore State.lsaRefresh)

/-- LSA_EXPIRY (R266). -/
def execLsaExpiry (serial : W64) (s : State) : Out := .next (s.byCore fun s => s.lsaExpiry serial.toNat)

/-- DATABASE_SETTLED (R266). -/
def execDatabaseSettled (s : State) : Out := .next (s.byCore State.databaseSettled)

/-- FAB_RT_SHADOW_WRITE (R269). -/
def execFabRtShadowWrite (data : W32) (s : State) : Out := .next (s.regWrite 0xD00038 4 data.toNat)

/-- SWAP (R272). -/
def execSwap (s : State) : Out := .next (s.barDo State.swap)

/-- COPY (R272). -/
def execCopy (s : State) : Out := .next (s.barDo State.copyStart)

/-- COPY_DONE (R272). -/
def execCopyDone (s : State) : Out := .next (s.copyDone)

/-- PORT_RESET (R273). -/
def execPortReset (p : Fin 12) (s : State) : Out := .next (s.barDo fun s => s.portReset p.val)

/-- FAB_ID_CFG_WRITE (R267). -/
def execFabIdCfgWrite (data : W32) (s : State) : Out := .next (s.regWrite 0xD00008 4 data.toNat)

/-- PORT_ENABLE_WRITE (R265). -/
def execPortEnableWrite (p : Fin 12) (en : Bool) (s : State) : Out := .next (s.barDo fun s => s.portEnable p.val en)

end Sys2Proof.Machine
end

