-- ==== Sys2Proof/Machine/ExecFirmware.lean ====
section
/-!
DEFINITION. The meanings of the rows of the management core, its messages and the security block (chapters 13 and 14).
-/
namespace Sys2Proof.Machine

/-- MAILBOX_TAKE (R332). -/
def execMailboxTake (s : State) : Out := .next (s.mailboxTake)

/-- TOWPATH_REQUEST (R353). -/
def execTowpathRequest (bytes : List Byte) (s : State) : Out := .next (s.towpathRequest bytes)

/-- ENTDAA (R351). -/
def execEntdaa (addr : Fin 128) (s : State) : Out := .next (s.entdaa addr.val)

/-- SET_ENDPOINT_ID (R352). -/
def execSetEndpointId (eid : Fin 256) (s : State) : Out := .next (s.setEid eid.val)

/-- GET_ENDPOINT_ID (R352). -/
def execGetEndpointId (s : State) : Out := .next (s.getEid)

/-- GET_MCTP_VERSION_SUPPORT (R352). -/
def execGetMctpVersionSupport (type : Fin 256) (s : State) : Out := .next (s.getMctpVersion type.val)

/-- GET_MESSAGE_TYPE_SUPPORT (R352). -/
def execGetMessageTypeSupport (s : State) : Out := .next (s.getMsgTypes)

/-- GET_VENDOR_DEFINED_MSG_SUPPORT (R352). -/
def execGetVendorDefinedMsgSupport (sel : Fin 256) (s : State) : Out := .next (s.getVendorMsgs sel.val)

/-- ECHO (R337). -/
def execEcho (s : State) : Out := .next (s.msgEcho)

/-- ATTACH (R338). -/
def execAttach (s : State) : Out := .next (s.msgAttach)

/-- GET_INFO (R337). -/
def execGetInfo (s : State) : Out := .next (s.msgGetInfo)

/-- SUPPLEMENT_LOAD (R342). -/
def execSupplementLoad (s : State) : Out := .next (s.msgSuppLoad)

/-- SUPPLEMENT_STATUS (R337). -/
def execSupplementStatus (s : State) : Out := .next (s.msgSuppStatus)

/-- FW_RESTART (R345). -/
def execFwRestart (s : State) : Out := .next (s.msgFwRestart)

/-- LOG_READ (R337). -/
def execLogRead (s : State) : Out := .next (s.msgLogRead)

/-- TELEMETRY (R409). -/
def execTelemetry (s : State) : Out := .next (s.msgTelemetry)

/-- ATTEST_REPORT (R366). -/
def execAttestReport (s : State) : Out := .next (s.msgReport)

/-- ATTEST_EXTEND (R364). -/
def execAttestExtend (s : State) : Out := .next (s.msgExtend)

/-- ATTEST_CLEAR (R365). -/
def execAttestClear (s : State) : Out := .next (s.msgClear)

/-- CERT_READ (R367). -/
def execCertRead (s : State) : Out := .next (s.msgCertRead)

/-- POWER_STATE_RUN (R405). -/
def execPowerStateRun (s : State) : Out := .next (s.msgPowerRun)

/-- POWER_STATE_SLACK_WATER (R405). -/
def execPowerStateSlackWater (s : State) : Out := .next (s.msgSlack)

/-- POWER_STATE_DEEP_OFF (R407). -/
def execPowerStateDeepOff (s : State) : Out := .next (s.msgDeepOff)

/-- DEEP_OFF_BEGIN (R407). -/
def execDeepOffBegin (s : State) : Out := .next (s.deepOffBegin)

/-- POWER_LIMIT (R408). -/
def execPowerLimit (s : State) : Out := .next (s.msgPowerLimit)

/-- ERR_HISTORY_READ (R384). -/
def execErrHistoryRead (s : State) : Out := .next (s.msgHistRead)

/-- ERR_HISTORY_ADD (R384). -/
def execErrHistoryAdd (s : State) : Out := .next (s.msgHistAdd)

/-- HISTORY_WRITE_DONE (R383). -/
def execHistoryWriteDone (s : State) : Out := .next (s.histWritten)

/-- MARGIN (R386). -/
def execMargin (lo : Nat) (hi : Nat) (s : State) : Out := .next (s.msgMargin lo hi)

/-- CONFIG_UPDATE (R434). -/
def execConfigUpdate (s : State) : Out := .next (s.msgConfigUpdate)

/-- WATCHDOG_EXPIRY (R403). -/
def execWatchdogExpiry (s : State) : Out := .next (s.watchdogExpiry)

/-- MGT_RESTART (R345). -/
def execMgtRestart (discard : Bool) (s : State) : Out := .next (s.barDo fun s => s.fwRestartBy 1 discard)

/-- CORE_FAULT (R329). -/
def execCoreFault (kind : CoreFaultKind) (s : State) : Out := .next (s.coreFault kind)

/-- FIRMWARE_RESTART_DONE (R346). -/
def execFirmwareRestartDone (s : State) : Out := .next (s.restartDone)

/-- WDT_KICK (R403). -/
def execWdtKick (s : State) : Out := .next (s.wdtKick)

end Sys2Proof.Machine
end

