-- ==== Sys2Proof/Machine/ExecHost.lean ====
section
/-!
DEFINITION. The meanings of the rows of the host interface (chapter 12).
-/
namespace Sys2Proof.Machine

/-- GANGWAY_READ (R314). -/
def execGangwayRead (off : Nat) (len : Nat) (s : State) : Out := .next (s.gangwayRead off len)

/-- GANGWAY_WRITE (R314). -/
def execGangwayWrite (off : Nat) (bytes : List Byte) (s : State) : Out := .next (s.gangwayWrite off bytes)

/-- HIF_GW_BASE_HI_WRITE (R312). -/
def execHifGwBaseHiWrite (data : W32) (s : State) : Out := .next (s.regWrite 0x400010 4 data.toNat)

/-- HIF_LL_TIMEOUT_WRITE (R312). -/
def execHifLlTimeoutWrite (data : W32) (s : State) : Out := .next (s.regWrite 0x400014 4 data.toNat)

/-- HOST_COMPLETION (R319). -/
def execHostCompletion (q : QId) (res : HostResult) (s : State) : Out := .next (s.hostComplete q.val res)

/-- HOST_COMPLETION_TIMEOUT (R319). -/
def execHostCompletionTimeout (q : QId) (s : State) : Out := .next (s.hostTimeout q.val)

/-- MSIX_ENABLE (R320). -/
def execMsixEnable (s : State) : Out := .next (s.msixEnable)

/-- DL_DOWN (R322). -/
def execDlDown (s : State) : Out := .next (s.dlDown)

/-- DL_UP (R322). -/
def execDlUp (link : LinkInfo) (s : State) : Out := .next (s.dlUp link)

/-- LINK_LOSS_TIMEOUT (R324). -/
def execLinkLossTimeout (s : State) : Out := .next (s.linkLoss)

/-- PERST_ASSERT (R325). -/
def execPerstAssert (s : State) : Out := .next (s.perstAssert)

/-- PERST_DEASSERT (R326). -/
def execPerstDeassert (s : State) : Out := .next (s.perstDeassert)

/-- HOT_RESET (R325). -/
def execHotReset (s : State) : Out := .next (s.selfReset 5)

/-- LINK_DISABLE (R325). -/
def execLinkDisable (s : State) : Out := .next (s.selfReset 5)

/-- FUNCTION_LEVEL_RESET (R327). -/
def execFunctionLevelReset (s : State) : Out := .next (s.functionReset)

/-- D3HOT_ENTRY (R406). -/
def execD3hotEntry (s : State) : Out := .next (s.d3hotEntry)

/-- D3HOT_EXIT (R406). -/
def execD3hotExit (s : State) : Out := .next (s.d3hotExit)

/-- MSIX_UNMASK (R320). -/
def execMsixUnmask (vec : Option (Fin 2048)) (s : State) : Out := .next (s.msixUnmask (vec.map Fin.val))

end Sys2Proof.Machine
end

