-- ==== Sys2Proof/Machine/ExecIntegrity.lean ====
section
/-!
DEFINITION. The meanings of the rows of integrity, faults and service (chapters 15 and 17).
-/
namespace Sys2Proof.Machine

/-- SCRUB_READ (R375). -/
def execScrubRead (cap : Bool) (upset : List (Nat × Byte)) (elsewhere : List (Nat × Nat × Byte)) (s : State) : Out :=
  .next ((s.strike elsewhere).scrubRead cap upset)

/-- CRC_SCAN (R426). -/
def execCrcScan (s : State) : Out := .next (s.crcScan)

/-- CFG_CRC_REF_HI_WRITE (R427). -/
def execCfgCrcRefHiWrite (data : W32) (s : State) : Out := .next (s.regWrite 0x100014 4 data.toNat)

/-- ADOPT (R427). -/
def execAdopt (s : State) : Out := .next (s.barDo State.adopt)

/-- VOTE_SCAN (R423). -/
def execVoteScan (upset : List (Nat × Fin 3 × W16)) (s : State) : Out := .next (s.regUpsets upset).voteScan

/-- QUAL_WRITE (R379). -/
def execQualWrite (on : Bool) (s : State) : Out := .next (s.barDo fun s => s.qualWrite on)

/-- OUT (R389). -/
def execOut (unit : W16) (s : State) : Out := .next (s.barDo fun s => s.svcOut unit.toNat)

/-- REQUALIFY (R389). -/
def execRequalify (unit : W16) (s : State) : Out := .next (s.barDo fun s => s.requalify unit.toNat)

/-- ADMIT (R389). -/
def execAdmitUnit (unit : W16) (s : State) : Out := .next (s.barDo fun s => s.admitSvc unit.toNat)

/-- REQUALIFICATION_END (R387). -/
def execRequalificationEnd (unit : W16) (res : QualResult) (s : State) : Out := .next (s.requalEnd unit.toNat res)

/-- PSEUDO_CHANNEL_LOCK_LOSS (R388). -/
def execPseudoChannelLockLoss (n : Fin 512) (s : State) : Out := .next (s.pcLockLoss n.val)

end Sys2Proof.Machine
end

