-- ==== Sys2Proof/Machine/ExecMemory.lean ====
section
/-!
DEFINITION. The meanings of the rows of the tier and transfer engine (chapters 6 and 7).
-/
namespace Sys2Proof.Machine

/-- TT_COPY (R186). -/
def execTtCopy (q : QId) (s : State) : Out := .next (s.ttCopy q.val)

/-- TT_FILL (R186). -/
def execTtFill (q : QId) (s : State) : Out := .next (s.ttFill q.val)

/-- TT_REGION_SET (R156). -/
def execTtRegionSet (q : QId) (s : State) : Out := .next (s.regionSet q.val)

/-- TT_REGION_CLEAR (R187). -/
def execTtRegionClear (q : QId) (s : State) : Out := .next (s.regionClear q.val)

/-- TT_REGION_HINT (R187). -/
def execTtRegionHint (q : QId) (s : State) : Out := .next (s.regionHint q.val)

/-- TT_PLACE (R188). -/
def execTtPlace (q : QId) (s : State) : Out := .next (s.ttPlace q.val)

/-- TT_TOLL_SET (R170). -/
def execTtTollSet (q : QId) (s : State) : Out := .next (s.tollSet q.val)

/-- TT_TOLL_CLOSE (R170). -/
def execTtTollClose (q : QId) (s : State) : Out := .next (s.tollClose q.val)

/-- TT_FORD_SET (R171). -/
def execTtFordSet (q : QId) (s : State) : Out := .next (s.fordSet q.val)

/-- TT_FORD_STEP (R172). -/
def execTtFordStep (q : QId) (s : State) : Out := .next (s.fordStep q.val)

/-- TT_FORD_END (R174). -/
def execTtFordEnd (q : QId) (s : State) : Out := .next (s.fordEnd q.val)

/-- TT_COMPRESS (R176). -/
def execTtCompress (q : QId) (flt : Bool) (s : State) : Out := .next (s.ttCompress q.val flt)

/-- TT_RETIRE (R182). -/
def execTtRetire (q : QId) (s : State) : Out := .next (s.ttRetire q.val)

/-- TT_TIDE (R142). -/
def execTtTide (q : QId) (flt : Bool) (s : State) : Out := .next (s.ttTide q.val flt)

/-- BACKGROUND_MOVE_START (R163). -/
def execBackgroundMoveStart (page : Fin 1048576) (s : State) : Out := .next (s.bgStart page.val)

/-- PAGE_MOVE_SWITCH (R166). -/
def execPageMoveSwitch (page : Fin 1048576) (s : State) : Out := .next (s.moveSwitch page.val)

/-- ACCESS_COUNTER_HALVING (R165). -/
def execAccessCounterHalving (s : State) : Out := .next (s.halve)

end Sys2Proof.Machine
end

