-- ==== Sys2Proof/Machine/ExecPower.lean ====
section
/-!
DEFINITION. The meanings of the rows of power, time and resets (chapter 16).
-/
namespace Sys2Proof.Machine

/-- POWER_ON (R392). -/
def execPowerOn (puf : List Byte) (s : State) : Out := .next (s.powerOn puf)

/-- BROWN_OUT (R392). -/
def execBrownOut (s : State) : Out := .next (s.shutdown 2)

/-- OVER_VOLTAGE (R392). -/
def execOverVoltage (s : State) : Out := .next (s.shutdown 3)

/-- INPUT_LOW (R392). -/
def execInputLow (s : State) : Out := .next (s.inputLow)

/-- INPUT_HIGH (R392). -/
def execInputHigh (s : State) : Out := .next (s.inputHigh)

/-- THERMAL_TRIP (R397). -/
def execThermalTrip (sensor : Sensor) (temp : Int) (s : State) : Out := .next (s.thermalTrip sensor temp)

/-- ARBITER_WINDOW (R399). -/
def execArbiterWindow (m : PowerSample) (s : State) : Out := .next (s.arbiterWindow m)

/-- PWR_SETPOINT_WRITE (R395). -/
def execPwrSetpointWrite (data : W32) (s : State) : Out := .next (s.regWrite 0x20000C 4 data.toNat)

/-- PWR_LIMIT_WRITE (R398). -/
def execPwrLimitWrite (data : W32) (s : State) : Out := .next (s.regWrite 0x200010 4 data.toNat)

/-- POSTED_WRITE_APPLY (R430). -/
def execPostedWriteApply (blk : Fin 3) (s : State) : Out := .next (s.postApply blk.val)

/-- ENGINE_RESET (R412). -/
def execEngineReset (mask : BitVec 6) (s : State) : Out := .next (s.barDo fun s => s.engineReset mask.toNat)

/-- ENGINE_RESET_DONE (R412). -/
def execEngineResetDone (e : Fin 6) (s : State) : Out := .next (s.engineResetDone e.val)

/-- READY (R411). -/
def execReady (s : State) : Out := .next (s.barDo State.becomeReady)

/-- TIER_SELF_REFRESH_RETURN (R405). -/
def execTierSelfRefreshReturn (cap : Bool) (s : State) : Out := .next (s.tierReturn cap)

/-- OSCILLATOR_FAIL (R401). -/
def execOscillatorFail (s : State) : Out := .next (s.oscillatorFail)

/-- START_UP_END (R326). -/
def execStartUpEnd (res : StartResult) (s : State) : Out := .next (s.startUpEnd res)

/-- INPUT_RESTORED (R392). -/
def execInputRestored (s : State) : Out := .next (s.inputRestored)

/-- HOT_C_REACHED (R397). -/
def execHotCReached (sensor : Sensor) (temp : Int) (s : State) : Out := .next (s.hotReached sensor temp)

end Sys2Proof.Machine
end

