-- ==== Sys2Proof/Machine/ExecRegister.lean ====
section
/-!
DEFINITION. The meanings of the rows of register writes and action bits (chapter 17 and the register maps).
-/
namespace Sys2Proof.Machine

/-- MAT_NF_CLR (R416). -/
def execMatNfClr (s : State) : Out := .next (s.barDo State.matNfClr)

/-- VEC_NF_CLR (R416). -/
def execVecNfClr (s : State) : Out := .next (s.barDo State.vecNfClr)

/-- NBU_NF_CLR (R416). -/
def execNbuNfClr (s : State) : Out := .next (s.barDo State.nbuNfClr)

/-- XCH_NF_CLR (R416). -/
def execXchNfClr (s : State) : Out := .next (s.barDo State.xchNfClr)

/-- ITK_NF_CLR (R416). -/
def execItkNfClr (s : State) : Out := .next (s.barDo State.itkNfClr)

/-- ITK_PEAK_CLR (R416). -/
def execItkPeakClr (s : State) : Out := .next (s.barDo State.itkPeakClr)

/-- ITK_CACHE_REGION_WRITE (R301). -/
def execItkCacheRegionWrite (data : W32) (s : State) : Out := .next (s.regWrite 0xE0000C 4 data.toNat)

/-- STATUS_SEQ_CLEAR (R419). -/
def execStatusSeqClear (off : Nat) (data : W32) (s : State) : Out := .next (s.seqWrite off data.toNat)

/-- COUNT_SEQ_CLEAR (R421). -/
def execCountSeqClear (off : Nat) (data : W32) (s : State) : Out := .next (s.countWrite off data.toNat)

/-- REGISTER_WRITE (R311, R415): an access of the host to BAR0 or to the configuration space. -/
def execRegisterWrite (off size : Nat) (acc : HostAccess) (s : State) : Out := .next (s.hostAccess off size acc)

end Sys2Proof.Machine
end

