-- ==== Sys2Proof/Machine/Dispatch.lean ====
section
/-!
DEFINITION. One arm per command: a direct call of its meaning.
-/
namespace Sys2Proof.Machine

/-- The effect of a command on everything but the queue of waiting commands. -/
def exec (i : Instr) (s : State) : Host.Outcome State Fault Refusal :=
  match i with
  | .nop q => Sys2Proof.Machine.execNop q s
  | .writeImm q => Sys2Proof.Machine.execWriteImm q s
  | .tokenSet q => Sys2Proof.Machine.execTokenSet q s
  | .slipAcquire q => Sys2Proof.Machine.execSlipAcquire q s
  | .slipPublish q => Sys2Proof.Machine.execSlipPublish q s
  | .slipWait q => Sys2Proof.Machine.execSlipWait q s
  | .slipRelease q => Sys2Proof.Machine.execSlipRelease q s
  | .mmProduct q => Sys2Proof.Machine.execMmProduct q s
  | .mmCombine q => Sys2Proof.Machine.execMmCombine q s
  | .mmAccOpen q => Sys2Proof.Machine.execMmAccOpen q s
  | .mmAccFlush q => Sys2Proof.Machine.execMmAccFlush q s
  | .vxConvert q => Sys2Proof.Machine.execVxConvert q s
  | .vxEltwise q => Sys2Proof.Machine.execVxEltwise q s
  | .vxReduce q => Sys2Proof.Machine.execVxReduce q s
  | .vxNorm q => Sys2Proof.Machine.execVxNorm q s
  | .vxSoftmax q => Sys2Proof.Machine.execVxSoftmax q s
  | .vxOptDelayed q => Sys2Proof.Machine.execVxOptDelayed q s
  | .vecRowIssue d => Sys2Proof.Machine.execVecRowIssue d s
  | .vecRowEnd d flt => Sys2Proof.Machine.execVecRowEnd d flt s
  | .quadrantWake d => Sys2Proof.Machine.execQuadrantWake d s
  | .nbFerry q => Sys2Proof.Machine.execNbFerry q s
  | .nbOptimize q => Sys2Proof.Machine.execNbOptimize q s
  | .nbAttend q => Sys2Proof.Machine.execNbAttend q s
  | .nbRepair q => Sys2Proof.Machine.execNbRepair q s
  | .rowIndexIssue st => Sys2Proof.Machine.execRowIndexIssue st s
  | .rowOperationEnd u flt => Sys2Proof.Machine.execRowOperationEnd u flt s
  | .repairMapSwitch st => Sys2Proof.Machine.execRepairMapSwitch st s
  | .ttCopy q => Sys2Proof.Machine.execTtCopy q s
  | .ttFill q => Sys2Proof.Machine.execTtFill q s
  | .ttRegionSet q => Sys2Proof.Machine.execTtRegionSet q s
  | .ttRegionClear q => Sys2Proof.Machine.execTtRegionClear q s
  | .ttRegionHint q => Sys2Proof.Machine.execTtRegionHint q s
  | .ttPlace q => Sys2Proof.Machine.execTtPlace q s
  | .ttTollSet q => Sys2Proof.Machine.execTtTollSet q s
  | .ttTollClose q => Sys2Proof.Machine.execTtTollClose q s
  | .ttFordSet q => Sys2Proof.Machine.execTtFordSet q s
  | .ttFordStep q => Sys2Proof.Machine.execTtFordStep q s
  | .ttFordEnd q => Sys2Proof.Machine.execTtFordEnd q s
  | .ttCompress q flt => Sys2Proof.Machine.execTtCompress q flt s
  | .ttRetire q => Sys2Proof.Machine.execTtRetire q s
  | .ttTide q flt => Sys2Proof.Machine.execTtTide q flt s
  | .backgroundMoveStart page => Sys2Proof.Machine.execBackgroundMoveStart page s
  | .pageMoveSwitch page => Sys2Proof.Machine.execPageMoveSwitch page s
  | .accessCounterHalving => Sys2Proof.Machine.execAccessCounterHalving s
  | .xcReduce q flt => Sys2Proof.Machine.execXcReduce q flt s
  | .xcReduceComp q flt => Sys2Proof.Machine.execXcReduceComp q flt s
  | .xcGather q => Sys2Proof.Machine.execXcGather q s
  | .xcBroadcast q => Sys2Proof.Machine.execXcBroadcast q s
  | .xcAttnCombine q flt => Sys2Proof.Machine.execXcAttnCombine q flt s
  | .xcRankSet q => Sys2Proof.Machine.execXcRankSet q s
  | .peerTimeout g => Sys2Proof.Machine.execPeerTimeout g s
  | .ikBatch q => Sys2Proof.Machine.execIkBatch q s
  | .ikVocabLoad q => Sys2Proof.Machine.execIkVocabLoad q s
  | .ikCacheFlush q => Sys2Proof.Machine.execIkCacheFlush q s
  | .decodeStart lane => Sys2Proof.Machine.execDecodeStart lane s
  | .decodeEnd lane => Sys2Proof.Machine.execDecodeEnd lane s
  | .stagingReserve lane => Sys2Proof.Machine.execStagingReserve lane s
  | .transformSample flt => Sys2Proof.Machine.execTransformSample flt s
  | .roiPoll => Sys2Proof.Machine.execRoiPoll s
  | .entryTake q => Sys2Proof.Machine.execEntryTake q s
  | .hostRingPoll q => Sys2Proof.Machine.execHostRingPoll q s
  | .listFetch q => Sys2Proof.Machine.execListFetch q s
  | .commandDispatch q => Sys2Proof.Machine.execCommandDispatch q s
  | .commandComplete q => Sys2Proof.Machine.execCommandComplete q s
  | .queueTimeout q => Sys2Proof.Machine.execQueueTimeout q s
  | .resumeNext q => Sys2Proof.Machine.execResumeNext q s
  | .dropList q => Sys2Proof.Machine.execDropList q s
  | .queueReset q => Sys2Proof.Machine.execQueueReset q s
  | .queueEnable q => Sys2Proof.Machine.execQueueEnable q s
  | .queueDisable q => Sys2Proof.Machine.execQueueDisable q s
  | .dispatchHold en => Sys2Proof.Machine.execDispatchHold en s
  | .cqfPeakClr => Sys2Proof.Machine.execCqfPeakClr s
  | .slipwayEnable sl en => Sys2Proof.Machine.execSlipwayEnable sl en s
  | .berthOpen b => Sys2Proof.Machine.execBerthOpen b s
  | .berthClose b => Sys2Proof.Machine.execBerthClose b s
  | .landingBufferGrant => Sys2Proof.Machine.execLandingBufferGrant s
  | .transferTagGrant pool => Sys2Proof.Machine.execTransferTagGrant pool s
  | .workItemIssue c => Sys2Proof.Machine.execWorkItemIssue c s
  | .workItemComplete c flt => Sys2Proof.Machine.execWorkItemComplete c flt s
  | .clusterWake c => Sys2Proof.Machine.execClusterWake c s
  | .matNfClr => Sys2Proof.Machine.execMatNfClr s
  | .vecNfClr => Sys2Proof.Machine.execVecNfClr s
  | .nbuNfClr => Sys2Proof.Machine.execNbuNfClr s
  | .xchNfClr => Sys2Proof.Machine.execXchNfClr s
  | .itkNfClr => Sys2Proof.Machine.execItkNfClr s
  | .itkPeakClr => Sys2Proof.Machine.execItkPeakClr s
  | .itkCacheRegionWrite data => Sys2Proof.Machine.execItkCacheRegionWrite data s
  | .frameTransmit p => Sys2Proof.Machine.execFrameTransmit p s
  | .frameReceive p bytes => Sys2Proof.Machine.execFrameReceive p bytes s
  | .replayTimeout p => Sys2Proof.Machine.execReplayTimeout p s
  | .nakRepeat p => Sys2Proof.Machine.execNakRepeat p s
  | .lockLoss p => Sys2Proof.Machine.execLockLoss p s
  | .retrainDone p ok => Sys2Proof.Machine.execRetrainDone p ok s
  | .retrainTimeout p => Sys2Proof.Machine.execRetrainTimeout p s
  | .portLock p => Sys2Proof.Machine.execPortLock p s
  | .trainingTimeout p => Sys2Proof.Machine.execTrainingTimeout p s
  | .failedRetry p => Sys2Proof.Machine.execFailedRetry p s
  | .versionRetry p => Sys2Proof.Machine.execVersionRetry p s
  | .versionOffer p => Sys2Proof.Machine.execVersionOffer p s
  | .versionAccept p => Sys2Proof.Machine.execVersionAccept p s
  | .linkNotice p => Sys2Proof.Machine.execLinkNotice p s
  | .drainTimeout p => Sys2Proof.Machine.execDrainTimeout p s
  | .write p => Sys2Proof.Machine.execWrite p s
  | .read p => Sys2Proof.Machine.execRead p s
  | .completion p => Sys2Proof.Machine.execCompletion p s
  | .refusal p => Sys2Proof.Machine.execRefusal p s
  | .segment p flt => Sys2Proof.Machine.execSegment p flt s
  | .abortSegment p => Sys2Proof.Machine.execAbortSegment p s
  | .notice p => Sys2Proof.Machine.execNotice p s
  | .lsa p => Sys2Proof.Machine.execLsa p s
  | .idGrant p => Sys2Proof.Machine.execIdGrant p s
  | .cplTimeout tag => Sys2Proof.Machine.execCplTimeout tag s
  | .lsaRefresh => Sys2Proof.Machine.execLsaRefresh s
  | .lsaExpiry serial => Sys2Proof.Machine.execLsaExpiry serial s
  | .databaseSettled => Sys2Proof.Machine.execDatabaseSettled s
  | .fabRtShadowWrite data => Sys2Proof.Machine.execFabRtShadowWrite data s
  | .swap => Sys2Proof.Machine.execSwap s
  | .copy => Sys2Proof.Machine.execCopy s
  | .copyDone => Sys2Proof.Machine.execCopyDone s
  | .portReset p => Sys2Proof.Machine.execPortReset p s
  | .fabIdCfgWrite data => Sys2Proof.Machine.execFabIdCfgWrite data s
  | .gangwayRead off len => Sys2Proof.Machine.execGangwayRead off len s
  | .gangwayWrite off bytes => Sys2Proof.Machine.execGangwayWrite off bytes s
  | .hifGwBaseHiWrite data => Sys2Proof.Machine.execHifGwBaseHiWrite data s
  | .hifLlTimeoutWrite data => Sys2Proof.Machine.execHifLlTimeoutWrite data s
  | .hostCompletion q res => Sys2Proof.Machine.execHostCompletion q res s
  | .hostCompletionTimeout q => Sys2Proof.Machine.execHostCompletionTimeout q s
  | .msixEnable => Sys2Proof.Machine.execMsixEnable s
  | .dlDown => Sys2Proof.Machine.execDlDown s
  | .dlUp link => Sys2Proof.Machine.execDlUp link s
  | .linkLossTimeout => Sys2Proof.Machine.execLinkLossTimeout s
  | .perstAssert => Sys2Proof.Machine.execPerstAssert s
  | .perstDeassert => Sys2Proof.Machine.execPerstDeassert s
  | .hotReset => Sys2Proof.Machine.execHotReset s
  | .linkDisable => Sys2Proof.Machine.execLinkDisable s
  | .functionLevelReset => Sys2Proof.Machine.execFunctionLevelReset s
  | .d3hotEntry => Sys2Proof.Machine.execD3hotEntry s
  | .d3hotExit => Sys2Proof.Machine.execD3hotExit s
  | .mailboxTake => Sys2Proof.Machine.execMailboxTake s
  | .towpathRequest bytes => Sys2Proof.Machine.execTowpathRequest bytes s
  | .entdaa addr => Sys2Proof.Machine.execEntdaa addr s
  | .setEndpointId eid => Sys2Proof.Machine.execSetEndpointId eid s
  | .getEndpointId => Sys2Proof.Machine.execGetEndpointId s
  | .getMctpVersionSupport type => Sys2Proof.Machine.execGetMctpVersionSupport type s
  | .getMessageTypeSupport => Sys2Proof.Machine.execGetMessageTypeSupport s
  | .getVendorDefinedMsgSupport sel => Sys2Proof.Machine.execGetVendorDefinedMsgSupport sel s
  | .echo => Sys2Proof.Machine.execEcho s
  | .attach => Sys2Proof.Machine.execAttach s
  | .getInfo => Sys2Proof.Machine.execGetInfo s
  | .supplementLoad => Sys2Proof.Machine.execSupplementLoad s
  | .supplementStatus => Sys2Proof.Machine.execSupplementStatus s
  | .fwRestart => Sys2Proof.Machine.execFwRestart s
  | .logRead => Sys2Proof.Machine.execLogRead s
  | .telemetry => Sys2Proof.Machine.execTelemetry s
  | .attestReport => Sys2Proof.Machine.execAttestReport s
  | .attestExtend => Sys2Proof.Machine.execAttestExtend s
  | .attestClear => Sys2Proof.Machine.execAttestClear s
  | .certRead => Sys2Proof.Machine.execCertRead s
  | .powerStateRun => Sys2Proof.Machine.execPowerStateRun s
  | .powerStateSlackWater => Sys2Proof.Machine.execPowerStateSlackWater s
  | .powerStateDeepOff => Sys2Proof.Machine.execPowerStateDeepOff s
  | .deepOffBegin => Sys2Proof.Machine.execDeepOffBegin s
  | .powerLimit => Sys2Proof.Machine.execPowerLimit s
  | .errHistoryRead => Sys2Proof.Machine.execErrHistoryRead s
  | .errHistoryAdd => Sys2Proof.Machine.execErrHistoryAdd s
  | .historyWriteDone => Sys2Proof.Machine.execHistoryWriteDone s
  | .margin lo hi => Sys2Proof.Machine.execMargin lo hi s
  | .configUpdate => Sys2Proof.Machine.execConfigUpdate s
  | .watchdogExpiry => Sys2Proof.Machine.execWatchdogExpiry s
  | .mgtRestart discard => Sys2Proof.Machine.execMgtRestart discard s
  | .coreFault kind => Sys2Proof.Machine.execCoreFault kind s
  | .firmwareRestartDone => Sys2Proof.Machine.execFirmwareRestartDone s
  | .wdtKick => Sys2Proof.Machine.execWdtKick s
  | .scrubRead cap upset elsewhere => Sys2Proof.Machine.execScrubRead cap upset elsewhere s
  | .crcScan => Sys2Proof.Machine.execCrcScan s
  | .cfgCrcRefHiWrite data => Sys2Proof.Machine.execCfgCrcRefHiWrite data s
  | .adopt => Sys2Proof.Machine.execAdopt s
  | .voteScan upset => Sys2Proof.Machine.execVoteScan upset s
  | .qualWrite on => Sys2Proof.Machine.execQualWrite on s
  | .out unit => Sys2Proof.Machine.execOut unit s
  | .requalify unit => Sys2Proof.Machine.execRequalify unit s
  | .admitUnit unit => Sys2Proof.Machine.execAdmitUnit unit s
  | .requalificationEnd unit res => Sys2Proof.Machine.execRequalificationEnd unit res s
  | .pseudoChannelLockLoss n => Sys2Proof.Machine.execPseudoChannelLockLoss n s
  | .powerOn puf => Sys2Proof.Machine.execPowerOn puf s
  | .brownOut => Sys2Proof.Machine.execBrownOut s
  | .overVoltage => Sys2Proof.Machine.execOverVoltage s
  | .inputLow => Sys2Proof.Machine.execInputLow s
  | .inputHigh => Sys2Proof.Machine.execInputHigh s
  | .thermalTrip sensor temp => Sys2Proof.Machine.execThermalTrip sensor temp s
  | .arbiterWindow m => Sys2Proof.Machine.execArbiterWindow m s
  | .pwrSetpointWrite data => Sys2Proof.Machine.execPwrSetpointWrite data s
  | .pwrLimitWrite data => Sys2Proof.Machine.execPwrLimitWrite data s
  | .postedWriteApply blk => Sys2Proof.Machine.execPostedWriteApply blk s
  | .engineReset mask => Sys2Proof.Machine.execEngineReset mask s
  | .engineResetDone e => Sys2Proof.Machine.execEngineResetDone e s
  | .ready => Sys2Proof.Machine.execReady s
  | .tierSelfRefreshReturn cap => Sys2Proof.Machine.execTierSelfRefreshReturn cap s
  | .oscillatorFail => Sys2Proof.Machine.execOscillatorFail s
  | .statusSeqClear off data => Sys2Proof.Machine.execStatusSeqClear off data s
  | .countSeqClear off data => Sys2Proof.Machine.execCountSeqClear off data s
  | .registerWrite off size acc => Sys2Proof.Machine.execRegisterWrite off size acc s
  | .portEnableWrite p en => Sys2Proof.Machine.execPortEnableWrite p en s
  | .msixUnmask vec => Sys2Proof.Machine.execMsixUnmask vec s
  | .startUpEnd res => Sys2Proof.Machine.execStartUpEnd res s
  | .inputRestored => Sys2Proof.Machine.execInputRestored s
  | .hotCReached sensor temp => Sys2Proof.Machine.execHotCReached sensor temp s
  | .weirWrite b data => Sys2Proof.Machine.execWeirWrite b data s
  | .cqfConfigWrite off data => Sys2Proof.Machine.execCqfConfigWrite off data s
  | .intakeDomainWake => Sys2Proof.Machine.execIntakeDomainWake s

end Sys2Proof.Machine
end

