-- ==== Sys2Proof/WellFormed.lean ====
section
/-!
DEFINITION. Which commands name an event the spec admits: sizes and ranges of operands that their types leave open.
-/
namespace Sys2Proof

/-- The LENGTH field of a management message (Table 13.1): bytes 8 to 11. -/
def lengthField (bs : List Byte) : Nat :=
  (bs.getD 8 0).toNat + 256 * (bs.getD 9 0).toNat + 65536 * (bs.getD 10 0).toNat + 16777216 * (bs.getD 11 0).toNat

/-- A configuration the function admits (Table 12.1): Max Payload Size 128, 256 or 512 bytes; a Completion Timeout Value
of ranges A to D. -/
def PciConf.wf (c : PciConf) : Bool := [128, 256, 512].contains c.mps && [0, 1, 2, 5, 6, 9, 10, 13, 14].contains c.cplRange

/-- A link that can come up (R307, R308): rates 1 to 7, widths x4, x8 and x16, FLIT mode from 64 GT/s on. -/
def LinkInfo.wf (l : LinkInfo) : Bool :=
  decide (1 ≤ l.rate) && decide (l.rate ≤ 7) && [4, 8, 16].contains l.width && (l.flit || decide (l.rate < 6)) && l.conf.wf

/-- An access that a host can make: one that stays in BAR0 and a configuration the function admits. -/
def HostAccess.wf (off size : Nat) : HostAccess → Bool
  | .write data => decide (0 < size) && decide (size ≤ 512) && decide (off + size ≤ 2 ^ 25) && decide (data < 256 ^ size)
  | .read => decide (0 < size) && decide (size ≤ 4096) && decide (off + size ≤ 2 ^ 25)
  | .configWrite _ conf _ => conf.wf
  | .msixWrite _ _ => true
  | .configRead => decide (off < 4096)

/-- A factory record's values have the sizes their sections give them (R432). -/
def FactoryRecord.wf (r : FactoryRecord) : Bool :=
  r.pciId.length == 4 && r.measurement.length == 64 && r.cert.length == 5325 &&
  (match r.check with
    | some c => c.length == 32
    | none => true)

/-- The commands whose operands are of a size the spec admits. -/
def Instr.wf : Instr → Bool
  | .frameReceive _ bytes => bytes.length == 896
  | .gangwayRead off len => decide (0 < len) && decide (off + len ≤ 2 ^ 28)
  | .gangwayWrite off bytes => decide (0 < bytes.length) && decide (off + bytes.length ≤ 2 ^ 28)
  | .towpathRequest bytes =>
    decide (64 ≤ bytes.length) && decide (bytes.length ≤ 4096) &&
    (decide (4032 < lengthField bytes) || bytes.length == 64 + lengthField bytes)
  | .registerWrite off size acc => acc.wf off size
  | .dlUp link => link.wf
  | .powerOn puf => puf.length == 32
  | .startUpEnd res =>
    match res.record with
    | some r => r.wf
    | none => true
  | .scrubRead cap upset elsewhere => (upset.all fun e => decide (e.1 < if cap then 72 else 36)) &&
    elsewhere.all fun e => decide (e.1 < 2 ^ 41) && decide (e.2.1 < 72)
  | _ => true

end Sys2Proof
end

