-- ==== Sys2Proof/Safety.lean ====
section
/-!
DEFINITION. What the statements call a legal state, a safe run and a frame: the memory keeps its canonical form, every
waiting command is well-formed, no step stops; and which blocks of the state a command may change.
-/
namespace Sys2Proof.Machine

/-- The cells of the local memory are in canonical form: addresses strictly rising, no cell at its unlisted value. -/
def Mem.wf (m : Mem) : Bool := twf zeroB m.cells

/-- Every command that waits is well-formed. -/
def State.queueWf (s : State) : Bool := s.pending.all Instr.wf

/-- k steps from s end in a next state each. -/
def SafeRun : Nat → State → Prop
  | 0, _ => True
  | k + 1, s => ∃ t, step s = .next t ∧ SafeRun k t

/-- A block of the state, as a frame names it. The three copies of the control registers (R423) count as one. -/
inductive Piece where
  | regs | stats | ctrs | cqf | mem | hif | mgt | sec | err | flash | cfg | pwr | mat | vec | nbu | xch | fab | itk | draws
  | pending
  deriving DecidableEq, Repr

/-- A block is the same in two states. -/
def Piece.same (s t : State) : Piece → Prop
  | .regs => t.regs = s.regs ∧ t.regs1 = s.regs1 ∧ t.regs2 = s.regs2
  | .stats => t.stats = s.stats
  | .ctrs => t.ctrs = s.ctrs
  | .cqf => t.cqf = s.cqf
  | .mem => t.mem = s.mem
  | .hif => t.hif = s.hif
  | .mgt => t.mgt = s.mgt
  | .sec => t.sec = s.sec
  | .err => t.err = s.err
  | .flash => t.flash = s.flash
  | .cfg => t.cfg = s.cfg
  | .pwr => t.pwr = s.pwr
  | .mat => t.mat = s.mat
  | .vec => t.vec = s.vec
  | .nbu => t.nbu = s.nbu
  | .xch => t.xch = s.xch
  | .fab => t.fab = s.fab
  | .itk => t.itk = s.itk
  | .draws => t.draws = s.draws
  | .pending => t.pending = s.pending

/-- A frame: t differs from s at most in the blocks listed. -/
def OnlyChanges (ps : List Piece) (s t : State) : Prop := ∀ p, p ∉ ps → p.same s t

/-- The byte at a local address as an engine reads it where nothing is packed: zero on a page whose zero mark is set. -/
def Mem.dataByte (m : Mem) (a : Nat) : Byte := if tget noFlag m.zero (a / pageBytes) then 0 else tget zeroB m.cells a

/-- No page of n bytes at a carries a zero mark or is packed. -/
def Mem.plain (m : Mem) (a n : Nat) : Bool := (pagesOf a n).all fun x => !tget noFlag m.zero x && !tget noFlag m.packed x

/-- The invariant of every step: canonical memory and a queue of well-formed commands. -/
def Inv (s : State) : Bool := s.mem.wf && s.queueWf

/-- A word of BAR0 at which nothing is implemented (R9): no register, no half of one, no window. -/
def reservedAt (off : Nat) : Bool :=
  ([(0x440000, 0x448100), (0xF10000, 0xF12000), (0xF20000, 0xF30000), (0x1110000, 0x1112000)] : List (Nat × Nat)).all
    (fun w => !(decide (w.1 ≤ off) && decide (off < w.2))) &&
  (regAt off).isNone && (decide (off < 4) || !((regAt (off - 4)).any fun a => a.reg.wide))

/-- The blocks of the state that a command may change. -/
def touches : Instr → List Piece
  | .nop _ | .tokenSet _ => [.cqf]
  | .writeImm _ | .ttCopy _ | .ttFill _ | .ttFordSet _ | .entryTake _ | .hostRingPoll _ | .listFetch _
  | .resumeNext _ | .write _ => [.stats, .ctrs, .cqf, .mem, .hif, .err, .fab, .draws]
  | .slipAcquire _ | .slipPublish _ | .slipWait _ | .slipRelease _ => [.stats, .cqf]
  | .mmProduct _ | .mmCombine _ | .mmAccOpen _ | .mmAccFlush _ | .workItemComplete _ _ =>
    [.stats, .ctrs, .cqf, .mem, .hif, .err, .mat, .fab, .draws]
  | .vxConvert _ | .vxEltwise _ | .vxReduce _ | .vxNorm _ | .vxSoftmax _ | .vxOptDelayed _ | .vecRowEnd _ _ =>
    [.stats, .ctrs, .cqf, .mem, .hif, .err, .vec, .fab, .draws]
  | .vecRowIssue _ | .quadrantWake _ => [.vec]
  | .nbFerry _ | .nbOptimize _ | .nbAttend _ | .rowIndexIssue _ | .rowOperationEnd _ _ =>
    [.stats, .ctrs, .cqf, .mem, .hif, .err, .nbu, .fab, .draws]
  | .nbRepair _ | .repairMapSwitch _ => [.stats, .ctrs, .cqf, .mem, .hif, .err, .nbu]
  | .ttRegionSet _ | .ttRegionHint _ | .ttPlace _ | .ttFordStep _ | .ttRetire _ | .pageMoveSwitch _ =>
    [.stats, .ctrs, .cqf, .mem, .hif, .err]
  | .ttRegionClear _ | .ttTollSet _ | .ttTollClose _ | .ttFordEnd _ => [.cqf, .mem]
  | .ttCompress _ _ | .ttTide _ _ => [.stats, .ctrs, .cqf, .mem, .hif, .err, .draws]
  | .backgroundMoveStart _ => [.stats, .mem, .hif]
  | .accessCounterHalving | .tierSelfRefreshReturn _ => [.mem]
  | .xcReduce _ _ | .xcReduceComp _ _ | .xcGather _ | .xcBroadcast _ | .xcAttnCombine _ _ | .xcRankSet _
  | .segment _ _ | .abortSegment _ => [.stats, .ctrs, .cqf, .mem, .hif, .err, .xch, .fab, .draws]
  | .peerTimeout _ => [.stats, .ctrs, .cqf, .hif, .xch]
  | .ikBatch _ | .ikVocabLoad _ | .stagingReserve _ | .transformSample _ | .roiPoll =>
    [.stats, .ctrs, .cqf, .mem, .hif, .err, .fab, .itk, .draws]
  | .ikCacheFlush _ => [.cqf, .itk]
  | .decodeStart _ | .intakeDomainWake => [.itk]
  | .decodeEnd _ => [.stats, .ctrs, .mem, .hif, .err, .itk, .draws]
  | .commandDispatch _ => [.regs, .stats, .ctrs, .cqf, .hif, .err, .mat, .xch]
  | .commandComplete _ => [.stats, .ctrs, .cqf, .mem, .hif, .err, .pwr, .mat, .vec, .nbu, .xch, .fab, .itk, .draws]
  | .queueTimeout _ => [.stats, .ctrs, .cqf, .mem, .hif, .err, .mat, .vec, .nbu, .xch, .itk, .draws]
  | .dropList _ | .cqfPeakClr => [.cqf, .hif, .draws]
  | .queueReset _ => [.regs, .stats, .ctrs, .cqf, .mem, .hif, .err, .cfg, .mat, .vec, .nbu, .xch, .fab, .itk, .draws]
  | .queueEnable _ => [.regs, .stats, .ctrs, .cqf, .mem, .hif, .err, .cfg, .draws]
  | .queueDisable _ => [.regs, .stats, .ctrs, .cqf, .mem, .hif, .err, .cfg, .fab, .draws]
  | .dispatchHold _ => [.regs, .hif, .cfg, .draws]
  | .slipwayEnable _ _ => [.regs, .stats, .cqf, .hif, .cfg, .draws]
  | .berthOpen _ | .qualWrite _ | .weirWrite _ _ => [.regs, .stats, .hif, .cfg, .draws]
  | .berthClose _ => [.regs, .stats, .cqf, .hif, .cfg, .xch, .fab, .draws]
  | .landingBufferGrant => [.stats, .cqf, .hif, .fab]
  | .transferTagGrant _ | .frameTransmit _ | .refusal _ | .cplTimeout _ | .hostCompletion _ _
  | .hostCompletionTimeout _ | .dlDown => [.stats, .ctrs, .cqf, .mem, .hif, .err, .mat, .vec, .nbu, .xch, .fab, .itk, .draws]
  | .workItemIssue _ => [.stats, .cqf, .hif, .mat]
  | .clusterWake _ => [.mat]
  | .matNfClr | .vecNfClr | .nbuNfClr | .xchNfClr | .itkNfClr => [.ctrs, .hif, .draws]
  | .itkPeakClr => [.hif, .itk, .draws]
  | .itkCacheRegionWrite _ | .fabRtShadowWrite _ | .fabIdCfgWrite _ | .hifGwBaseHiWrite _ | .hifLlTimeoutWrite _
  | .cfgCrcRefHiWrite _ | .pwrSetpointWrite _ | .pwrLimitWrite _ | .statusSeqClear _ _ | .countSeqClear _ _
  | .registerWrite _ _ _ | .cqfConfigWrite _ _ =>
    [.regs, .stats, .ctrs, .cqf, .mem, .hif, .mgt, .err, .cfg, .pwr, .mat, .vec, .nbu, .xch, .fab, .itk, .draws]
  | .frameReceive _ _ | .lockLoss _ | .retrainDone _ _ | .retrainTimeout _ | .trainingTimeout _ | .linkNotice _
  | .drainTimeout _ => [.stats, .ctrs, .cqf, .hif, .err, .fab]
  | .replayTimeout _ | .portLock _ | .failedRetry _ | .versionRetry _ | .versionOffer _ | .versionAccept _ =>
    [.stats, .ctrs, .hif, .err, .fab]
  | .nakRepeat _ | .notice _ | .copyDone => [.fab]
  | .read _ => [.stats, .ctrs, .mem, .hif, .err, .fab, .draws]
  | .completion _ => [.ctrs, .cqf, .hif, .fab]
  | .lsa _ | .lsaRefresh | .lsaExpiry _ => [.stats, .hif, .fab]
  | .idGrant _ => [.regs, .stats, .ctrs, .hif, .err, .fab]
  | .databaseSettled => [.regs, .stats, .ctrs, .hif, .mgt, .err, .pwr, .fab]
  | .swap | .portReset _ => [.stats, .ctrs, .hif, .err, .fab, .draws]
  | .copy => [.hif, .fab, .draws]
  | .gangwayRead _ _ | .gangwayWrite _ _ => [.stats, .ctrs, .mem, .hif, .err, .draws]
  | .msixEnable | .perstDeassert | .msixUnmask _ => [.hif]
  | .dlUp _ => [.stats, .cqf, .hif]
  | .linkLossTimeout | .perstAssert | .hotReset | .linkDisable | .functionLevelReset | .crcScan | .engineResetDone _ =>
    [.regs, .stats, .ctrs, .cqf, .mem, .hif, .mgt, .sec, .err, .cfg, .pwr, .mat, .vec, .nbu, .xch, .fab, .itk, .draws]
  | .d3hotEntry => [.stats, .ctrs, .cqf, .mem, .hif, .err, .pwr, .mat, .xch, .fab]
  | .d3hotExit => [.cqf, .mem, .pwr]
  | .mailboxTake | .towpathRequest _ | .echo | .attach | .getInfo | .supplementStatus | .logRead | .attestReport
  | .certRead | .errHistoryRead => [.stats, .ctrs, .hif, .mgt]
  | .entdaa _ => [.cfg]
  | .setEndpointId _ => [.mgt, .cfg]
  | .getEndpointId | .getMessageTypeSupport => [.mgt]
  | .getMctpVersionSupport _ | .getVendorDefinedMsgSupport _ => [.mgt, .draws]
  | .supplementLoad => [.stats, .ctrs, .mem, .hif, .mgt, .sec, .err, .pwr, .fab, .draws]
  | .fwRestart | .errHistoryAdd | .watchdogExpiry => [.stats, .ctrs, .hif, .mgt, .err]
  | .telemetry | .margin _ _ => [.stats, .ctrs, .hif, .mgt, .draws]
  | .attestExtend => [.stats, .ctrs, .mem, .hif, .mgt, .sec, .err, .draws]
  | .attestClear => [.stats, .ctrs, .hif, .mgt, .sec]
  | .powerStateRun => [.stats, .ctrs, .mem, .hif, .mgt, .pwr]
  | .powerStateSlackWater => [.stats, .ctrs, .cqf, .mem, .hif, .mgt, .err, .pwr, .mat, .xch, .fab]
  | .powerStateDeepOff => [.stats, .ctrs, .hif, .mgt, .pwr]
  | .deepOffBegin | .brownOut | .overVoltage | .thermalTrip _ _ =>
    [.regs, .stats, .ctrs, .cqf, .mem, .hif, .mgt, .sec, .err, .cfg, .pwr, .mat, .vec, .nbu, .xch, .fab, .itk]
  | .powerLimit => [.regs, .stats, .ctrs, .hif, .mgt, .cfg]
  | .historyWriteDone => [.stats, .ctrs, .hif, .mgt, .err, .flash]
  | .configUpdate => [.stats, .ctrs, .mem, .hif, .mgt, .err, .flash, .cfg, .draws]
  | .mgtRestart _ | .coreFault _ => [.stats, .ctrs, .hif, .mgt, .err, .draws]
  | .firmwareRestartDone => [.regs, .stats, .ctrs, .hif, .mgt, .sec, .err, .fab, .draws]
  | .wdtKick => [.regs, .stats, .ctrs, .hif, .mgt, .err]
  | .scrubRead _ _ _ => [.stats, .ctrs, .mem, .hif, .err]
  | .adopt => [.hif, .cfg, .draws]
  | .voteScan _ => [.regs, .stats, .ctrs, .hif, .err, .cfg]
  | .out _ | .requalify _ | .admitUnit _ => [.stats, .ctrs, .hif, .err, .mat, .nbu, .draws]
  | .requalificationEnd _ _ => [.stats, .ctrs, .hif, .err, .mat, .nbu]
  | .pseudoChannelLockLoss _ => [.stats, .ctrs, .hif, .err]
  | .powerOn _ =>
    [.regs, .stats, .ctrs, .cqf, .mem, .hif, .mgt, .sec, .err, .flash, .cfg, .pwr, .mat, .vec, .nbu, .xch, .fab, .itk]
  | .inputLow | .inputHigh | .hotCReached _ _ => [.stats, .hif, .pwr]
  | .arbiterWindow _ => [.stats, .ctrs, .hif, .pwr]
  | .postedWriteApply _ => [.regs, .cfg, .pwr]
  | .engineReset _ => [.regs, .stats, .ctrs, .cqf, .mem, .hif, .err, .cfg, .pwr, .mat, .vec, .nbu, .xch, .fab, .itk, .draws]
  | .ready => [.stats, .ctrs, .hif, .mgt, .err, .pwr, .fab, .draws]
  | .oscillatorFail => [.stats, .ctrs, .hif, .err, .pwr, .draws]
  | .portEnableWrite _ _ => [.regs, .stats, .ctrs, .cqf, .hif, .err, .cfg, .fab, .draws]
  | .startUpEnd _ => [.regs, .stats, .ctrs, .mem, .hif, .mgt, .sec, .err, .flash, .cfg, .pwr, .mat, .nbu, .fab, .itk, .draws]
  | .inputRestored => [.pwr]

end Sys2Proof.Machine
end

