-- ==== Sys2Proof/Certificates/Slice0/Obligations.lean ====
section
/-!
DEFINITION. The statements for the provers: what each row of the table does, what it leaves alone, the rules of the registers, the
memory and the packets, the state after reset, and what every step keeps. "Shared operation" below means a definition of
Sys2Proof/Machine; a statement that names one says that the row does exactly what that operation does, on the state named.
-/
section
open Sys2Proof Sys2Proof.Machine

/-- The module right after reset, where the spec gives the value: PWR_SETPOINT 750, PWR_LIMIT 1200, HIF_LL_TIMEOUT 200,
CQF_POLL 10, TIR_BG_RATE 64, XCH_TIMEOUT 100, the watchdog period 100; every status and count zero; every queue DISABLED
with no command; every routing-table entry without a next hop; every MSI-X vector masked; no region, handle, collective,
batch, link-state entry or device key; READY clear, the link down, no command waiting. It rests on choices of the model: log
entries 3, 56. -/
def Obligations.ResetFacts : Prop :=
  State.reset.rd 0x20000C = 750 ∧ State.reset.rd 0x200010 = 1200 ∧ State.reset.rdT 0x400014 = 200 ∧ State.reset.rd 0x500004 = 10 ∧
  State.reset.rd 0x800008 = 64 ∧ State.reset.rd 0xC00008 = 100 ∧ State.reset.rdT 0x300010 = 100 ∧
  (∀ off, State.reset.stat off = 0 ∧ State.reset.ctr off = 0) ∧
  (∀ q, State.reset.q q = Queue.reset ∧ (State.reset.q q).state = .disabled ∧ (State.reset.q q).cmd = none) ∧
  (∀ d, tget rtReset State.reset.rtActive d = 0xFFFF ∧ tget rtReset State.reset.rtShadow d = 0xFFFF) ∧
  (∀ v, State.reset.vecMasked v = true) ∧
  State.reset.mem.cells = [] ∧ State.reset.mem.regions = [] ∧ State.reset.mat.handles = [] ∧ State.reset.xch.runs = [] ∧
  State.reset.itk.batches = [] ∧ State.reset.pwr.ready = false ∧ State.reset.hif.up = false ∧ State.reset.fab.db = [] ∧
  State.reset.sec.xi = [] ∧ State.reset.pending = []

/-- For every state with a command at the front of its queue, step is exec of that command on the state with the queue's
rest; with nothing waiting one oscillator period passes. It rests on choices of the model: log entry 2. -/
def Obligations.StepTakesTheFront : Prop :=
  (∀ (c : Instr) (rest : List Instr) (s : State), s.pending = c :: rest → step s = exec c { s with pending := rest }) ∧
  (∀ (s : State), s.pending = [] → step s = .next s.tick)

/-- The state right after reset meets the invariant: its local memory is in canonical form and every waiting command is
well-formed. -/
def Obligations.InvariantAtReset : Prop :=
  Inv State.reset = true

/-- From every state that meets the invariant, reached from reset or not, a step that answers a next state answers one that
meets it: the local memory stays in canonical form (addresses strictly rising, no byte listed at the value an unlisted one
reads as) and the commands that still wait stay well-formed. It rests on choices of the model: log entry 57. -/
def Obligations.InvariantKept : Prop :=
  ∀ s t : State, Inv s = true → step s = .next t → Inv t = true

/-- Each of the 210 commands, in every state and with every operand, ends in a next state: none faults and none is refused.
That state differs from the state before at most in the blocks that `touches` lists for the command: the control registers
with their three copies, the status registers, the counters, the front end, the local memory with its tables, the host
interface, management, security, error records, flash, configuration, power, the engines' own state, the fabric, the
free-value counter; the queue of waiting commands is in no list. So any number of steps from any state each end in a next
state. Within a block that is listed, the family's own statement gives the next state. It rests on choices of the model: log
entries 1, 2, 4. -/
def Obligations.CommandsComplete : Prop :=
  (∀ (c : Instr) (s : State), ∃ t, exec c s = .next t ∧ OnlyChanges (touches c) s t ∧ t.pending = s.pending) ∧
  (∀ (k : Nat) (s : State), SafeRun k s)

/-- R9, whole: a word of BAR0 at which nothing is implemented reads zero in every size, and neither a read nor a write of
it, of 4 bytes or of 8 over two such words, changes anything. The premise on the latch (R311) only rules out states no run
reaches: a latched half belongs to a register. That REGISTER_WRITE carries the reads of BAR0, which have no row of the table,
is the model's choice (log entry 15). -/
def Obligations.ReservedLocations : Prop :=
  ∀ (off : Nat) (s : State), reservedAt off = true → off % 4 = 0 → off + 8 ≤ 2 ^ 25 → s.barOpen = true →
    (∀ l, s.hif.latch = some l → l.1 ≠ off) →
    s.barWord off = 0 ∧
    (∀ o n, n = 1 ∨ n = 2 ∨ n = 4 → o % n = 0 → off ≤ o → o < off + 4 → exec (.registerWrite o n .read) s =
      .next { s with hif := { s.hif with barReply := some (leBytes n 0) } }) ∧
    (off % 8 = 0 → reservedAt (off + 4) = true → exec (.registerWrite off 8 .read) s =
      .next { s with hif := { s.hif with barReply := some (leBytes 8 0) } }) ∧
    (∀ bs, bs.length = 4 → exec (.registerWrite off bs.length (.write (leNat bs))) s = .next s) ∧
    (off % 8 = 0 → reservedAt (off + 4) = true → ∀ bs, bs.length = 8 → exec (.registerWrite off bs.length (.write (leNat bs))) s = .next s)

/-- R419: a sequence-cleared status register. An event that is new sets its bit and raises SEQ by one modulo 256; one that
recurs changes nothing; a write whose SEQ matches clears exactly the event bits its mask selects and leaves SEQ and the RO
bits; any other write clears nothing and sets STALE as an event. STATUS_SEQ_CLEAR on a status register does that and nothing
else. -/
def Obligations.StatusSequenceClear : Prop :=
  (∀ (v : W32) (bit : Nat), bit < 24 →
    (bitAt v.toNat bit = true → setEvent v bit = v) ∧
    (bitAt v.toNat bit = false → bitAt (setEvent v bit).toNat bit = true ∧
      (setEvent v bit).toNat / 16777216 = (v.toNat / 16777216 + 1) % 256 ∧
      (∀ i < 24, i ≠ bit → bitAt (setEvent v bit).toNat i = bitAt v.toNat i))) ∧
  (∀ (ev : Nat) (v w : W32), ev < 16777216 →
    (w.toNat / 16777216 = v.toNat / 16777216 →
      (seqClear ev v w).toNat / 16777216 = v.toNat / 16777216 ∧
      ∀ i < 24, bitAt (seqClear ev v w).toNat i = (bitAt v.toNat i && !(bitAt w.toNat i && bitAt ev i))) ∧
    (w.toNat / 16777216 ≠ v.toNat / 16777216 → seqClear ev v w = setEvent v 23)) ∧
  (∀ (off : Nat) (data : W32) (s : State) (a : RegAt) (ev : Nat) (k : Kept), s.barOpen = true → regAt off = some a →
    a.reg.kind = .stat ev k → off % 4 = 0 → ¬ (0x440000 ≤ off ∧ off < 0x448000) → ¬ (0xF10000 ≤ off ∧ off < 0xF11000) →
    exec (.statusSeqClear off data) s =
      .next { s with stats := tput statReset s.stats off (seqClear ev (s.stat off) data) })

/-- R421: a sequence-cleared count. One more raises the count and SEQ by one until the count saturates at 0xFF_FFFF, where
neither changes; a write whose SEQ matches sets the count to zero and leaves SEQ; any other write has no effect.
COUNT_SEQ_CLEAR on such a register does that and nothing else. -/
def Obligations.CountSequenceClear : Prop :=
  (∀ v : W32, (v.toNat % 16777216 = 0xFFFFFF → countUp v = v) ∧
    (v.toNat % 16777216 ≠ 0xFFFFFF → (countUp v).toNat % 16777216 = v.toNat % 16777216 + 1 ∧
      (countUp v).toNat / 16777216 = (v.toNat / 16777216 + 1) % 256)) ∧
  (∀ v w : W32, (w.toNat / 16777216 = v.toNat / 16777216 → (countClear v w).toNat % 16777216 = 0 ∧
      (countClear v w).toNat / 16777216 = v.toNat / 16777216) ∧
    (w.toNat / 16777216 ≠ v.toNat / 16777216 → countClear v w = v)) ∧
  (∀ (off : Nat) (data : W32) (s : State) (a : RegAt) (k : Kept), s.barOpen = true → regAt off = some a →
    a.reg.kind = .rc k → off % 4 = 0 → ¬ (0x440000 ≤ off ∧ off < 0x448000) → ¬ (0xF10000 ≤ off ∧ off < 0xF11000) →
    exec (.countSeqClear off data) s =
      .next { s with stats := tput statReset s.stats off (countClear (s.stat off) data) })

/-- The payload of a masked write takes the written bit where mask bit 16 + i is 1 and the bit can be stored, and keeps its
value elsewhere; a control-register write whose mask selects nothing changes nothing. REGISTER_WRITE: an aligned 4-byte
write outside the mailbox is one word's write, an aligned 8-byte write is two, the mailbox request area takes any size up to
the Max Payload Size, any other size or place sets BAD_ACCESS; a read leaves its answer; while the BARs are closed an access
is answered with Unsupported Request; one that does not lie in BAR0 is none of its accesses; a configuration write that the
function supports is taken over, and a configuration read leaves its answer. Every bit that a use of a triplicated register
sees is the majority of that bit in the three copies. It rests on choices of the model: log entries 4, 15, 68. -/
def Obligations.RegisterWrites : Prop :=
  ((∀ (old data mask i : Nat), i < 16 → old < 65536 → mask < 65536 →
    bitAt (maskedWrite old data mask) i = if bitAt data (16 + i) && bitAt mask i then bitAt data i else bitAt old i) ∧
  (∀ (off : Nat) (bs : List Byte) (s : State), s.barOpen = true → off % 4 = 0 → off + 4 ≤ 2 ^ 25 → bs.length = 4 →
    ¬ (0xF10000 ≤ off ∧ off < 0xF11000) →
    exec (.registerWrite off bs.length (.write (leNat bs))) s = .next (s.byWrite fun t => t.barWordWrite off (leNat bs))) ∧
  (∀ (off : Nat) (data : Nat) (s : State) (a : RegAt), regAt off = some a → a.reg.kind = .ctl false →
    ¬ (0x440000 ≤ off ∧ off < 0x448000) → data / 65536 &&& (a.reg.storeMask ||| a.reg.actMask) = 0 →
    s.barWordWrite off data = s)) ∧
  ((∀ (off : Nat) (bs : List Byte) (s : State),
    (barFormed off bs.length = false → exec (.registerWrite off bs.length (.write (leNat bs))) s = .next s) ∧
    (barFormed off bs.length = true →
      (s.barOpen = false → exec (.registerWrite off bs.length (.write (leNat bs))) s = .next s.barRefuse) ∧
      (s.barOpen = true → 0xF10000 ≤ off → off + bs.length ≤ 0xF11000 → bs.length ≤ s.hif.conf.mps →
        exec (.registerWrite off bs.length (.write (leNat bs))) s = .next (s.reqWrite (off - 0xF10000) bs)) ∧
      (s.barOpen = true → ¬ (0xF10000 ≤ off ∧ off + bs.length ≤ 0xF11000 ∧ bs.length ≤ s.hif.conf.mps) →
        (bs.length = 8 → off % 8 = 0 → exec (.registerWrite off bs.length (.write (leNat bs))) s = .next (s.byWrite fun t =>
          (t.barWordWrite off (leNat bs % 4294967296)).barWordWrite (off + 4) (leNat bs / 4294967296 % 4294967296))) ∧
        (¬ (bs.length = 4 ∧ off % 4 = 0) → ¬ (bs.length = 8 ∧ off % 8 = 0) →
          exec (.registerWrite off bs.length (.write (leNat bs))) s = .next (s.evHif 8))))) ∧
  (∀ (off n : Nat) (s t : State) (v : Nat),
    (barFormed off n = false → exec (.registerWrite off n .read) s = .next s) ∧
    (barFormed off n = true → s.barOpen = true → s.barRead off n = (v, t) →
      exec (.registerWrite off n .read) s = .next { t with hif := { t.hif with barReply := some (leBytes n v) } }) ∧
    (barFormed off n = true → s.barOpen = false →
      exec (.registerWrite off n .read) s = .next ({ s with hif := { s.hif with barReply := none } } : State).barRefuse)) ∧
  (∀ (bme : Bool) (c : PciConf) (clr : W32) (o n : Nat) (s t : State),
    (s.confOpen = false → exec (.registerWrite o n (.configWrite bme c clr)) s = .next s) ∧
    (s.confOpen = true → confFormed c = true →
      t = { s with hif := { s.hif with aer := s.hif.aer &&& ~~~clr, bme := bme, conf := c } } →
      exec (.registerWrite o n (.configWrite bme c clr)) s = .next t.outFlow) ∧
    exec (.registerWrite o n .configRead) s = .next { s with hif := { s.hif with
      barReply := if s.confOpen then some (leBytes 4 (s.confDword (o / 4))) else none } })) ∧
  (∀ (s : State) (off i : Nat), i < 16 →
    bitAt (s.rdT off) i =
      ((bitAt (tget regReset s.regs off).toNat i && bitAt (tget regReset s.regs1 off).toNat i) ||
       (bitAt (tget regReset s.regs off).toNat i && bitAt (tget regReset s.regs2 off).toNat i) ||
       (bitAt (tget regReset s.regs1 off).toNat i && bitAt (tget regReset s.regs2 off).toNat i)))

/-- R395, R398, R430: PWR_SETPOINT_WRITE, PWR_LIMIT_WRITE and POSTED_WRITE_APPLY. A posted write in range waits in its slow
domain; while one waits the next is dropped and flagged; a setpoint or limit out of range is refused; one that selects no
bit changes nothing; with the BARs closed it is answered with Unsupported Request. The waiting value takes effect when the
domain applies it. It rests on choices of the model: log entry 51. -/
def Obligations.PostedWrites : Prop :=
  (∀ (data : W32) (s : State) (v : Nat), v = maskedWrite (s.rd 0x20000C) data.toNat 1023 →
    (s.barOpen = false → exec (.pwrSetpointWrite data) s = .next s.barRefuse) ∧
    (s.barOpen = true → data.toNat / 65536 = 0 → exec (.pwrSetpointWrite data) s = .next s) ∧
    (s.barOpen = true → data.toNat / 65536 ≠ 0 → (tget noneD s.pwr.posted 0).isSome = true →
      exec (.pwrSetpointWrite data) s = .next (s.event 0x200000 1)) ∧
    (∀ w, s.barOpen = true → data.toNat / 65536 ≠ 0 → tget noneD s.pwr.posted 0 = none → postPayload 0x20000C (s.rd 0x20000C) v = some w →
      exec (.pwrSetpointWrite data) s =
        .next { s with pwr := { s.pwr with posted := tput noneD s.pwr.posted 0 (some (0x20000C, BitVec.ofNat 16 w)) } }) ∧
    (s.barOpen = true → data.toNat / 65536 ≠ 0 → tget noneD s.pwr.posted 0 = none → postPayload 0x20000C (s.rd 0x20000C) v = none →
      exec (.pwrSetpointWrite data) s = .next (s.evPwr 5))) ∧
  (∀ (data : W32) (s : State) (v : Nat), v = maskedWrite (s.rd 0x200010) data.toNat 2047 →
    (s.barOpen = false → exec (.pwrLimitWrite data) s = .next s.barRefuse) ∧
    (s.barOpen = true → data.toNat / 65536 = 0 → exec (.pwrLimitWrite data) s = .next s) ∧
    (s.barOpen = true → data.toNat / 65536 ≠ 0 → (tget noneD s.pwr.posted 0).isSome = true →
      exec (.pwrLimitWrite data) s = .next (s.event 0x200000 1)) ∧
    (∀ w, s.barOpen = true → data.toNat / 65536 ≠ 0 → tget noneD s.pwr.posted 0 = none → postPayload 0x200010 (s.rd 0x200010) v = some w →
      exec (.pwrLimitWrite data) s =
        .next { s with pwr := { s.pwr with posted := tput noneD s.pwr.posted 0 (some (0x200010, BitVec.ofNat 16 w)) } }) ∧
    (s.barOpen = true → data.toNat / 65536 ≠ 0 → tget noneD s.pwr.posted 0 = none → postPayload 0x200010 (s.rd 0x200010) v = none →
      exec (.pwrLimitWrite data) s = .next (s.evPwr 5))) ∧
  (∀ (blk : Fin 3) (s : State) (off : Nat) (v : W16), tget noneD s.pwr.posted blk.val = some (off, v) →
    exec (.postedWriteApply blk) s =
      .next (({ s with pwr := { s.pwr with posted := tput noneD s.pwr.posted blk.val none } } : State).byWrite
        fun t => t.setReg off v.toNat)) ∧
  (∀ (blk : Fin 3) (s : State), tget noneD s.pwr.posted blk.val = none → exec (.postedWriteApply blk) s = .next s)

/-- R312, R322, R427: HIF_LL_TIMEOUT_WRITE, HIF_GW_BASE_HI_WRITE and CFG_CRC_REF_HI_WRITE. The link-loss timeout takes 10 to
10,000 and flags anything else; the high half of the gangway base commits the whole base unless it is out of range; the high
half of the CRC reference commits the reference and clears DIRTY. A write that selects no bit changes nothing; with the BARs
closed it is answered with Unsupported Request. It rests on choices of the model: log entry 41. -/
def Obligations.HostRegistersCommit : Prop :=
  (∀ (data : W32) (s : State), s.barOpen = false → exec (.hifLlTimeoutWrite data) s = .next s.barRefuse ∧
    exec (.hifGwBaseHiWrite data) s = .next s.barRefuse ∧ exec (.cfgCrcRefHiWrite data) s = .next s.barRefuse) ∧
  (∀ (data : W32) (s : State), s.barOpen = true →
    (data.toNat / 65536 = 0 → exec (.hifLlTimeoutWrite data) s = .next s) ∧
    (data.toNat / 65536 &&& 0x1F = 0 → exec (.hifGwBaseHiWrite data) s = .next s) ∧
    (data.toNat / 65536 = 0 → exec (.cfgCrcRefHiWrite data) s = .next s)) ∧
  ∀ (data : W32) (s : State) (v : Nat), s.barOpen = true →
    (data.toNat / 65536 ≠ 0 → v = maskedWrite (s.rdT 0x400014) data.toNat 0xFFFF →
      (10 ≤ v → v ≤ 10000 → exec (.hifLlTimeoutWrite data) s = .next (s.byWrite fun t => t.setReg 0x400014 v)) ∧
      (¬ (10 ≤ v ∧ v ≤ 10000) → exec (.hifLlTimeoutWrite data) s = .next (s.evHif 9))) ∧
    (data.toNat / 65536 &&& 0x1F ≠ 0 → v = maskedWrite (s.rd 0x400010) data.toNat 0x1F →
      (s.rd 0x40000C + 65536 * v ≤ 0x1FFF00 → exec (.hifGwBaseHiWrite data) s = .next (s.byWrite fun t =>
        { t.setReg 0x400010 v with hif := { t.hif with gwBase := t.rd 0x40000C + 65536 * v } })) ∧
      (0x1FFF00 < s.rd 0x40000C + 65536 * v → exec (.hifGwBaseHiWrite data) s = .next (s.evHif 9))) ∧
    (data.toNat / 65536 ≠ 0 → v = maskedWrite (s.rdT 0x100014) data.toNat 0xFFFF →
      exec (.cfgCrcRefHiWrite data) s = .next (s.byWrite fun t =>
        let u := t.setReg 0x100014 v
        { u with cfg := { u.cfg with crcRef := BitVec.ofNat 32 (u.rdT 0x100010 + 65536 * u.rdT 0x100014), dirty := false } }))

/-- R267, R269, R272, R301: FAB_RT_SHADOW_WRITE, FAB_ID_CFG_WRITE and ITK_CACHE_REGION_WRITE. The shadow routing table is
written at its index, which advances, unless a copy is in progress; a change of the configured ID is taken over at once; a
change of the cache region empties the cache, or is refused while samples are in the pipeline. A write that selects no bit
changes nothing; with the BARs closed it is answered with Unsupported Request. -/
def Obligations.FabricAndIntakeRegisters : Prop :=
  (∀ (data : W32) (s : State), s.barOpen = false → exec (.fabRtShadowWrite data) s = .next s.barRefuse ∧
    exec (.fabIdCfgWrite data) s = .next s.barRefuse ∧ exec (.itkCacheRegionWrite data) s = .next s.barRefuse) ∧
  (∀ (data : W32) (s : State), s.barOpen = true →
    (data.toNat / 65536 = 0 → exec (.fabRtShadowWrite data) s = .next s) ∧
    (data.toNat / 65536 &&& 49151 = 0 → exec (.fabIdCfgWrite data) s = .next s) ∧
    (data.toNat / 65536 &&& 36863 = 0 → exec (.itkCacheRegionWrite data) s = .next s)) ∧
  ∀ (data : W32) (s : State) (v : Nat), s.barOpen = true →
    (data.toNat / 65536 ≠ 0 → s.fab.copying = false →
      v = maskedWrite (tget rtReset s.rtShadow (s.rf 0xD00034 13 0)).toNat data.toNat 0xFFFF →
      exec (.fabRtShadowWrite data) s = .next (s.byWrite fun t =>
        (t.setShadow (tput rtReset t.rtShadow (t.rf 0xD00034 13 0) (BitVec.ofNat 16 v))).setReg 0xD00034
          ((t.rf 0xD00034 13 0 + 1) % 16384))) ∧
    (data.toNat / 65536 ≠ 0 → s.fab.copying = true → exec (.fabRtShadowWrite data) s = .next (s.evFab 6)) ∧
    (data.toNat / 65536 &&& 49151 ≠ 0 → v = maskedWrite (s.rdT 0xD00008) data.toNat 49151 →
      (v ≠ s.rdT 0xD00008 → exec (.fabIdCfgWrite data) s = .next (s.byWrite fun t => (t.setReg 0xD00008 v).idConfig)) ∧
      (v = s.rdT 0xD00008 → exec (.fabIdCfgWrite data) s = .next s)) ∧
    (data.toNat / 65536 &&& 36863 ≠ 0 → v = maskedWrite (s.rd 0xE0000C) data.toNat 36863 →
      (s.pipeEmpty = true → v ≠ s.rd 0xE0000C → exec (.itkCacheRegionWrite data) s =
        .next (s.byWrite fun t => (t.setReg 0xE0000C v).cacheEmpty)) ∧
      (s.pipeEmpty = true → v = s.rd 0xE0000C → exec (.itkCacheRegionWrite data) s = .next s) ∧
      (s.pipeEmpty = false → exec (.itkCacheRegionWrite data) s = .next (s.evItk 6)))

/-- A write to the configuration of a queue, a slipway or a channel is stored when that unit is disabled or the write
changes nothing, and refused and flagged otherwise; at an offset that is none of theirs CQF_CONFIG_WRITE changes nothing.
The actions that clear the counts of non-finite values set them to zero, and those that clear peaks make the peak the
current value. It rests on choices of the model: log entry 16. -/
def Obligations.ConfigurationWrites : Prop :=
  ((∀ (off : Nat) (data : W32) (s : State), isCqfConfig off = false → exec (.cqfConfigWrite off data) s = .next s) ∧
  (∀ (off : Nat) (data : W32) (s : State) (a : RegAt) (v : Nat), isCqfConfig off = true → s.barOpen = true → off % 4 = 0 →
    regAt off = some a → a.reg.kind = .ctl false → data.toNat / 65536 &&& (a.reg.storeMask ||| a.reg.actMask) ≠ 0 →
    v = rangeWrite (s.payload off) (maskedWrite (s.payload off) data.toNat a.reg.storeMask) (fieldRanges off) →
    (off < 0x520000 → off % 0x40 ≠ 0 → off % 0x40 ≠ 0x2C →
      ((s.q a.n).state = .disabled ∨ v = s.rd off →
        exec (.cqfConfigWrite off data) s = .next (s.byWrite fun _ => s.setReg off v)) ∧
      ((s.q a.n).state ≠ .disabled → v ≠ s.rd off → exec (.cqfConfigWrite off data) s = .next (s.refuseQ a.n))) ∧
    (0x520000 ≤ off → off < 0x540000 → off % 0x40 ≠ 0x1C →
      (s.slipOn a.n = false ∨ v = s.rd off →
        exec (.cqfConfigWrite off data) s = .next (s.byWrite fun _ => s.setReg off v)) ∧
      (s.slipOn a.n = true → v ≠ s.rd off → exec (.cqfConfigWrite off data) s = .next (s.refuseSl a.n))) ∧
    (0x540000 ≤ off → off % 0x40 ≠ 0 → off % 0x40 ≠ 0x14 →
      (s.chanOpen a.n = false ∨ v = s.rd off →
        exec (.cqfConfigWrite off data) s = .next (s.byWrite fun _ => s.setReg off v)) ∧
      (s.chanOpen a.n = true → v ≠ s.rd off → exec (.cqfConfigWrite off data) s = .next (s.evCqf 3))))) ∧
  (∀ (s : State), s.barOpen = true →
    exec .matNfClr s = .next ((List.range 64).foldl (fun t c => t.setCtr (0x610004 + 0x20 * c) 0) (s.setCtr 0x600018 0)) ∧
    exec .vecNfClr s = .next ((List.range 4).foldl (fun t c => t.setCtr (0x710004 + 0x20 * c) 0) (s.setCtr 0x700008 0)) ∧
    exec .nbuNfClr s = .next ((List.range 2112).foldl (fun t c => t.setCtr (0xA20004 + 0x10 * c) 0) (s.setCtr 0xA00010 0)) ∧
    exec .xchNfClr s = .next (s.setCtr 0xC00020 0) ∧
    exec .itkNfClr s = .next (s.setCtr 0xE00060 0) ∧
    exec .itkPeakClr s = .next { s with itk := { s.itk with peak := s.itk.occ } } ∧
    (∀ t, t = (List.range 22).foldl (fun t i => t.setPool i { t.pool i with peak := (t.pool i).inUse }) s →
      exec .cqfPeakClr s = .next { t with cqf := { t.cqf with
        berths := t.cqf.berths.foldl (fun u e => tput berthReset u e.1 { e.2 with peak := e.2.held }) t.cqf.berths } }))

/-- NOP ends with OK; WRITE_IMM stores its eight bytes and ends with OK, or fails at its address check and does nothing
else; TOKEN_SET puts its value into the named token and ends. The four slipway commands, once their check passes and the
condition they wait for holds, end with OK, PUBLISH with the tail and RELEASE with the head one past the given count. It
rests on choices of the model: log entries 1, 5. -/
def Obligations.CommonCommandsAct : Prop :=
  ((∀ (q : QId) (s : State) (c : Cmd), s.running q.val 0 = some c → exec (.nop q) s = .next (s.endCmd q.val stOK 0)) ∧
  (∀ (q : QId) (s : State) (c : Cmd), s.running q.val 1 = some c → s.checkAddr q.val (c.p 0) 8 0 8 = .ok () →
    s.opWaits (c.p 0) 8 = false →
    exec (.writeImm q) s = .next ((s.opWrite q.val (c.p 0) 0 (leBytes 8 (c.p 1))).endCmd q.val stOK 0)) ∧
  (∀ (q : QId) (s : State) (c : Cmd) (f : Fail), s.running q.val 1 = some c →
    s.checkAddr q.val (c.p 0) 8 0 8 = .error f → exec (.writeImm q) s = .next ((s.noteBme f).failCmd q.val f)) ∧
  (∀ (q : QId) (s : State) (c : Cmd), s.running q.val 2 = some c → lowBit (c.p 0) (bmask 63 44) = none →
    fld (c.p 0) 43 32 < s.tokCnt (s.chan q.val) →
    exec (.tokenSet q) s =
      .next ((s.setTok (s.tokBase (s.chan q.val) + fld (c.p 0) 43 32) (BitVec.ofNat 32 (c.p 0))).endCmd q.val stOK 0))) ∧
  (∀ (q : QId) (s : State) (c : Cmd) (n : Nat) (f : W32), n = fld (c.p 0) 5 0 → f = BitVec.ofNat 32 (fld (c.p 0) 63 32) →
    s.slipCheck q.val c = .ok () →
    (s.running q.val 3 = some c → sdiff f (s.slip n).head < (s.slipSlots n : Int) →
      exec (.slipAcquire q) s = .next (s.endCmd q.val stOK 0)) ∧
    (s.running q.val 4 = some c →
      exec (.slipPublish q) s = .next ((s.setSlip n { s.slip n with tail := f + 1 }).endCmd q.val stOK 0)) ∧
    (s.running q.val 5 = some c → 1 ≤ sdiff (s.slip n).tail f →
      exec (.slipWait q) s = .next (s.endCmd q.val stOK 0)) ∧
    (s.running q.val 6 = some c →
      exec (.slipRelease q) s = .next ((s.setSlip n { s.slip n with head := f + 1 }).endCmd q.val stOK 0)))

/-- A posted entry of a local ring is taken: HEAD advances and is written back at once, and a good entry makes its list
current; a slot stamped ahead stops the queue with OVERRUN; one stamped behind is left. An idle host ring is read once a
poll interval. A list whose wait is met has its next command fetched: a header the checks accept becomes current with its
parameter words, a header they refuse becomes current with its failure, and a list at its end applies its signal and leaves
the queue IDLE. It rests on choices of the model: log entries 1, 13. -/
def Obligations.EntriesFetchedAndTaken : Prop :=
  (∀ (q : QId) (s u : State) (bs : List Byte) (w : List Nat) (seq : W32), s.watching q.val = true →
    isHost (s.slotAddr q.val) = false → s.opRead q.val (s.slotAddr q.val) 32 0xFF = (.bytes bs, u) →
    w = wordsOf 4 bs → seq = BitVec.ofNat 32 (w.getD 3 0) →
    (∀ v : State, stampOf seq (u.q q.val).head = .posted →
      v = (u.setQ q.val { u.q q.val with head := (u.q q.val).head + 1, have_ := [] }).frontWrite q.val (u.headArea q.val)
        (leBytes 4 ((u.q q.val).head + 1).toNat ++ List.replicate 60 0) →
      (v.q q.val).state ≠ .stopped → entryCheck (v.tokCnt (v.chan q.val)) w = .ok () →
      exec (.entryTake q) s =
        .next (v.setQ q.val { v.q q.val with state := .active, lst := some (v.entryList q.val w) })) ∧
    (stampOf seq (u.q q.val).head = .overrun → ((u.reply q.val 0xFFFFFFFF stOverrun seq).q q.val).state ≠ .stopped →
      exec (.entryTake q) s =
        .next ((u.reply q.val 0xFFFFFFFF stOverrun seq).stopQ q.val stOverrun 0xFFFFFFFF .slot)) ∧
    (stampOf seq (u.q q.val).head = .notYet →
      exec (.entryTake q) s = .next (u.setQ q.val { u.q q.val with have_ := [] }))) ∧
  ((∀ (q : QId) (s : State), s.watching q.val = true → isHost (s.slotAddr q.val) = true →
    (s.q q.val).has (s.slotAddr q.val) 32 = false → (s.q q.val).reads = [] →
    (s.q q.val).polled + s.rd 0x500004 * 100 ≤ s.pwr.time →
    (s.hif.bme = true → exec (.hostRingPoll q) s =
      .next ((s.setQ q.val { s.q q.val with polled := s.pwr.time }).request q.val (s.slotAddr q.val) 32 0xFF)) ∧
    (s.hif.bme = false → exec (.hostRingPoll q) s =
      .next (((s.setQ q.val { s.q q.val with polled := s.pwr.time }).evHif 2).frontFail q.val stBadAddress (0xFF + 256 * 6) .slot))) ∧
  (∀ (q : QId) (s : State) (l : ListCtx), (s.q q.val).lst = some l → (s.q q.val).cmd = none →
    (s.q q.val).state = .active → s.tokMet l.waitTok = true → s.pwr.state = 0 →
    (l.len ≤ l.pos → exec (.listFetch q) s = .next ((s.signal l.sigTok).setQ q.val
      { (s.signal l.sigTok).q q.val with state := .idle, lst := none, cmd := none, have_ := [] })) ∧
    (l.pos < l.len → s.barred q.val (l.addr + 8 * l.pos) 8 = true →
      exec (.listFetch q) s = .next ((s.evHif 2).frontFail q.val stBadAddress (0xFF + 256 * 6) .header)) ∧
    (∀ (bs ps : List Byte) (u v : State) (ws : List Nat), l.pos < l.len → s.barred q.val (l.addr + 8 * l.pos) 8 = false →
      u.barred q.val (l.addr + 8 * (l.pos + 1)) (8 * fld (leNat bs) 23 16) = false →
      s.opRead q.val (l.addr + 8 * l.pos) 8 0xFF = (.bytes bs, u) → headerCheck q.val l (leNat bs) = .ok () →
      u.opRead q.val (l.addr + 8 * (l.pos + 1)) (8 * fld (leNat bs) 23 16) 0xFF = (.bytes ps, v) →
      ws = wordsOf (fld (leNat bs) 23 16) ps →
      exec (.listFetch q) s = .next (v.makeCurrent q.val l (leNat bs) ws (v.tokenChecks q.val (leNat bs) ws))) ∧
    (∀ (bs : List Byte) (u : State) (f : Fail), l.pos < l.len → s.barred q.val (l.addr + 8 * l.pos) 8 = false →
      s.opRead q.val (l.addr + 8 * l.pos) 8 0xFF = (.bytes bs, u) → headerCheck q.val l (leNat bs) = .error f →
      exec (.listFetch q) s = .next (u.makeCurrent q.val l (leNat bs) [] (some f)))))

/-- R43, R38, R39, R37, R79, R93, R113, R139, R227: the ready command of the lowest-numbered queue of an engine is
dispatched, with the region tags, the tide entries and the clusters of that moment, a vector command with its quadrants, a
collective with its number; a command that has ended is answered, then a success applies its signal and fetches on, a
failure stops the queue and mutes its list. It rests on choices of the model: log entries 5, 10. -/
def Obligations.CommandDispatchedAndCompleted : Prop :=
  (∀ (q : QId) (s : State) (c : Cmd), (s.q q.val).cmd = some c → s.ready q.val = true →
    (∀ i < q.val % 64, s.ready (q.val / 64 * 64 + i) = false) →
    ∀ t u, t = [0x800014, 0x800018, 0x80001C].foldl State.useT s →
      u = (if q.val / 64 = 0 then { t with mat := { t.mat with serial := t.mat.serial + 1 } } else t).setCmd q.val
        { c with phase := .running, tags := t.tagMap, tide := t.tideMap, clusters := t.clCount, born := t.mat.serial,
                 quads := if c.op / 4096 = 2 then t.takeQuads c else [], man := t.mgt.vers.getD 2 (1, 0) } →
      (c.op / 4096 ≠ 5 ∨ u.xAccepts q.val c = false → exec (.commandDispatch q) s = .next u) ∧
      (0x5001 ≤ c.op → c.op ≤ 0x5005 → u.xAccepts q.val c = true → exec (.commandDispatch q) s =
        .next ((u.setXRun (u.xNew q.val c (fld (c.p 0) 3 0))).setGroup (fld (c.p 0) 3 0)
          { u.group (fld (c.p 0) 3 0) with cseq := (u.group (fld (c.p 0) 3 0)).cseq + 1 }))) ∧
  (∀ (q : QId) (s u v : State) (c : Cmd) (st : Byte) (d : W32), (s.q q.val).cmd = some c → c.phase = .ended st d →
    u = ((s.engineDone q.val c st).release q.val).replyCmd q.val c st d →
    (u.q q.val).state ≠ .stopped → v = u.setQ q.val { u.q q.val with cmd := none } →
    (isSuccess st = true → s.visible q.val = true → ((v.signal c.sigTok).q q.val).draining = false →
      exec (.commandComplete q) s = .next ((v.signal c.sigTok).fetchNext q.val).d3Settle) ∧
    (isSuccess st = false → (v.q q.val).draining = false →
      exec (.commandComplete q) s = .next ((v.muteList q.val).stopQ q.val st c.tag .command).d3Settle))

/-- A list wait, a waiting command or a dispatched command that has outlived CQF_Qn_TIMEOUT is recorded and ended with
TIMEOUT: the list wait stops the queue, the waiting command ends at once, the dispatched one is asked to stop. On a STOPPED
queue RESUME_NEXT goes on after the entry, slot or command that failed and DROP_LIST abandons the rest of the list; on a
queue that is not STOPPED both change nothing. It rests on choices of the model: log entries 10, 11. -/
def Obligations.QueueStopsAndGoesOn : Prop :=
  (∀ (q : QId) (s : State) (lim : Nat), lim = s.rd (qo q.val 0x18) → lim ≠ 0 → (s.q q.val).state = .active →
    (∀ (l : ListCtx) (t : Nat × W32) (d : Nat), (s.q q.val).cmd = none → (s.q q.val).lst = some l → l.begun = false →
      l.waitTok = some t → s.tokMet l.waitTok = false → s.due l.since lim = true → d = timeoutDetail 1 (s.msSince l.since) →
      (((s.errRec 0x0B 1 5 q.val d 0).reply q.val 0xFFFFFFFF stTimeout (BitVec.ofNat 32 d)).q q.val).state ≠ .stopped →
      exec (.queueTimeout q) s = .next ((((s.errRec 0x0B 1 5 q.val d 0).reply q.val 0xFFFFFFFF stTimeout
        (BitVec.ofNat 32 d))).stopQ q.val stTimeout 0xFFFFFFFF .listWait)) ∧
    (∀ (c : Cmd) (d : Nat), (s.q q.val).cmd = some c → s.due c.since lim = true → c.stop = none →
      d = timeoutDetail (s.waitReason q.val) (s.msSince c.since) →
      (c.phase = .waiting → exec (.queueTimeout q) s = .next ((s.errRec 0x0B 1 5 q.val d 0).failCmd q.val ⟨stTimeout, d⟩)) ∧
      (c.phase = .running →
        exec (.queueTimeout q) s = .next ((s.errRec 0x0B 1 5 q.val d 0).requestStop q.val stTimeout d)))) ∧
  (∀ (q : QId) (s : State), s.barOpen = true →
    ((s.q q.val).state ≠ .stopped → exec (.resumeNext q) s = .next s ∧ exec (.dropList q) s = .next s) ∧
    ((s.q q.val).state = .stopped → (s.q q.val).draining = false →
      exec (.dropList q) s =
        .next (s.setQ q.val { s.q q.val with state := .idle, lst := none, failed := .none, have_ := [] }) ∧
      ((s.q q.val).failed = .entry → exec (.resumeNext q) s =
        .next (s.setQ q.val { s.q q.val with state := .idle, lst := none, failed := .none })) ∧
      ((s.q q.val).failed = .slot → exec (.resumeNext q) s =
        .next (s.setQ q.val { s.q q.val with state := .idle, failed := .none, have_ := [] })) ∧
      ((s.q q.val).failed = .command → (s.q q.val).lst.isSome = true → exec (.resumeNext q) s =
        .next (s.byWrite fun t => (t.setQ q.val { t.q q.val with state := .active, failed := .none }).fetchNext q.val))))

/-- R29, R41, R42, R39: ENABLE ← 1 on a DISABLED queue whose configuration is valid starts it IDLE at HEAD 0 with its head
area cleared; an invalid configuration is refused; ENABLE ← 0 and RESET of a queue with no current command leave it
DISABLED, RESET with HEAD and REPLY_SEQ at 0. It rests on choices of the model: log entry 11. -/
def Obligations.QueueEnabledDisabledReset : Prop :=
  ∀ (q : QId) (s : State), s.barOpen = true →
    (s.rbit (qo q.val 0) 0 = false → s.enableValid q.val = true →
      exec (.queueEnable q) s = .next (s.byWrite fun t =>
        let u := (t.setReg (qo q.val 0) (t.rd (qo q.val 0) ||| 1)).setQ q.val
          { Queue.reset with state := .idle, err := (t.q q.val).err, errTag := (t.q q.val).errTag }
        u.frontWrite q.val (u.headArea q.val) (List.replicate 64 0))) ∧
    (s.rbit (qo q.val 0) 0 = false → s.enableValid q.val = false →
      exec (.queueEnable q) s = .next ((s.event (qo q.val 0x38) 3).evCqf 3)) ∧
    (s.rbit (qo q.val 0) 0 = true → exec (.queueEnable q) s = .next s) ∧
    ((s.q q.val).state ≠ .disabled → (s.q q.val).cmd = none →
      exec (.queueReset q) s =
        .next (s.byWrite fun t => ((t.clearEnable q.val).release q.val).disableQ q.val true) ∧
      ((s.q q.val).draining = false →
        exec (.queueDisable q) s =
          .next (s.byWrite fun t => ((t.clearEnable q.val).release q.val).disableQ q.val false)))

/-- R37: a wait is satisfied when counter − v, read as a signed 32-bit number, is not negative; a signal moves the counter
to v exactly when v − counter is positive, and otherwise leaves it; once a wait is satisfied no signal unsatisfies it within
half the number circle. -/
def Obligations.TokensMoveForward : Prop :=
  (∀ (s : State) (t : Nat) (v : W32), s.tokMet (some (t, v)) = decide (0 ≤ (s.tok t - v).toInt)) ∧
  (∀ (s : State) (t : Nat) (v : W32), s.signal (some (t, v)) =
    s.setTok t (if 0 < (v - s.tok t).toInt then v else s.tok t)) ∧
  (∀ s : State, s.signal none = s) ∧
  (∀ (c v w : W32), 0 ≤ (c - w).toInt → (c - w).toInt + (v - c).toInt < 2 ^ 31 → 0 ≤ (signalled c v - w).toInt)

/-- DISPATCH_HOLD is stored and every queue becomes dispatchable only after it is released; a slipway is enabled with head
and tail at zero when its configuration is valid, refused otherwise, and disabled; a weir is stored and compared at once. A
channel opens when its configuration is valid and closes, emptied, when no queue is bound to it, each refused otherwise; the
first queued landing-buffer request is granted once it fits and waits until then; the first request waiting for a host or
port transfer tag gets the freed one. It rests on choices of the model: log entries 1, 16. -/
def Obligations.FrontEndRegistersAct : Prop :=
  ((∀ (en : Bool) (s : State), s.barOpen = true →
    exec (.dispatchHold en) s = .next (s.byWrite fun t => t.setReg 0x500000 (b2n en))) ∧
  (∀ (s : State) (q : Nat), s.barOpen = true →
    ∃ t, exec (.dispatchHold false) s = .next t ∧ t.ready q = false) ∧
  (∀ (n : Fin 64) (s : State), s.barOpen = true →
    exec (.slipwayEnable n false) s = .next (s.byWrite fun t => t.setReg (slo n.val 0x1C) 0) ∧
    (s.slipOn n.val = true → exec (.slipwayEnable n true) s = .next s) ∧
    (s.slipOn n.val = false → s.slipValid n.val = true → exec (.slipwayEnable n true) s =
      .next (s.byWrite fun t => (t.setSlip n.val ⟨0, 0⟩).setReg (slo n.val 0x1C) 1)) ∧
    (s.slipOn n.val = false → s.slipValid n.val = false → exec (.slipwayEnable n true) s =
      .next ((s.event (slo n.val 0x28) 0).evCqf 3))) ∧
  (∀ (b : Fin 4096) (data : W32) (s : State), s.barOpen = true →
    exec (.weirWrite b data) s = .next (s.byWrite fun t =>
      (t.setReg (bo b.val 0x14) (maskedWrite (t.rd (bo b.val 0x14)) data.toNat 0x3FFF)).weirCheck b.val))) ∧
  ((∀ (b : Fin 4096) (s : State), s.barOpen = true →
    (s.chanOpen b.val = false → s.openValid b.val = true → exec (.berthOpen b) s =
      .next (s.byWrite fun t => t.setReg (bo b.val 0) (t.rd (bo b.val 0) ||| 1))) ∧
    (s.chanOpen b.val = false → s.openValid b.val = false → exec (.berthOpen b) s =
      .next ((s.event (bo b.val 0x24) 2).evCqf 3)) ∧
    (s.chanOpen b.val = true → s.bound b.val = false → exec (.berthClose b) s =
      .next (s.byWrite fun t => (t.emptyBerth b.val).setReg (bo b.val 0) (t.rd (bo b.val 0) / 2 * 2))) ∧
    (s.chanOpen b.val = true → s.bound b.val = true → exec (.berthClose b) s =
      .next ((s.event (bo b.val 0x24) 3).evCqf 3))) ∧
  (∀ (s : State) (c n q : Nat) (rest : List LandReq), s.cqf.landing = ⟨c, n, .queue q⟩ :: rest → s.canGrant c n = true →
    exec .landingBufferGrant s = .next ((({ s with cqf := { s.cqf with landing := rest } } : State).takeBufs c n).setQ q
      { s.q q with bufs := (s.q q).bufs + n })) ∧
  (∀ (s : State) (c n q : Nat) (rest : List LandReq), s.cqf.landing = ⟨c, n, .queue q⟩ :: rest → s.canGrant c n = false →
    exec .landingBufferGrant s = .next s) ∧
  (∀ (s : State) (w : TagWait), (s.pool 21).inUse < 2048 → (s.cqf.tagWait.find? fun w => w.pool == 21) = some w →
    ∃ u, u = (s.takeTag 21).setQ w.queue { s.q w.queue with reads := (s.q w.queue).reads ++ [w.req] } ∧
      exec (.transferTagGrant 21) s = .next { u with cqf := { u.cqf with tagWait := u.cqf.tagWait.erase w } }) ∧
  (∀ (s t : State) (p : Fin 12) (w : PeerWait), (s.pool (9 + p.val)).inUse < 1024 →
    (s.fab.tagWait.find? fun w => 9 + w.port == 9 + p.val) = some w →
    t = { s with fab := { s.fab with tagWait := s.fab.tagWait.erase w } } →
    (∀ r, w.what = .access r → t.hasId = true → exec (.transferTagGrant ⟨9 + p.val, by omega⟩) s =
      .next ((t.takeTag (9 + w.port)).peerSend w.port r)) ∧
    (∀ r, w.what = .access r → t.hasId = false → exec (.transferTagGrant ⟨9 + p.val, by omega⟩) s =
      .next (t.peerLost r stPeer (peerDetail (peerId r.addr) 0))) ∧
    (∀ x, w.what = .segment x → t.hasId = true → (t.port w.port).state = 4 →
      exec (.transferTagGrant ⟨9 + p.val, by omega⟩) s =
        .next ((t.takeTag (9 + w.port)).pushOut w.port ⟨t.segPacket x, none, true⟩))) ∧
  (∀ (s : State) (k : Fin 22), poolSize k.val ≤ (s.pool k.val).inUse → exec (.transferTagGrant k) s = .next s))

/-- A module self-reset, whichever event brings it (hot reset, link disable, PERST#, the link-loss time): a next state in
which the front end is at reset, READY is clear, the cause is recorded, handles, runs, batches, the cache, the peer tags,
the supplement's and the program's measurement are gone, and TIM_TIME, the key seed, the configuration's measurement, flash
and the waiting commands are kept. It rests on choices of the model: log entry 53. -/
def Obligations.ModuleSelfReset : Prop :=
  ∀ (c : Instr) (s : State), s.pwr.off = 0 →
    (c = .hotReset ∨ c = .linkDisable ∨ c = .perstAssert ∨
      c = .linkLossTimeout ∧ (∃ t, s.hif.downAt = some t ∧ (s.useT 0x400014).due t ((s.useT 0x400014).rdT 0x400014) = true)) →
    ∃ t, exec c s = .next t ∧ t.cqf = Cqf.reset ∧ t.pwr.ready = false ∧ t.pwr.cause = 5 ∧ t.pwr.state = 0 ∧
      t.pwr.time = s.pwr.time ∧ t.sec.xi = s.sec.xi ∧ t.sec.mCfg = s.sec.mCfg ∧ t.sec.mSupp = [] ∧ t.sec.mProg = [] ∧
      t.flash = s.flash ∧ t.mat.handles = [] ∧ t.mat.runs = [] ∧ t.vec.runs = [] ∧ t.itk.batches = [] ∧ t.itk.cache = [] ∧
      t.fab.tags = [] ∧ t.mgt.core = 0 ∧ t.pending = s.pending ∧
      OnlyChanges [.regs, .stats, .ctrs, .cqf, .mem, .hif, .mgt, .sec, .err, .cfg, .pwr, .mat, .vec, .nbu, .xch, .fab, .itk, .draws] s t

/-- A brown-out, an over-voltage and a sensor above its trip point switch the rails off with their cause; a due deep off
first sends its notices and drains the ports, and switches the rails off when no port drains or after 100 us; below the trip
point, with no deep off due, or with the rails already off, nothing changes. With the rails off only flash and the waiting
commands remain of what a program can read: the key seed, memory, registers and TIM_TIME are at their reset values. It rests
on choices of the model: log entries 52, 53. -/
def Obligations.RailsSwitchOff : Prop :=
  ∀ (s : State),
    (s.pwr.off ≤ 1 → exec .brownOut s = .next (s.powerOff 2) ∧ exec .overVoltage s = .next (s.powerOff 3)) ∧
    (1 < s.pwr.off → exec .brownOut s = .next s ∧ exec .overVoltage s = .next s) ∧
    (∀ (x : Sensor) (t : Int), s.pwr.off = 0 → tripAt x < t → exec (.thermalTrip x t) s = .next (s.powerOff 4)) ∧
    (∀ (x : Sensor) (t : Int), t ≤ tripAt x → exec (.thermalTrip x t) s = .next s) ∧
    (∀ t, s.pwr.deepAt = some t → s.pwr.off = 0 → t ≤ s.pwr.time →
      (∀ u, s.pwr.deepNoticed = none → u = s.xchReset.fabNotice 3 →
        exec .deepOffBegin s = .next { u with pwr := { u.pwr with deepNoticed := some u.pwr.time } }) ∧
      (∀ n, s.pwr.deepNoticed = some n → (∀ p ∈ portList, (s.port p).state ≠ 5) ∨ n + 100000 ≤ s.pwr.time →
        exec .deepOffBegin s = .next (s.powerOff 1)) ∧
      (∀ n p, s.pwr.deepNoticed = some n → p ∈ portList → (s.port p).state = 5 → s.pwr.time < n + 100000 →
        exec .deepOffBegin s = .next s)) ∧
    (s.pwr.deepAt = none → exec .deepOffBegin s = .next s) ∧
    (∀ why, (s.powerOff why).flash = s.flash ∧ (s.powerOff why).sec.xi = [] ∧ (s.powerOff why).mem = Mem.reset ∧
      (s.powerOff why).regs = [] ∧ (s.powerOff why).pwr.time = 0 ∧ (s.powerOff why).pending = s.pending)

/-- The input comparators set LOW and HIGH with their events and clear again; PERST# is released; a stack or package sensor
at or above HOT_C records its temperature and raises its event with its interrupt where enabled; a failing oscillator
switches to the internal one, with one record whose fields are free values. It rests on choices of the model: log entries
55, 61. -/
def Obligations.PinsAndSensors : Prop :=
  ∀ (s : State), s.pwr.off = 0 →
    exec .inputLow s = .next (({ s with pwr := { s.pwr with low := true } } : State).evPwr 2) ∧
    exec .inputHigh s = .next (({ s with pwr := { s.pwr with high := true } } : State).evPwr 3) ∧
    exec .inputRestored s = .next { s with pwr := { s.pwr with low := false, high := false } } ∧
    exec .perstDeassert s = .next { s with hif := { s.hif with perst := false } } ∧
    (∀ (i : Fin 8) (t : Int), (s.rf 0x900004 15 8 : Int) ≤ t →
      exec (.hotCReached (.stackCore i) t) s =
        .next ((s.setTemp (.stackCore i) t).raiseIf 0x900000 2 393 (s.rbit 0x900004 0)) ∧
      exec (.hotCReached (.stackBase i) t) s =
        .next ((s.setTemp (.stackBase i) t).raiseIf 0x900000 2 393 (s.rbit 0x900004 0))) ∧
    (∀ (i : Fin 24) (t : Int), (s.rf 0xB00004 15 8 : Int) ≤ t →
      exec (.hotCReached (.package i) t) s =
        .next ((s.setTemp (.package i) t).raiseIf 0xB00000 2 395 (s.rbit 0xB00004 0))) ∧
    (s.pwr.oscInt = false → ∃ t, exec .oscillatorFail s = .next t ∧ t.pwr = { s.pwr with oscInt := true } ∧
      t.draws = s.draws + 1 ∧ OnlyChanges [.stats, .ctrs, .hif, .err, .pwr, .draws] s t)

/-- R404 to R407: D3hot is entered at once from slack water or when nothing is in the way, and otherwise waits with dispatch
held; its exit returns to running; a tier goes back to self-refresh 1 ms after its last access in slack water. It rests on
choices of the model: log entry 52. -/
def Obligations.PowerStatesChange : Prop :=
  ∀ (s : State), s.pwr.off = 0 →
    (s.pwr.state = 0 → s.cqf.heldD3 = false → s.slackRefuse = none →
      exec .d3hotEntry s = .next (s.slackEnter 2) ∧ (s.slackEnter 2).pwr.state = 2 ∧ (s.slackEnter 2).mat.handles = [] ∧
        (s.slackEnter 2).mem.refreshFast = true ∧ (s.slackEnter 2).mem.refreshCap = true) ∧
    (s.pwr.state = 1 → s.cqf.heldD3 = false →
      exec .d3hotEntry s = .next { s with pwr := { s.pwr with state := 2 } }) ∧
    (∀ d, s.pwr.state = 0 → s.cqf.heldD3 = false → s.slackRefuse = some d → s.quiet = false →
      exec .d3hotEntry s = .next (({ s with cqf := { s.cqf with heldD3 := true } } : State).evPwr 6)) ∧
    (s.pwr.state = 2 → exec .d3hotExit s = .next { s with
      mem := { s.mem with refreshFast := false, refreshCap := false }, pwr := { s.pwr with state := 0 } }) ∧
    (s.pwr.state ≠ 2 → exec .d3hotExit s = .next { s with cqf := { s.cqf with heldD3 := false } }) ∧
    (s.pwr.state = 1 → s.mem.wokeCap + 1000000 ≤ s.pwr.time →
      exec (.tierSelfRefreshReturn true) s = .next { s with mem := { s.mem with refreshCap := true } }) ∧
    (s.pwr.state = 1 → s.mem.wokeFast + 1000000 ≤ s.pwr.time →
      exec (.tierSelfRefreshReturn false) s = .next { s with mem := { s.mem with refreshFast := true } })

/-- POWER_ON counts the start in flash, starts the core with its watchdog, keeps the cause of the last power-off, and has
the front end and local memory at reset; it reaches step 4 with a record from flash, or step 3 where flash holds none, with
the PUF's seed taken and every register at reset; on a powered module past step 2 it changes nothing. START_UP_END lets
configuration requests through, reaches step 6 with the core and its watchdog running, both tiers out of self-refresh and
the adoption begun, once. READY sets READY and reaches step 8, outside recovery. It rests on choices of the model: log
entries 3, 54. -/
def Obligations.StartUpProceeds : Prop :=
  (∀ (puf : List Byte) (s : State), s.pwr.off ≠ 0 ∨ s.pwr.step < 2 →
    ∃ t, exec (.powerOn puf) s = .next t ∧ t.pwr.off = 0 ∧ t.pwr.cause = s.pwr.off ∧
      t.flash = { s.flash with starts := (s.flash.starts + 1) % 4294967296 } ∧ t.mgt.core = 1 ∧ t.mgt.wdtOn = true ∧
      t.cqf = Cqf.reset ∧ t.mem = Mem.reset ∧ t.pending = s.pending ∧
      ((if s.flash.active then s.flash.slot1 else s.flash.slot0) = none → s.flash.factory = none →
        t.pwr.step = 3 ∧ t.sec.xi = puf ∧ t.regs = [] ∧ t.hif.ext = s.hif.ext) ∧
      ((if s.flash.active then s.flash.slot1 else s.flash.slot0) ≠ none ∨ s.flash.factory ≠ none → t.pwr.step = 4)) ∧
  (∀ (puf : List Byte) (s : State), s.pwr.off = 0 → 2 ≤ s.pwr.step → exec (.powerOn puf) s = .next s) ∧
  (∀ (r : StartResult) (s : State), s.pwr.off = 0 → s.hif.rrs = true →
    ∃ t, exec (.startUpEnd r) s = .next t ∧ t.hif.rrs = false ∧ t.pwr.step = 6 ∧ t.mgt.core = 1 ∧ t.mgt.wdtOn = true ∧
      t.mem.refreshFast = false ∧ t.mem.refreshCap = false ∧ t.cfg.adopting = true) ∧
  (∀ (r : StartResult) (s : State), s.hif.rrs = false → exec (.startUpEnd r) s = .next s) ∧
  (∀ (s : State), s.barOpen = true → s.pwr.ready = false → s.cfg.recovery = false → s.hif.rrs = false →
    ∃ t, exec .ready s = .next t ∧ t.pwr.ready = true ∧ t.pwr.step = 8)

/-- The end of an arbiter window, with what it measured: power above the limit or a sensor too hot reduces; power within the
slack of the limit restarts the count of calm windows; below it one more calm window is counted, and at the tenth the
arbiter relaxes. It rests on choices of the model: log entries 51, 58. -/
def Obligations.ArbiterWindowActs : Prop :=
  ∀ (m : PowerSample) (s u : State), s.pwr.off = 0 → s.pwr.windowAt < s.pwr.time / 10000 →
    u = (let t := s.measure m; { t with pwr := { t.pwr with windowAt := s.pwr.time / 10000 } }) →
    (u.limitW * 1000 < m.mw ∨ u.tooHot = true →
      exec (.arbiterWindow m) s = .next (u.reduce (decide (u.limitW * 1000 < m.mw)) u.tooHot)) ∧
    (m.mw ≤ u.limitW * 1000 → u.tooHot = false → u.limitW * 1000 - u.rf 0x200018 7 0 * 1000 ≤ m.mw →
      exec (.arbiterWindow m) s = .next { u with pwr := { u.pwr with calm := 0 } }) ∧
    (u.tooHot = false → m.mw < u.limitW * 1000 - u.rf 0x200018 7 0 * 1000 → u.pwr.calm < 9 →
      exec (.arbiterWindow m) s = .next { u with pwr := { u.pwr with calm := u.pwr.calm + 1 } }) ∧
    (u.tooHot = false → m.mw < u.limitW * 1000 - u.rf 0x200018 7 0 * 1000 → 9 ≤ u.pwr.calm →
      exec (.arbiterWindow m) s = .next ({ u with pwr := { u.pwr with calm := 0 } } : State).relax)

/-- ECHO, GET_INFO, SUPPLEMENT_STATUS, LOG_READ, TELEMETRY, CERT_READ and ERR_HISTORY_READ each end with OK and the payload
of their chapter, from what the module holds. ATTACH chooses a version of each interface (only its own on the towpath), logs
and answers it, or ends with the version status; ATTEST reports, extends the program measurement or clears it; MARGIN of a
trained unit answers its margins limited to their range with a free size code, and of any other OUT_OF_SERVICE. It rests on
choices of the model: log entries 44, 46, 47, 61. -/
def Obligations.MessagesAnswered : Prop :=
  (∀ (s : State) (m : Msg),
    (s.msgIn 0x7000 = some m → exec .echo s = .next (s.finish m stOK 0 m.payload)) ∧
    (s.msgIn 0x7002 = some m → exec .getInfo s = .next (s.finish m stOK 0 s.infoBytes)) ∧
    (s.msgIn 0x7011 = some m →
      exec .supplementStatus s = .next (s.finish m stOK 0 (leBytes 4 s.suppState ++ measured s.sec.mSupp))) ∧
    (∀ first n : Nat, s.msgIn 0x7021 = some m → first = max (numAt m.payload 0 4) s.logOldest →
      n = min (numAt m.payload 4 4) (s.ctr 0xF00018 - first) →
      exec .logRead s = .next (s.finish m stOK 0 (leBytes 4 s.logOldest ++ leBytes 4 n ++
        ((List.range n).filterMap fun i => tget noneD s.mgt.log ((first + i) % 2048)).flatMap LogEntry.bytes))) ∧
    (s.msgIn 0x7030 = some m → exec .telemetry s = .next (s.draw.finish m stOK 0 s.telemetryBytes)) ∧
    (∀ (obj : List Byte) (o n : Nat), s.msgIn 0x7041 = some m → obj = s.certObject (numAt m.payload 0 4) →
      o = numAt m.payload 4 4 → n = min 4024 (obj.length - o) →
      exec .certRead s = .next (s.finish m stOK 0 (leBytes 4 obj.length ++ leBytes 4 n ++ part obj o n))) ∧
    (∀ es : List HistEntry, s.msgIn 0x7060 = some m →
      es = (s.flash.hist.drop (numAt m.payload 0 4)).take (numAt m.payload 4 4) →
      exec .errHistoryRead s = .next (s.finish m stOK 0
        (leBytes 4 s.flash.hist.length ++ leBytes 4 es.length ++ es.flatMap HistEntry.bytes)))) ∧
  (∀ (s : State) (m : Msg),
    (∀ (want : List (Option (Nat × Nat))) (t : State), s.msgIn 0x7001 = some m →
      want = (List.range 5).map (fun i =>
        if m.towpath = true ∧ i ≠ 1 then some (s.mgt.vers.getD i (1, 0)) else s.choose m.payload i) →
      t = (if m.towpath then { s with mgt := { s.mgt with towVer := (want.map fun x => x.getD (1, 0)).getD 1 (1, 0) } }
        else { s with mgt := { s.mgt with vers := want.map fun x => x.getD (1, 0), attached := true } }) →
      (want.any (·.isNone) = false → exec .attach s = .next ((t.logWrite 0x0007 0 [numAt (attachBytes want) 0 4,
        numAt (attachBytes want) 4 4, numAt (attachBytes want) 8 2]).finish m stOK 0 (attachBytes want))) ∧
      (want.any (·.isNone) = true →
        exec .attach s = .next (s.finish m stVersion (attachDetail want) (attachBytes want)))) ∧
    (s.attestIn 0 = some m → s.sec.id ≠ 1 → exec .attestReport s = .next (s.finishFail m ⟨stOutOfService, 1⟩)) ∧
    (s.attestIn 0 = some m → s.sec.id = 1 → exec .attestReport s =
      .next ((s.report (part m.payload 4 32) m.towpath).2.finish m stOK 0 (s.report (part m.payload 4 32) m.towpath).1)) ∧
    (∀ (bs : List Byte) (t u : State), s.attestIn 1 = some m → numAt m.payload 12 8 ≠ 0 →
      s.fwRead (numAt m.payload 4 8) (numAt m.payload 4 8) (numAt m.payload 12 8) = (.bytes bs, t) → u = t.extendProg bs →
      exec .attestExtend s = .next (u.finish m stOK 0 (leBytes 4 (u.ctr 0x1000080) ++ measured u.sec.mProg))) ∧
    (s.attestIn 2 = some m → exec .attestClear s = .next (s.clearProg.finish m stOK 0 [])) ∧
    (∀ (lo hi limit : Nat), s.msgIn 0x7070 = some m → s.marginable (byteAt m.payload 0) (numAt m.payload 2 2) = true →
      limit = (if byteAt m.payload 0 = 2 then 48 else 32) →
      ∃ size : Nat, exec (.margin lo hi) s = .next (s.draw.finish m stOK 0
        (leBytes 2 (min lo limit) ++ leBytes 2 (min hi limit) ++ leBytes 2 limit ++ leBytes 2 size))) ∧
    (∀ (lo hi : Nat), s.msgIn 0x7070 = some m → s.marginable (byteAt m.payload 0) (numAt m.payload 2 2) = false →
      exec (.margin lo hi) s = .next (s.finishFail m ⟨stOutOfService, 0⟩)))

/-- POWER_STATE runs, enters slack water or prepares deep off where the module's state admits it, and is refused with the
reason where it does not; POWER_LIMIT sets the limit. SUPPLEMENT_LOAD commits a supplement that passes its checks or fails
with the first that fails; FW_RESTART restarts the firmware; ERR_HISTORY_ADD queues an entry unless the history is full, and
HISTORY_WRITE_DONE moves the oldest to flash, answering the driver's; CONFIG_UPDATE commits a record that passes its checks.
It rests on choices of the model: log entries 38, 44, 48, 52. -/
def Obligations.PowerAndCommitMessages : Prop :=
  (∀ (s : State) (m : Msg),
    (s.powerIn 0 = some m → s.pwr.state = 1 → s.cqf.heldD3 = false →
      exec .powerStateRun s = .next (s.slackExit.powerReply m)) ∧
    (s.powerIn 0 = some m → s.pwr.state = 0 → s.cqf.heldD3 = false → exec .powerStateRun s = .next (s.powerReply m)) ∧
    (s.powerIn 0 = some m → s.pwr.state = 2 ∨ s.cqf.heldD3 = true →
      exec .powerStateRun s = .next (s.finishFail m ⟨stBadParam, 3⟩)) ∧
    (s.powerIn 1 = some m → s.pwr.state ≠ 1 → s.slackRefuse = none →
      exec .powerStateSlackWater s = .next ((s.slackEnter 1).powerReply m)) ∧
    (∀ d, s.powerIn 1 = some m → s.pwr.state ≠ 1 → s.slackRefuse = some d →
      exec .powerStateSlackWater s = .next (s.finishFail m ⟨stBadParam, d⟩)) ∧
    (s.powerIn 3 = some m → s.slackRefuse = none → exec .powerStateDeepOff s =
      .next (({ s with pwr := { s.pwr with deepAt := some (s.pwr.time + 1000000) } } : State).powerReply m)) ∧
    (∀ d, s.powerIn 3 = some m → s.slackRefuse = some d →
      exec .powerStateDeepOff s = .next (s.finishFail m ⟨stBadParam, d⟩)) ∧
    (∀ t : State, s.msgIn 0x7051 = some m → t = s.byWrite (fun u => u.setReg 0x200010 (numAt m.payload 0 2)) →
      exec .powerLimit s = .next (t.finish m stOK 0 (leBytes 4 t.limitW)))) ∧
  (∀ (s : State) (m : Msg),
    (∀ (x : Supp) (t : State), s.msgIn 0x7010 = some m →
      s.suppLoadTry (numAt m.payload 0 8) (numAt m.payload 8 4) = (.done x, t) →
      exec .supplementLoad s = .next ((t.suppCommit x).finish m stOK 0 x.measurement)) ∧
    (∀ (f : Fail) (t : State), s.msgIn 0x7010 = some m →
      s.suppLoadTry (numAt m.payload 0 8) (numAt m.payload 8 4) = (.fail f false, t) →
      exec .supplementLoad s = .next (t.finishFail m f)) ∧
    (s.msgIn 0x7020 = some m → exec .fwRestart s = .next
      (({ s with mgt := { s.mgt with msg := some { m with committed := true } } } : State).fwRestartBy 1
        (bitAt (byteAt m.payload 0) 0))) ∧
    (s.msgIn 0x7061 = some m → s.err.histPend.any HistEntry.byDriver = false → s.histCount < 4096 →
      exec .errHistoryAdd s = .next { s with err := { s.err with histPend := s.err.histPend ++
        [⟨numAt m.payload 0 1, numAt m.payload 4 4, numAt m.payload 8 8, s.flash.starts, s.cfg.version⟩] } }) ∧
    (s.msgIn 0x7061 = some m → s.err.histPend.any HistEntry.byDriver = false → 4096 ≤ s.histCount →
      exec .errHistoryAdd s = .next ((s.evErr 4).finishFail m ⟨stQuota, 0⟩)) ∧
    (∀ (e : HistEntry) (rest : List HistEntry) (t : State), s.err.histPend = e :: rest →
      t = { s with err := { s.err with histPend := rest }, flash := { s.flash with hist := s.flash.hist ++ [e] } } →
      (e.byDriver = false → exec .historyWriteDone s = .next t) ∧
      (e.byDriver = true → t.msgIn 0x7061 = some m → exec .historyWriteDone s = .next (t.finish m stOK 0 []))) ∧
    (∀ (a size : Nat) (bs : List Byte) (r : Record) (t u : State), s.msgIn 0x7080 = some m → a = numAt m.payload 0 8 →
      size = numAt m.payload 8 4 → 256 ≤ size → size ≤ 1048576 → s.fwRead a a size = (.bytes bs, t) →
      t.cfgCheck bs size = (.ok r, u) →
      exec .configUpdate s = .next ((u.draw.writeSlot bs).commitRecord.finish m stOK 0 (leBytes 4 r.version)) ∨
      ∃ o < size, exec .configUpdate s = .next ((u.draw.writeSlot bs).finishFail m ⟨stUncorrectable, o⟩)))

/-- The firmware takes the request that is posted next: a good one comes into progress, a bad one is answered at its first
failed check; a posted SEQ that is neither the one taken nor the next raises the skew event; the one already taken changes
nothing. A towpath message lies in its buffer of 4,096 bytes, is queued and taken when it is next while the core runs, and
lost otherwise. It rests on choices of the model: log entries 4, 45, 46. -/
def Obligations.RequestsTaken : Prop :=
  (∀ (s : State), s.mgt.core = 1 → s.mgt.msg = none → s.pwr.off = 0 →
    (s.reqSeq = s.mgt.taken.toNat → exec .mailboxTake s = .next s) ∧
    (s.reqSeq ≠ s.mgt.taken.toNat → s.posted = false → exec .mailboxTake s = .next (s.evMgt 5)) ∧
    (∀ (bs : List Byte) (m : Msg) (t : State), s.reqSeq ≠ s.mgt.taken.toNat → s.posted = true → s.towNext = false →
      bs = tgets zeroB s.mgt.req 0 4096 → m = msgOf false bs →
      t = { s with mgt := { s.mgt with taken := BitVec.ofNat 32 s.reqSeq, ahead := none } } →
      (t.msgCheck m bs = .ok () → exec .mailboxTake s = .next { t with mgt := { t.mgt with msg := some m } }) ∧
      (∀ f, t.msgCheck m bs = .error f → exec .mailboxTake s = .next (t.msgReply m f.st f.detail []).nextMsg))) ∧
  (∀ (bs : List Byte) (s : State), s.mgt.core = 1 → s.pwr.off = 0 →
    exec (.towpathRequest bs) s = .next (({ s with mgt := { s.mgt with towQ := s.mgt.towQ ++ [towImage bs] } } : State).nextMsg)) ∧
  (∀ (bs : List Byte) (s : State), s.mgt.core ≠ 1 ∨ s.pwr.off ≠ 0 → exec (.towpathRequest bs) s = .next s) ∧
  (∀ (bs : List Byte), (towImage bs).length = 4096 ∧
    ∀ i < 4096, (towImage bs).getD i 0 = if i < bs.length then bs.getD i 0 else 0)

/-- A restart commanded or caused interrupts the message in progress and stops the watchdog; a core fault records itself and
restarts with its cause; a watchdog expiry restarts, and the third within ten seconds leaves the core stopped; a kick
restarts the period. The end of a restart discards the supplement if asked, starts the core, logs, passes the trace points a
free value names, and answers the interrupted message: a restart request with OK, any other ABORTED with its DETAIL. It
rests on choices of the model: log entries 46, 49, 59. -/
def Obligations.FirmwareRestarts : Prop :=
  (∀ (d : Bool) (s : State), s.barOpen = true →
    exec (.mgtRestart d) s = .next (s.fwRestartBy 1 d)) ∧
  (∀ (cause : Nat) (d : Bool) (s : State), s.mgt.core ≠ 2 → s.mgt.core ≠ 3 → s.pwr.off = 0 →
    (s.fwRestartBy cause d).mgt = { s.mgt with core := 2, cause := cause, discard := d, msg := none, interrupted := s.mgt.msg, wdtOn := false }) ∧
  (∀ (s : State), s.pwr.off = 0 →
    exec (.coreFault .residue) s = .next ((s.errRec 0x01 1 15 0 0 0).fwRestartBy 2 false) ∧
    ∃ loc : Nat, exec (.coreFault .sram) s = .next (((s.draw).errRec 0x06 1 15 0 4 loc).fwRestartBy 3 false)) ∧
  (∀ (s t : State), s.mgt.wdtOn = true → s.due s.mgt.kickAt s.mgt.wdtPeriod = true → s.mgt.core = 1 →
    t = { s with mgt := { s.mgt with wdtTimes := (s.pwr.time :: s.mgt.wdtTimes).take 3 } } →
    (s.mgt.wdtTimes.length < 2 ∨ s.mgt.wdtTimes.getD 1 0 + 10000000000 < s.pwr.time →
      exec .watchdogExpiry s = .next (t.fwRestartBy 0 false)) ∧
    (2 ≤ s.mgt.wdtTimes.length → s.pwr.time ≤ s.mgt.wdtTimes.getD 1 0 + 10000000000 →
      ∃ u, exec .watchdogExpiry s = .next u ∧ u.mgt.core = 3 ∧ u.mgt.interrupted = none)) ∧
  (∀ (s t : State), s.mgt.core = 1 → s.mgt.wdtOn = true → t = s.useT 0x300010 →
    exec .wdtKick s = .next { t with mgt := { t.mgt with wdtOn := true, kickAt := t.pwr.time, wdtPeriod := t.rdT 0x300010 } }) ∧
  (∀ (s : State), s.mgt.core ≠ 2 → exec .firmwareRestartDone s = .next s) ∧
  (∀ (s t u : State), s.mgt.core = 2 → s.mgt.cause ≠ 3 → s.mgt.interrupted = none →
    t = (if s.mgt.discard then s.suppDiscard else s) →
    u = { t with mgt := { t.mgt with core := 1, discard := false, interrupted := none }, fab := { t.fab with changedAt := t.pwr.time } } →
    exec .firmwareRestartDone s =
      .next (((u.wdtArm.logWrite 0x0005 2 [min u.mgt.cause 2, b2n u.mgt.supp.isSome]).trace 12 4).nextMsg)) ∧
  (∀ (s t u : State) (m : Msg), s.mgt.core = 2 → s.mgt.cause ≠ 3 → s.mgt.interrupted = some m →
    t = (if s.mgt.discard then s.suppDiscard else s) →
    u = { t with mgt := { t.mgt with core := 1, discard := false, interrupted := none }, fab := { t.fab with changedAt := t.pwr.time } } →
    exec .firmwareRestartDone s = .next (if m.type = 0x7020
      then ((u.wdtArm.logWrite 0x0005 2 [min u.mgt.cause 2, b2n u.mgt.supp.isSome]).trace 12 4).finish m stOK 0 []
      else ((u.wdtArm.logWrite 0x0005 2 [min u.mgt.cause 2, b2n u.mgt.supp.isSome]).trace 12 4).finish m stAborted
        (b2n m.committed + put (min u.mgt.cause 2) 1) []))

/-- The I3C address is assigned and the five MCTP control messages are answered as the sideband endpoint answers them; the
version bytes that the spec does not give are free values. It rests on choices of the model: log entry 50. -/
def Obligations.SidebandEndpoint : Prop :=
  ∀ (s : State), s.pwr.off = 0 →
    (∀ a : Fin 128, exec (.entdaa a) s = .next { s with cfg := { s.cfg with dynAddr := a.val, addrValid := true } }) ∧
    (s.mgt.core = 1 →
      (∀ e : Fin 256, e.val ≠ 0 → e.val ≠ 255 → exec (.setEndpointId e) s = .next { s with
        cfg := { s.cfg with eid := e.val },
        mgt := { s.mgt with lastReply := some ⟨true, 0, stOK, 0, [0, 0, BitVec.ofNat 8 e.val, 0]⟩ } }) ∧
      exec .getEndpointId s = .next { s with
        mgt := { s.mgt with lastReply := some ⟨true, 0, stOK, 0, [0, BitVec.ofNat 8 s.cfg.eid, 0, 0]⟩ } } ∧
      exec .getMessageTypeSupport s = .next { s with
        mgt := { s.mgt with lastReply := some ⟨true, 0, stOK, 0, [0, 1, 0x7E]⟩ } } ∧
      (∀ t : Fin 256, t.val = 0 ∨ t.val = 0x7E ∨ t.val = 0xFF → ∃ v : Nat, exec (.getMctpVersionSupport t) s = .next { s with
        mgt := { s.mgt with lastReply := some ⟨true, 0, stOK, 0, [0, 1] ++ leBytes 4 v⟩ }, draws := s.draws + 1 }) ∧
      (∃ v : Nat, exec (.getVendorDefinedMsgSupport 0) s = .next { s with
        mgt := { s.mgt with lastReply := some ⟨true, 0, stOK, 0, [0, 0xFF, 0, BitVec.ofNat 8 (s.cfg.pciId.getD 0 0 / 256),
          BitVec.ofNat 8 (s.cfg.pciId.getD 0 0)] ++ leBytes 2 v⟩ }, draws := s.draws + 1 }) ∧
      (∀ k : Fin 256, k.val ≠ 0 → exec (.getVendorDefinedMsgSupport k) s = .next { s with
        mgt := { s.mgt with lastReply := some ⟨true, 0, stOK, 0, [2]⟩ } }))

/-- A packet's header is read back from the bytes the packet is sent as: for every packet whose fields fit their places,
whose KIND is defined and on its own virtual channel and that has at most 32 words, the header parsed from the first 16
bytes of its encoding has every field as it was. -/
def Obligations.PacketHeaderRoundTrip : Prop :=
  ∀ k : Packet, k.dst < 2 ^ 14 → k.src < 2 ^ 14 → kindVc k.kind = some k.vc → k.words ≤ 32 → k.chan < 2 ^ 12 →
    k.flow < 2 ^ 12 → k.offset < 2 ^ 41 → k.tag < 2 ^ 16 → k.hops < 2 ^ 4 →
    Packet.ofHeader (leNat (k.bytes.take 16)) = some { k with data := [] }

/-- The timers and events of a port, each acting in the state named: lock, training timeout, the retries of a failed port
and of version agreement, loss of lock in every state, the end and timeout of retraining, the drain timeout, the replay
timeout and the repeated NAK. It rests on choices of the model: log entries 33, 34. -/
def Obligations.PortStatesChange : Prop :=
  ∀ (p : Fin 12) (s : State) (v : Port), v = s.port p.val →
    (v.state = 1 → s.pwr.ready = false →
      exec (.portLock p) s = .next (s.setPort p.val { v with locked := true })) ∧
    (v.state = 1 → s.pwr.ready = true →
      exec (.portLock p) s = .next ((s.setPort p.val { v with locked := true }).portsChange (·.negotiate p.val))) ∧
    (v.state = 1 → v.locked = false → s.due v.since 100 = true →
      exec (.trainingTimeout p) s = .next (s.portsChange (·.portFail p.val))) ∧
    (v.state = 7 → s.portOn p.val = true → s.due v.since 100 = true →
      exec (.failedRetry p) s = .next (s.portsChange (·.train p.val))) ∧
    (v.state = 2 → s.due v.since 100 = true →
      exec (.versionRetry p) s = .next ((s.setPort p.val { v with chosen := none, accept := none }).negotiate p.val)) ∧
    (v.state = 3 ∨ v.state = 4 → exec (.lockLoss p) s = .next (s.portsChange fun t => t.retrain p.val)) ∧
    (v.state = 1 → exec (.lockLoss p) s =
      .next (s.portsChange fun t => t.setPort p.val { v with locked := false, since := t.pwr.time })) ∧
    (v.state = 2 → exec (.lockLoss p) s = .next (s.portsChange fun t => t.train p.val)) ∧
    (v.state = 5 → exec (.lockLoss p) s = .next (s.portsChange fun t => (t.loseReplay p.val false).train p.val)) ∧
    (v.state = 6 → s.pwr.time ≤ v.since + 1000000 → exec (.retrainDone p true) s = .next (s.portsChange fun t =>
      let u := t.portState p.val v.resume
      u.setPort p.val { u.port p.val with replayPos := if v.replay = [] then none else some 0, replays := 0, progressAt := u.pwr.time })) ∧
    (v.state = 6 → exec (.retrainDone p false) s = .next (s.portsChange fun t => t.portFail p.val)) ∧
    (v.state = 6 → v.since + 1000000 ≤ s.pwr.time →
      exec (.retrainTimeout p) s = .next (s.portsChange (·.portFail p.val))) ∧
    (v.state = 5 → v.since + 100000 ≤ s.pwr.time →
      exec (.drainTimeout p) s = .next (s.portsChange fun t => (t.loseReplay p.val false).train p.val)) ∧
    (v.state = 3 ∨ v.state = 4 ∨ v.state = 5 → v.replay ≠ [] → v.progressAt + 1000 ≤ s.pwr.time →
      exec (.replayTimeout p) s = .next (s.startReplay p.val)) ∧
    (v.nak = true → v.nakAt + 1000 ≤ s.pwr.time →
      exec (.nakRepeat p) s = .next (s.setPort p.val { v with nakDue := true, nakAt := s.pwr.time }))

/-- FRAME_TRANSMIT puts what waits on its way and sends a frame; a received frame that decodes is taken and its corrections
counted, one that does not, or is not 896 bytes long, is counted and a replay asked for, and a port that is DISABLED,
RETRAINING or FAILED takes none; a version offer with major 1 is answered with the lower minor and one without it raises its
event; an acceptance is compared with the port's own choice; a link notice drains the port. It rests on choices of the
model: log entries 4, 34. -/
def Obligations.FramesAndControlMessages : Prop :=
  ∀ (p : Fin 12) (s : State),
    exec (.frameTransmit p) s = .next ((s.pump p.val).portsChange (·.sendFrame p.val)) ∧
    (∀ (f body : List Byte) (n : Nat), f.length = 896 → 2 ≤ (s.port p.val).state → (s.port p.val).state ≤ 5 →
      frameDecode f = some (body, n) →
      exec (.frameReceive p f) s = .next ((s.bump64 (po p.val 0x28) n).takeFrame p.val body)) ∧
    (∀ (f : List Byte), f.length ≠ 896 ∨ frameDecode f = none →
      (3 ≤ (s.port p.val).state → (s.port p.val).state ≤ 5 →
        exec (.frameReceive p f) s = .next ((s.bump (po p.val 0x18) 1).askReplay p.val)) ∧
      ((s.port p.val).state = 2 → exec (.frameReceive p f) s = .next (s.bump (po p.val 0x18) 1))) ∧
    (∀ (f : List Byte), (s.port p.val).state = 0 ∨ (s.port p.val).state = 6 ∨ (s.port p.val).state = 7 →
      exec (.frameReceive p f) s = .next s) ∧
    (∀ (m : List Byte) (t u : State) (minor : Nat), (s.port p.val).state = 2 → s.takeCtl p.val 0 = some (m, t) →
      bitAt (leNat ((m.drop 10).take 2)) 1 = true → u = t.setPort p.val { t.port p.val with nbr := some (leNat ((m.drop 1).take 8), leNat ((m.drop 9).take 1)) } →
      minor = min (leNat ((m.drop 13).take 1)) u.linkMinor →
      exec (.versionOffer p) s = .next ((u.setPort p.val { u.port p.val with
        chosen := some (1, minor), ctl := (u.port p.val).ctl ++ [ctlMsg [1, 1, BitVec.ofNat 8 minor]] }).agree p.val)) ∧
    (∀ (m : List Byte) (t : State), (s.port p.val).state = 2 → s.takeCtl p.val 0 = some (m, t) →
      bitAt (leNat ((m.drop 10).take 2)) 1 = false → exec (.versionOffer p) s = .next ((t.setPort p.val
        { t.port p.val with nbr := some (leNat ((m.drop 1).take 8), leNat ((m.drop 9).take 1)) }).evFab 4)) ∧
    (∀ (m : List Byte) (t : State), (s.port p.val).state = 2 → s.takeCtl p.val 1 = some (m, t) →
      exec (.versionAccept p) s = .next ((t.setPort p.val { t.port p.val with
        accept := some ((m.getD 1 0).toNat, (m.getD 2 0).toNat) }).agree p.val)) ∧
    (∀ (m : List Byte) (t : State), s.takeCtl p.val 2 = some (m, t) →
      (t.port p.val).state = 2 ∨ (t.port p.val).state = 3 ∨ (t.port p.val).state = 4 ∨ (t.port p.val).state = 6 →
      exec (.linkNotice p) s = .next (t.portsChange fun u => (u.drainBegin p.val).drainEnd p.val)) ∧
    (∀ u, u = s.portState p.val 5 → s.drainBegin p.val =
      u.setPort p.val { u.port p.val with replayPos := if (u.port p.val).replay = [] then none else some 0 })

/-- A peer's WRITE that its channel allows is stored from a landing buffer and answered, a READ is answered with its data,
and both are refused where the check fails; a COMPLETION or REFUSAL frees the access it answers, delivers its data or fails
its command; an access that has outlived its time fails its command, and its late answer is discarded; a NOTICE is consumed.
A segment of a closed channel is refused, another is discarded, taken by the collective that waits for it, which steps, or
held in a landing buffer; an abort segment likewise. With no such packet at the head of its virtual channel each row changes
nothing. It rests on choices of the model: log entries 28, 30, 31, 35, 65. -/
def Obligations.PeerPacketsArrive : Prop :=
  ((∀ (p : Fin 12) (s t : State) (x : InPkt), s.inbound p.val 0 = some x →
    (∀ f, s.peerCheck x.pkt x.pkt.data.length = .error f →
      exec (.write p) s = .next (((if x.granted then s.freeBufs x.pkt.chan 1 else s).leave p.val x).refuse x.pkt f.st f.detail)) ∧
    (s.peerCheck x.pkt x.pkt.data.length = .ok () → x.granted = false → (s.askBufs x.pkt.chan 1 (.packet x.id)).1 = false →
      exec (.write p) s = .next (s.askBufs x.pkt.chan 1 (.packet x.id)).2) ∧
    (s.peerCheck x.pkt x.pkt.data.length = .ok () → x.granted = true → s.writeWaits x.pkt.offset x.pkt.data.length = true →
      exec (.write p) s = .next ((s.holdWrite (384 + p.val) x.pkt.offset x.pkt.data.length).markGranted p.val x)) ∧
    (s.peerCheck x.pkt x.pkt.data.length = .ok () → x.granted = true → s.writeWaits x.pkt.offset x.pkt.data.length = false →
      t = (s.memWrite x.pkt.offset x.pkt.data).freeBufs x.pkt.chan 1 →
      exec (.write p) s = .next (((t.bump64 (bo x.pkt.chan 0x30) x.pkt.data.length).leave p.val x).sendReply (t.completionOf x.pkt [])))) ∧
  (∀ (p : Fin 12) (s t : State) (x : InPkt) (bs : List Byte), s.inbound p.val 1 = some x →
    (∀ f, s.peerCheck x.pkt (8 * x.pkt.words) = .error f → exec (.read p) s = .next ((s.leave p.val x).refuse x.pkt f.st f.detail)) ∧
    (s.peerCheck x.pkt (8 * x.pkt.words) = .ok () → s.accessWaits x.pkt.offset (8 * x.pkt.words) = true → exec (.read p) s = .next s) ∧
    (s.peerCheck x.pkt (8 * x.pkt.words) = .ok () → s.accessWaits x.pkt.offset (8 * x.pkt.words) = false →
      s.memRead .other x.pkt.offset (8 * x.pkt.words) = (.bytes bs, t) →
      exec (.read p) s = .next ((t.leave p.val x).sendReply (t.completionOf x.pkt bs)))) ∧
  (∀ (p : Fin 12) (s t u : State) (x : InPkt) (g : PeerTag), s.inbound p.val 2 = some x → t = s.leave p.val x →
    (t.peerTag x.pkt.tag = none → exec (.completion p) s = .next (t.tagLate x.pkt.tag)) ∧
    (t.peerTag x.pkt.tag = some g → peerId g.req.addr ≠ x.pkt.src → exec (.completion p) s = .next t) ∧
    (t.peerTag x.pkt.tag = some g → peerId g.req.addr = x.pkt.src → 384 ≤ g.req.queue →
      exec (.completion p) s = .next (t.tagBack x.pkt.tag g)) ∧
    (t.peerTag x.pkt.tag = some g → peerId g.req.addr = x.pkt.src → g.req.bytes.isSome = true → g.req.queue < 384 →
      u = t.tagBack x.pkt.tag g →
      exec (.completion p) s = .next (u.setQ g.req.queue { u.q g.req.queue with acks := (u.q g.req.queue).acks - 1 })) ∧
    (t.peerTag x.pkt.tag = some g → peerId g.req.addr = x.pkt.src → g.req.bytes = none → g.req.queue < 384 →
      u = { t.tagBack x.pkt.tag g with hif := { (t.tagBack x.pkt.tag g).hif with
        ext := tputs zeroB (t.tagBack x.pkt.tag g).hif.ext g.req.addr ((x.pkt.data.drop (g.req.addr % 8)).take g.req.len) } } →
      exec (.completion p) s = .next ((u.setQ g.req.queue { u.q g.req.queue with
        have_ := (u.q g.req.queue).have_ ++ [(g.req.addr, g.req.len)] }).bump64 (bo (u.chan g.req.queue) 0x30) g.req.len))) ∧
  (∀ (p : Fin 12) (s t : State) (x : InPkt) (g : PeerTag), s.inbound p.val 3 = some x → t = s.leave p.val x →
    (0x8000 ≤ x.pkt.tag → exec (.refusal p) s = .next (t.rankLost (x.pkt.flow % 16) (x.pkt.tag - 0x8000) 0)) ∧
    (x.pkt.tag < 0x8000 → t.peerTag x.pkt.tag = none → exec (.refusal p) s = .next (t.tagLate x.pkt.tag)) ∧
    (x.pkt.tag < 0x8000 → t.peerTag x.pkt.tag = some g →
      exec (.refusal p) s = .next ((t.tagBack x.pkt.tag g).peerLost g.req (BitVec.ofNat 8 (leNat (x.pkt.data.take 8)))
        (fld (leNat (x.pkt.data.take 8)) 63 32)))) ∧
  (∀ (tag : Fin 16384) (s : State) (g : PeerTag), s.peerTag tag.val = some g →
    (s.due g.since (s.rd 0xD0002C) = false → exec (.cplTimeout tag) s = .next s) ∧
    (∀ t u, s.due g.since (s.rd 0xD0002C) = true → t = s.tagBack tag.val g →
      u = { t with fab := { t.fab with stale := t.fab.stale ++ [tag.val] } } →
      exec (.cplTimeout tag) s = .next (u.peerLost g.req stPeer (peerDetail (peerId g.req.addr) 1)))) ∧
  (∀ (p : Fin 12) (s : State), s.mgt.core = 1 →
    (∀ x, s.inbound p.val 5 = some x → exec (.notice p) s = .next (s.leave p.val x)) ∧
    (s.inbound p.val 5 = none → exec (.notice p) s = .next s)) ∧
  (∀ (p : Fin 12) (s : State),
    (s.inbound p.val 0 = none → exec (.write p) s = .next s) ∧ (s.inbound p.val 1 = none → exec (.read p) s = .next s) ∧
    (s.inbound p.val 2 = none → exec (.completion p) s = .next s) ∧ (s.inbound p.val 3 = none → exec (.refusal p) s = .next s))) ∧
  ((∀ (p : Fin 12) (flt : Bool) (s t : State) (x : InPkt) (g : Seg), s.inbound p.val 4 = some x → Seg.of x.pkt.data = some g →
    t = (if x.granted then s.freeBufs x.pkt.chan 1 else s).leave p.val x →
    (s.chanOpen x.pkt.chan = false →
      (g.kind ≠ 4 → exec (.segment p flt) s = .next (t.refuse x.pkt stPeer (peerDetail s.fab.id 2))) ∧
      (g.kind = 4 → exec (.abortSegment p) s = .next (t.refuse x.pkt stPeer (peerDetail s.fab.id 2)))) ∧
    (s.chanOpen x.pkt.chan = true → s.segFate g = .discard →
      (g.kind ≠ 4 → exec (.segment p flt) s = .next t) ∧ (g.kind = 4 → exec (.abortSegment p) s = .next t)) ∧
    (∀ (w : Bool) (u : State), s.chanOpen x.pkt.chan = true → s.segFate g ≠ .discard →
      (w, u) = (if x.granted then (true, s) else s.askBufs x.pkt.chan 1 (.packet x.id)) →
      (w = false → (g.kind ≠ 4 → exec (.segment p flt) s = .next u) ∧ (g.kind = 4 → exec (.abortSegment p) s = .next u)) ∧
      (∀ r v, w = true → (u.leave p.val x).segFate g = .take r → v = ((u.leave p.val x).freeBufs x.pkt.chan 1).xTake r g →
        (g.kind ≠ 4 → exec (.segment p flt) s = .next (if (v.xRun r.queue).isSome then v.xStep r.queue flt else v)) ∧
        (g.kind = 4 → exec (.abortSegment p) s = .next (if (v.xRun r.queue).isSome then v.xStep r.queue false else v))) ∧
      (∀ v, w = true → (u.leave p.val x).segFate g = .hold → v = u.leave p.val x → g.kind ≠ 4 →
        exec (.segment p flt) s = .next { v with xch := { v.xch with held := v.xch.held ++ [⟨g, x.pkt.chan⟩] } })) ∧
    (g.kind = 4 → exec (.segment p flt) s = .next s) ∧ (g.kind ≠ 4 → exec (.abortSegment p) s = .next s)) ∧
  (∀ (p : Fin 12) (flt : Bool) (s : State), s.inbound p.val 4 = none →
    exec (.segment p flt) s = .next s ∧ exec (.abortSegment p) s = .next s))

/-- R266, R267: discovery. An LSA newer than what the database holds, of another module, is stored, flooded on the other
ports and may take the module's ID; an older one only leaves; the module advertises itself again each LSA_REFRESH and
forgets a module three times that old; a database that has not changed for the settling time is settled, logged, and ends
start-up the first time. It rests on choices of the model: log entries 32, 59. -/
def Obligations.DiscoveryActs : Prop :=
  (∀ (p : Fin 12) (s t : State) (x : InPkt) (e : LsaEntry), s.mgt.core = 1 → s.inbound p.val 6 = some x → t = s.leave p.val x →
    e = LsaEntry.of x.pkt.data t.pwr.time →
    (t.discovering = false ∨ e.serial = t.serialNo → exec (.lsa p) s = .next t) ∧
    (∀ y, t.fab.db.find? (fun y => y.serial == e.serial) = some y → gtMod e.seq y.seq = false → exec (.lsa p) s = .next t) ∧
    (t.discovering = true → e.serial ≠ t.serialNo →
      (∀ y, t.fab.db.find? (fun y => y.serial == e.serial) = some y → gtMod e.seq y.seq = true) →
      exec (.lsa p) s = .next (((t.dbPut e).flood ((t.dbPut e).vc3Ports.filter (· != p.val)) x.pkt).conflict))) ∧
  (∀ (p : Fin 12) (s : State), s.inbound p.val 6 = none → exec (.lsa p) s = .next s) ∧
  (∀ (s : State), s.mgt.core = 1 →
    (s.due s.fab.lsaAt (s.rd 0xD00028) = false → exec .lsaRefresh s = .next s) ∧
    (s.due s.fab.lsaAt (s.rd 0xD00028) = true → s.discovering = false → exec .lsaRefresh s = .next s) ∧
    (∀ (t : State), s.due s.fab.lsaAt (s.rd 0xD00028) = true → s.discovering = true →
      t = { s with fab := { s.fab with lsaSeq := s.fab.lsaSeq + 1, lsaAt := s.pwr.time } } →
      exec .lsaRefresh s = .next ((t.dbPut t.ownEntry).flood (t.dbPut t.ownEntry).vc3Ports ((t.dbPut t.ownEntry).lsaPacket t.ownEntry)))) ∧
  (∀ (serial : W64) (s : State) (e : LsaEntry), s.mgt.core = 1 → s.fab.db.find? (fun e => e.serial == serial.toNat) = some e →
    (serial.toNat = s.serialNo ∨ s.due e.seen (3 * s.rd 0xD00028) = false → exec (.lsaExpiry serial) s = .next s) ∧
    (serial.toNat ≠ s.serialNo → s.due e.seen (3 * s.rd 0xD00028) = true → exec (.lsaExpiry serial) s =
      .next ({ s with fab := { s.fab with db := s.fab.db.filter fun x => x.serial != serial.toNat } } : State).dbChanged)) ∧
  (∀ (serial : W64) (s : State), s.fab.db.find? (fun e => e.serial == serial.toNat) = none → exec (.lsaExpiry serial) s = .next s) ∧
  (∀ (s t : State), s.mgt.core = 1 → t = s.settle →
    (t.fab.settled = false ∨ s.fab.settled = true → exec .databaseSettled s = .next t) ∧
    (t.fab.settled = true → s.fab.settled = false → ∀ u,
      u = (t.logWrite 0x000A 0 [t.fab.db.length, t.fab.leader.getD 0 % 4294967296]).trace 4 4 →
      exec .databaseSettled s = .next (if u.pwr.step = 8 then u.stepReached 9 else u)))

/-- R267: the ID a leader grants is the lowest that no module holds; a grant is taken by the module it names unless that
module has an ID or is configured with one, and is flooded once by the others. It rests on choices of the model: log entry
32. -/
def Obligations.GrantedIdIsLowest : Prop :=
  (∀ (used : List Nat) (i : Nat), freeId used = some i ↔ i < 16384 ∧ i ∉ used ∧ ∀ j < i, j ∈ used) ∧
  (∀ (used : List Nat), freeId used = none ↔ ∀ j < 16384, j ∈ used) ∧
  (∀ (p : Fin 12) (s t : State) (x : InPkt) (n : Nat), s.mgt.core = 1 → s.inbound p.val 7 = some x → t = s.leave p.val x →
    n = leNat (x.pkt.data.take 8) →
    (∀ u, n = t.serialNo → u = t.useT 0xD00008 → u.hasId = true ∨ bitAt (u.rdT 0xD00008) 15 = true →
      exec (.idGrant p) s = .next u) ∧
    (∀ u, n = t.serialNo → u = t.useT 0xD00008 → u.hasId = false → bitAt (u.rdT 0xD00008) 15 = false → exec (.idGrant p) s =
      .next (({ u with fab := { u.fab with id := x.pkt.dst, idSrc := 2 } } : State).advertise).conflict) ∧
    (n ≠ t.serialNo → (n, x.pkt.dst) ∈ t.fab.grants → exec (.idGrant p) s = .next t) ∧
    (n ≠ t.serialNo → (n, x.pkt.dst) ∉ t.fab.grants → exec (.idGrant p) s =
      .next (({ t with fab := { t.fab with grants := t.fab.grants ++ [(n, x.pkt.dst)] } } : State).flood
        (t.vc3Ports.filter (· != p.val)) x.pkt))) ∧
  (∀ (p : Fin 12) (s : State), s.inbound p.val 7 = none → exec (.idGrant p) s = .next s)

/-- R272: SWAP, COPY and COPY_DONE. A swap exchanges the two routing tables, counts, raises its event and admits the
PROBATION ports, unless a copy is in progress, which only flags it; a copy begins, and at its end the shadow table is equal
to the active one. With the BARs closed the host's two actions are answered with Unsupported Request. It rests on choices of
the model: log entry 33. -/
def Obligations.RoutesCommanded : Prop :=
  (∀ (s : State), s.barOpen = false → exec .swap s = .next s.barRefuse ∧ exec .copy s = .next s.barRefuse) ∧
  (∀ (s : State), s.barOpen = true → s.fab.copying = true → exec .swap s = .next (s.evFab 6)) ∧
  (∀ (s t : State), s.barOpen = true → s.fab.copying = false →
    t = (({ s with fab := { s.fab with active := !s.fab.active } } : State).bumpWrap 0xD00040).evFab 7 →
    exec .swap s = .next (s.portsChange fun _ =>
      portList.foldl (fun v p => if (v.port p).state = 3 ∧ v.portAdmit p then v.portState p 4 else v) t)) ∧
  (∀ (s : State), s.barOpen = true → exec .copy s = .next { s with fab := { s.fab with copying := true } }) ∧
  (∀ (s : State), s.fab.copying = false → exec .copyDone s = .next s) ∧
  (∀ (s : State), s.fab.copying = true → ∃ t, exec .copyDone s = .next t ∧
    t.fab.copying = false ∧ t.rtShadow = s.rtActive ∧ t.rtActive = s.rtActive ∧ OnlyChanges [.fab] s t)

/-- R265, R273, Table 10.8: PORT_RESET and PORT_ENABLE_WRITE. A reset drains a port that is neither DISABLED nor DRAINING;
an enable starts a DISABLED port training once configuration requests are let through and outside recovery; a disable
empties the port, whose frames and packets in flight are lost. With the BARs closed both are answered with Unsupported
Request. It rests on choices of the model: log entry 34. -/
def Obligations.PortsCommanded : Prop :=
  (∀ (p : Fin 12) (en : Bool) (s : State), s.barOpen = false →
    exec (.portReset p) s = .next s.barRefuse ∧ exec (.portEnableWrite p en) s = .next s.barRefuse) ∧
  (∀ (p : Fin 12) (s : State), s.barOpen = true →
    ((s.port p.val).state = 0 ∨ (s.port p.val).state = 5 → exec (.portReset p) s = .next s) ∧
    ((s.port p.val).state ≠ 0 → (s.port p.val).state ≠ 5 →
      exec (.portReset p) s = .next (s.portsChange fun v => v.drain p.val 0))) ∧
  (∀ (p : Fin 12) (s t : State), s.barOpen = true → t = s.setReg (po p.val 0) (s.rd (po p.val 0) / 2 * 2 + 1) →
    ((s.port p.val).state = 0 → s.hif.rrs = false → s.cfg.recovery = false →
      exec (.portEnableWrite p true) s = .next (s.byWrite fun _ => t.portsChange fun u => u.train p.val)) ∧
    ((s.port p.val).state ≠ 0 ∨ s.hif.rrs = true ∨ s.cfg.recovery = true →
      exec (.portEnableWrite p true) s = .next (s.byWrite fun _ => t))) ∧
  (∀ (p : Fin 12) (s t : State), s.barOpen = true → t = s.setReg (po p.val 0) (s.rd (po p.val 0) / 2 * 2) →
    ((s.port p.val).state = 0 → exec (.portEnableWrite p false) s = .next (s.byWrite fun _ => t)) ∧
    ((s.port p.val).state ≠ 0 → exec (.portEnableWrite p false) s = .next (s.byWrite fun _ => t.portsChange fun u =>
      ((u.loseReplay p.val true).portState p.val 0).setPort p.val { Port.reset with
        since := ((u.loseReplay p.val true).portState p.val 0).pwr.time,
        inq := (((u.loseReplay p.val true).portState p.val 0).port p.val).inq })))

/-- MM_PRODUCT and MM_COMBINE fail at their first failed check, end at once when there is nothing to compute, and else start
their run of work items. MM_ACC_OPEN binds a handle on the lowest-numbered cluster with a free slot, at zero or loaded with
its count of non-finite values, or fails with QUOTA_EXCEEDED; MM_ACC_FLUSH stores or discards a handle, or fails at a
residue fault. It rests on choices of the model: log entries 5, 7, 20, 67. -/
def Obligations.MatrixCommandsStart : Prop :=
  (∀ (q : QId) (s : State) (c : Cmd), s.matRun q.val = none →
    (s.running q.val 0x1001 = some c →
      (∀ f, s.mmFields c = .error f → exec (.mmProduct q) s = .next (s.matFail q.val f)) ∧
      (s.mmFields c = .ok () →
        (fld (c.p 0) 23 0 = 0 ∨ fld (c.p 0) 47 24 = 0 → exec (.mmProduct q) s = .next (s.endCmd q.val stOK 0)) ∧
        (fld (c.p 0) 23 0 ≠ 0 → fld (c.p 0) 47 24 ≠ 0 →
          (∀ f, s.access q.val (mmOperands c (fld (c.p 1) 38 32)) = .error f →
            exec (.mmProduct q) s = .next (s.matFail q.val f)) ∧
          (∀ as d t, s.access q.val (mmOperands c (fld (c.p 1) 38 32)) = .ok as →
            s.takeSnap q.val (mmPlan q.val c as).d = (.ok d, t) →
            exec (.mmProduct q) s = .next (t.setRun { (mmPlan q.val c as) with d := d }))))) ∧
    (s.running q.val 0x1002 = some c →
      (∀ f, mcFields c = .error f → exec (.mmCombine q) s = .next (s.matFail q.val f)) ∧
      (mcFields c = .ok () →
        (fld (c.p 0) 23 0 = 0 ∨ fld (c.p 0) 47 24 = 0 ∨ fld (c.p 1) 6 0 = 0 →
          exec (.mmCombine q) s = .next (s.endCmd q.val stOK 0)) ∧
        (∀ m n k ps ds, m = fld (c.p 0) 23 0 → n = fld (c.p 0) 47 24 → k = fld (c.p 1) 6 0 → m ≠ 0 → n ≠ 0 → k ≠ 0 →
          ps = (⟨c.p 2, pitchOf c 3, k * m, n, fp32Fmt, 2, 2, 3, false, false, false⟩ : Opnd) →
          ds = (⟨c.p 4, pitchOf c 6, m, n, Fmt.of (c.p 5), 4, 5, 6, true, false, true⟩ : Opnd) →
          (∀ f, s.access q.val [ps, ds] = .error f → exec (.mmCombine q) s = .next (s.matFail q.val f)) ∧
          (∀ as d t, s.access q.val [ps, ds] = .ok as → s.takeSnap q.val (mcPlan q.val c as).d = (.ok d, t) →
            exec (.mmCombine q) s = .next (t.setRun { (mcPlan q.val c as) with d := d })))))) ∧
  (∀ (q : QId) (flt : Option (Fin 8)) (s : State) (c : Cmd),
    (s.running q.val 0x1003 = some c →
      (∀ f, s.openFields c = .error f → exec (.mmAccOpen q) s = .next (s.matFail q.val f)) ∧
      (s.openFields c = .ok () → bitAt (c.p 0) 8 = false →
        (s.openCluster = none → exec (.mmAccOpen q) s =
          .next ((s.evMat 2).failCmd q.val ⟨stQuota, s.handlesOpen + s.handleCap * 256⟩)) ∧
        (∀ k, s.openCluster = some k → exec (.mmAccOpen q) s =
          .next ((s.setHandle (fld (c.p 0) 7 0) (some ⟨k, s.freeSlot k, fld (c.p 0) 23 16, fld (c.p 0) 31 24, false,
            List.replicate (fld (c.p 0) 23 16) (List.replicate (fld (c.p 0) 31 24) f32zero)⟩)).endCmd q.val stOK 0))) ∧
      (∀ as v n t k, s.openFields c = .ok () → bitAt (c.p 0) 8 = true →
        s.access q.val [opnd3 c 1 (fld (c.p 0) 23 16) (fld (c.p 0) 31 24) false false] = .ok as →
        (s.onPort q.val (s.openCluster.getD 0)).readRows q.val 0 (as.getD 0 Acc.none) (List.range (fld (c.p 0) 23 16)) 0 (fld (c.p 0) 31 24) = (.ok (v, n), t) →
        t.openCluster = some k → exec (.mmAccOpen q) s =
          .next (((t.matNf k n).setHandle (fld (c.p 0) 7 0) (some ⟨k, t.freeSlot k, fld (c.p 0) 23 16, fld (c.p 0) 31 24, false,
            v.map (·.map elem32)⟩)).endCmd q.val stOK 0))) ∧
    (s.running q.val 0x1004 = some c →
      (∀ f, s.flushFields c = .error f → exec (.mmAccFlush ⟨q, flt⟩) s = .next (s.matFail q.val f)) ∧
      (∀ h, s.flushFields c = .ok () → s.handle (fld (c.p 0) 7 0) = some h →
        (bitAt (c.p 0) 11 = true → exec (.mmAccFlush ⟨q, flt⟩) s =
          .next ((s.setHandle (fld (c.p 0) 7 0) none).endCmd q.val stOK 0)) ∧
        (bitAt (c.p 0) 11 = false →
          (∀ f, s.access q.val [opnd3 c 1 h.mh h.nh true false] = .error f →
            exec (.mmAccFlush ⟨q, flt⟩) s = .next (s.matFail q.val f)) ∧
          (∀ as a t v u, s.access q.val [opnd3 c 1 h.mh h.nh true false] = .ok as →
            s.takeSnap q.val (as.getD 0 Acc.none) = (.ok a, t) → t.rowsWait a (List.range h.mh) 0 h.nh = false →
            (t.onPort q.val h.cluster).flushVals q.val (bitAt (c.p 0) 8) a h = (.ok v, u) →
            ((∀ p, flt = some p → ¬ (p.val % 4 = 1 ∨ p.val % 4 = 2)) → exec (.mmAccFlush ⟨q, flt⟩) s =
              .next (u.flushStore q.val (fld (c.p 0) 7 0) (bitAt (c.p 0) 9) (bitAt (c.p 0) 10) a h v)) ∧
            (∀ p, flt = some p → (p.val % 4 = 1 ∨ p.val % 4 = 2) → exec (.mmAccFlush ⟨q, flt⟩) s =
              .next (u.flushResidue q.val a h p.val v)))))))

/-- R91, R92, R95, R101, R109, R110: a free, awake cluster takes the next work item of the first run that may use it, and
completes it with its result delivered or with its fault; a gated cluster wakes. It rests on choices of the model: log
entries 6, 7, 8, 20. -/
def Obligations.WorkItemsRun : Prop :=
  (∀ (c : Fin 64) (s : State), s.issueAllowed = true →
    (∀ x, (s.mat.runs.findSome? fun r => (s.orphan r).map fun f => (r.queue, f)) = some x →
      exec (.workItemIssue c) s = .next ((s.dropRun x.1).matFail x.1 x.2)) ∧
    ((s.mat.runs.findSome? fun r => (s.orphan r).map fun f => (r.queue, f)) = none →
      s.clFree c.val = true → tget noFlag s.mat.gated c.val = false →
      (s.mat.runs.find? (s.clTakes c.val) = none → exec (.workItemIssue c) s = .next s) ∧
      (∀ r, s.mat.runs.find? (s.clTakes c.val) = some r → exec (.workItemIssue c) s =
        .next (({ s with mat := { s.mat with items := tput noneD s.mat.items c.val (some (r.item r.next)) } } : State).setRun
          { r with next := r.next + 1 })))) ∧
  (∀ (c : Fin 64) (s : State), s.issueAllowed = false → exec (.workItemIssue c) s = .next s) ∧
  (∀ (c : Fin 64) (flt : Option (Fin 10)) (s t u : State) (i : MatItem) (r : MatRun) (ms ns : List Nat) (x : ItemRes),
    s.clItem c.val = some i → s.matRun i.queue = some r →
    ms = tileRange (i.t / tilesAcross r.n) r.m → ns = tileRange (i.t % tilesAcross r.n) r.n →
    (∀ p, flt = some p → 8 ≤ p.val → exec (.workItemComplete c flt) s = .next (s.itemSram c.val r i (p.val - 8))) ∧
    ((∀ p, flt = some p → p.val < 8) →
    (s.deliverWaits r i ms ns = true → exec (.workItemComplete c flt) s = .next (s.deliverHold r i ms ns)) ∧
    (s.deliverWaits r i ms ns = false →
      (match r.kind with
        | .product => (s.onPort i.queue c.val).productItem r i ms ns
        | .combine => (s.onPort i.queue c.val).combineItem r i ms ns) = (x, t) →
      (x = .error .wait → exec (.workItemComplete c flt) s = .next ((s.onPort i.queue c.val).itemWaits t i.queue c.val r)) ∧
      (∀ f, x = .error (.fail f) → exec (.workItemComplete c flt) s = .next (t.itemFail c.val r f)) ∧
      (∀ rows n, x = .ok (rows, n) →
        (∀ p, flt = some p → p.val % 4 ∈ r.points i → exec (.workItemComplete c flt) s =
          .next ((t.matNf c.val n).itemResidue c.val r i p.val ms ns rows)) ∧
        ((∀ p, flt = some p → p.val % 4 ∉ r.points i) →
          u = ((t.matNf c.val n).bump64 (0x610010 + 0x20 * c.val) 1).bump64 (0x610018 + 0x20 * c.val)
            (Config.beats (t.matNf c.val n).draws).toNat →
          exec (.workItemComplete c flt) s = .next (((u.draw.deliver r c.val i ms ns rows).clDone c.val).runEnd i.queue)))))) ∧
  (∀ (c : Fin 64) (s : State), tget noFlag s.mat.gated c.val = true → exec (.clusterWake c) s =
    .next { s with mat := { s.mat with gated := tput noFlag s.mat.gated c.val false } })

/-- R113, R119 to R131: each vector command fails at its first failed check, ends at once with nothing to do, and else
starts its run. It rests on choices of the model: log entries 5, 21. -/
def Obligations.VectorCommandsStart : Prop :=
  ∀ (q : QId) (s : State) (c : Cmd) (x : Nat × (QId → Instr)),
    x ∈ [(0x2001, Instr.vxConvert), (0x2002, Instr.vxEltwise), (0x2003, Instr.vxReduce), (0x2004, Instr.vxNorm),
      (0x2005, Instr.vxSoftmax), (0x2006, Instr.vxOptDelayed)] →
    s.running q.val x.1 = some c → s.vecRun q.val = none →
    (∀ f, vFields c = .error f → exec (x.2 q) s = .next (s.failCmd q.val f)) ∧
    (vFields c = .ok () → vNothing c = true → exec (x.2 q) s = .next (s.endCmd q.val stOK 0)) ∧
    (vFields c = .ok () → vNothing c = false →
      (∀ f, s.vAccess q.val c = .error f → exec (x.2 q) s = .next ((s.noteBme f).failCmd q.val f)) ∧
      (∀ as, s.vAccess q.val c = .ok as →
        (∀ t, s.snapAll q.val (vTide c as) = (.error .wait, t) → exec (x.2 q) s = .next t) ∧
        (∀ f t, s.snapAll q.val (vTide c as) = (.error (.fail f), t) → exec (x.2 q) s = .next (t.failCmd q.val f)) ∧
        (∀ bs t, s.snapAll q.val (vTide c as) = (.ok bs, t) → exec (x.2 q) s = .next (t.setVRun
          { queue := q.val, op := x.1, total := vTotal c, n := vN c, accs := bs,
            quads := c.quads, undef := vClash c bs, next := 0, done := 0, skipped := 0, cols := [], fail := none, asker := none }))))

/-- R113, R114, R133: rows on quadrants: a free, awake quadrant takes the next row of the first run that may use it, and at
its end the row's results are stored or its fault fails the command; a gated quadrant wakes. It rests on choices of the
model: log entries 6, 7, 21. -/
def Obligations.VectorRowsRun : Prop :=
  (∀ (d : Fin 4) (s : State), s.qdItem d.val = none → tget noFlag s.vec.gated d.val = false →
    (s.vec.runs.find? (VecRun.takes d.val) = none → exec (.vecRowIssue d) s = .next s) ∧
    (∀ r, s.vec.runs.find? (VecRun.takes d.val) = some r → exec (.vecRowIssue d) s =
      .next ((s.setQd d.val (some ⟨r.queue, r.next, false⟩)).setVRun { r with next := r.next + 1 }))) ∧
  (∀ (d : Fin 4) (flt : Option (Fin 9)) (s : State) (i : VecItem) (r : VecRun) (c : Cmd) (k : Option Nat),
    s.qdItem d.val = some i → s.vecRun i.queue = some r → (s.q i.queue).cmd = some c →
    k = (flt.map Fin.val).filter (fun p => (vPoints c).contains (p % 3)) →
    (flt = some 8 → exec (.vecRowEnd d flt) s = .next (s.vSram d.val r i.idx)) ∧
    (flt ≠ some 8 → c.op = 0x2006 → exec (.vecRowEnd d flt) s = .next (s.vChunkEnd d.val c r i k)) ∧
    (flt ≠ some 8 → c.op = 0x2003 → bitAt (c.p 1) 4 = true → exec (.vecRowEnd d flt) s = .next (s.vColEnd d.val c r i.idx k)) ∧
    (∀ v n t o, flt ≠ some 8 → c.op ≠ 0x2006 → ¬ (c.op = 0x2003 ∧ bitAt (c.p 1) 4 = true) →
      (s.onPort r.queue d.val).vRowsOf r.queue i.idx (vReads c r i.idx) = (.ok (v, n), t) → o = lseOuts c r (vCompute c i.idx v) →
      (o.2.any (t.vWaits r) = true → exec (.vecRowEnd d flt) s = .next (t.vHold r o.2)) ∧
      (o.2.any (t.vWaits r) = false → k = none → exec (.vecRowEnd d flt) s =
        .next ((o.2.foldl (fun u x => u.vStore d.val r x) (t.vecNf d.val n)).vDone d.val o.1)) ∧
      (∀ p y, o.2.any (t.vWaits r) = false → k = some p → y = (t.vecNf d.val n).vResidue d.val i.idx (p % 3) →
        exec (.vecRowEnd d flt) s = .next (y.2.vFail d.val r y.1))) ∧
    (∀ f t, flt ≠ some 8 → c.op ≠ 0x2006 → ¬ (c.op = 0x2003 ∧ bitAt (c.p 1) 4 = true) →
      (s.onPort r.queue d.val).vRowsOf r.queue i.idx (vReads c r i.idx) = (.error (.fail f), t) →
      exec (.vecRowEnd d flt) s = .next (t.vFail d.val r f))) ∧
  (∀ (d : Fin 4) (s : State), tget noFlag s.vec.gated d.val = true → exec (.quadrantWake d) s =
    .next { s with vec := { s.vec with gated := tput noFlag s.vec.gated d.val false } })

/-- Each near-bank command fails at its first failed check, ends at once with nothing to do, and else starts its run; a
stack issues its next row index to the units that have work in it, except that while a matrix cluster is busy or
NBU_CAP.ALWAYS is 1 the power arbiter may hold it instead, and does hold it where the row would exceed the cap, which raises
CAP_HELD and moves nothing; a unit ends its row operation with its fault if it has one, the lowest pair of the row naming
the failure, and counts its column bytes; a repair moves the banks left, carries the poison of the group's words along and
switches its entry of the map. It rests on choices of the model: log entries 6, 7, 8, 27, 58. -/
def Obligations.NearBankCommandsRun : Prop :=
  (∀ (q : QId) (s : State) (c : Cmd),
    (s.running q.val 0x3001 = some c →
      (s.nbRun q.val ≠ none → exec (.nbFerry q) s = .next (s.nbAdvance q.val)) ∧
      (s.nbRun q.val = none →
        (∀ f, ferryFields c = .error f → exec (.nbFerry q) s = .next (s.nbFail q.val f)) ∧
        (ferryFields c = .ok () → fld (c.p 0) 7 0 = 0 ∨ fld (c.p 0) 63 48 = 0 ∨ fld (c.p 0) 13 8 = 0 →
          exec (.nbFerry q) s = .next (s.endCmd q.val stOK 0)) ∧
        (ferryFields c = .ok () → fld (c.p 0) 7 0 ≠ 0 → fld (c.p 0) 63 48 ≠ 0 → fld (c.p 0) 13 8 ≠ 0 →
          (∀ f, s.ferryAddrs q.val c = .error f → exec (.nbFerry q) s = .next (s.nbFail q.val f)) ∧
          (s.ferryAddrs q.val c = .ok () → exec (.nbFerry q) s = .next (s.ferryStart q.val c))))) ∧
    (s.running q.val 0x3002 = some c → s.nbRun q.val = none →
      (∀ f, optFields c = .error f → exec (.nbOptimize q) s = .next (s.nbFail q.val f)) ∧
      (optFields c = .ok () → fld (c.p 0) 7 0 = 0 ∨ fld (c.p 1) 29 0 = 0 → exec (.nbOptimize q) s = .next (s.endCmd q.val stOK 0)) ∧
      (optFields c = .ok () → fld (c.p 0) 7 0 ≠ 0 → fld (c.p 1) 29 0 ≠ 0 →
        (∀ f, s.optChecks q.val c = .error f → exec (.nbOptimize q) s = .next (s.nbFail q.val f)) ∧
        (s.optChecks q.val c = .ok () → exec (.nbOptimize q) s = .next ((s.optStart q.val c).nbAdvance q.val)))) ∧
    (s.running q.val 0x3003 = some c → s.nbRun q.val = none →
      (∀ f, s.attChecks q.val c = .error f → exec (.nbAttend q) s = .next (s.nbFail q.val f)) ∧
      (s.attChecks q.val c = .ok () → fld (c.p 0) 7 0 = 0 ∨ fld (c.p 0) 31 16 = 0 →
        exec (.nbAttend q) s = .next (s.endCmd q.val stOK 0)) ∧
      (s.attChecks q.val c = .ok () → fld (c.p 0) 7 0 ≠ 0 → fld (c.p 0) 31 16 ≠ 0 → exec (.nbAttend q) s =
        .next ((s.setNRun (newRun q.val 0x3003 [])).attLoad q.val c (newRun q.val 0x3003 [])))) ∧
    (∀ r, s.running q.val 0x3003 = some c → s.nbRun q.val = some r → r.loaded = false →
      exec (.nbAttend q) s = .next (s.attLoad q.val c r)) ∧
    (s.running q.val 0x3004 = some c → s.nbRun q.val = none →
      (∀ f, s.repairCheck q.val c = .error f → exec (.nbRepair q) s = .next (s.nbFail q.val f)) ∧
      (s.repairCheck q.val c = .ok () → exec (.nbRepair q) s =
        .next ((s.setNRun (newRun q.val 0x3004 [⟨fld (c.p 0) 10 0 / 256, 0, 0, 16, [], none⟩])).setHold (8 * fld (c.p 0) 10 0) 0 true))) ∧
    (∀ r, s.running q.val 0x3004 = some c → s.nbRun q.val = some r →
      exec (.nbRepair q) s = .next (s.repairNext r (fld (c.p 0) 10 0)))) ∧
  ((∀ (k : Fin 8) (s : State) (r : NbRun) (x y : NbStack) (c : Cmd) (go : State → State),
    s.nbu.runs.find? (fun r => !r.stopping && (r.op != 0x3003 || r.loaded) &&
      r.stackRuns.any fun x => x.stack == k.val && x.todo.isEmpty && decide (x.next < x.stop)) = some r →
    r.stackRuns.find? (fun x => x.stack == k.val) = some x → (s.q r.queue).cmd = some c →
    y = { x with cur := x.next, next := x.next + 1, todo := nbWork c r k.val x.next } →
    go = (fun u => if (nbWork c r k.val x.next).isEmpty
      then (((nbWork c r k.val x.next).foldl (fun u p => u.setHold p x.next true) (u.setNRun (r.setStack y))).rowDone r y).nbAdvance r.queue
      else (nbWork c r k.val x.next).foldl (fun u p => u.setHold p x.next true) (u.setNRun (r.setStack y))) →
    (s.rbit 0xA00008 8 = false → (s.mat.items.any fun e => e.2.isSome) = false →
      exec (.rowIndexIssue k) s = .next (go (s.setCapHeld k.val false))) ∧
    (s.rbit 0xA00008 8 = true ∨ (s.mat.items.any fun e => e.2.isSome) = true →
      (exec (.rowIndexIssue k) s = .next ((s.setCapHeld k.val true).draw.evNbu 5) ∨
        exec (.rowIndexIssue k) s = .next (go (s.setCapHeld k.val false).draw)) ∧
      (∀ n, n = ((nbWork c r k.val x.next).map fun p => colBytes c r (Config.beats s.draws).toNat p x.next).sum →
        s.colsNow k.val ≠ 0 → s.rf 0xA00008 7 0 * 1250000 ≤ s.colsNow k.val + n →
        exec (.rowIndexIssue k) s = .next ((s.setCapHeld k.val true).draw.evNbu 5)))) ∧
  (∀ (u : Fin 16384) (flt : Option (Fin 8)) (s t v : State) (r run : NbRun) (x y : NbStack) (c : Cmd) (e : UnitEnd)
      (fail : Option (Nat × Byte × Nat)) (moved : Nat),
    s.nbu.runs.find? (fun r => (r.stackFor u.val).isSome) = some r → r.stackFor u.val = some x → (s.q r.queue).cmd = some c →
    e = (match r.op with
      | 0x3001 => s.ferryRow c r u.val x.cur (flt.map Fin.val)
      | 0x3002 => s.optimizeRow c r u.val x.cur (flt.map Fin.val)
      | _ => s.attendRow c r u.val x.cur (flt.map Fin.val)) →
    fail = (match x.fail, e.2.1 with
      | some f, some g => if u.val < f.1 then some (u.val, g.st, g.detail) else some f
      | some f, none => some f
      | none, some g => some (u.val, g.st, g.detail)
      | none, none => none) →
    y = { x with todo := x.todo.filter (fun p => p != u.val), fail := fail } →
    run = { (e.1.setStack y) with stopping := (e.1.setStack y).stopping || fail.isSome } →
    t = (e.2.2.setHold u.val x.cur false).setNRun run →
    moved = (if e.2.1.isSome then (Config.beats t.draws).toNat else if e.1.skipped ≠ r.skipped then 32
      else colBytes c r (Config.beats t.draws).toNat u.val x.cur) →
    v = ((t.bump64 (0xA10008 + 0x20 * x.stack) 1).addCols x.stack moved).draw →
    exec (.rowOperationEnd u flt) s = .next ((if y.todo.isEmpty then v.rowDone run y else v).nbAdvance r.queue)) ∧
  (∀ (k : Fin 8) (s t u : State) (r : NbRun) (c : Cmd) (x : NbRun × State),
    s.nbu.runs.find? (fun r => r.op == 0x3004 && r.stackRuns.any fun x => x.stack == k.val) = some r →
    (s.q r.queue).cmd = some c →
    x = (List.range' r.place (16 - r.place)).foldl (fun a b => a.2.repairBank a.1 (fld (c.p 0) 10 0) b) (r, s) →
    t = (x.2.mem.groupErrs (fld (c.p 0) 10 0)).foldl State.arriveWord x.2 → u = { t with nbu := { t.nbu with
      map := tput homeMap t.nbu.map (fld (c.p 0) 10 0) (fld (c.p 0) 19 16), bySw := tput noFlag t.nbu.bySw (fld (c.p 0) 10 0) true } } →
    exec (.repairMapSwitch k) s = .next (if x.1.skipped = 0 then u.nbEnd r.queue stOK 0
      else u.nbEnd r.queue stNoted (min x.1.skipped 0xFFFFFFFF))))

/-- TT_COPY and TT_FILL fail at the first failed check; else TT_COPY transfers its blocks, the destination bytes being free
values where source and destination overlap other than exactly, and ends at once when the length is zero, and TT_FILL stores
its pattern, in one block and with OK when at most 4 KiB are to be filled. It rests on choices of the model: log entries 6,
23. -/
def Obligations.TransfersRun : Prop :=
  ∀ (q : QId) (s : State) (c : Cmd),
    (s.running q.val 0x4001 = some c →
      (∀ f, s.xferCheck q.val c [1, 2] = .error f → exec (.ttCopy q) s = .next ((s.noteBme f).failCmd q.val f)) ∧
      (s.xferCheck q.val c [1, 2] = .ok () →
        exec (.ttCopy q) s = .next (s.copyBlocks
          (c.p 1 != c.p 2 && decide (c.p 1 < c.p 2 + fld (c.p 0) 39 0) && decide (c.p 2 < c.p 1 + fld (c.p 0) 39 0))
          q.val c (fld (c.p 0) 39 0 / 4096 + 2)) ∧
        (fld (c.p 0) 39 0 = 0 → exec (.ttCopy q) s = .next (s.endCmd q.val stOK 0)))) ∧
    (s.running q.val 0x4002 = some c →
      (∀ f, s.xferCheck q.val c [1] = .error f → exec (.ttFill q) s = .next ((s.noteBme f).failCmd q.val f)) ∧
      (s.xferCheck q.val c [1] = .ok () →
        exec (.ttFill q) s = .next (s.fillBlocks q.val c (fld (c.p 0) 39 0 / 4096 + 2)) ∧
        (∀ n t, n = fld (c.p 0) 39 0 → 0 < n → n ≤ 4096 → (s.prog q.val).done = 0 → s.opWaits (c.p 1) n = false →
          t = (s.opWrite q.val (c.p 1) 1 (List.replicate (n / 8) (leBytes 8 (c.p 2))).flatten).setProg q.val ⟨1, 0⟩ →
          exec (.ttFill q) s = .next (t.endCmd q.val stOK 0))))

/-- A region is placed and entered, waits where a copy must wait, or fails at its first failed check or where it does not
fit; it leaves the table with its pages, the moves in flight and the ford layers that name them; an ordinary one takes
another hint once its pages are placed. A toll is set to a grant that covers what is charged and closed when nothing is,
from channel 0 only, and fails otherwise with what is missing. It rests on choices of the model: log entry 23. -/
def Obligations.RegionsAndTolls : Prop :=
  (∀ (q : QId) (s : State) (c : Cmd),
    (s.running q.val 0x4010 = some c →
      (∀ f, s.regionFields q.val c = .error f → exec (.ttRegionSet q) s = .next (s.failCmd q.val f)) ∧
      (∀ f, s.regionFields q.val c = .ok () → s.regionAddrs q.val c = .error f →
        exec (.ttRegionSet q) s = .next (s.failCmd q.val f)) ∧
      (∀ x t, s.regionFields q.val c = .ok () → s.regionAddrs q.val c = .ok () →
        s.placeRegion (s.ctx q.val) (c.p 1 / pageBytes) (fld (c.p 2) 20 0) (fld (c.p 2) 22 21) (fld (c.p 2) 25 23) 4096 = (x, t) →
        (x = .error none → exec (.ttRegionSet q) s = .next t) ∧
        (∀ f, x = .error (some f) → exec (.ttRegionSet q) s = .next (t.failCmd q.val f)) ∧
        (∀ rows, x = .ok rows → exec (.ttRegionSet q) s =
          .next ((t.enterRegion (fld (c.p 0) 11 0) ⟨c.p 1, c.p 2, c.p 3, c.p 4, s.ctx q.val, rows, false⟩).endCmd q.val stOK 0)))) ∧
    (s.running q.val 0x4011 = some c →
      (∀ b, lowBit (c.p 0) (bmask 63 12) = some b → exec (.ttRegionClear q) s = .next (s.failCmd q.val (badParam 0 b))) ∧
      (lowBit (c.p 0) (bmask 63 12) = none → s.namedRegion q.val (fld (c.p 0) 11 0) = none →
        exec (.ttRegionClear q) s = .next (s.failCmd q.val (badParam 0 0))) ∧
      (∀ (r : Region) (m : Mem), lowBit (c.p 0) (bmask 63 12) = none → s.namedRegion q.val (fld (c.p 0) 11 0) = some r →
        m = ((({ s.mem with regions := tput noneD s.mem.regions (fld (c.p 0) 11 0) none } : Mem).tamper r.base (r.pages * pageBytes)).dropPages
          r.first r.pages).dropMoves (fun v => decide (r.first ≤ v.page) && decide (v.page < r.first + r.pages)) →
        exec (.ttRegionClear q) s = .next (({ s with mem := m.clearLayers r.first r.pages } : State).endCmd q.val stOK 0))) ∧
    (∀ (r : Region) (hint : Nat), s.running q.val 0x4012 = some c → hint = fld (c.p 1) 2 0 →
      lowBit (c.p 0) (bmask 63 12) = none → lowBit (c.p 1) (bmask 63 3) = none → s.namedRegion q.val (fld (c.p 0) 11 0) = some r →
      (r.kind ≠ 0 → exec (.ttRegionHint q) s = .next (s.failCmd q.val (badParam 0 0))) ∧
      (r.kind = 0 → 4 < hint → exec (.ttRegionHint q) s = .next (s.failCmd q.val (badParam 1 0))) ∧
      (∀ x t, r.kind = 0 → hint ≤ 4 →
        s.placeRegion r.ctx r.first r.pages 0 hint (fld (c.p 0) 11 0) = (x, t) →
        (x = .error none → exec (.ttRegionHint q) s = .next t) ∧
        (∀ f, x = .error (some f) → exec (.ttRegionHint q) s = .next (t.failCmd q.val f)) ∧
        (∀ rows, x = .ok rows → exec (.ttRegionHint q) s = .next (({ t with mem := { t.mem with
          regions := tput noneD t.mem.regions (fld (c.p 0) 11 0)
            (some { r with desc := withHint r.desc hint }) } } : State).endCmd q.val stOK 0))))) ∧
  (∀ (q : QId) (s : State) (c : Cmd) (k : Nat) (cap : Bool) (g : Nat), k = fld (c.p 0) 11 0 → cap = bitAt (c.p 0) 16 →
    g = fld (c.p 1) 19 0 → lowBit (c.p 0) (bmask 15 12 + bmask 63 17) = none →
    (s.running q.val 0x4028 = some c → g ≠ 0 → lowBit (c.p 1) (bmask 63 20) = none →
      (s.chan q.val ≠ 0 → exec (.ttTollSet q) s = .next (s.failCmd q.val chanFail)) ∧
      (s.chan q.val = 0 → g < s.mem.charge k cap →
        exec (.ttTollSet q) s = .next (s.failCmd q.val (quotaFail cap 0 (s.mem.charge k cap - g)))) ∧
      (s.chan q.val = 0 → s.mem.charge k cap ≤ g → exec (.ttTollSet q) s =
        .next (({ s with mem := { s.mem with grants := tput grantReset s.mem.grants (2 * k + b2n cap) g } } : State).endCmd q.val stOK 0))) ∧
    (s.running q.val 0x4028 = some c → g = 0 → exec (.ttTollSet q) s = .next (s.failCmd q.val (badParam 1 0))) ∧
    (s.running q.val 0x4029 = some c →
      (s.chan q.val ≠ 0 → exec (.ttTollClose q) s = .next (s.failCmd q.val chanFail)) ∧
      (s.chan q.val = 0 → 0 < s.mem.charge k cap →
        exec (.ttTollClose q) s = .next (s.failCmd q.val (quotaFail cap 0 (s.mem.charge k cap)))) ∧
      (s.chan q.val = 0 → s.mem.charge k cap = 0 → exec (.ttTollClose q) s =
        .next (({ s with mem := { s.mem with grants := tput grantReset s.mem.grants (2 * k + b2n cap) 0 } } : State).endCmd q.val stOK 0))))

/-- R163 to R166, R188: TT_PLACE places page by page, a background move takes its victim, a move switches, the access
counters halve. It rests on choices of the model: log entries 1, 23. -/
def Obligations.PagesPlacedAndMoved : Prop :=
  (∀ (q : QId) (s : State) (c : Cmd) (n : Nat), s.running q.val 0x4020 = some c → n = fld (c.p 1) 20 0 →
    lowBit (c.p 1) (bmask 31 21 + bmask 63 33) = none →
    (n = 0 → exec (.ttPlace q) s = .next (s.endCmd q.val stOK 0)) ∧
    (n ≠ 0 →
      (c.p 0 / 2 ^ 62 ≠ 0 ∨ c.p 0 % pageBytes ≠ 0 → exec (.ttPlace q) s = .next (s.failCmd q.val (badAddr 0 0))) ∧
      (c.p 0 / 2 ^ 62 = 0 → c.p 0 % pageBytes = 0 → malformedAddr (c.p 0) = false →
        (inRange (c.p 0) (n * pageBytes) = false → exec (.ttPlace q) s = .next (s.failCmd q.val (badAddr 0 3))) ∧
        (inRange (c.p 0) (n * pageBytes) = true → s.mem.placeRange (s.ctx q.val) (c.p 0 / pageBytes) n = false →
          exec (.ttPlace q) s = .next (s.failCmd q.val (badAddr 0 1))) ∧
        (inRange (c.p 0) (n * pageBytes) = true → s.mem.placeRange (s.ctx q.val) (c.p 0 / pageBytes) n = true →
          exec (.ttPlace q) s = .next (s.placePages q.val (c.p 0 / pageBytes) (bitAt (c.p 1) 32) n (n + 1)))))) ∧
  (∀ (q x n f p : Nat) (cap : Bool) (s : State), p = (s.prog q).done →
    (n ≤ p → s.placePages q x cap n (f + 1) =
      if (s.prog q).skipped = 0 then s.endCmd q stOK 0 else s.endCmd q stNoted (s.prog q).skipped) ∧
    (∀ t, p < n → s.placeOne (x + p) cap = (none, t) → s.placePages q x cap n (f + 1) = t) ∧
    (∀ t moved, p < n → s.placeOne (x + p) cap = (some moved, t) → s.placePages q x cap n (f + 1) =
      (t.setProg q ⟨p + 1, if moved then (s.prog q).skipped else (s.prog q).skipped + 1⟩).placePages q x cap n f)) ∧
  (∀ (x : Fin 1048576) (s : State) (v : Nat), s.rbit 0x800000 0 = true → s.pwr.state = 0 → s.movesNow < s.rd 0x800008 →
    s.bgVictim x.val = some v →
    (s.mem.tollAllows x.val false = true → s.mem.tollAllows v true = true → exec (.backgroundMoveStart x) s = .next
      { s with mem := { s.mem with moves := s.mem.moves ++ [⟨x.val, v, .background⟩], moveMs := s.pwr.time / 1000000, moved := s.movesNow + 1 } }) ∧
    (s.mem.tollAllows x.val false = false ∨ s.mem.tollAllows v true = false →
      exec (.backgroundMoveStart x) s = .next (s.evTir 0))) ∧
  (∀ (x : Fin 1048576) (s t : State) (v : Move), s.mem.moves.find? (fun v => v.page == x.val) = some v →
    t = { s with mem := s.mem.dropMoves fun w => w.page == x.val } →
    (t.moveGood v = false → exec (.pageMoveSwitch x) s = .next (t.moveEnd v)) ∧
    (t.moveGood v = true → (t.mem.tollAllows x.val false && t.mem.tollAllows v.victim true) = false →
      exec (.pageMoveSwitch x) s = .next ((t.evTir 0).moveEnd v)) ∧
    (t.moveGood v = true → (t.mem.tollAllows x.val false && t.mem.tollAllows v.victim true) = true →
      t.moveWaits x.val v.victim = true → exec (.pageMoveSwitch x) s = .next s) ∧
    (t.moveGood v = true → (t.mem.tollAllows x.val false && t.mem.tollAllows v.victim true) = true →
      t.moveWaits x.val v.victim = false →
      (∀ u, v.why = .background → u = t.swapPages x.val v.victim → exec (.pageMoveSwitch x) s =
        .next { u with mem := { u.mem with cleanFrom := tput noneD u.mem.cleanFrom x.val none } }) ∧
      (∀ f u, v.why = .ford f → u = t.swapPages x.val v.victim → exec (.pageMoveSwitch x) s =
        .next (({ u with mem := { u.mem with cleanFrom := tput noneD u.mem.cleanFrom x.val (some (t.mem.frame x.val)) } } : State).fordAdvance f)))) ∧
  (∀ (s : State), s.mem.epochAt + s.rd 0x80000C * 10000 ≤ s.pwr.time → exec .accessCounterHalving s = .next { s with mem := { s.mem with
    access := s.mem.access.filterMap (fun e => if e.2 / 2 = 0 then none else some (e.1, e.2 / 2)), epochAt := s.pwr.time } })

/-- R171 to R174: a ford is set, steps and ends. It rests on choices of the model: log entries 6, 23. -/
def Obligations.FordsRun : Prop :=
  ∀ (q : QId) (s : State) (c : Cmd) (fi : Nat), fi = fld (c.p 0) 2 0 →
    (∀ w n chk, s.running q.val 0x4030 = some c → w = fld (c.p 0) 14 8 → n = fld (c.p 0) 26 16 →
      chk = bitCheck 0 [bitIf (s.mem.ford fi).active 0, lowBit (c.p 0) (bmask 7 3), bitIf (w == 0 || decide (64 < w)) 8,
        lowBit (c.p 0) (bmask 15 15), bitIf (n == 0) 16, lowBit (c.p 0) (bmask 63 27)] →
      (∀ f, chk = .error f → exec (.ttFordSet q) s = .next (s.failCmd q.val f)) ∧
      (∀ f, chk = .ok () → s.checkAddr q.val (c.p 1) (8 * n) 1 8 = .error f →
        exec (.ttFordSet q) s = .next ((s.noteBme f).failCmd q.val f)) ∧
      (∀ bs t ls k, chk = .ok () → s.checkAddr q.val (c.p 1) (8 * n) 1 8 = .ok () → s.readTable q.val (c.p 1) 1 5 0 (8 * n) = ((.bytes bs, k), t) →
        ls = (wordsOf n bs).map layerOf →
        ((wordsOf n bs).any (fun x => fld x 63 41 != 0 || fld x 40 20 == 0) || layersMeet ls) = false →
        ((ls.any fun p => !t.layerOk (s.ctx q.val) p) = true → exec (.ttFordSet q) s = .next (t.failCmd q.val (badAddr 1 5))) ∧
        ((ls.any fun p => !t.layerOk (s.ctx q.val) p) = false → exec (.ttFordSet q) s =
          .next ((t.setFord fi ⟨true, s.ctx q.val, w, ls, false, 0, false, [], false, []⟩).endCmd q.val stOK 0)))) ∧
    (∀ l f, s.running q.val 0x4031 = some c → l = fld (c.p 0) 26 16 → f = s.mem.ford fi → (f.waiters.any fun w => w.1 == q.val) = false →
      f.active = true → lowBit (c.p 0) (bmask 15 4) = none → lowBit (c.p 0) (bmask 63 27) = none →
      (f.layers.length ≤ l → exec (.ttFordStep q) s = .next (s.failCmd q.val (badParam 0 16))) ∧
      (∀ (g : Ford) (back : List Nat) (t u v : State), l < f.layers.length →
        g = { f with dir := bitAt (c.p 0) 3, layer := l, stepped := true, waiters := f.waiters ++ [(q.val, l)], filling := true } →
        back = ((List.range f.layers.length).filter (s.layerKept f)).flatMap (fun i => (f.layerPages i).filter fun x => !g.holds x && !s.mem.inCap x) →
        ((g.window.any fun i => !s.layerKept f i) = true → exec (.ttFordStep q) s = .next (s.failCmd q.val (badAddr 0 5))) ∧
        ((g.window.any fun i => !s.layerKept f i) = false →
          ((back.any fun x => (s.mem.cleanPage x).isNone && s.accessWaits (x * pageBytes) pageBytes) = true →
            exec (.ttFordStep q) s = .next s) ∧
          ((back.any fun x => (s.mem.cleanPage x).isNone && s.accessWaits (x * pageBytes) pageBytes) = false →
            t = ({ s with mem := s.mem.dropMoves fun v => v.why == MoveWhy.ford fi } : State).setFord fi g →
            u = back.foldl State.fordReturn t → v = (if u.resident g l then u else u.evTir 1) →
            exec (.ttFordStep q) s = .next (v.fordAdvance fi))))) ∧
    (s.running q.val 0x4032 = some c → lowBit (c.p 0) (bmask 63 3) = none →
      ((s.mem.ford fi).active = false → exec (.ttFordEnd q) s = .next (s.failCmd q.val (badParam 0 0))) ∧
      ((s.mem.ford fi).active = true → exec (.ttFordEnd q) s = .next ((({ s with mem := s.mem.dropMoves fun v => v.why == MoveWhy.ford fi } : State).setFord fi
        Ford.empty).endCmd q.val stOK 0)))

/-- R142, R176, R182 to R184: TT_COMPRESS packs pages, TT_RETIRE backs a frame by a spare, TT_TIDE folds the entries. It
rests on choices of the model: log entries 6, 22, 24, 25. -/
def Obligations.CompressRetireTide : Prop :=
  ∀ (q : QId) (s : State) (c : Cmd),
    (∀ (flt : Bool) (r : Region) (first n : Nat), s.running q.val 0x4038 = some c → first = fld (c.p 1) 20 0 → n = fld (c.p 1) 52 32 →
      lowBit (c.p 0) (bmask 63 12) = none → lowBit (c.p 1) (bmask 31 21) = none → lowBit (c.p 1) (bmask 63 53) = none →
      s.namedRegion q.val (fld (c.p 0) 11 0) = some r →
      (r.compress = false → exec (.ttCompress q flt) s = .next (s.failCmd q.val (badParam 0 0))) ∧
      (r.compress = true → n ≠ 0 → r.pages < first + n →
        exec (.ttCompress q flt) s = .next (s.failCmd q.val (badParam 1 0))) ∧
      (r.compress = true → n = 0 → exec (.ttCompress q flt) s = .next (s.endCmd q.val stOK 0)) ∧
      (r.compress = true → n ≠ 0 → first + n ≤ r.pages →
        exec (.ttCompress q flt) s = .next (s.compressPages q.val r first n flt (n + 1)))) ∧
    (∀ (fr off : Nat) (cap : Bool) (x : List Nat × State) (m : Mem) (t : State), s.running q.val 0x4039 = some c → fr = fld (c.p 0) 24 0 → cap = bitAt (c.p 0) 32 →
      off = s.mem.offsetAt cap (fr * 65536) → lowBit (c.p 0) (bmask 31 25) = none → lowBit (c.p 0) (bmask 63 33) = none →
      fr < retireFrames cap → (∀ r, s.mem.regionOf (off / pageBytes) = some r → r.2.kind = 0) → s.chan q.val = 0 →
      ((s.mem.remap.any fun r => r.cap == cap && r.frame == fr) = true → exec (.ttRetire q) s = .next (s.endCmd q.val stNoted 0)) ∧
      (∀ (k : Nat) (r : Region), (s.mem.remap.any fun r => r.cap == cap && r.frame == fr) = false → c.p 1 % 65536 = 0 →
        c.p 1 / 2 ^ 62 = 0 → inRange (c.p 1) 65536 = true → s.mem.regionOf (c.p 1 / pageBytes) = some (k, r) → r.kind = 2 →
        r.hint = (if cap then 3 else 2) → (s.mem.remap.any fun r => r.spare == c.p 1) = false →
        (8192 ≤ s.mem.remap.length → exec (.ttRetire q) s = .next ((s.evTir 2).failCmd q.val (quotaFail cap 2 0))) ∧
        (s.mem.remap.length < 8192 → s.accessWaits off 65536 = false → s.mem.moving (off / pageBytes) = false →
          x = (if s.mem.copied (off / pageBytes) then s.copyErrs off 65536 else ([], s)) →
          m = { x.2.mem with remap := x.2.mem.remap ++ [⟨cap, fr, c.p 1⟩], errs := tclear (off / 32) (off / 32 + 2048) x.2.mem.errs } →
          t = ({ x.2 with mem := m } : State).poisonUnits x.1 →
          exec (.ttRetire q) s = .next ((if s.mem.copied (off / pageBytes) then
            (t.failedWords off 65536).foldl (fun u w => u.dropWrite (u.mem.loc w) 2) t else t).endCmd q.val stOK 0)))) ∧
    (∀ flt : Bool, s.running q.val 0x4040 = some c → lowBit (c.p 0) (bmask 63 25) = none → lowBit (c.p 1) (bmask 63 32) = none →
      (4096 < fld (c.p 0) 11 0 + fld (c.p 0) 24 12 → exec (.ttTide q flt) s = .next (s.failCmd q.val (badParam 0 0))) ∧
      (fld (c.p 0) 11 0 + fld (c.p 0) 24 12 ≤ 4096 → exec (.ttTide q flt) s =
        .next (s.tideEntries q.val (fld (c.p 0) 11 0) (fld (c.p 0) 24 12) (fld (c.p 1) 31 0) flt (fld (c.p 0) 24 12 + 1))))

/-- R224, R226, R227, R230, R247: a collective takes its sequence number and starts or fails, and goes on step by step; a
group is set from its rank table; a rank that does not answer in time fails the collective. It rests on choices of the
model: log entry 28. -/
def Obligations.CollectivesRun : Prop :=
  (∀ (q : QId) (flt : Bool) (s : State) (c : Cmd) (x : Nat × Instr × Bool),
    x ∈ [(0x5001, Instr.xcReduce q flt, flt), (0x5002, Instr.xcReduceComp q flt, flt), (0x5003, Instr.xcGather q, false),
      (0x5004, Instr.xcBroadcast q, false), (0x5005, Instr.xcAttnCombine q flt, flt)] →
    s.running q.val x.1 = some c →
    (s.xRun q.val = none → exec x.2.1 s = .next (s.failCmd q.val (badParam 0xF2 0))) ∧
    (∀ r, s.xRun q.val = some r → r.begun = true → exec x.2.1 s = .next (s.xStep q.val x.2.2)) ∧
    (∀ (r : XRun) (g : Group), s.xRun q.val = some r → r.begun = false → g = s.group r.group →
      (g.state = 3 → exec x.2.1 s = .next ((s.dropXRun q.val).failCmd q.val ⟨stPeer, g.my % 32768 + 3 * 65536⟩)) ∧
      (∀ f, g.state ≠ 3 → xFields c g.nr = .error f → exec x.2.1 s = .next (s.xFail r f.st f.detail 0xFFFF)) ∧
      (∀ f, g.state ≠ 3 → xFields c g.nr = .ok () → s.xChecks q.val r g.my = .error f →
        exec x.2.1 s = .next (s.xFail r f.st f.detail 0xFFFF)) ∧
      (∀ r1 r2, g.state ≠ 3 → xFields c g.nr = .ok () → s.xChecks q.val r g.my = .ok r1 →
        r2 = { r1 with begun := true, waitAt := s.pwr.time } →
        exec x.2.1 s = .next (((s.setXRun r2).xSendAll r2 0 0 0 []).takeHeld q.val)))) ∧
  (∀ (q : Nat) (s : State) (c : Cmd) (gi : Nat) (g : Group), gi = fld (c.p 0) 3 0 → g = s.group gi →
    (0x5001 ≤ c.op → c.op ≤ 0x5005 → g.state ≠ 0 → g.queue = q →
      s.xDispatch q c = (s.setXRun (s.xNew q c gi)).setGroup gi { g with cseq := g.cseq + 1 }) ∧
    (c.op < 0x5001 ∨ 0x5005 < c.op ∨ g.state = 0 ∨ g.queue ≠ q → s.xDispatch q c = s)) ∧
  (∀ (q : QId) (s : State) (c : Cmd), s.running q.val 0x5010 = some c →
    (∀ f, s.rankFields q.val c = .error f → exec (.xcRankSet q) s = .next (s.failCmd q.val f)) ∧
    (∀ nr bs tb t, s.rankFields q.val c = .ok () → nr = fld (c.p 1) 14 0 → s.opRead q.val (c.p 2) (2 * nr) 2 = (.bytes bs, t) →
      tb = (List.range nr).map (fun i => leNat ((bs.drop (2 * i)).take 2)) →
      (∀ f, s.rankTable c tb = .error f → exec (.xcRankSet q) s = .next (t.failCmd q.val f)) ∧
      (∀ ep u, s.rankTable c tb = .ok () → ep = BitVec.ofNat 32 (fld (c.p 1) 63 32) →
        u = t.setGroup (fld (c.p 0) 3 0) ⟨1, nr, fld (c.p 1) 30 16, ep, 0, fld (c.p 0) 12 4, fld (c.p 0) 27 16, tb, 0, 0⟩ →
        exec (.xcRankSet q) s = .next ((u.dropHeld fun h => h.group == fld (c.p 0) 3 0 && gtMod ep h.epoch).endCmd q.val stOK 0)))) ∧
  (∀ (g : Fin 16) (s : State) (r : XRun) (k : Nat), s.xch.runs.find? (fun r => r.group == g.val && r.begun) = some r →
    r.awaited (s.group g.val).my = some k → s.due r.waitAt (s.rd 0xC00008) = true →
    (r.storing (s.group g.val).my = true → exec (.peerTimeout g) s = .next s) ∧
    (r.storing (s.group g.val).my = false → exec (.peerTimeout g) s = .next (s.xFail r stPeer (k % 32768 + 65536) 0xFFFF)))

/-- R280, R281, R295, R296, R299, R302: a batch starts, or fails, or ends with its manifest; a vocabulary is loaded; the
cache is flushed when the pipeline is empty. It rests on choices of the model: log entries 36, 37. -/
def Obligations.BatchesAndVocabulary : Prop :=
  ∀ (q : QId) (s : State) (c : Cmd),
    (s.running q.val 0x6001 = some c →
      (s.itk.batch q.val = none → exec (.ikBatch q) s = .next (s.ikStart q.val c)) ∧
      (∀ b, s.itk.batch q.val = some b → b.samples = [] → exec (.ikBatch q) s = .next (s.ikFinish q.val b)) ∧
      (∀ b, s.itk.batch q.val = some b → b.samples ≠ [] → exec (.ikBatch q) s = .next s)) ∧
    (s.running q.val 0x6010 = some c →
      (s.pipeEmpty = false → exec (.ikVocabLoad q) s = .next s) ∧
      (s.pipeEmpty = true → ∀ f, s.vocabFields q.val c = .error f → exec (.ikVocabLoad q) s = .next (s.vocabFail q.val f)) ∧
      (∀ n bs t, s.pipeEmpty = true → s.vocabFields q.val c = .ok () → n = fld (c.p 0) 20 0 →
        s.opRead q.val (c.p 1) (32 * n) (wordWith 1 (itkData 3 0)) = (.bytes bs, t) →
        (∀ i, vocabGo 0 [] (chunks 32 bs) = .error i →
          exec (.ikVocabLoad q) s = .next (t.vocabFail q.val ⟨stBadParam, 0xF7 + i * 4096⟩)) ∧
        (∀ es f u v, vocabGo 0 [] (chunks 32 bs) = .ok es → t.opWaits (c.p 2) (64 * n) = false → t.freeBytes (c.p 2) (64 * n) = (f, u) →
          v = u.memWrite (c.p 2) f → exec (.ikVocabLoad q) s =
            .next (({ v with itk := { v.itk with vocab := some (es, fld (c.p 0) 62 32) },
                             mem := { v.mem with vocWork := c.p 2, vocLen := 64 * n, vocBad := false } } : State).endCmd q.val stOK 0)))) ∧
    (s.running q.val 0x6011 = some c →
      (s.pipeEmpty = true → exec (.ikCacheFlush q) s = .next (s.cacheEmpty.endCmd q.val stOK 0)) ∧
      (s.pipeEmpty = false → exec (.ikCacheFlush q) s = .next s))

/-- Samples pass through the intake pipeline: a free lane starts the oldest waiting sample; staging is reserved in order,
from the cache on a hit; the end of decoding stores the pixels or the text, caches an image, and gives the sample its
outcome; the head sample is padded when it is corrupt or over budget, and else transformed and written with its own crop, or
with the region of interest once that has been read; the region is polled each microsecond; the sleeping domain wakes for a
waiting command. It rests on choices of the model: log entries 36, 60. -/
def Obligations.SamplesPassThrough : Prop :=
  (∀ (k : Fin 32) (s : State), s.itk.lanesOut.contains k.val = false → s.itk.onLane k.val = none → s.itk.gated = false →
    (∀ p, (s.itk.all.take 512).find? (fun p => p.2.phase == .waiting) = some p →
      exec (.decodeStart k) s = .next (s.setSample p.1 { p.2 with phase := .started k.val })) ∧
    ((s.itk.all.take 512).find? (fun p => p.2.phase == .waiting) = none → exec (.decodeStart k) s = .next s)) ∧
  (∀ (k : Fin 32) (s : State) (b : Batch) (x : Sample), s.itk.onLane k.val = some (b, x) → x.phase = .started k.val →
    s.itk.earlierReserved b x = true →
    (x.sub.size = 0 → exec (.stagingReserve k) s = .next (s.endDecode b x (.corrupt 1 0))) ∧
    (x.sub.size ≠ 0 → b.schema.isSome = true ∨ s.cacheRegion = none →
      exec (.stagingReserve k) s = .next (s.reserveFresh b x k.val)) ∧
    (∀ r t, x.sub.size ≠ 0 → b.schema = none → s.cacheRegion = some r → t = s.cacheSync r →
      (∀ e, t.itk.cache.find? (fun e => e.key == t.cacheKey b.queue x.sub) = some e →
        exec (.stagingReserve k) s = .next (t.reserveHit b x k.val r.1 e)) ∧
      (t.itk.cache.find? (fun e => e.key == t.cacheKey b.queue x.sub) = none →
        exec (.stagingReserve k) s = .next (t.reserveFresh b x k.val)))) ∧
  (∀ (k : Fin 32) (s : State) (b : Batch) (x : Sample) (l : Nat) (u w h ch : Nat), s.itk.onLane k.val = some (b, x) →
    x.phase = .reserved l none u w h ch → exec (.decodeEnd k) s = .next (s.endDecode b x (.ok true u w h ch false false 0))) ∧
  (∀ (k : Fin 32) (s : State) (b : Batch) (x : Sample) (l : Nat) (src : List Byte) (u w h ch : Nat), s.itk.onLane k.val = some (b, x) →
    x.phase = .reserved l (some src) u w h ch → s.blockWaits b.stage x.blocks = false →
    (∀ n t, b.schema = none → t = s.bump64 0xE00058 n →
      (∀ i, imgDecode x.sub (b.budgetOf x.sub) src = (.ok i, n) →
        s.blockWaits (s.cacheBlocks b.queue x.sub i).1 (s.cacheBlocks b.queue x.sub i).2 = true → exec (.decodeEnd k) s =
        .next (s.blockHold b.queue (s.cacheBlocks b.queue x.sub i).1 (s.cacheBlocks b.queue x.sub i).2)) ∧
      (∀ i, imgDecode x.sub (b.budgetOf x.sub) src = (.ok i, n) →
        s.blockWaits (s.cacheBlocks b.queue x.sub i).1 (s.cacheBlocks b.queue x.sub i).2 = false → exec (.decodeEnd k) s =
        .next (((t.blockWrite b.stage x.blocks i.px).cachePut b.queue x.sub n i).endDecode b x (.ok false n i.w i.h i.ch false false 0))) ∧
      (∀ e, imgDecode x.sub (b.budgetOf x.sub) src = (.error e, n) →
        exec (.decodeEnd k) s = .next (t.endDecode b x (e.outcome n)))) ∧
    (∀ sch n t, b.schema = some sch → t = { s.bump64 0xE00058 n with draws := s.draws + sch.cols.length } →
      (∀ i, runDec (textDecode sch s.vocabNow s.draws (x.sub.format == 4)) (b.budgetOf x.sub) src = (.ok i, n) →
        exec (.decodeEnd k) s = .next ((t.blockWrite b.stage x.blocks i.bytes).endDecode b x (.ok false n 0 0 0 i.trunc i.missing i.nf))) ∧
      (∀ e, runDec (textDecode sch s.vocabNow s.draws (x.sub.format == 4)) (b.budgetOf x.sub) src = (.error e, n) →
        exec (.decodeEnd k) s = .next (t.endDecode b x (e.outcome n))))) ∧
  (∀ (flt : Bool) (s : State) (b : Batch) (x : Sample), 
    (∀ r u, s.itk.head = some (b, x, .corrupt r u) →
      (flt = false ∨ s.slotWaits b x.idx = true → exec (.transformSample flt) s = .next (s.padHead b x 2 r u)) ∧
      (flt = true → s.slotWaits b x.idx = false → exec (.transformSample flt) s = .next (s.itkResidue b.queue))) ∧
    (s.itk.head = some (b, x, .over) →
      (flt = false ∨ s.slotWaits b x.idx = true → exec (.transformSample flt) s = .next (s.padHead b x 3 0 0xFFFFFFFF)) ∧
      (flt = true → s.slotWaits b x.idx = false → exec (.transformSample flt) s = .next (s.itkResidue b.queue))) ∧
    (∀ cached u w h ch tr mi nf, s.itk.head = some (b, x, .ok cached u w h ch tr mi nf) →
      (b.schema.isSome = true ∨ x.sub.roi = false → exec (.transformSample flt) s =
        .next (s.writeHead b x flt ⟨x.sub.x0, x.sub.y0, x.sub.x1, x.sub.y1⟩ cached u w h ch (b2n tr + 2 * b2n mi, nf))) ∧
      (b.schema = none → x.sub.roi = true →
        (s.itk.roi = .none → exec (.transformSample flt) s = .next (s.roiTry b x)) ∧
        (s.itk.roi = .read none → exec (.transformSample flt) s = .next (s.padHead b x 2 8 u)) ∧
        (∀ box, s.itk.roi = .read (some box) → exec (.transformSample flt) s =
          .next (s.writeHead b x flt box cached u w h ch (b2n tr + 2 * b2n mi, nf)))))) ∧
  (∀ (s t : State) (since polled : Nat) (b : Batch) (x : Sample) (d : Decoded), s.itk.roi = .waiting since polled →
    s.itk.head = some (b, x, d) → polled + 1000 ≤ s.pwr.time → t = s.bump64 0xE00068 (s.pwr.time - since) →
    exec .roiPoll s = .next (({ t with itk := { t.itk with roi := .waiting t.pwr.time t.pwr.time } } : State).roiTry b x)) ∧
  (∀ (s : State) (c : Cmd) (i : Fin 64), s.itk.gated = true → (s.q (320 + i.val)).cmd = some c → c.phase = .waiting →
    exec .intakeDomainWake s = .next { s with itk := { s.itk with gated := false } })

/-- GANGWAY_READ and GANGWAY_WRITE reach local memory through the window whose base was in force at their arrival: one that
need not wait is done at once, one that must wait for a tier to wake, a page move or a held bank is held and done after
those before it; data that cannot be read is answered with zeros and EP, and logged; one that does not lie in BAR2 is none
of its accesses; while the BARs are closed it is answered with Unsupported Request. HOST_COMPLETION ends the read it answers
as Table 12.3 gives, with its data or its failure, and does nothing where no read waits or the length is not the read's;
HOST_COMPLETION_TIMEOUT acts from the least time of the range set on, unless timeouts are disabled. MSIX_ENABLE sets
MSI-X Enable, MSIX_UNMASK clears a vector's mask or the Function Mask, and the access msixWrite of REGISTER_WRITE sets or
clears MSI-X Enable and the Function Mask; each sends what became free. It rests on choices of the model: log entries 4, 14,
15, 68. -/
def Obligations.HostAccesses : Prop :=
  ((∀ (off len a : Nat) (s u t : State), gwFormed off len = true → s.barOpen = true → s.hif.gwPend = [] → a = s.gwAddr off →
    u = { s with hif := { s.hif with gwPend := [.read a len] } } → t = u.gwWake a len →
    ((t.gwAsleep a len || t.accessWaits a len) = true → exec (.gangwayRead off len) s = .next t) ∧
    ((t.gwAsleep a len || t.accessWaits a len) = false →
      (∀ bs v w, t.memRead .gangway a len = (.bytes bs, v) → w = v.bump64 0x400030 len →
        exec (.gangwayRead off len) s =
          .next { w with hif := { w.hif with gwReply := some ⟨bs, false, false⟩, gwPend := [] } }) ∧
      (∀ g v w x, t.memRead .gangway a len = (g, v) → (∀ bs, g ≠ .bytes bs) → w = v.bump64 0x400030 len →
        x = (({ w with hif := { w.hif with gwReply := some ⟨List.replicate len 0, true, false⟩ } } : State).evHif 7).aerEvent
          (if w.hif.conf.egressBlock then 26 else 15) →
        exec (.gangwayRead off len) s = .next { x with hif := { x.hif with gwPend := [] } }))) ∧
  (∀ (off a : Nat) (bs : List Byte) (s u t v : State), gwFormed off bs.length = true → s.barOpen = true → s.hif.gwPend = [] →
    a = s.gwAddr off → u = { s with hif := { s.hif with gwPend := [.write a bs] } } → t = u.gwWake a bs.length →
    v = (t.memWrite a bs).bump64 0x400038 bs.length →
    ((t.gwAsleep a bs.length || t.writeWaits a bs.length) = false → exec (.gangwayWrite off bs) s =
      .next { v with hif := { v.hif with gwPend := [] } }) ∧
    ((t.gwAsleep a bs.length || t.writeWaits a bs.length) = true → exec (.gangwayWrite off bs) s =
      .next (t.holdWrite 400 a bs.length))) ∧
  (∀ (off len : Nat) (bs : List Byte) (s : State), s.barOpen = true → s.hif.gwPend ≠ [] →
    (gwFormed off len = true → exec (.gangwayRead off len) s =
      .next ({ s with hif := { s.hif with gwPend := s.hif.gwPend ++ [.read (s.gwAddr off) len] } } : State).gwStep) ∧
    (gwFormed off bs.length = true → exec (.gangwayWrite off bs) s =
      .next ({ s with hif := { s.hif with gwPend := s.hif.gwPend ++ [.write (s.gwAddr off) bs] } } : State).gwStep)) ∧
  (∀ (off len : Nat) (bs : List Byte) (s : State),
    (gwFormed off len = false → exec (.gangwayRead off len) s = .next s) ∧
    (gwFormed off bs.length = false → exec (.gangwayWrite off bs) s = .next s) ∧
    (gwFormed off len = true → s.barOpen = false → s.pwr.off = 0 → exec (.gangwayRead off len) s =
      .next ({ s with hif := { s.hif with gwReply := some ⟨[], false, true⟩ } } : State).barRefuse) ∧
    (gwFormed off bs.length = true → s.barOpen = false → exec (.gangwayWrite off bs) s = .next s.barRefuse))) ∧
  ((∀ (q : QId) (s : State) (r : HostReq) (rest : List HostReq), (s.q q.val).reads = r :: rest →
    exec (.hostCompletion q .ur) s =
      .next (((s.evHif 3).bump 0x400044 1).hostReadFail q.val r stBadAddress (addrWord r.word + 256 * 7)) ∧
    exec (.hostCompletion q .ca) s =
      .next (((s.evHif 4).bump 0x400044 1).hostReadFail q.val r stBadAddress (addrWord r.word + 256 * 8)) ∧
    exec (.hostCompletion q .poisoned) s =
      .next (((s.evHif 6).aerEvent 12).hostReadFail q.val r stPoisoned (dataWord r.word)) ∧
    (s.hif.conf.cplOff = false → r.since + cplLeast s.hif.conf.cplRange ≤ s.pwr.time → exec (.hostCompletionTimeout q) s =
      .next ((((s.evHif 5).bump 0x400040 1).aerEvent 14).hostReadFail q.val r stTimeout (timeoutDetail 5 (s.cmdMs q.val)))) ∧
    (s.hif.conf.cplOff = true ∨ s.pwr.time < r.since + cplLeast s.hif.conf.cplRange →
      exec (.hostCompletionTimeout q) s = .next s) ∧
    (∀ bs, bs.length ≠ r.len → exec (.hostCompletion q (.data bs)) s = .next s) ∧
    (∀ (bs : List Byte) (t u v : State), bs.length = r.len → t = s.freeTag 21 →
      u = { t with hif := { t.hif with ext := tputs zeroB t.hif.ext (hostAddr r.addr) bs } } →
      v = u.setQ q.val { u.q q.val with reads := rest, have_ := (u.q q.val).have_ ++ [(hostAddr r.addr, r.len)] } →
      (s.q q.val).state ≠ .idle →
      exec (.hostCompletion q (.data bs)) s =
        .next (if r.word = 0xFF then v else (v.bump64 0x400020 r.len).bump64 (bo (v.chan q.val) 0x30) r.len))) ∧
  (∀ (q : QId) (s : State) (res : HostResult), (s.q q.val).reads = [] →
    exec (.hostCompletion q res) s = .next s ∧ exec (.hostCompletionTimeout q) s = .next s) ∧
  (∀ (s : State), s.pwr.off = 0 →
    exec .msixEnable s = .next ({ s with hif := { s.hif with msixOn := true } } : State).deliverAll ∧
    (∀ (o n : Nat) (on mask : Bool),
      (s.confOpen = true → exec (.registerWrite o n (.msixWrite on mask)) s =
        .next ({ s with hif := { s.hif with msixOn := on, funcMask := mask } } : State).deliverAll) ∧
      (s.confOpen = false → exec (.registerWrite o n (.msixWrite on mask)) s = .next s)) ∧
    exec (.msixUnmask none) s = .next ({ s with hif := { s.hif with funcMask := false } } : State).deliverAll ∧
    (∀ v : Fin 2048, exec (.msixUnmask (some v)) s =
      .next (s.msixWord (4 * v.val + 3) (tget msixReset s.hif.msix (4 * v.val + 3) &&& 0xFFFFFFFE)))))

/-- R306, R321, R322, R323, R327, R336, R438: the link goes down, with the reads in flight and a free number of the last
writes sent lost, and comes up; a function level reset waits for an engine reset, clears what the host set up, keeps flash,
the platform driver's history entries and the firmware, and adopts. It rests on choices of the model: log entries 4, 51, 53,
68, 70. -/
def Obligations.LinkAndFunctionReset : Prop :=
  (∀ (s t u : State), s.hif.up = true →
    t = { s with hif := { s.hif with up := false, rate := 0, width := 0, flit := false,
                                     downAt := if s.hif.armed then some s.pwr.time else none } } →
    u = (t.evHif 0).loseUnacked →
    exec .dlDown s = .next (u.cqf.queues.foldl (fun u e => match (u.q e.1).reads with
      | r :: _ => u.hostReadFail e.1 r stTimeout (timeoutDetail 5 (u.cmdMs e.1))
      | [] => u) u)) ∧
  (∀ (s : State), s.hif.up = false → exec .dlDown s = .next s) ∧
  (∀ (n : Nat) (s : State) (l : HostTlp), s.hif.tlps = l :: s.hif.tlps.tail →
    n = (Config.freeWord s.draws).toNat % (s.hif.tlps.length + 1) → s.loseUnacked = s.draw.loseTlps n) ∧
  (∀ (s t u : State) (k : LinkInfo), s.pwr.off = 0 → s.hif.up = false → s.hif.perst = false → linkFormed k = true →
    t = { s with hif := { s.hif with up := true, rate := k.rate, width := k.width, flit := k.flit, armed := true, downAt := none } } →
    u = (if k.width < 16 ∨ k.rate < 7 then t.evHif 1 else t) →
    exec (.dlUp k) s = .next (u.confSet k.bme k.conf).outFlow) ∧
  (∀ (s : State) (k : LinkInfo), s.hif.up = true → exec (.dlUp k) s = .next s) ∧
  (∀ (s : State), s.pwr.off = 0 → s.rstBusy = true →
    exec .functionLevelReset s = .next { s with pwr := { s.pwr with flrWait := true } }) ∧
  (∀ (s : State), s.pwr.off = 0 → s.rstBusy = false → ∃ t, exec .functionLevelReset s = .next t ∧
    t.hif.bme = false ∧ t.hif.msixOn = false ∧ t.hif.gwBase = 0 ∧ t.hif.msix = [] ∧ t.hif.pba = [] ∧ t.hif.conf = PciConf.reset ∧
    t.cqf.tokens = [] ∧ t.cqf.slips = [] ∧ t.mgt.attached = false ∧ t.mgt.req = [] ∧ t.mgt.rpl = [] ∧
    t.mat.runs = [] ∧ t.mat.handles = [] ∧ t.vec.runs = [] ∧ t.nbu.runs = [] ∧ t.itk.batches = [] ∧ t.itk.cache = [] ∧
    t.cfg.adopting = true ∧ t.mgt.core = s.mgt.core ∧ t.mgt.supp = s.mgt.supp ∧ t.mgt.log = s.mgt.log ∧
    t.pwr.flrWait = false ∧ (∀ e ∈ t.err.histPend, e.byDriver = true) ∧
    OnlyChanges [.regs, .stats, .ctrs, .cqf, .mem, .hif, .mgt, .sec, .err, .cfg, .pwr, .mat, .vec, .nbu, .xch, .fab, .itk, .draws] s t)

/-- R423, R426 to R429, R374, R375, R381: the scrubber reads and corrects, the configuration is scanned, adopted and voted.
It rests on choices of the model: log entries 40, 42, 63. -/
def Obligations.IntegrityScans : Prop :=
  (∀ (cap : Bool) (upset : List (Nat × Byte)) (elsewhere : List (Nat × Nat × Byte)) (o s t : State), s = o.strike elsewhere →
    ((if cap then s.mem.refreshCap else s.mem.refreshFast) = true → exec (.scrubRead cap upset elsewhere) o = .next s) ∧
    ((if cap then s.mem.refreshCap else s.mem.refreshFast) = false →
      (s.scrubAt cap (s.scrubber cap).pos = none → exec (.scrubRead cap upset elsewhere) o = .next (s.scrubNext cap)) ∧
      (∀ w, s.scrubAt cap (s.scrubber cap).pos = some w →
        t = { s with mem := { s.mem with
          errs := tput noPat s.mem.errs (w / 32) (addUpset (tierWord cap) (tget noPat s.mem.errs (w / 32)) upset) } } →
        (t.pcFailed (t.mem.loc w) = true → exec (.scrubRead cap upset elsewhere) o = .next (t.scrubNext cap)) ∧
        (t.pcFailed (t.mem.loc w) = false → t.writeWaits w (tierWord cap) = false →
          exec (.scrubRead cap upset elsewhere) o = .next ((t.scrubWord cap w).scrubNext cap))))) ∧
  (∀ (s t u : State), s.pwr.off = 0 → s.cfg.scanMs < s.pwr.time / 1000000 →
    (s.voteAll.scan = (.mismatched, t) → u = t.crcReact →
      exec .crcScan s = .next (if fld (u.rdT 0x10000C) 1 0 = 3 then u.selfReset 4 else u)) ∧
    (∀ r, r ≠ .mismatched → s.voteAll.scan = (r, t) → exec .crcScan s = .next t)) ∧
  (∀ (s : State), s.barOpen = true → exec .adopt s = .next { s with cfg := { s.cfg with adopting := true } }) ∧
  (∀ (upset : List (Nat × Fin 3 × W16)) (o s : State), s = o.regUpsets upset → s.cfg.voteMs < s.pwr.time / 1000000 →
    exec (.voteScan upset) o = .next ({ s with cfg := { s.cfg with voteMs := s.pwr.time / 1000000 } } : State).voteAll) ∧
  (∀ (upset : List (Nat × Fin 3 × W16)) (s : State), (s.regUpsets upset).pwr.time / 1000000 ≤ (s.regUpsets upset).cfg.voteMs →
    exec (.voteScan upset) s = .next (s.regUpsets upset))

/-- R387 to R390, R395: units are taken out of service, requalified and admitted, qualification mode is set, and a
pseudo-channel that loses lock is removed. It rests on choices of the model: log entries 26, 43. -/
def Obligations.ServiceActions : Prop :=
  (∀ (u : W16) (s : State), s.barOpen = true →
    (svcKnown u.toNat = false → exec (.out u) s = .next (s.evErr 3) ∧ exec (.requalify u) s = .next (s.evErr 3) ∧
      exec (.admitUnit u) s = .next (s.evErr 3)) ∧
    (svcKnown u.toNat = true →
      ((s.unitSvc u.toNat).st = 0 → exec (.out u) s = .next (s.unitLeave u.toNat)) ∧
      ((s.unitSvc u.toNat).st = 3 → exec (.out u) s = .next (s.unitSet u.toNat 1 0 (s.unitSvc u.toNat).failed)) ∧
      ((s.unitSvc u.toNat).st = 1 → exec (.out u) s = .next (s.evErr 3)) ∧
      ((s.unitSvc u.toNat).st = 2 → exec (.out u) s = .next (s.evErr 3)) ∧
      ((s.unitSvc u.toNat).st = 1 → exec (.requalify u) s = .next (s.unitSet u.toNat 2 0 (s.unitSvc u.toNat).failed)) ∧
      ((s.unitSvc u.toNat).st ≠ 1 → exec (.requalify u) s = .next (s.evErr 3)) ∧
      ((s.unitSvc u.toNat).st = 3 → svcKind u.toNat ≠ 0 →
        exec (.admitUnit u) s = .next (s.unitSet u.toNat 0 0 (s.unitSvc u.toNat).failed)) ∧
      (∀ t, (s.unitSvc u.toNat).st = 3 → svcKind u.toNat = 0 → t = s.unitSet u.toNat 0 0 (s.unitSvc u.toNat).failed →
        exec (.admitUnit u) s = .next { t with mat := { t.mat with joined := tput zeroN t.mat.joined (svcIdx u.toNat) t.mat.serial } }) ∧
      ((s.unitSvc u.toNat).st ≠ 3 → exec (.admitUnit u) s = .next (s.evErr 3)))) ∧
  (∀ (u : W16) (r : QualResult) (s t : State), svcKnown u.toNat = true → (s.unitSvc u.toNat).st = 2 →
    t = (if svcKind u.toNat = 2 then s.pcTrained (svcIdx u.toNat) r.spared else s) →
    (r.pass = true → exec (.requalificationEnd u r) s = .next (t.unitSet u.toNat 3 2 false)) ∧
    (r.pass = false → exec (.requalificationEnd u r) s = .next (if svcKind u.toNat = 2 ∧ r.spared = none
      then (t.unitSet u.toNat 1 3 true).trainingRecord 9 (svcIdx u.toNat) 1 true else t.unitSet u.toNat 1 3 true))) ∧
  (∀ (s : State) (v : Nat), s.barOpen = true → v = s.rd 0x1100000 &&& 0xFFFD →
    exec (.qualWrite false) s = .next (s.byWrite fun _ => s.setReg 0x1100000 v) ∧
    ((∀ q < 384, s.chan q = 0 ∨ (s.q q).state = .disabled) →
      exec (.qualWrite true) s = .next (s.byWrite fun _ => s.setReg 0x1100000 (v + 2))) ∧
    (∀ q < 384, s.chan q ≠ 0 → (s.q q).state ≠ .disabled → exec (.qualWrite true) s = .next (s.evErr 2))) ∧
  (∀ (n : Fin 512) (s t : State), (s.pc n.val).svc.st = 0 → t = s.trainingRecord 9 n.val 0 false →
    exec (.pseudoChannelLockLoss n) s = .next (if t.autoOos
      then (t.pcSet n.val 1 1 (t.pc n.val).svc.failed).pcSet n.val 2 1 ((t.pcSet n.val 1 1 (t.pc n.val).svc.failed).pc n.val).svc.failed
      else t)) ∧
  (∀ (n : Fin 512) (s : State), (s.pc n.val).svc.st ≠ 0 → exec (.pseudoChannelLockLoss n) s = .next s)

/-- R412, R414, R429: an engine reset begins on every engine named that is not being reset, and ends when the engine's
queues are DISABLED. It rests on choices of the model: log entry 53. -/
def Obligations.EngineResets : Prop :=
  (∀ (s : State), s.barOpen = true →
    exec (.engineReset 0) s = .next s ∧
    (∀ m : BitVec 6, m ≠ 0 → s.pwr.state ≠ 0 → exec (.engineReset m) s = .next (s.evPwr 5)) ∧
    (∀ m : BitVec 6, m ≠ 0 → s.pwr.state = 0 → exec (.engineReset m) s = .next (s.byWrite fun s =>
      (List.range 6).foldl (fun t e => if bitAt m.toNat e && !tget noFlag t.pwr.rstBusy e then t.resetEngine e else t) s))) ∧
  (∀ (e : Fin 6) (s t : State), tget noFlag s.pwr.rstBusy e.val = true → (∀ i < 64, (s.q (64 * e.val + i)).state = .disabled) →
    t = { s with pwr := { s.pwr with rstBusy := tput noFlag s.pwr.rstBusy e.val false } } →
    exec (.engineResetDone e) s = .next ((t.resetRegs (.er e.val)).adoptSelf).flrDue) ∧
  (∀ (e : Fin 6) (s : State), tget noFlag s.pwr.rstBusy e.val = false → exec (.engineResetDone e) s = .next s)

/-- The key seed, the state of the identity and the device key's ID change only at power-on, at the end of start-up and
where the rails switch off (brown-out, over-voltage, thermal trip, deep off): every other command, the resets and restarts
among them, keeps them. It rests on choices of the model: log entry 47. -/
def Obligations.DeviceKeyKept : Prop :=
  ∀ (c : Instr) (s t : State), exec c s = .next t →
    (∀ puf, c ≠ .powerOn puf) → (∀ r, c ≠ .startUpEnd r) → c ≠ .brownOut → c ≠ .overVoltage → (∀ x y, c ≠ .thermalTrip x y) →
    c ≠ .deepOffBegin → t.sec.xi = s.sec.xi ∧ t.sec.id = s.sec.id ∧ t.sec.dkid = s.sec.dkid

/-- A 4 KiB block that the coder packs, at each of the three element widths, is decoded to the very bytes it was made of;
its code is a multiple of 32 bytes long and shorter than the block. -/
def Obligations.PackedBlocksUnpack : Prop :=
  ∀ (w : Nat) (bs c : List Byte), w = 1 ∨ w = 2 ∨ w = 4 → bs.length = 4096 → packBlock w bs = some c →
    (zrDecode 4096 4096 c).map (unplanes w) = some bs ∧ c.length % 32 = 0 ∧ c.length < 4096

/-- A write of bytes to local memory over pages that are neither packed nor marked zero: every byte outside it reads as
before, every byte in it that the write reaches (its page lies in a region and its pseudo-channel has not failed) reads as
written, every other byte in it reads as before, and the memory stays canonical. -/
def Obligations.MemoryWritesStore : Prop :=
  ∀ (a : Nat) (bs : List Byte) (s : State), s.mem.wf = true → s.mem.plain a bs.length = true →
    (∀ b, b < a ∨ a + bs.length ≤ b → (s.memWrite a bs).mem.dataByte b = s.mem.dataByte b) ∧
    (∀ i, i < bs.length → s.stores (a + i) = true → (s.memWrite a bs).mem.dataByte (a + i) = bs.getD i 0) ∧
    (∀ i, i < bs.length → s.stores (a + i) = false → (s.memWrite a bs).mem.dataByte (a + i) = s.mem.dataByte (a + i)) ∧
    (s.memWrite a bs).mem.wf = true

end
end

