-- ==== Sys2Proof/Laws/Frame.lean ====
section
/-!
SUPPORT. Laws of frames: a frame composes along record updates, branches, matches and folds.
-/
namespace Sys2Proof.Machine

theorem Piece.same_refl (s : State) (p : Piece) : p.same s s := by cases p <;> simp [Piece.same]
theorem Piece.same_trans {s t u : State} {p : Piece} (h : p.same s t) (k : p.same t u) : p.same s u := by
  cases p <;> simp_all [Piece.same]
theorem Piece.same_symm {s t : State} {p : Piece} (h : p.same s t) : p.same t s := by
  cases p <;> simp_all [Piece.same]
@[simp] theorem onlyChanges_refl (ps : List Piece) (s : State) : OnlyChanges ps s s := fun p _ => p.same_refl s
theorem onlyChanges_iff {ps qs : List Piece} {s0 s t : State} (h : OnlyChanges qs s t) (k : qs ⊆ ps) :
    OnlyChanges ps s0 t ↔ OnlyChanges ps s0 s :=
  ⟨fun a p hp => Piece.same_trans (a p hp) (Piece.same_symm (h p fun c => hp (k c))),
   fun a p hp => Piece.same_trans (a p hp) (h p fun c => hp (k c))⟩
@[simp] theorem foldl_only {α : Type} {ps : List Piece} {s0 : State} {g : State → α → State} (h : ∀ s a, OnlyChanges ps s (g s a)) (l : List α) (s : State) :
    OnlyChanges ps s0 (l.foldl g s) ↔ OnlyChanges ps s0 s := by
  induction l generalizing s with
  | nil => rfl
  | cons a l ih => rw [List.foldl_cons, ih, onlyChanges_iff (h s a) (List.Subset.refl _)]
theorem foldl_only' {α : Type} {ps : List Piece} {g : State → α → State} (h : ∀ s a, OnlyChanges ps s (g s a)) (l : List α) (s : State) :
    OnlyChanges ps s (l.foldl g s) := (foldl_only h l s).2 (onlyChanges_refl _ _)
@[simp] theorem only_regs {ps : List Piece} {s0 : State} (s : State) (v) (h : Piece.regs ∈ ps) :
    OnlyChanges ps s0 { s with regs := v } ↔ OnlyChanges ps s0 s :=
  onlyChanges_iff (qs := [.regs]) (fun p hp => by cases p <;> simp_all [Piece.same]) (by simpa using h)
@[simp] theorem only_regs1 {ps : List Piece} {s0 : State} (s : State) (v) (h : Piece.regs ∈ ps) :
    OnlyChanges ps s0 { s with regs1 := v } ↔ OnlyChanges ps s0 s :=
  onlyChanges_iff (qs := [.regs]) (fun p hp => by cases p <;> simp_all [Piece.same]) (by simpa using h)
@[simp] theorem only_regs2 {ps : List Piece} {s0 : State} (s : State) (v) (h : Piece.regs ∈ ps) :
    OnlyChanges ps s0 { s with regs2 := v } ↔ OnlyChanges ps s0 s :=
  onlyChanges_iff (qs := [.regs]) (fun p hp => by cases p <;> simp_all [Piece.same]) (by simpa using h)
@[simp] theorem only_stats {ps : List Piece} {s0 : State} (s : State) (v) (h : Piece.stats ∈ ps) :
    OnlyChanges ps s0 { s with stats := v } ↔ OnlyChanges ps s0 s :=
  onlyChanges_iff (qs := [.stats]) (fun p hp => by cases p <;> simp_all [Piece.same]) (by simpa using h)
@[simp] theorem only_ctrs {ps : List Piece} {s0 : State} (s : State) (v) (h : Piece.ctrs ∈ ps) :
    OnlyChanges ps s0 { s with ctrs := v } ↔ OnlyChanges ps s0 s :=
  onlyChanges_iff (qs := [.ctrs]) (fun p hp => by cases p <;> simp_all [Piece.same]) (by simpa using h)
@[simp] theorem only_cqf {ps : List Piece} {s0 : State} (s : State) (v) (h : Piece.cqf ∈ ps) :
    OnlyChanges ps s0 { s with cqf := v } ↔ OnlyChanges ps s0 s :=
  onlyChanges_iff (qs := [.cqf]) (fun p hp => by cases p <;> simp_all [Piece.same]) (by simpa using h)
@[simp] theorem only_mem {ps : List Piece} {s0 : State} (s : State) (v) (h : Piece.mem ∈ ps) :
    OnlyChanges ps s0 { s with mem := v } ↔ OnlyChanges ps s0 s :=
  onlyChanges_iff (qs := [.mem]) (fun p hp => by cases p <;> simp_all [Piece.same]) (by simpa using h)
@[simp] theorem only_hif {ps : List Piece} {s0 : State} (s : State) (v) (h : Piece.hif ∈ ps) :
    OnlyChanges ps s0 { s with hif := v } ↔ OnlyChanges ps s0 s :=
  onlyChanges_iff (qs := [.hif]) (fun p hp => by cases p <;> simp_all [Piece.same]) (by simpa using h)
@[simp] theorem only_mgt {ps : List Piece} {s0 : State} (s : State) (v) (h : Piece.mgt ∈ ps) :
    OnlyChanges ps s0 { s with mgt := v } ↔ OnlyChanges ps s0 s :=
  onlyChanges_iff (qs := [.mgt]) (fun p hp => by cases p <;> simp_all [Piece.same]) (by simpa using h)
@[simp] theorem only_sec {ps : List Piece} {s0 : State} (s : State) (v) (h : Piece.sec ∈ ps) :
    OnlyChanges ps s0 { s with sec := v } ↔ OnlyChanges ps s0 s :=
  onlyChanges_iff (qs := [.sec]) (fun p hp => by cases p <;> simp_all [Piece.same]) (by simpa using h)
@[simp] theorem only_err {ps : List Piece} {s0 : State} (s : State) (v) (h : Piece.err ∈ ps) :
    OnlyChanges ps s0 { s with err := v } ↔ OnlyChanges ps s0 s :=
  onlyChanges_iff (qs := [.err]) (fun p hp => by cases p <;> simp_all [Piece.same]) (by simpa using h)
@[simp] theorem only_flash {ps : List Piece} {s0 : State} (s : State) (v) (h : Piece.flash ∈ ps) :
    OnlyChanges ps s0 { s with flash := v } ↔ OnlyChanges ps s0 s :=
  onlyChanges_iff (qs := [.flash]) (fun p hp => by cases p <;> simp_all [Piece.same]) (by simpa using h)
@[simp] theorem only_cfg {ps : List Piece} {s0 : State} (s : State) (v) (h : Piece.cfg ∈ ps) :
    OnlyChanges ps s0 { s with cfg := v } ↔ OnlyChanges ps s0 s :=
  onlyChanges_iff (qs := [.cfg]) (fun p hp => by cases p <;> simp_all [Piece.same]) (by simpa using h)
@[simp] theorem only_pwr {ps : List Piece} {s0 : State} (s : State) (v) (h : Piece.pwr ∈ ps) :
    OnlyChanges ps s0 { s with pwr := v } ↔ OnlyChanges ps s0 s :=
  onlyChanges_iff (qs := [.pwr]) (fun p hp => by cases p <;> simp_all [Piece.same]) (by simpa using h)
@[simp] theorem only_mat {ps : List Piece} {s0 : State} (s : State) (v) (h : Piece.mat ∈ ps) :
    OnlyChanges ps s0 { s with mat := v } ↔ OnlyChanges ps s0 s :=
  onlyChanges_iff (qs := [.mat]) (fun p hp => by cases p <;> simp_all [Piece.same]) (by simpa using h)
@[simp] theorem only_vec {ps : List Piece} {s0 : State} (s : State) (v) (h : Piece.vec ∈ ps) :
    OnlyChanges ps s0 { s with vec := v } ↔ OnlyChanges ps s0 s :=
  onlyChanges_iff (qs := [.vec]) (fun p hp => by cases p <;> simp_all [Piece.same]) (by simpa using h)
@[simp] theorem only_nbu {ps : List Piece} {s0 : State} (s : State) (v) (h : Piece.nbu ∈ ps) :
    OnlyChanges ps s0 { s with nbu := v } ↔ OnlyChanges ps s0 s :=
  onlyChanges_iff (qs := [.nbu]) (fun p hp => by cases p <;> simp_all [Piece.same]) (by simpa using h)
@[simp] theorem only_xch {ps : List Piece} {s0 : State} (s : State) (v) (h : Piece.xch ∈ ps) :
    OnlyChanges ps s0 { s with xch := v } ↔ OnlyChanges ps s0 s :=
  onlyChanges_iff (qs := [.xch]) (fun p hp => by cases p <;> simp_all [Piece.same]) (by simpa using h)
@[simp] theorem only_fab {ps : List Piece} {s0 : State} (s : State) (v) (h : Piece.fab ∈ ps) :
    OnlyChanges ps s0 { s with fab := v } ↔ OnlyChanges ps s0 s :=
  onlyChanges_iff (qs := [.fab]) (fun p hp => by cases p <;> simp_all [Piece.same]) (by simpa using h)
@[simp] theorem only_itk {ps : List Piece} {s0 : State} (s : State) (v) (h : Piece.itk ∈ ps) :
    OnlyChanges ps s0 { s with itk := v } ↔ OnlyChanges ps s0 s :=
  onlyChanges_iff (qs := [.itk]) (fun p hp => by cases p <;> simp_all [Piece.same]) (by simpa using h)
@[simp] theorem only_draws {ps : List Piece} {s0 : State} (s : State) (v) (h : Piece.draws ∈ ps) :
    OnlyChanges ps s0 { s with draws := v } ↔ OnlyChanges ps s0 s :=
  onlyChanges_iff (qs := [.draws]) (fun p hp => by cases p <;> simp_all [Piece.same]) (by simpa using h)
@[simp] theorem only_pending {ps : List Piece} {s0 : State} (s : State) (v) (h : Piece.pending ∈ ps) :
    OnlyChanges ps s0 { s with pending := v } ↔ OnlyChanges ps s0 s :=
  onlyChanges_iff (qs := [.pending]) (fun p hp => by cases p <;> simp_all [Piece.same]) (by simpa using h)
@[simp] theorem only_ite {ps : List Piece} {s0 : State} (c : Prop) [Decidable c] (a b : State) :
    OnlyChanges ps s0 (if c then a else b) ↔ (c → OnlyChanges ps s0 a) ∧ (¬ c → OnlyChanges ps s0 b) := by
  by_cases h : c <;> simp [h]
@[simp] theorem only_regs3 {ps : List Piece} {s0 : State} (s : State) (u v w) (h : Piece.regs ∈ ps) :
    OnlyChanges ps s0 { s with regs := u, regs1 := v, regs2 := w } ↔ OnlyChanges ps s0 s :=
  onlyChanges_iff (qs := [.regs]) (fun p hp => by cases p <;> simp_all [Piece.same]) (by simpa using h)
@[simp] theorem only_cqf_fab {ps : List Piece} {s0 : State} (s : State) (u v) (h : [Piece.cqf, Piece.fab] ⊆ ps) :
    OnlyChanges ps s0 { s with cqf := u, fab := v } ↔ OnlyChanges ps s0 s :=
  onlyChanges_iff (qs := [.cqf, .fab]) (fun p hp => by cases p <;> simp_all [Piece.same]) h
theorem only_of_all {ps : List Piece} {s t : State} (h : ∀ p, p ∈ ps) : OnlyChanges ps s t := fun p hp => absurd (h p) hp
@[simp] theorem only_matchOpt {ps : List Piece} {s0 : State} {α : Type} (o : Option α) (a : State) (b : α → State) :
    OnlyChanges ps s0 (match o with | some x => b x | none => a) ↔ (∀ x, o = some x → OnlyChanges ps s0 (b x)) ∧ (o = none → OnlyChanges ps s0 a) := by
  cases o <;> simp
@[simp] theorem snd_ite {α β : Type} (c : Prop) [Decidable c] (a b : α × β) :
    (if c then a else b).2 = if c then a.2 else b.2 := by by_cases h : c <;> simp [h]
@[simp] theorem foldl_only_snd {α β : Type} {ps : List Piece} {s0 : State} {g : β × State → α → β × State}
    (h : ∀ a b, OnlyChanges ps a.2 (g a b).2) (l : List α) (x : β × State) :
    OnlyChanges ps s0 (l.foldl g x).2 ↔ OnlyChanges ps s0 x.2 := by
  induction l generalizing x with
  | nil => rfl
  | cons a l ih => rw [List.foldl_cons, ih, onlyChanges_iff (h x a) (List.Subset.refl _)]
theorem only_upd {ps : List Piece} {s0 : State} (u : State) v_regs1 v_regs2 v_stats v_ctrs v_cqf v_mem v_hif v_mgt v_sec v_err v_flash v_cfg v_pwr v_mat v_vec v_nbu v_xch v_fab v_itk v_draws v_pending
    (h : (Piece.regs ∈ ps ∨ v_regs1 = u.regs1) ∧ (Piece.regs ∈ ps ∨ v_regs2 = u.regs2) ∧ (Piece.stats ∈ ps ∨ v_stats = u.stats) ∧ (Piece.ctrs ∈ ps ∨ v_ctrs = u.ctrs) ∧ (Piece.cqf ∈ ps ∨ v_cqf = u.cqf) ∧ (Piece.mem ∈ ps ∨ v_mem = u.mem) ∧ (Piece.hif ∈ ps ∨ v_hif = u.hif) ∧ (Piece.mgt ∈ ps ∨ v_mgt = u.mgt) ∧ (Piece.sec ∈ ps ∨ v_sec = u.sec) ∧ (Piece.err ∈ ps ∨ v_err = u.err) ∧ (Piece.flash ∈ ps ∨ v_flash = u.flash) ∧ (Piece.cfg ∈ ps ∨ v_cfg = u.cfg) ∧ (Piece.pwr ∈ ps ∨ v_pwr = u.pwr) ∧ (Piece.mat ∈ ps ∨ v_mat = u.mat) ∧ (Piece.vec ∈ ps ∨ v_vec = u.vec) ∧ (Piece.nbu ∈ ps ∨ v_nbu = u.nbu) ∧ (Piece.xch ∈ ps ∨ v_xch = u.xch) ∧ (Piece.fab ∈ ps ∨ v_fab = u.fab) ∧ (Piece.itk ∈ ps ∨ v_itk = u.itk) ∧ (Piece.draws ∈ ps ∨ v_draws = u.draws) ∧ (Piece.pending ∈ ps ∨ v_pending = u.pending)) :
    OnlyChanges ps s0 (State.mk u.regs v_regs1 v_regs2 v_stats v_ctrs v_cqf v_mem v_hif v_mgt v_sec v_err v_flash v_cfg v_pwr v_mat v_vec v_nbu v_xch v_fab v_itk v_draws v_pending) ↔ OnlyChanges ps s0 u := by
  refine onlyChanges_iff (qs := ps) (fun p hp => ?_) (List.Subset.refl _)
  cases p <;> simp_all [Piece.same]
end Sys2Proof.Machine
end

