-- ==== Sys2Proof/Laws/FrameShared.lean ====
section
/-!
SUPPORT. Frames of the operations of registers, records, memory, queues, links and operands: which blocks of the state each of them may change.
-/
set_option maxRecDepth 4000
namespace Sys2Proof.Machine
variable {ps : List Piece} {s0 : State}
theorem State.setReg_only (s a1 a2) : OnlyChanges [.regs] s (State.setReg s a1 a2) := by
  unfold State.setReg
  (repeat' split) <;> simp
@[simp] theorem State.setReg_only_iff (s a1 a2) (h : [.regs] ⊆ ps) : OnlyChanges ps s0 (State.setReg s a1 a2) ↔ OnlyChanges ps s0 s :=
  onlyChanges_iff (State.setReg_only s a1 a2) h
theorem State.bump_only (s a1 a2) : OnlyChanges [.ctrs] s (State.bump s a1 a2) := by
  unfold State.bump
  simp
@[simp] theorem State.bump_only_iff (s a1 a2) (h : [.ctrs] ⊆ ps) : OnlyChanges ps s0 (State.bump s a1 a2) ↔ OnlyChanges ps s0 s :=
  onlyChanges_iff (State.bump_only s a1 a2) h
theorem State.bump64_only (s a1 a2) : OnlyChanges [.ctrs] s (State.bump64 s a1 a2) := by
  unfold State.bump64
  simp
@[simp] theorem State.bump64_only_iff (s a1 a2) (h : [.ctrs] ⊆ ps) : OnlyChanges ps s0 (State.bump64 s a1 a2) ↔ OnlyChanges ps s0 s :=
  onlyChanges_iff (State.bump64_only s a1 a2) h
theorem State.bumpWrap_only (s a1) : OnlyChanges [.ctrs] s (State.bumpWrap s a1) := by
  unfold State.bumpWrap
  simp
@[simp] theorem State.bumpWrap_only_iff (s a1) (h : [.ctrs] ⊆ ps) : OnlyChanges ps s0 (State.bumpWrap s a1) ↔ OnlyChanges ps s0 s :=
  onlyChanges_iff (State.bumpWrap_only s a1) h
theorem State.setCtr_only (s a1 a2) : OnlyChanges [.ctrs] s (State.setCtr s a1 a2) := by
  unfold State.setCtr
  simp
@[simp] theorem State.setCtr_only_iff (s a1 a2) (h : [.ctrs] ⊆ ps) : OnlyChanges ps s0 (State.setCtr s a1 a2) ↔ OnlyChanges ps s0 s :=
  onlyChanges_iff (State.setCtr_only s a1 a2) h
theorem State.tlpOut_only (s a1 a2 a3) : OnlyChanges [.hif] s (State.tlpOut s a1 a2 a3) := by
  unfold State.tlpOut
  simp
@[simp] theorem State.tlpOut_only_iff (s a1 a2 a3) (h : [.hif] ⊆ ps) : OnlyChanges ps s0 (State.tlpOut s a1 a2 a3) ↔ OnlyChanges ps s0 s :=
  onlyChanges_iff (State.tlpOut_only s a1 a2 a3) h
theorem State.hostSend_only (s a1 a2 a3) : OnlyChanges [.hif] s (State.hostSend s a1 a2 a3) := by
  unfold State.hostSend
  simp
@[simp] theorem State.hostSend_only_iff (s a1 a2 a3) (h : [.hif] ⊆ ps) : OnlyChanges ps s0 (State.hostSend s a1 a2 a3) ↔ OnlyChanges ps s0 s :=
  onlyChanges_iff (State.hostSend_only s a1 a2 a3) h
theorem State.hostWrite_only (s a1 a2 a3) : OnlyChanges [.hif] s (State.hostWrite s a1 a2 a3) := by
  unfold State.hostWrite
  simp
@[simp] theorem State.hostWrite_only_iff (s a1 a2 a3) (h : [.hif] ⊆ ps) : OnlyChanges ps s0 (State.hostWrite s a1 a2 a3) ↔ OnlyChanges ps s0 s :=
  onlyChanges_iff (State.hostWrite_only s a1 a2 a3) h
theorem State.sendMsix_only (s a1) : OnlyChanges [.hif] s (State.sendMsix s a1) := by
  unfold State.sendMsix
  simp
@[simp] theorem State.sendMsix_only_iff (s a1) (h : [.hif] ⊆ ps) : OnlyChanges ps s0 (State.sendMsix s a1) ↔ OnlyChanges ps s0 s :=
  onlyChanges_iff (State.sendMsix_only s a1) h
theorem State.raiseVector_only (s a1) : OnlyChanges [.hif] s (State.raiseVector s a1) := by
  unfold State.raiseVector
  simp
@[simp] theorem State.raiseVector_only_iff (s a1) (h : [.hif] ⊆ ps) : OnlyChanges ps s0 (State.raiseVector s a1) ↔ OnlyChanges ps s0 s :=
  onlyChanges_iff (State.raiseVector_only s a1) h
theorem State.irq_only (s a1) : OnlyChanges [.hif] s (State.irq s a1) := by
  unfold State.irq
  simp
@[simp] theorem State.irq_only_iff (s a1) (h : [.hif] ⊆ ps) : OnlyChanges ps s0 (State.irq s a1) ↔ OnlyChanges ps s0 s :=
  onlyChanges_iff (State.irq_only s a1) h
theorem State.event_only (s a1 a2) : OnlyChanges [.stats] s (State.event s a1 a2) := by
  unfold State.event
  simp
@[simp] theorem State.event_only_iff (s a1 a2) (h : [.stats] ⊆ ps) : OnlyChanges ps s0 (State.event s a1 a2) ↔ OnlyChanges ps s0 s :=
  onlyChanges_iff (State.event_only s a1 a2) h
theorem State.raiseIf_only (s a1 a2 a3 a4) : OnlyChanges [.stats, .hif] s (State.raiseIf s a1 a2 a3 a4) := by
  unfold State.raiseIf
  simp
@[simp] theorem State.raiseIf_only_iff (s a1 a2 a3 a4) (h : [.stats, .hif] ⊆ ps) : OnlyChanges ps s0 (State.raiseIf s a1 a2 a3 a4) ↔ OnlyChanges ps s0 s :=
  onlyChanges_iff (State.raiseIf_only s a1 a2 a3 a4) h
theorem State.evGlb_only (s a1) : OnlyChanges [.stats, .hif] s (State.evGlb s a1) := by
  unfold State.evGlb
  simp
@[simp] theorem State.evGlb_only_iff (s a1) (h : [.stats, .hif] ⊆ ps) : OnlyChanges ps s0 (State.evGlb s a1) ↔ OnlyChanges ps s0 s :=
  onlyChanges_iff (State.evGlb_only s a1) h
theorem State.evPwr_only (s a1) : OnlyChanges [.stats, .hif] s (State.evPwr s a1) := by
  unfold State.evPwr
  simp
@[simp] theorem State.evPwr_only_iff (s a1) (h : [.stats, .hif] ⊆ ps) : OnlyChanges ps s0 (State.evPwr s a1) ↔ OnlyChanges ps s0 s :=
  onlyChanges_iff (State.evPwr_only s a1) h
theorem State.evTim_only (s a1) : OnlyChanges [.stats, .hif] s (State.evTim s a1) := by
  unfold State.evTim
  simp
@[simp] theorem State.evTim_only_iff (s a1) (h : [.stats, .hif] ⊆ ps) : OnlyChanges ps s0 (State.evTim s a1) ↔ OnlyChanges ps s0 s :=
  onlyChanges_iff (State.evTim_only s a1) h
theorem State.evHif_only (s a1) : OnlyChanges [.stats, .hif] s (State.evHif s a1) := by
  unfold State.evHif
  simp
@[simp] theorem State.evHif_only_iff (s a1) (h : [.stats, .hif] ⊆ ps) : OnlyChanges ps s0 (State.evHif s a1) ↔ OnlyChanges ps s0 s :=
  onlyChanges_iff (State.evHif_only s a1) h
theorem State.evCqf_only (s a1) : OnlyChanges [.stats] s (State.evCqf s a1) := by
  unfold State.evCqf
  simp
@[simp] theorem State.evCqf_only_iff (s a1) (h : [.stats] ⊆ ps) : OnlyChanges ps s0 (State.evCqf s a1) ↔ OnlyChanges ps s0 s :=
  onlyChanges_iff (State.evCqf_only s a1) h
theorem State.evMat_only (s a1) : OnlyChanges [.stats, .hif] s (State.evMat s a1) := by
  unfold State.evMat
  simp
@[simp] theorem State.evMat_only_iff (s a1) (h : [.stats, .hif] ⊆ ps) : OnlyChanges ps s0 (State.evMat s a1) ↔ OnlyChanges ps s0 s :=
  onlyChanges_iff (State.evMat_only s a1) h
theorem State.evVec_only (s a1) : OnlyChanges [.stats, .hif] s (State.evVec s a1) := by
  unfold State.evVec
  simp
@[simp] theorem State.evVec_only_iff (s a1) (h : [.stats, .hif] ⊆ ps) : OnlyChanges ps s0 (State.evVec s a1) ↔ OnlyChanges ps s0 s :=
  onlyChanges_iff (State.evVec_only s a1) h
theorem State.evTir_only (s a1) : OnlyChanges [.stats, .hif] s (State.evTir s a1) := by
  unfold State.evTir
  simp
@[simp] theorem State.evTir_only_iff (s a1) (h : [.stats, .hif] ⊆ ps) : OnlyChanges ps s0 (State.evTir s a1) ↔ OnlyChanges ps s0 s :=
  onlyChanges_iff (State.evTir_only s a1) h
theorem State.evNbu_only (s a1) : OnlyChanges [.stats, .hif] s (State.evNbu s a1) := by
  unfold State.evNbu
  simp
@[simp] theorem State.evNbu_only_iff (s a1) (h : [.stats, .hif] ⊆ ps) : OnlyChanges ps s0 (State.evNbu s a1) ↔ OnlyChanges ps s0 s :=
  onlyChanges_iff (State.evNbu_only s a1) h
theorem State.evXch_only (s a1) : OnlyChanges [.stats, .hif] s (State.evXch s a1) := by
  unfold State.evXch
  simp
@[simp] theorem State.evXch_only_iff (s a1) (h : [.stats, .hif] ⊆ ps) : OnlyChanges ps s0 (State.evXch s a1) ↔ OnlyChanges ps s0 s :=
  onlyChanges_iff (State.evXch_only s a1) h
theorem State.evFab_only (s a1) : OnlyChanges [.stats, .hif] s (State.evFab s a1) := by
  unfold State.evFab
  simp
@[simp] theorem State.evFab_only_iff (s a1) (h : [.stats, .hif] ⊆ ps) : OnlyChanges ps s0 (State.evFab s a1) ↔ OnlyChanges ps s0 s :=
  onlyChanges_iff (State.evFab_only s a1) h
theorem State.evItk_only (s a1) : OnlyChanges [.stats, .hif] s (State.evItk s a1) := by
  unfold State.evItk
  simp
@[simp] theorem State.evItk_only_iff (s a1) (h : [.stats, .hif] ⊆ ps) : OnlyChanges ps s0 (State.evItk s a1) ↔ OnlyChanges ps s0 s :=
  onlyChanges_iff (State.evItk_only s a1) h
theorem State.evMgt_only (s a1) : OnlyChanges [.stats, .hif] s (State.evMgt s a1) := by
  unfold State.evMgt
  simp
@[simp] theorem State.evMgt_only_iff (s a1) (h : [.stats, .hif] ⊆ ps) : OnlyChanges ps s0 (State.evMgt s a1) ↔ OnlyChanges ps s0 s :=
  onlyChanges_iff (State.evMgt_only s a1) h
theorem State.evSec_only (s a1) : OnlyChanges [.stats, .hif] s (State.evSec s a1) := by
  unfold State.evSec
  simp
@[simp] theorem State.evSec_only_iff (s a1) (h : [.stats, .hif] ⊆ ps) : OnlyChanges ps s0 (State.evSec s a1) ↔ OnlyChanges ps s0 s :=
  onlyChanges_iff (State.evSec_only s a1) h
theorem State.evErr_only (s a1) : OnlyChanges [.stats] s (State.evErr s a1) := by
  unfold State.evErr
  simp
@[simp] theorem State.evErr_only_iff (s a1) (h : [.stats] ⊆ ps) : OnlyChanges ps s0 (State.evErr s a1) ↔ OnlyChanges ps s0 s :=
  onlyChanges_iff (State.evErr_only s a1) h
theorem State.draw_only (s) : OnlyChanges [.draws] s (State.draw s) := by
  unfold State.draw
  simp
@[simp] theorem State.draw_only_iff (s) (h : [.draws] ⊆ ps) : OnlyChanges ps s0 (State.draw s) ↔ OnlyChanges ps s0 s :=
  onlyChanges_iff (State.draw_only s) h
theorem State.aerEvent_only (s a1) : OnlyChanges [.hif, .draws] s (State.aerEvent s a1) := by
  unfold State.aerEvent
  simp
@[simp] theorem State.aerEvent_only_iff (s a1) (h : [.hif, .draws] ⊆ ps) : OnlyChanges ps s0 (State.aerEvent s a1) ↔ OnlyChanges ps s0 s :=
  onlyChanges_iff (State.aerEvent_only s a1) h
theorem State.histAdd_only (a0 a1 a2 s) : OnlyChanges [.stats, .err] s (State.histAdd a0 a1 a2 s) := by
  unfold State.histAdd
  simp
@[simp] theorem State.histAdd_only_iff (a0 a1 a2 s) (h : [.stats, .err] ⊆ ps) : OnlyChanges ps s0 (State.histAdd a0 a1 a2 s) ↔ OnlyChanges ps s0 s :=
  onlyChanges_iff (State.histAdd_only a0 a1 a2 s) h
theorem State.recHist_only (a0 a1 a2 a3 s) : OnlyChanges [.stats, .err] s (State.recHist a0 a1 a2 a3 s) := by
  unfold State.recHist
  simp
@[simp] theorem State.recHist_only_iff (a0 a1 a2 a3 s) (h : [.stats, .err] ⊆ ps) : OnlyChanges ps s0 (State.recHist a0 a1 a2 a3 s) ↔ OnlyChanges ps s0 s :=
  onlyChanges_iff (State.recHist_only a0 a1 a2 a3 s) h
theorem State.recWrite_only (a0 a1 a2 a3 a4 a5 s) : OnlyChanges [.stats, .ctrs, .hif, .err] s (State.recWrite a0 a1 a2 a3 a4 a5 s) := by
  unfold State.recWrite
  simp
@[simp] theorem State.recWrite_only_iff (a0 a1 a2 a3 a4 a5 s) (h : [.stats, .ctrs, .hif, .err] ⊆ ps) : OnlyChanges ps s0 (State.recWrite a0 a1 a2 a3 a4 a5 s) ↔ OnlyChanges ps s0 s :=
  onlyChanges_iff (State.recWrite_only a0 a1 a2 a3 a4 a5 s) h
theorem State.errRec_only (a0 a1 a2 a3 a4 a5 s) : OnlyChanges [.stats, .ctrs, .hif, .err] s (State.errRec a0 a1 a2 a3 a4 a5 s) := by
  unfold State.errRec
  simp
@[simp] theorem State.errRec_only_iff (a0 a1 a2 a3 a4 a5 s) (h : [.stats, .ctrs, .hif, .err] ⊆ ps) : OnlyChanges ps s0 (State.errRec a0 a1 a2 a3 a4 a5 s) ↔ OnlyChanges ps s0 s :=
  onlyChanges_iff (State.errRec_only a0 a1 a2 a3 a4 a5 s) h
theorem State.voteReg_only (s a1 a2) : OnlyChanges [.regs, .stats, .ctrs, .hif, .err] s (State.voteReg s a1 a2) := by
  unfold State.voteReg
  (repeat' (first | split | dsimp only)) <;> simp
@[simp] theorem State.voteReg_only_iff (s a1 a2) (h : [.regs, .stats, .ctrs, .hif, .err] ⊆ ps) : OnlyChanges ps s0 (State.voteReg s a1 a2) ↔ OnlyChanges ps s0 s :=
  onlyChanges_iff (State.voteReg_only s a1 a2) h
theorem State.useT_only (s a1) : OnlyChanges [.regs, .stats, .ctrs, .hif, .err] s (State.useT s a1) := by
  unfold State.useT
  (repeat' split) <;> simp
@[simp] theorem State.useT_only_iff (s a1) (h : [.regs, .stats, .ctrs, .hif, .err] ⊆ ps) : OnlyChanges ps s0 (State.useT s a1) ↔ OnlyChanges ps s0 s :=
  onlyChanges_iff (State.useT_only s a1) h
theorem State.logPut_only (a0 a1 a2 a3 s) : OnlyChanges [.ctrs, .mgt] s (State.logPut a0 a1 a2 a3 s) := by
  unfold State.logPut
  (repeat' split) <;> simp
@[simp] theorem State.logPut_only_iff (a0 a1 a2 a3 s) (h : [.ctrs, .mgt] ⊆ ps) : OnlyChanges ps s0 (State.logPut a0 a1 a2 a3 s) ↔ OnlyChanges ps s0 s :=
  onlyChanges_iff (State.logPut_only a0 a1 a2 a3 s) h
theorem State.logWrite_only (a0 a1 a2 s) : OnlyChanges [.ctrs, .mgt] s (State.logWrite a0 a1 a2 s) := by
  unfold State.logWrite
  simp
@[simp] theorem State.logWrite_only_iff (a0 a1 a2 s) (h : [.ctrs, .mgt] ⊆ ps) : OnlyChanges ps s0 (State.logWrite a0 a1 a2 s) ↔ OnlyChanges ps s0 s :=
  onlyChanges_iff (State.logWrite_only a0 a1 a2 s) h
theorem State.tracePoint_only (s a1) : OnlyChanges [.ctrs, .mgt] s (State.tracePoint s a1) := by
  unfold State.tracePoint
  (repeat' split) <;> simp
@[simp] theorem State.tracePoint_only_iff (s a1) (h : [.ctrs, .mgt] ⊆ ps) : OnlyChanges ps s0 (State.tracePoint s a1) ↔ OnlyChanges ps s0 s :=
  onlyChanges_iff (State.tracePoint_only s a1) h
theorem State.trace_only (s a1 a2) : OnlyChanges [.ctrs, .mgt] s (State.trace s a1 a2) := by
  unfold State.trace
  simp
@[simp] theorem State.trace_only_iff (s a1 a2) (h : [.ctrs, .mgt] ⊆ ps) : OnlyChanges ps s0 (State.trace s a1 a2) ↔ OnlyChanges ps s0 s :=
  onlyChanges_iff (State.trace_only s a1 a2) h
theorem State.holdWrite_only (a0 a1 a2 s) : OnlyChanges [.ctrs, .mem] s (State.holdWrite a0 a1 a2 s) := by
  unfold State.holdWrite
  simp
@[simp] theorem State.holdWrite_only_iff (a0 a1 a2 s) (h : [.ctrs, .mem] ⊆ ps) : OnlyChanges ps s0 (State.holdWrite a0 a1 a2 s) ↔ OnlyChanges ps s0 s :=
  onlyChanges_iff (State.holdWrite_only a0 a1 a2 s) h
theorem State.foundUe_only (a0 a1 a2 a3 s) : OnlyChanges [.stats, .ctrs, .mem, .hif, .err] s (State.foundUe a0 a1 a2 a3 s) := by
  unfold State.foundUe
  simp
@[simp] theorem State.foundUe_only_iff (a0 a1 a2 a3 s) (h : [.stats, .ctrs, .mem, .hif, .err] ⊆ ps) : OnlyChanges ps s0 (State.foundUe a0 a1 a2 a3 s) ↔ OnlyChanges ps s0 s :=
  onlyChanges_iff (State.foundUe_only a0 a1 a2 a3 s) h
theorem State.readWord_only (a0 a1 a2 a3 a4 a5 a6 s) : OnlyChanges [.stats, .ctrs, .mem, .hif, .err] s (State.readWord a0 a1 a2 a3 a4 a5 a6 s).2 := by
  unfold State.readWord
  (repeat' split) <;> simp
@[simp] theorem State.readWord_only_iff (a0 a1 a2 a3 a4 a5 a6 s) (h : [.stats, .ctrs, .mem, .hif, .err] ⊆ ps) : OnlyChanges ps s0 (State.readWord a0 a1 a2 a3 a4 a5 a6 s).2 ↔ OnlyChanges ps s0 s :=
  onlyChanges_iff (State.readWord_only a0 a1 a2 a3 a4 a5 a6 s) h
theorem State.readWords_only_aux (a0 a1 a2 a3 a4 a5 s) : OnlyChanges [.stats, .ctrs, .mem, .hif, .err] s0 (State.readWords a0 a1 a2 a3 a4 a5 s).2 ↔ OnlyChanges [.stats, .ctrs, .mem, .hif, .err] s0 s := by
  fun_induction State.readWords <;> simp_all +zetaDelta
theorem State.readWords_only (a0 a1 a2 a3 a4 a5 s) : OnlyChanges [.stats, .ctrs, .mem, .hif, .err] s (State.readWords a0 a1 a2 a3 a4 a5 s).2 := 
  (State.readWords_only_aux a0 a1 a2 a3 a4 a5 s).2 (onlyChanges_refl _ _)
@[simp] theorem State.readWords_only_iff (a0 a1 a2 a3 a4 a5 s) (h : [.stats, .ctrs, .mem, .hif, .err] ⊆ ps) : OnlyChanges ps s0 (State.readWords a0 a1 a2 a3 a4 a5 s).2 ↔ OnlyChanges ps s0 s :=
  onlyChanges_iff (State.readWords_only a0 a1 a2 a3 a4 a5 s) h
theorem State.undefBytes_only (a0 a1 s) : OnlyChanges [.draws] s (State.undefBytes a0 a1 s).2 := by
  unfold State.undefBytes
  simp
@[simp] theorem State.undefBytes_only_iff (a0 a1 s) (h : [.draws] ⊆ ps) : OnlyChanges ps s0 (State.undefBytes a0 a1 s).2 ↔ OnlyChanges ps s0 s :=
  onlyChanges_iff (State.undefBytes_only a0 a1 s) h
theorem ReadEnd.also_snd (e : ReadEnd) (x : ReadEnd × State) : (e.also x).2 = x.2 := rfl
theorem State.readPacked_only (a0 a1 a2 a3 a4 a5 s) : OnlyChanges [.stats, .ctrs, .mem, .hif, .err] s (State.readPacked a0 a1 a2 a3 a4 a5 s).2 := by
  unfold State.readPacked
  rw [ReadEnd.also_snd]
  exact (State.readWords_only_iff _ _ _ _ _ _ _ (List.Subset.refl _)).2 (State.readWords_only _ _ _ _ _ _ _)
@[simp] theorem State.readPacked_only_iff (a0 a1 a2 a3 a4 a5 s) (h : [.stats, .ctrs, .mem, .hif, .err] ⊆ ps) : OnlyChanges ps s0 (State.readPacked a0 a1 a2 a3 a4 a5 s).2 ↔ OnlyChanges ps s0 s :=
  onlyChanges_iff (State.readPacked_only a0 a1 a2 a3 a4 a5 s) h
theorem State.gotOf_only (e bs s) : OnlyChanges [.stats, .hif] s (State.gotOf e bs s).2 := by
  unfold State.gotOf
  (repeat' split) <;> simp
@[simp] theorem State.gotOf_only_iff (e bs s) (h : [.stats, .hif] ⊆ ps) : OnlyChanges ps s0 (State.gotOf e bs s).2 ↔ OnlyChanges ps s0 s :=
  onlyChanges_iff (State.gotOf_only e bs s) h
theorem State.readBlock_only (a0 a1 a2 a3 a4 s) : OnlyChanges [.stats, .ctrs, .mem, .hif, .err, .draws] s (State.readBlock a0 a1 a2 a3 a4 s).2 := by
  unfold State.readBlock
  (repeat' (first | split | dsimp only)) <;> simp
@[simp] theorem State.readBlock_only_iff (a0 a1 a2 a3 a4 s) (h : [.stats, .ctrs, .mem, .hif, .err, .draws] ⊆ ps) : OnlyChanges ps s0 (State.readBlock a0 a1 a2 a3 a4 s).2 ↔ OnlyChanges ps s0 s :=
  onlyChanges_iff (State.readBlock_only a0 a1 a2 a3 a4 s) h
theorem State.readF_only_aux (a0 a1 a2 a3 a4 a5 s) : OnlyChanges [.stats, .ctrs, .mem, .hif, .err, .draws] s0 (State.readF a0 a1 a2 a3 a4 a5 s).2 ↔ OnlyChanges [.stats, .ctrs, .mem, .hif, .err, .draws] s0 s := by
  fun_induction State.readF <;> simp_all +zetaDelta
theorem State.readF_only (a0 a1 a2 a3 a4 a5 s) : OnlyChanges [.stats, .ctrs, .mem, .hif, .err, .draws] s (State.readF a0 a1 a2 a3 a4 a5 s).2 := 
  (State.readF_only_aux a0 a1 a2 a3 a4 a5 s).2 (onlyChanges_refl _ _)
@[simp] theorem State.readF_only_iff (a0 a1 a2 a3 a4 a5 s) (h : [.stats, .ctrs, .mem, .hif, .err, .draws] ⊆ ps) : OnlyChanges ps s0 (State.readF a0 a1 a2 a3 a4 a5 s).2 ↔ OnlyChanges ps s0 s :=
  onlyChanges_iff (State.readF_only a0 a1 a2 a3 a4 a5 s) h
theorem State.memRead_only (a0 a1 a2 s) : OnlyChanges [.stats, .ctrs, .mem, .hif, .err, .draws] s (State.memRead a0 a1 a2 s).2 := by
  unfold State.memRead
  simp
@[simp] theorem State.memRead_only_iff (a0 a1 a2 s) (h : [.stats, .ctrs, .mem, .hif, .err, .draws] ⊆ ps) : OnlyChanges ps s0 (State.memRead a0 a1 a2 s).2 ↔ OnlyChanges ps s0 s :=
  onlyChanges_iff (State.memRead_only a0 a1 a2 s) h
theorem State.expandBlock_only (a0 a1 a2 s) : OnlyChanges [.stats, .ctrs, .mem, .hif, .err, .draws] s (State.expandBlock a0 a1 a2 s).2 := by
  unfold State.expandBlock
  (repeat' (first | split | dsimp only)) <;> simp
@[simp] theorem State.expandBlock_only_iff (a0 a1 a2 s) (h : [.stats, .ctrs, .mem, .hif, .err, .draws] ⊆ ps) : OnlyChanges ps s0 (State.expandBlock a0 a1 a2 s).2 ↔ OnlyChanges ps s0 s :=
  onlyChanges_iff (State.expandBlock_only a0 a1 a2 s) h
theorem State.expandBlocks_only (a0 a1 a2 s) : OnlyChanges [.stats, .ctrs, .mem, .hif, .err, .draws] s (State.expandBlocks a0 a1 a2 s).2 := by
  induction a2 generalizing s with
  | zero => exact onlyChanges_refl _ _
  | succ n ih =>
    unfold State.expandBlocks
    exact (onlyChanges_iff (ih _) (List.Subset.refl _)).2 (State.expandBlock_only _ _ _ _)
@[simp] theorem State.expandBlocks_only_iff (a0 a1 a2 s) (h : [.stats, .ctrs, .mem, .hif, .err, .draws] ⊆ ps) : OnlyChanges ps s0 (State.expandBlocks a0 a1 a2 s).2 ↔ OnlyChanges ps s0 s :=
  onlyChanges_iff (State.expandBlocks_only a0 a1 a2 s) h
theorem State.expand_only (a0 s) : OnlyChanges [.stats, .ctrs, .mem, .hif, .err, .draws] s (State.expand a0 s) := by
  unfold State.expand
  (repeat' split) <;> simp
@[simp] theorem State.expand_only_iff (a0 s) (h : [.stats, .ctrs, .mem, .hif, .err, .draws] ⊆ ps) : OnlyChanges ps s0 (State.expand a0 s) ↔ OnlyChanges ps s0 s :=
  onlyChanges_iff (State.expand_only a0 s) h
theorem State.readyPage_only (s a1) : OnlyChanges [.stats, .ctrs, .mem, .hif, .err, .draws] s (State.readyPage s a1) := by
  unfold State.readyPage
  simp
@[simp] theorem State.readyPage_only_iff (s a1) (h : [.stats, .ctrs, .mem, .hif, .err, .draws] ⊆ ps) : OnlyChanges ps s0 (State.readyPage s a1) ↔ OnlyChanges ps s0 s :=
  onlyChanges_iff (State.readyPage_only s a1) h
theorem State.mergeRead_only (a0 a1 a2 s) : OnlyChanges [.stats, .ctrs, .mem, .hif, .err] s (State.mergeRead a0 a1 a2 s) := by
  unfold State.mergeRead
  (repeat' (first | split | dsimp only)) <;> simp
@[simp] theorem State.mergeRead_only_iff (a0 a1 a2 s) (h : [.stats, .ctrs, .mem, .hif, .err] ⊆ ps) : OnlyChanges ps s0 (State.mergeRead a0 a1 a2 s) ↔ OnlyChanges ps s0 s :=
  onlyChanges_iff (State.mergeRead_only a0 a1 a2 s) h
theorem State.dropWrite_only (a0 a1 s) : OnlyChanges [.stats, .ctrs, .hif, .err] s (State.dropWrite a0 a1 s) := by
  unfold State.dropWrite
  simp
@[simp] theorem State.dropWrite_only_iff (a0 a1 s) (h : [.stats, .ctrs, .hif, .err] ⊆ ps) : OnlyChanges ps s0 (State.dropWrite a0 a1 s) ↔ OnlyChanges ps s0 s :=
  onlyChanges_iff (State.dropWrite_only a0 a1 s) h
theorem State.writeWord_only (a0 a1 a2 a3 s) : OnlyChanges [.stats, .ctrs, .mem, .hif, .err] s (State.writeWord a0 a1 a2 a3 s) := by
  unfold State.writeWord
  simp
@[simp] theorem State.writeWord_only_iff (a0 a1 a2 a3 s) (h : [.stats, .ctrs, .mem, .hif, .err] ⊆ ps) : OnlyChanges ps s0 (State.writeWord a0 a1 a2 a3 s) ↔ OnlyChanges ps s0 s :=
  onlyChanges_iff (State.writeWord_only a0 a1 a2 a3 s) h
theorem State.storeBytes_only (a0 a1 s) : OnlyChanges [.stats, .ctrs, .mem, .hif, .err, .draws] s (State.storeBytes a0 a1 s) := by
  unfold State.storeBytes
  simp
@[simp] theorem State.storeBytes_only_iff (a0 a1 s) (h : [.stats, .ctrs, .mem, .hif, .err, .draws] ⊆ ps) : OnlyChanges ps s0 (State.storeBytes a0 a1 s) ↔ OnlyChanges ps s0 s :=
  onlyChanges_iff (State.storeBytes_only a0 a1 s) h
theorem State.memWrite_only (a0 a1 s) : OnlyChanges [.stats, .ctrs, .mem, .hif, .err, .draws] s (State.memWrite a0 a1 s) := by
  unfold State.memWrite
  simp
@[simp] theorem State.memWrite_only_iff (a0 a1 s) (h : [.stats, .ctrs, .mem, .hif, .err, .draws] ⊆ ps) : OnlyChanges ps s0 (State.memWrite a0 a1 s) ↔ OnlyChanges ps s0 s :=
  onlyChanges_iff (State.memWrite_only a0 a1 s) h
theorem State.setQ_only (s a1 a2) : OnlyChanges [.cqf] s (State.setQ s a1 a2) := by
  unfold State.setQ
  simp
@[simp] theorem State.setQ_only_iff (s a1 a2) (h : [.cqf] ⊆ ps) : OnlyChanges ps s0 (State.setQ s a1 a2) ↔ OnlyChanges ps s0 s :=
  onlyChanges_iff (State.setQ_only s a1 a2) h
theorem State.setTok_only (s a1 a2) : OnlyChanges [.cqf] s (State.setTok s a1 a2) := by
  unfold State.setTok
  simp
@[simp] theorem State.setTok_only_iff (s a1 a2) (h : [.cqf] ⊆ ps) : OnlyChanges ps s0 (State.setTok s a1 a2) ↔ OnlyChanges ps s0 s :=
  onlyChanges_iff (State.setTok_only s a1 a2) h
theorem State.signal_only (s a1) : OnlyChanges [.cqf] s (State.signal s a1) := by
  unfold State.signal
  (repeat' split) <;> simp
@[simp] theorem State.signal_only_iff (s a1) (h : [.cqf] ⊆ ps) : OnlyChanges ps s0 (State.signal s a1) ↔ OnlyChanges ps s0 s :=
  onlyChanges_iff (State.signal_only s a1) h
theorem State.setBerth_only (s a1 a2) : OnlyChanges [.cqf] s (State.setBerth s a1 a2) := by
  unfold State.setBerth
  simp
@[simp] theorem State.setBerth_only_iff (s a1 a2) (h : [.cqf] ⊆ ps) : OnlyChanges ps s0 (State.setBerth s a1 a2) ↔ OnlyChanges ps s0 s :=
  onlyChanges_iff (State.setBerth_only s a1 a2) h
theorem State.weirCheck_only (s a1) : OnlyChanges [.stats, .hif] s (State.weirCheck s a1) := by
  unfold State.weirCheck
  simp
@[simp] theorem State.weirCheck_only_iff (s a1) (h : [.stats, .hif] ⊆ ps) : OnlyChanges ps s0 (State.weirCheck s a1) ↔ OnlyChanges ps s0 s :=
  onlyChanges_iff (State.weirCheck_only s a1) h
theorem State.takeBufs_only (s a1 a2) : OnlyChanges [.stats, .cqf, .hif] s (State.takeBufs s a1 a2) := by
  unfold State.takeBufs
  simp
@[simp] theorem State.takeBufs_only_iff (s a1 a2) (h : [.stats, .cqf, .hif] ⊆ ps) : OnlyChanges ps s0 (State.takeBufs s a1 a2) ↔ OnlyChanges ps s0 s :=
  onlyChanges_iff (State.takeBufs_only s a1 a2) h
theorem State.freeBufs_only (s a1 a2) : OnlyChanges [.cqf] s (State.freeBufs s a1 a2) := by
  unfold State.freeBufs
  simp
@[simp] theorem State.freeBufs_only_iff (s a1 a2) (h : [.cqf] ⊆ ps) : OnlyChanges ps s0 (State.freeBufs s a1 a2) ↔ OnlyChanges ps s0 s :=
  onlyChanges_iff (State.freeBufs_only s a1 a2) h
theorem State.askBufs_only (s a1 a2 a3) : OnlyChanges [.stats, .cqf, .hif] s (State.askBufs s a1 a2 a3).2 := by
  unfold State.askBufs
  simp
@[simp] theorem State.askBufs_only_iff (s a1 a2 a3) (h : [.stats, .cqf, .hif] ⊆ ps) : OnlyChanges ps s0 (State.askBufs s a1 a2 a3).2 ↔ OnlyChanges ps s0 s :=
  onlyChanges_iff (State.askBufs_only s a1 a2 a3) h
theorem State.disableQ_only (s a1 a2) : OnlyChanges [.cqf] s (State.disableQ s a1 a2) := by
  unfold State.disableQ
  simp
@[simp] theorem State.disableQ_only_iff (s a1 a2) (h : [.cqf] ⊆ ps) : OnlyChanges ps s0 (State.disableQ s a1 a2) ↔ OnlyChanges ps s0 s :=
  onlyChanges_iff (State.disableQ_only s a1 a2) h
theorem State.stopQ_only (s a1 a2 a3 a4) : OnlyChanges [.stats, .cqf, .hif] s (State.stopQ s a1 a2 a3 a4) := by
  unfold State.stopQ
  simp
@[simp] theorem State.stopQ_only_iff (s a1 a2 a3 a4) (h : [.stats, .cqf, .hif] ⊆ ps) : OnlyChanges ps s0 (State.stopQ s a1 a2 a3 a4) ↔ OnlyChanges ps s0 s :=
  onlyChanges_iff (State.stopQ_only s a1 a2 a3 a4) h
theorem State.bmeLost_only (s a1) : OnlyChanges [.stats, .cqf, .hif] s (State.bmeLost s a1) := by
  unfold State.bmeLost
  simp
@[simp] theorem State.bmeLost_only_iff (s a1) (h : [.stats, .cqf, .hif] ⊆ ps) : OnlyChanges ps s0 (State.bmeLost s a1) ↔ OnlyChanges ps s0 s :=
  onlyChanges_iff (State.bmeLost_only s a1) h
theorem State.frontHost_only (s a1 a2 a3) : OnlyChanges [.stats, .cqf, .hif] s (State.frontHost s a1 a2 a3) := by
  unfold State.frontHost
  simp
@[simp] theorem State.frontHost_only_iff (s a1 a2 a3) (h : [.stats, .cqf, .hif] ⊆ ps) : OnlyChanges ps s0 (State.frontHost s a1 a2 a3) ↔ OnlyChanges ps s0 s :=
  onlyChanges_iff (State.frontHost_only s a1 a2 a3) h
theorem State.frontWrite_only (s a1 a2 a3) : OnlyChanges [.stats, .ctrs, .cqf, .mem, .hif, .err, .draws] s (State.frontWrite s a1 a2 a3) := by
  unfold State.frontWrite
  simp
@[simp] theorem State.frontWrite_only_iff (s a1 a2 a3) (h : [.stats, .ctrs, .cqf, .mem, .hif, .err, .draws] ⊆ ps) : OnlyChanges ps s0 (State.frontWrite s a1 a2 a3) ↔ OnlyChanges ps s0 s :=
  onlyChanges_iff (State.frontWrite_only s a1 a2 a3) h
theorem State.reply_only (s a1 a2 a3 a4) : OnlyChanges [.stats, .ctrs, .cqf, .mem, .hif, .err, .draws] s (State.reply s a1 a2 a3 a4) := by
  unfold State.reply
  simp
@[simp] theorem State.reply_only_iff (s a1 a2 a3 a4) (h : [.stats, .ctrs, .cqf, .mem, .hif, .err, .draws] ⊆ ps) : OnlyChanges ps s0 (State.reply s a1 a2 a3 a4) ↔ OnlyChanges ps s0 s :=
  onlyChanges_iff (State.reply_only s a1 a2 a3 a4) h
theorem State.frontFail_only (s a1 a2 a3 a4) : OnlyChanges [.stats, .ctrs, .cqf, .mem, .hif, .err, .draws] s (State.frontFail s a1 a2 a3 a4) := by
  unfold State.frontFail
  simp
@[simp] theorem State.frontFail_only_iff (s a1 a2 a3 a4) (h : [.stats, .ctrs, .cqf, .mem, .hif, .err, .draws] ⊆ ps) : OnlyChanges ps s0 (State.frontFail s a1 a2 a3 a4) ↔ OnlyChanges ps s0 s :=
  onlyChanges_iff (State.frontFail_only s a1 a2 a3 a4) h
theorem State.setCmd_only (s a1 a2) : OnlyChanges [.cqf] s (State.setCmd s a1 a2) := by
  unfold State.setCmd
  simp
@[simp] theorem State.setCmd_only_iff (s a1 a2) (h : [.cqf] ⊆ ps) : OnlyChanges ps s0 (State.setCmd s a1 a2) ↔ OnlyChanges ps s0 s :=
  onlyChanges_iff (State.setCmd_only s a1 a2) h
theorem State.endCmd_only (s a1 a2 a3) : OnlyChanges [.cqf] s (State.endCmd s a1 a2 a3) := by
  unfold State.endCmd
  (repeat' split) <;> simp
@[simp] theorem State.endCmd_only_iff (s a1 a2 a3) (h : [.cqf] ⊆ ps) : OnlyChanges ps s0 (State.endCmd s a1 a2 a3) ↔ OnlyChanges ps s0 s :=
  onlyChanges_iff (State.endCmd_only s a1 a2 a3) h
theorem State.failCmd_only (s a1 a2) : OnlyChanges [.cqf] s (State.failCmd s a1 a2) := by
  unfold State.failCmd
  simp
@[simp] theorem State.failCmd_only_iff (s a1 a2) (h : [.cqf] ⊆ ps) : OnlyChanges ps s0 (State.failCmd s a1 a2) ↔ OnlyChanges ps s0 s :=
  onlyChanges_iff (State.failCmd_only s a1 a2) h
theorem State.setPool_only (s a1 a2) : OnlyChanges [.cqf] s (State.setPool s a1 a2) := by
  unfold State.setPool
  simp
@[simp] theorem State.setPool_only_iff (s a1 a2) (h : [.cqf] ⊆ ps) : OnlyChanges ps s0 (State.setPool s a1 a2) ↔ OnlyChanges ps s0 s :=
  onlyChanges_iff (State.setPool_only s a1 a2) h
theorem State.takeTag_only (s a1) : OnlyChanges [.cqf] s (State.takeTag s a1) := by
  unfold State.takeTag
  simp
@[simp] theorem State.takeTag_only_iff (s a1) (h : [.cqf] ⊆ ps) : OnlyChanges ps s0 (State.takeTag s a1) ↔ OnlyChanges ps s0 s :=
  onlyChanges_iff (State.takeTag_only s a1) h
theorem State.freeTag_only (s a1) : OnlyChanges [.cqf] s (State.freeTag s a1) := by
  unfold State.freeTag
  simp
@[simp] theorem State.freeTag_only_iff (s a1) (h : [.cqf] ⊆ ps) : OnlyChanges ps s0 (State.freeTag s a1) ↔ OnlyChanges ps s0 s :=
  onlyChanges_iff (State.freeTag_only s a1) h
theorem State.sendHostRead_only (s a1 a2) : OnlyChanges [.cqf] s (State.sendHostRead s a1 a2) := by
  unfold State.sendHostRead
  simp
@[simp] theorem State.sendHostRead_only_iff (s a1 a2) (h : [.cqf] ⊆ ps) : OnlyChanges ps s0 (State.sendHostRead s a1 a2) ↔ OnlyChanges ps s0 s :=
  onlyChanges_iff (State.sendHostRead_only s a1 a2) h
theorem State.request_only (s a1 a2 a3 a4) : OnlyChanges [.stats, .cqf, .hif, .fab] s (State.request s a1 a2 a3 a4) := by
  unfold State.request
  simp
@[simp] theorem State.request_only_iff (s a1 a2 a3 a4) (h : [.stats, .cqf, .hif, .fab] ⊆ ps) : OnlyChanges ps s0 (State.request s a1 a2 a3 a4) ↔ OnlyChanges ps s0 s :=
  onlyChanges_iff (State.request_only s a1 a2 a3 a4) h
theorem State.opRead_only (s a1 a2 a3 a4) : OnlyChanges [.stats, .ctrs, .cqf, .mem, .hif, .err, .fab, .draws] s (State.opRead s a1 a2 a3 a4).2 := by
  unfold State.opRead
  simp
@[simp] theorem State.opRead_only_iff (s a1 a2 a3 a4) (h : [.stats, .ctrs, .cqf, .mem, .hif, .err, .fab, .draws] ⊆ ps) : OnlyChanges ps s0 (State.opRead s a1 a2 a3 a4).2 ↔ OnlyChanges ps s0 s :=
  onlyChanges_iff (State.opRead_only s a1 a2 a3 a4) h
theorem State.opWrite_only (s a1 a2 a3 a4) : OnlyChanges [.stats, .ctrs, .cqf, .mem, .hif, .err, .fab, .draws] s (State.opWrite s a1 a2 a3 a4) := by
  unfold State.opWrite
  (repeat' split) <;> simp
@[simp] theorem State.opWrite_only_iff (s a1 a2 a3 a4) (h : [.stats, .ctrs, .cqf, .mem, .hif, .err, .fab, .draws] ⊆ ps) : OnlyChanges ps s0 (State.opWrite s a1 a2 a3 a4) ↔ OnlyChanges ps s0 s :=
  onlyChanges_iff (State.opWrite_only s a1 a2 a3 a4) h
theorem State.onPort_only (s a1 a2) : OnlyChanges [.cqf] s (State.onPort s a1 a2) := by
  unfold State.onPort
  simp
@[simp] theorem State.onPort_only_iff (s a1 a2) (h : [.cqf] ⊆ ps) : OnlyChanges ps s0 (State.onPort s a1 a2) ↔ OnlyChanges ps s0 s :=
  onlyChanges_iff (State.onPort_only s a1 a2) h
theorem State.opReads_only_aux (s a1 a2) : OnlyChanges [.stats, .ctrs, .cqf, .mem, .hif, .err, .fab, .draws] s0 (State.opReads s a1 a2).2 ↔ OnlyChanges [.stats, .ctrs, .cqf, .mem, .hif, .err, .fab, .draws] s0 s := by
  fun_induction State.opReads <;> simp_all +zetaDelta
theorem State.opReads_only (s a1 a2) : OnlyChanges [.stats, .ctrs, .cqf, .mem, .hif, .err, .fab, .draws] s (State.opReads s a1 a2).2 := 
  (State.opReads_only_aux s a1 a2).2 (onlyChanges_refl _ _)
@[simp] theorem State.opReads_only_iff (s a1 a2) (h : [.stats, .ctrs, .cqf, .mem, .hif, .err, .fab, .draws] ⊆ ps) : OnlyChanges ps s0 (State.opReads s a1 a2).2 ↔ OnlyChanges ps s0 s :=
  onlyChanges_iff (State.opReads_only s a1 a2) h
theorem State.noteBme_only (s a1) : OnlyChanges [.stats, .hif] s (State.noteBme s a1) := by
  unfold State.noteBme
  simp
@[simp] theorem State.noteBme_only_iff (s a1) (h : [.stats, .hif] ⊆ ps) : OnlyChanges ps s0 (State.noteBme s a1) ↔ OnlyChanges ps s0 s :=
  onlyChanges_iff (State.noteBme_only s a1) h
theorem State.setPort_only (s a1 a2) : OnlyChanges [.fab] s (State.setPort s a1 a2) := by
  unfold State.setPort
  simp
@[simp] theorem State.setPort_only_iff (s a1 a2) (h : [.fab] ⊆ ps) : OnlyChanges ps s0 (State.setPort s a1 a2) ↔ OnlyChanges ps s0 s :=
  onlyChanges_iff (State.setPort_only s a1 a2) h
theorem State.setShadow_only (s a1) : OnlyChanges [.fab] s (State.setShadow s a1) := by
  unfold State.setShadow
  simp
@[simp] theorem State.setShadow_only_iff (s a1) (h : [.fab] ⊆ ps) : OnlyChanges ps s0 (State.setShadow s a1) ↔ OnlyChanges ps s0 s :=
  onlyChanges_iff (State.setShadow_only s a1) h
theorem State.pushOut_only (s a1 a2) : OnlyChanges [.fab] s (State.pushOut s a1 a2) := by
  unfold State.pushOut
  simp
@[simp] theorem State.pushOut_only_iff (s a1 a2) (h : [.fab] ⊆ ps) : OnlyChanges ps s0 (State.pushOut s a1 a2) ↔ OnlyChanges ps s0 s :=
  onlyChanges_iff (State.pushOut_only s a1 a2) h
theorem State.pushIn_only (s a1 a2 a3) : OnlyChanges [.fab] s (State.pushIn s a1 a2 a3) := by
  unfold State.pushIn
  simp
@[simp] theorem State.pushIn_only_iff (s a1 a2 a3) (h : [.fab] ⊆ ps) : OnlyChanges ps s0 (State.pushIn s a1 a2 a3) ↔ OnlyChanges ps s0 s :=
  onlyChanges_iff (State.pushIn_only s a1 a2 a3) h
theorem State.returnUnits_only (s a1 a2) : OnlyChanges [.fab] s (State.returnUnits s a1 a2) := by
  unfold State.returnUnits
  simp
@[simp] theorem State.returnUnits_only_iff (s a1 a2) (h : [.fab] ⊆ ps) : OnlyChanges ps s0 (State.returnUnits s a1 a2) ↔ OnlyChanges ps s0 s :=
  onlyChanges_iff (State.returnUnits_only s a1 a2) h
@[simp] theorem State.sendOr_only_iff {ps : List Piece} {s0 : State} (s) (k i t) (f : State → State) (hf : ∀ t, OnlyChanges ps t (f t)) (h : [.fab] ⊆ ps) :
    OnlyChanges ps s0 (State.sendOr s k i t f) ↔ OnlyChanges ps s0 s := by
  refine onlyChanges_iff (qs := ps) ?_ (List.Subset.refl _)
  unfold State.sendOr
  repeat' split
  all_goals simp [hf, h]
theorem State.sendReply_only (s a1) : OnlyChanges [.fab] s (State.sendReply s a1) := by
  unfold State.sendReply
  simp
@[simp] theorem State.sendReply_only_iff (s a1) (h : [.fab] ⊆ ps) : OnlyChanges ps s0 (State.sendReply s a1) ↔ OnlyChanges ps s0 s :=
  onlyChanges_iff (State.sendReply_only s a1) h
theorem State.refuse_only (s a1 a2 a3) : OnlyChanges [.ctrs, .fab] s (State.refuse s a1 a2 a3) := by
  unfold State.refuse
  simp
@[simp] theorem State.refuse_only_iff (s a1 a2 a3) (h : [.ctrs, .fab] ⊆ ps) : OnlyChanges ps s0 (State.refuse s a1 a2 a3) ↔ OnlyChanges ps s0 s :=
  onlyChanges_iff (State.refuse_only s a1 a2 a3) h
theorem State.forward_only (s a1 a2) : OnlyChanges [.stats, .ctrs, .hif, .fab] s (State.forward s a1 a2) := by
  unfold State.forward
  (repeat' split) <;> simp
@[simp] theorem State.forward_only_iff (s a1 a2) (h : [.stats, .ctrs, .hif, .fab] ⊆ ps) : OnlyChanges ps s0 (State.forward s a1 a2) ↔ OnlyChanges ps s0 s :=
  onlyChanges_iff (State.forward_only s a1 a2) h
theorem State.arrive_only (s a1 a2) : OnlyChanges [.stats, .ctrs, .hif, .fab] s (State.arrive s a1 a2) := by
  unfold State.arrive
  simp
@[simp] theorem State.arrive_only_iff (s a1 a2) (h : [.stats, .ctrs, .hif, .fab] ⊆ ps) : OnlyChanges ps s0 (State.arrive s a1 a2) ↔ OnlyChanges ps s0 s :=
  onlyChanges_iff (State.arrive_only s a1 a2) h
theorem State.parse_only_aux (a0 a1 a2 s) : OnlyChanges [.stats, .ctrs, .hif, .fab] s0 (State.parse a0 a1 a2 s) ↔ OnlyChanges [.stats, .ctrs, .hif, .fab] s0 s := by
  fun_induction State.parse <;> simp_all
theorem State.parse_only (a0 a1 a2 s) : OnlyChanges [.stats, .ctrs, .hif, .fab] s (State.parse a0 a1 a2 s) := 
  (State.parse_only_aux a0 a1 a2 s).2 (onlyChanges_refl _ _)
@[simp] theorem State.parse_only_iff (a0 a1 a2 s) (h : [.stats, .ctrs, .hif, .fab] ⊆ ps) : OnlyChanges ps s0 (State.parse a0 a1 a2 s) ↔ OnlyChanges ps s0 s :=
  onlyChanges_iff (State.parse_only a0 a1 a2 s) h
theorem State.portState_only (s a1 a2) : OnlyChanges [.stats, .ctrs, .hif, .err, .fab] s (State.portState s a1 a2) := by
  unfold State.portState
  simp
@[simp] theorem State.portState_only_iff (s a1 a2) (h : [.stats, .ctrs, .hif, .err, .fab] ⊆ ps) : OnlyChanges ps s0 (State.portState s a1 a2) ↔ OnlyChanges ps s0 s :=
  onlyChanges_iff (State.portState_only s a1 a2) h
theorem State.lost_only (s a1 a2) : OnlyChanges [.stats, .ctrs, .hif] s (State.lost s a1 a2) := by
  unfold State.lost
  simp
@[simp] theorem State.lost_only_iff (s a1 a2) (h : [.stats, .ctrs, .hif] ⊆ ps) : OnlyChanges ps s0 (State.lost s a1 a2) ↔ OnlyChanges ps s0 s :=
  onlyChanges_iff (State.lost_only s a1 a2) h
theorem State.dropQueue_only (s a1) : OnlyChanges [.cqf, .fab] s (State.dropQueue s a1) := by
  unfold State.dropQueue
  first
  | (repeat' split) <;> first | (simp; done) | (intro p hp; cases p <;> simp_all [Piece.same]; done) | (simp_all; done)
  | (repeat' (first | split | dsimp only)) <;> first | (simp; done) | (simp_all; done) | (simp; refine foldl_only' (fun t o => ?_) _ _; (repeat' split) <;> simp; done)
@[simp] theorem State.dropQueue_only_iff (s a1) (h : [.cqf, .fab] ⊆ ps) : OnlyChanges ps s0 (State.dropQueue s a1) ↔ OnlyChanges ps s0 s :=
  onlyChanges_iff (State.dropQueue_only s a1) h
theorem State.loseReplay_only (s a1 a2) : OnlyChanges [.stats, .ctrs, .cqf, .hif, .fab] s (State.loseReplay s a1 a2) := by
  have h : ∀ t (o : OutPkt), OnlyChanges [.stats, .ctrs, .cqf, .hif, .fab] t (match o.ingress with
      | some i => t.returnUnits i o.pkt
      | none => t) := by
    intro t o
    split <;> simp
  unfold State.loseReplay
  dsimp only
  repeat' split
  all_goals first | (simp; done) | (simp; exact foldl_only' h _ _)
@[simp] theorem State.loseReplay_only_iff (s a1 a2) (h : [.stats, .ctrs, .cqf, .hif, .fab] ⊆ ps) : OnlyChanges ps s0 (State.loseReplay s a1 a2) ↔ OnlyChanges ps s0 s :=
  onlyChanges_iff (State.loseReplay_only s a1 a2) h
theorem State.train_only (s a1) : OnlyChanges [.stats, .ctrs, .hif, .err, .fab] s (State.train s a1) := by
  unfold State.train
  simp
@[simp] theorem State.train_only_iff (s a1) (h : [.stats, .ctrs, .hif, .err, .fab] ⊆ ps) : OnlyChanges ps s0 (State.train s a1) ↔ OnlyChanges ps s0 s :=
  onlyChanges_iff (State.train_only s a1) h
theorem State.portFail_only (s a1) : OnlyChanges [.stats, .ctrs, .cqf, .hif, .err, .fab] s (State.portFail s a1) := by
  unfold State.portFail
  simp
@[simp] theorem State.portFail_only_iff (s a1) (h : [.stats, .ctrs, .cqf, .hif, .err, .fab] ⊆ ps) : OnlyChanges ps s0 (State.portFail s a1) ↔ OnlyChanges ps s0 s :=
  onlyChanges_iff (State.portFail_only s a1) h
theorem State.retrain_only (s a1) : OnlyChanges [.stats, .ctrs, .hif, .err, .fab] s (State.retrain s a1) := by
  unfold State.retrain
  simp
@[simp] theorem State.retrain_only_iff (s a1) (h : [.stats, .ctrs, .hif, .err, .fab] ⊆ ps) : OnlyChanges ps s0 (State.retrain s a1) ↔ OnlyChanges ps s0 s :=
  onlyChanges_iff (State.retrain_only s a1) h
theorem State.drainEnd_only (s a1) : OnlyChanges [.stats, .ctrs, .cqf, .hif, .err, .fab] s (State.drainEnd s a1) := by
  unfold State.drainEnd
  simp
@[simp] theorem State.drainEnd_only_iff (s a1) (h : [.stats, .ctrs, .cqf, .hif, .err, .fab] ⊆ ps) : OnlyChanges ps s0 (State.drainEnd s a1) ↔ OnlyChanges ps s0 s :=
  onlyChanges_iff (State.drainEnd_only s a1) h
theorem State.drainBegin_only (s a1) : OnlyChanges [.stats, .ctrs, .hif, .err, .fab] s (State.drainBegin s a1) := by
  unfold State.drainBegin
  simp
@[simp] theorem State.drainBegin_only_iff (s a1) (h : [.stats, .ctrs, .hif, .err, .fab] ⊆ ps) : OnlyChanges ps s0 (State.drainBegin s a1) ↔ OnlyChanges ps s0 s :=
  onlyChanges_iff (State.drainBegin_only s a1) h
theorem State.drain_only (s a1 a2) : OnlyChanges [.stats, .ctrs, .hif, .err, .fab] s (State.drain s a1 a2) := by
  unfold State.drain
  simp
@[simp] theorem State.drain_only_iff (s a1 a2) (h : [.stats, .ctrs, .hif, .err, .fab] ⊆ ps) : OnlyChanges ps s0 (State.drain s a1 a2) ↔ OnlyChanges ps s0 s :=
  onlyChanges_iff (State.drain_only s a1 a2) h
theorem State.begun_only (s a1 a2 a3) : OnlyChanges [.ctrs, .cqf, .fab] s (State.begun s a1 a2 a3) := by
  unfold State.begun
  (repeat' split) <;> simp
@[simp] theorem State.begun_only_iff (s a1 a2 a3) (h : [.ctrs, .cqf, .fab] ⊆ ps) : OnlyChanges ps s0 (State.begun s a1 a2 a3) ↔ OnlyChanges ps s0 s :=
  onlyChanges_iff (State.begun_only s a1 a2 a3) h
theorem State.fill_only_aux (a0 a1 a2 a3 s) : OnlyChanges [.ctrs, .cqf, .fab] s0 (State.fill a0 a1 a2 a3 s).2.2 ↔ OnlyChanges [.ctrs, .cqf, .fab] s0 s := by
  fun_induction State.fill <;> simp_all
theorem State.fill_only (a0 a1 a2 a3 s) : OnlyChanges [.ctrs, .cqf, .fab] s (State.fill a0 a1 a2 a3 s).2.2 := 
  (State.fill_only_aux a0 a1 a2 a3 s).2 (onlyChanges_refl _ _)
@[simp] theorem State.fill_only_iff (a0 a1 a2 a3 s) (h : [.ctrs, .cqf, .fab] ⊆ ps) : OnlyChanges ps s0 (State.fill a0 a1 a2 a3 s).2.2 ↔ OnlyChanges ps s0 s :=
  onlyChanges_iff (State.fill_only a0 a1 a2 a3 s) h
theorem State.nextData_only (s) (p) (r) (hr : State.nextData s p = some r) : OnlyChanges [.ctrs, .cqf, .fab] s r.2 := by
  unfold State.nextData at hr
  simp only [] at hr
  repeat' split at hr
  all_goals simp_all
  all_goals subst hr
  all_goals simp
theorem State.sendLast_only (s a1 a2) : OnlyChanges [.ctrs, .fab] s (State.sendLast s a1 a2) := by
  unfold State.sendLast
  simp
@[simp] theorem State.sendLast_only_iff (s a1 a2) (h : [.ctrs, .fab] ⊆ ps) : OnlyChanges ps s0 (State.sendLast s a1 a2) ↔ OnlyChanges ps s0 s :=
  onlyChanges_iff (State.sendLast_only s a1 a2) h
theorem State.emit_only (s a1 a2 a3 a4) : OnlyChanges [.fab] s (State.emit s a1 a2 a3 a4) := by
  unfold State.emit
  simp
@[simp] theorem State.emit_only_iff (s a1 a2 a3 a4) (h : [.fab] ⊆ ps) : OnlyChanges ps s0 (State.emit s a1 a2 a3 a4) ↔ OnlyChanges ps s0 s :=
  onlyChanges_iff (State.emit_only s a1 a2 a3 a4) h
theorem State.sendFrame_only (s a1) : OnlyChanges [.stats, .ctrs, .cqf, .hif, .err, .fab] s (State.sendFrame s a1) := by
  unfold State.sendFrame
  dsimp only
  split
  · split <;> simp
  · split
    · simp
    · split
      · simp
      · split
        · split <;> simp
        · split
          · split
            · rename_i h
              have k := State.nextData_only _ _ _ h
              simp only [State.emit_only_iff, List.cons_subset, List.mem_cons, List.nil_subset, true_or, or_true, and_self]
              exact (onlyChanges_iff k (by simp)).2 (onlyChanges_refl _ _)
            · simp
          · simp
@[simp] theorem State.sendFrame_only_iff (s a1) (h : [.stats, .ctrs, .cqf, .hif, .err, .fab] ⊆ ps) : OnlyChanges ps s0 (State.sendFrame s a1) ↔ OnlyChanges ps s0 s :=
  onlyChanges_iff (State.sendFrame_only s a1) h
theorem State.startReplay_only (s a1) : OnlyChanges [.stats, .ctrs, .hif, .err, .fab] s (State.startReplay s a1) := by
  unfold State.startReplay
  simp
@[simp] theorem State.startReplay_only_iff (s a1) (h : [.stats, .ctrs, .hif, .err, .fab] ⊆ ps) : OnlyChanges ps s0 (State.startReplay s a1) ↔ OnlyChanges ps s0 s :=
  onlyChanges_iff (State.startReplay_only s a1) h
theorem State.ackTo_only (s a1 a2) : OnlyChanges [.fab] s (State.ackTo s a1 a2) := by
  unfold State.ackTo
  (repeat' (first | split | dsimp only)) <;> simp
@[simp] theorem State.ackTo_only_iff (s a1 a2) (h : [.fab] ⊆ ps) : OnlyChanges ps s0 (State.ackTo s a1 a2) ↔ OnlyChanges ps s0 s :=
  onlyChanges_iff (State.ackTo_only s a1 a2) h
theorem State.takeCredits_only (s a1 a2) : OnlyChanges [.fab] s (State.takeCredits s a1 a2) := by
  unfold State.takeCredits
  simp
@[simp] theorem State.takeCredits_only_iff (s a1 a2) (h : [.fab] ⊆ ps) : OnlyChanges ps s0 (State.takeCredits s a1 a2) ↔ OnlyChanges ps s0 s :=
  onlyChanges_iff (State.takeCredits_only s a1 a2) h
theorem State.askReplay_only (s a1) : OnlyChanges [.fab] s (State.askReplay s a1) := by
  unfold State.askReplay
  simp
@[simp] theorem State.askReplay_only_iff (s a1) (h : [.fab] ⊆ ps) : OnlyChanges ps s0 (State.askReplay s a1) ↔ OnlyChanges ps s0 s :=
  onlyChanges_iff (State.askReplay_only s a1) h
theorem State.takeData_only (s a1 a2 a3) : OnlyChanges [.stats, .ctrs, .hif, .fab] s (State.takeData s a1 a2 a3) := by
  unfold State.takeData
  simp
@[simp] theorem State.takeData_only_iff (s a1 a2 a3) (h : [.stats, .ctrs, .hif, .fab] ⊆ ps) : OnlyChanges ps s0 (State.takeData s a1 a2 a3) ↔ OnlyChanges ps s0 s :=
  onlyChanges_iff (State.takeData_only s a1 a2 a3) h
theorem State.takeFrame_only (s a1 a2) : OnlyChanges [.stats, .ctrs, .cqf, .hif, .err, .fab] s (State.takeFrame s a1 a2) := by
  unfold State.takeFrame
  simp
@[simp] theorem State.takeFrame_only_iff (s a1 a2) (h : [.stats, .ctrs, .cqf, .hif, .err, .fab] ⊆ ps) : OnlyChanges ps s0 (State.takeFrame s a1 a2) ↔ OnlyChanges ps s0 s :=
  onlyChanges_iff (State.takeFrame_only s a1 a2) h
theorem State.frameReceive_only (s a1 a2) : OnlyChanges [.stats, .ctrs, .cqf, .hif, .err, .fab] s (State.frameReceive s a1 a2) := by
  unfold State.frameReceive
  (repeat' split) <;> simp
@[simp] theorem State.frameReceive_only_iff (s a1 a2) (h : [.stats, .ctrs, .cqf, .hif, .err, .fab] ⊆ ps) : OnlyChanges ps s0 (State.frameReceive s a1 a2) ↔ OnlyChanges ps s0 s :=
  onlyChanges_iff (State.frameReceive_only s a1 a2) h
theorem State.replayTimeout_only (s a1) : OnlyChanges [.stats, .ctrs, .hif, .err, .fab] s (State.replayTimeout s a1) := by
  unfold State.replayTimeout
  simp
@[simp] theorem State.replayTimeout_only_iff (s a1) (h : [.stats, .ctrs, .hif, .err, .fab] ⊆ ps) : OnlyChanges ps s0 (State.replayTimeout s a1) ↔ OnlyChanges ps s0 s :=
  onlyChanges_iff (State.replayTimeout_only s a1) h
theorem State.nakRepeat_only (s a1) : OnlyChanges [.fab] s (State.nakRepeat s a1) := by
  unfold State.nakRepeat
  simp
@[simp] theorem State.nakRepeat_only_iff (s a1) (h : [.fab] ⊆ ps) : OnlyChanges ps s0 (State.nakRepeat s a1) ↔ OnlyChanges ps s0 s :=
  onlyChanges_iff (State.nakRepeat_only s a1) h
theorem State.readRows_only (s a1 a2 a3 a4 a5 a6) : OnlyChanges [.stats, .ctrs, .cqf, .mem, .hif, .err, .fab, .draws] s (State.readRows s a1 a2 a3 a4 a5 a6).2 := by
  unfold State.readRows
  (repeat' (first | split | dsimp only)) <;> simp
@[simp] theorem State.readRows_only_iff (s a1 a2 a3 a4 a5 a6) (h : [.stats, .ctrs, .cqf, .mem, .hif, .err, .fab, .draws] ⊆ ps) : OnlyChanges ps s0 (State.readRows s a1 a2 a3 a4 a5 a6).2 ↔ OnlyChanges ps s0 s :=
  onlyChanges_iff (State.readRows_only s a1 a2 a3 a4 a5 a6) h
theorem State.freeBytes_only (s a1 a2) : OnlyChanges [.draws] s (State.freeBytes s a1 a2).2 := by
  unfold State.freeBytes
  simp
@[simp] theorem State.freeBytes_only_iff (s a1 a2) (h : [.draws] ⊆ ps) : OnlyChanges ps s0 (State.freeBytes s a1 a2).2 ↔ OnlyChanges ps s0 s :=
  onlyChanges_iff (State.freeBytes_only s a1 a2) h
theorem State.holdRows_only (s a1 a2 a3 a4 a5) : OnlyChanges [.ctrs, .mem] s (State.holdRows s a1 a2 a3 a4 a5) := by
  unfold State.holdRows
  simp
@[simp] theorem State.holdRows_only_iff (s a1 a2 a3 a4 a5) (h : [.ctrs, .mem] ⊆ ps) : OnlyChanges ps s0 (State.holdRows s a1 a2 a3 a4 a5) ↔ OnlyChanges ps s0 s :=
  onlyChanges_iff (State.holdRows_only s a1 a2 a3 a4 a5) h
theorem State.writeRow_only (s a1 a2 a3 a4 a5 a6) : OnlyChanges [.stats, .ctrs, .cqf, .mem, .hif, .err, .fab, .draws] s (State.writeRow s a1 a2 a3 a4 a5 a6) := by
  unfold State.writeRow
  simp
@[simp] theorem State.writeRow_only_iff (s a1 a2 a3 a4 a5 a6) (h : [.stats, .ctrs, .cqf, .mem, .hif, .err, .fab, .draws] ⊆ ps) : OnlyChanges ps s0 (State.writeRow s a1 a2 a3 a4 a5 a6) ↔ OnlyChanges ps s0 s :=
  onlyChanges_iff (State.writeRow_only s a1 a2 a3 a4 a5 a6) h
theorem State.writeRows_only_aux (s a1 a2 a3 a4 a5) : OnlyChanges [.stats, .ctrs, .cqf, .mem, .hif, .err, .fab, .draws] s0 (State.writeRows s a1 a2 a3 a4 a5) ↔ OnlyChanges [.stats, .ctrs, .cqf, .mem, .hif, .err, .fab, .draws] s0 s := by
  fun_induction State.writeRows <;> simp_all
theorem State.writeRows_only (s a1 a2 a3 a4 a5) : OnlyChanges [.stats, .ctrs, .cqf, .mem, .hif, .err, .fab, .draws] s (State.writeRows s a1 a2 a3 a4 a5) := 
  (State.writeRows_only_aux s a1 a2 a3 a4 a5).2 (onlyChanges_refl _ _)
@[simp] theorem State.writeRows_only_iff (s a1 a2 a3 a4 a5) (h : [.stats, .ctrs, .cqf, .mem, .hif, .err, .fab, .draws] ⊆ ps) : OnlyChanges ps s0 (State.writeRows s a1 a2 a3 a4 a5) ↔ OnlyChanges ps s0 s :=
  onlyChanges_iff (State.writeRows_only s a1 a2 a3 a4 a5) h
theorem State.takeSnap_only (s a1 a2) : OnlyChanges [.stats, .ctrs, .cqf, .mem, .hif, .err, .fab, .draws] s (State.takeSnap s a1 a2).2 := by
  unfold State.takeSnap
  (repeat' (first | split | dsimp only)) <;> simp
@[simp] theorem State.takeSnap_only_iff (s a1 a2) (h : [.stats, .ctrs, .cqf, .mem, .hif, .err, .fab, .draws] ⊆ ps) : OnlyChanges ps s0 (State.takeSnap s a1 a2).2 ↔ OnlyChanges ps s0 s :=
  onlyChanges_iff (State.takeSnap_only s a1 a2) h
theorem State.tideAdd_only (s a1 a2) : OnlyChanges [.stats, .ctrs, .mem, .hif, .err, .draws] s (State.tideAdd s a1 a2) := by
  unfold State.tideAdd
  (repeat' (first | split | dsimp only)) <;> simp
@[simp] theorem State.tideAdd_only_iff (s a1 a2) (h : [.stats, .ctrs, .mem, .hif, .err, .draws] ⊆ ps) : OnlyChanges ps s0 (State.tideAdd s a1 a2) ↔ OnlyChanges ps s0 s :=
  onlyChanges_iff (State.tideAdd_only s a1 a2) h
theorem State.storeRows_only (s a1 a2 a3 a4 a5) : OnlyChanges [.stats, .ctrs, .cqf, .mem, .hif, .err, .fab, .draws] s (State.storeRows s a1 a2 a3 a4 a5) := by
  unfold State.storeRows
  simp
@[simp] theorem State.storeRows_only_iff (s a1 a2 a3 a4 a5) (h : [.stats, .ctrs, .cqf, .mem, .hif, .err, .fab, .draws] ⊆ ps) : OnlyChanges ps s0 (State.storeRows s a1 a2 a3 a4 a5) ↔ OnlyChanges ps s0 s :=
  onlyChanges_iff (State.storeRows_only s a1 a2 a3 a4 a5) h
theorem State.svcRecord_only (s a1 a2 a3 a4 a5 a6) : OnlyChanges [.stats, .ctrs, .hif, .err] s (State.svcRecord s a1 a2 a3 a4 a5 a6) := by
  unfold State.svcRecord
  simp
@[simp] theorem State.svcRecord_only_iff (s a1 a2 a3 a4 a5 a6) (h : [.stats, .ctrs, .hif, .err] ⊆ ps) : OnlyChanges ps s0 (State.svcRecord s a1 a2 a3 a4 a5 a6) ↔ OnlyChanges ps s0 s :=
  onlyChanges_iff (State.svcRecord_only s a1 a2 a3 a4 a5 a6) h
theorem State.clSet_only (s a1 a2 a3 a4) : OnlyChanges [.stats, .ctrs, .hif, .err, .mat] s (State.clSet s a1 a2 a3 a4) := by
  unfold State.clSet
  simp
@[simp] theorem State.clSet_only_iff (s a1 a2 a3 a4) (h : [.stats, .ctrs, .hif, .err, .mat] ⊆ ps) : OnlyChanges ps s0 (State.clSet s a1 a2 a3 a4) ↔ OnlyChanges ps s0 s :=
  onlyChanges_iff (State.clSet_only s a1 a2 a3 a4) h
theorem State.loseHandles_only (s a1) : OnlyChanges [.mat] s (State.loseHandles s a1) := by
  unfold State.loseHandles
  simp
@[simp] theorem State.loseHandles_only_iff (s a1) (h : [.mat] ⊆ ps) : OnlyChanges ps s0 (State.loseHandles s a1) ↔ OnlyChanges ps s0 s :=
  onlyChanges_iff (State.loseHandles_only s a1) h
theorem State.clOut_only (s a1 a2) : OnlyChanges [.stats, .ctrs, .hif, .err, .mat] s (State.clOut s a1 a2) := by
  unfold State.clOut
  simp
@[simp] theorem State.clOut_only_iff (s a1 a2) (h : [.stats, .ctrs, .hif, .err, .mat] ⊆ ps) : OnlyChanges ps s0 (State.clOut s a1 a2) ↔ OnlyChanges ps s0 s :=
  onlyChanges_iff (State.clOut_only s a1 a2) h
theorem State.clRemove_only (s a1) : OnlyChanges [.stats, .ctrs, .hif, .err, .mat] s (State.clRemove s a1) := by
  unfold State.clRemove
  simp
@[simp] theorem State.clRemove_only_iff (s a1) (h : [.stats, .ctrs, .hif, .err, .mat] ⊆ ps) : OnlyChanges ps s0 (State.clRemove s a1) ↔ OnlyChanges ps s0 s :=
  onlyChanges_iff (State.clRemove_only s a1) h
theorem State.clLeaves_only (s a1) : OnlyChanges [.stats, .ctrs, .hif, .err, .mat] s (State.clLeaves s a1) := by
  unfold State.clLeaves
  simp
@[simp] theorem State.clLeaves_only_iff (s a1) (h : [.stats, .ctrs, .hif, .err, .mat] ⊆ ps) : OnlyChanges ps s0 (State.clLeaves s a1) ↔ OnlyChanges ps s0 s :=
  onlyChanges_iff (State.clLeaves_only s a1) h
theorem State.clAuto_only (s a1) : OnlyChanges [.stats, .ctrs, .hif, .err, .mat] s (State.clAuto s a1) := by
  unfold State.clAuto
  simp
@[simp] theorem State.clAuto_only_iff (s a1) (h : [.stats, .ctrs, .hif, .err, .mat] ⊆ ps) : OnlyChanges ps s0 (State.clAuto s a1) ↔ OnlyChanges ps s0 s :=
  onlyChanges_iff (State.clAuto_only s a1) h
theorem State.clResidue_only (s a1 a2) : OnlyChanges [.stats, .ctrs, .hif, .err, .mat] s (State.clResidue s a1 a2) := by
  unfold State.clResidue
  simp
@[simp] theorem State.clResidue_only_iff (s a1 a2) (h : [.stats, .ctrs, .hif, .err, .mat] ⊆ ps) : OnlyChanges ps s0 (State.clResidue s a1 a2) ↔ OnlyChanges ps s0 s :=
  onlyChanges_iff (State.clResidue_only s a1 a2) h
theorem State.sramUe_only (s a1 a2 a3 a4) : OnlyChanges [.stats, .ctrs, .hif, .err, .draws] s (State.sramUe s a1 a2 a3 a4).2 := by
  unfold State.sramUe
  simp
@[simp] theorem State.sramUe_only_iff (s a1 a2 a3 a4) (h : [.stats, .ctrs, .hif, .err, .draws] ⊆ ps) : OnlyChanges ps s0 (State.sramUe s a1 a2 a3 a4).2 ↔ OnlyChanges ps s0 s :=
  onlyChanges_iff (State.sramUe_only s a1 a2 a3 a4) h
theorem State.persistent_only (s a1 a2 a3) : OnlyChanges [.stats, .ctrs, .hif, .err] s (State.persistent s a1 a2 a3) := by
  unfold State.persistent
  simp
@[simp] theorem State.persistent_only_iff (s a1 a2 a3) (h : [.stats, .ctrs, .hif, .err] ⊆ ps) : OnlyChanges ps s0 (State.persistent s a1 a2 a3) ↔ OnlyChanges ps s0 s :=
  onlyChanges_iff (State.persistent_only s a1 a2 a3) h
end Sys2Proof.Machine
end

