-- ==== Sys2Proof/Laws/FrameCompute.lean ====
section
/-!
SUPPORT. Frames of the operations of the matrix array and the vector engine: which blocks of the state each of them may change.
-/
set_option maxRecDepth 4000
namespace Sys2Proof.Machine
variable {ps : List Piece} {s0 : State}
theorem State.setHandle_only (s a1 a2) : OnlyChanges [.mat] s (State.setHandle s a1 a2) := by
  unfold State.setHandle
  simp
@[simp] theorem State.setHandle_only_iff (s a1 a2) (h : [.mat] ⊆ ps) : OnlyChanges ps s0 (State.setHandle s a1 a2) ↔ OnlyChanges ps s0 s :=
  onlyChanges_iff (State.setHandle_only s a1 a2) h
theorem State.setRun_only (s a1) : OnlyChanges [.mat] s (State.setRun s a1) := by
  unfold State.setRun
  simp
@[simp] theorem State.setRun_only_iff (s a1) (h : [.mat] ⊆ ps) : OnlyChanges ps s0 (State.setRun s a1) ↔ OnlyChanges ps s0 s :=
  onlyChanges_iff (State.setRun_only s a1) h
theorem State.dropRun_only (s a1) : OnlyChanges [.mat] s (State.dropRun s a1) := by
  unfold State.dropRun
  simp
@[simp] theorem State.dropRun_only_iff (s a1) (h : [.mat] ⊆ ps) : OnlyChanges ps s0 (State.dropRun s a1) ↔ OnlyChanges ps s0 s :=
  onlyChanges_iff (State.dropRun_only s a1) h
theorem State.matNf_only (s a1 a2) : OnlyChanges [.stats, .ctrs, .hif] s (State.matNf s a1 a2) := by
  unfold State.matNf
  simp
@[simp] theorem State.matNf_only_iff (s a1 a2) (h : [.stats, .ctrs, .hif] ⊆ ps) : OnlyChanges ps s0 (State.matNf s a1 a2) ↔ OnlyChanges ps s0 s :=
  onlyChanges_iff (State.matNf_only s a1 a2) h
theorem State.noteLost_only (s a1) : OnlyChanges [.stats, .hif] s (State.noteLost s a1) := by
  unfold State.noteLost
  simp
@[simp] theorem State.noteLost_only_iff (s a1) (h : [.stats, .hif] ⊆ ps) : OnlyChanges ps s0 (State.noteLost s a1) ↔ OnlyChanges ps s0 s :=
  onlyChanges_iff (State.noteLost_only s a1) h
theorem State.matFail_only (s a1 a2) : OnlyChanges [.stats, .cqf, .hif] s (State.matFail s a1 a2) := by
  unfold State.matFail
  simp
@[simp] theorem State.matFail_only_iff (s a1 a2) (h : [.stats, .cqf, .hif] ⊆ ps) : OnlyChanges ps s0 (State.matFail s a1 a2) ↔ OnlyChanges ps s0 s :=
  onlyChanges_iff (State.matFail_only s a1 a2) h
theorem State.startWithSnap_only (s a1 a2) : OnlyChanges [.stats, .ctrs, .cqf, .mem, .hif, .err, .mat, .fab, .draws] s (State.startWithSnap s a1 a2) := by
  unfold State.startWithSnap
  (repeat' (first | split | dsimp only)) <;> simp
@[simp] theorem State.startWithSnap_only_iff (s a1 a2) (h : [.stats, .ctrs, .cqf, .mem, .hif, .err, .mat, .fab, .draws] ⊆ ps) : OnlyChanges ps s0 (State.startWithSnap s a1 a2) ↔ OnlyChanges ps s0 s :=
  onlyChanges_iff (State.startWithSnap_only s a1 a2) h
theorem State.mmProduct_only (s a1) : OnlyChanges [.stats, .ctrs, .cqf, .mem, .hif, .err, .mat, .fab, .draws] s (State.mmProduct s a1) := by
  unfold State.mmProduct
  (repeat' (first | split | dsimp only)) <;> simp
@[simp] theorem State.mmProduct_only_iff (s a1) (h : [.stats, .ctrs, .cqf, .mem, .hif, .err, .mat, .fab, .draws] ⊆ ps) : OnlyChanges ps s0 (State.mmProduct s a1) ↔ OnlyChanges ps s0 s :=
  onlyChanges_iff (State.mmProduct_only s a1) h
theorem State.mmCombine_only (s a1) : OnlyChanges [.stats, .ctrs, .cqf, .mem, .hif, .err, .mat, .fab, .draws] s (State.mmCombine s a1) := by
  unfold State.mmCombine
  (repeat' (first | split | dsimp only)) <;> simp
@[simp] theorem State.mmCombine_only_iff (s a1) (h : [.stats, .ctrs, .cqf, .mem, .hif, .err, .mat, .fab, .draws] ⊆ ps) : OnlyChanges ps s0 (State.mmCombine s a1) ↔ OnlyChanges ps s0 s :=
  onlyChanges_iff (State.mmCombine_only s a1) h
theorem State.itemIssue_only (s a1) : OnlyChanges [.stats, .cqf, .hif, .mat] s (State.itemIssue s a1) := by
  unfold State.itemIssue
  (repeat' split) <;> simp
@[simp] theorem State.itemIssue_only_iff (s a1) (h : [.stats, .cqf, .hif, .mat] ⊆ ps) : OnlyChanges ps s0 (State.itemIssue s a1) ↔ OnlyChanges ps s0 s :=
  onlyChanges_iff (State.itemIssue_only s a1) h
theorem State.clusterWake_only (s a1) : OnlyChanges [.mat] s (State.clusterWake s a1) := by
  unfold State.clusterWake
  simp
@[simp] theorem State.clusterWake_only_iff (s a1) (h : [.mat] ⊆ ps) : OnlyChanges ps s0 (State.clusterWake s a1) ↔ OnlyChanges ps s0 s :=
  onlyChanges_iff (State.clusterWake_only s a1) h
theorem State.readSide_only (s a1 a2 a3 a4 a5 a6 a7) : OnlyChanges [.stats, .ctrs, .cqf, .mem, .hif, .err, .fab, .draws] s (State.readSide s a1 a2 a3 a4 a5 a6 a7).2 := by
  unfold State.readSide
  (repeat' split) <;> simp
@[simp] theorem State.readSide_only_iff (s a1 a2 a3 a4 a5 a6 a7) (h : [.stats, .ctrs, .cqf, .mem, .hif, .err, .fab, .draws] ⊆ ps) : OnlyChanges ps s0 (State.readSide s a1 a2 a3 a4 a5 a6 a7).2 ↔ OnlyChanges ps s0 s :=
  onlyChanges_iff (State.readSide_only s a1 a2 a3 a4 a5 a6 a7) h
theorem State.itemInit_only (s a1 a2 a3 a4) : OnlyChanges [.stats, .ctrs, .cqf, .mem, .hif, .err, .fab, .draws] s (State.itemInit s a1 a2 a3 a4).2 := by
  unfold State.itemInit
  simp
@[simp] theorem State.itemInit_only_iff (s a1 a2 a3 a4) (h : [.stats, .ctrs, .cqf, .mem, .hif, .err, .fab, .draws] ⊆ ps) : OnlyChanges ps s0 (State.itemInit s a1 a2 a3 a4).2 ↔ OnlyChanges ps s0 s :=
  onlyChanges_iff (State.itemInit_only s a1 a2 a3 a4) h
theorem State.productItem_only (s a1 a2 a3 a4) : OnlyChanges [.stats, .ctrs, .cqf, .mem, .hif, .err, .fab, .draws] s (State.productItem s a1 a2 a3 a4).2 := by
  unfold State.productItem
  (repeat' (first | split | dsimp only)) <;> simp
@[simp] theorem State.productItem_only_iff (s a1 a2 a3 a4) (h : [.stats, .ctrs, .cqf, .mem, .hif, .err, .fab, .draws] ⊆ ps) : OnlyChanges ps s0 (State.productItem s a1 a2 a3 a4).2 ↔ OnlyChanges ps s0 s :=
  onlyChanges_iff (State.productItem_only s a1 a2 a3 a4) h
theorem State.readParts_only_aux (s a1 a2 a3 a4 a5) : OnlyChanges [.stats, .ctrs, .cqf, .mem, .hif, .err, .fab, .draws] s0 (State.readParts s a1 a2 a3 a4 a5).2 ↔ OnlyChanges [.stats, .ctrs, .cqf, .mem, .hif, .err, .fab, .draws] s0 s := by
  fun_induction State.readParts <;> simp_all +zetaDelta
theorem State.readParts_only (s a1 a2 a3 a4 a5) : OnlyChanges [.stats, .ctrs, .cqf, .mem, .hif, .err, .fab, .draws] s (State.readParts s a1 a2 a3 a4 a5).2 := 
  (State.readParts_only_aux s a1 a2 a3 a4 a5).2 (onlyChanges_refl _ _)
@[simp] theorem State.readParts_only_iff (s a1 a2 a3 a4 a5) (h : [.stats, .ctrs, .cqf, .mem, .hif, .err, .fab, .draws] ⊆ ps) : OnlyChanges ps s0 (State.readParts s a1 a2 a3 a4 a5).2 ↔ OnlyChanges ps s0 s :=
  onlyChanges_iff (State.readParts_only s a1 a2 a3 a4 a5) h
theorem State.combineItem_only (s a1 a2 a3 a4) : OnlyChanges [.stats, .ctrs, .cqf, .mem, .hif, .err, .fab, .draws] s (State.combineItem s a1 a2 a3 a4).2 := by
  unfold State.combineItem
  simp
@[simp] theorem State.combineItem_only_iff (s a1 a2 a3 a4) (h : [.stats, .ctrs, .cqf, .mem, .hif, .err, .fab, .draws] ⊆ ps) : OnlyChanges ps s0 (State.combineItem s a1 a2 a3 a4).2 ↔ OnlyChanges ps s0 s :=
  onlyChanges_iff (State.combineItem_only s a1 a2 a3 a4) h
theorem State.clDone_only (s a1) : OnlyChanges [.stats, .ctrs, .hif, .err, .mat] s (State.clDone s a1) := by
  unfold State.clDone
  simp
@[simp] theorem State.clDone_only_iff (s a1) (h : [.stats, .ctrs, .hif, .err, .mat] ⊆ ps) : OnlyChanges ps s0 (State.clDone s a1) ↔ OnlyChanges ps s0 s :=
  onlyChanges_iff (State.clDone_only s a1) h
theorem State.runEnd_only (s a1) : OnlyChanges [.cqf, .mat] s (State.runEnd s a1) := by
  unfold State.runEnd
  (repeat' split) <;> simp
@[simp] theorem State.runEnd_only_iff (s a1) (h : [.cqf, .mat] ⊆ ps) : OnlyChanges ps s0 (State.runEnd s a1) ↔ OnlyChanges ps s0 s :=
  onlyChanges_iff (State.runEnd_only s a1) h
theorem State.itemFail_only (s a1 a2 a3) : OnlyChanges [.stats, .ctrs, .cqf, .hif, .err, .mat] s (State.itemFail s a1 a2 a3) := by
  unfold State.itemFail
  simp
@[simp] theorem State.itemFail_only_iff (s a1 a2 a3) (h : [.stats, .ctrs, .cqf, .hif, .err, .mat] ⊆ ps) : OnlyChanges ps s0 (State.itemFail s a1 a2 a3) ↔ OnlyChanges ps s0 s :=
  onlyChanges_iff (State.itemFail_only s a1 a2 a3) h
theorem State.matReadFail_only (s a1 a2) : OnlyChanges [.stats, .ctrs, .cqf, .hif, .err, .mat] s (State.matReadFail s a1 a2) := by
  unfold State.matReadFail
  (repeat' split) <;> simp
@[simp] theorem State.matReadFail_only_iff (s a1 a2) (h : [.stats, .ctrs, .cqf, .hif, .err, .mat] ⊆ ps) : OnlyChanges ps s0 (State.matReadFail s a1 a2) ↔ OnlyChanges ps s0 s :=
  onlyChanges_iff (State.matReadFail_only s a1 a2) h
theorem State.itemWaits_only (s t a2 a3 a4) : OnlyChanges [.mat] t (State.itemWaits s t a2 a3 a4) := by
  unfold State.itemWaits
  (repeat' split) <;> simp
@[simp] theorem State.itemWaits_only_iff (s t a2 a3 a4) (h : [.mat] ⊆ ps) : OnlyChanges ps s0 (State.itemWaits s t a2 a3 a4) ↔ OnlyChanges ps s0 t :=
  onlyChanges_iff (State.itemWaits_only s t a2 a3 a4) h
theorem State.tileStore_only (s a1 a2 a3 a4 a5) : OnlyChanges [.stats, .ctrs, .cqf, .mem, .hif, .err, .fab, .draws] s (State.tileStore s a1 a2 a3 a4 a5) := by
  unfold State.tileStore
  simp
@[simp] theorem State.tileStore_only_iff (s a1 a2 a3 a4 a5) (h : [.stats, .ctrs, .cqf, .mem, .hif, .err, .fab, .draws] ⊆ ps) : OnlyChanges ps s0 (State.tileStore s a1 a2 a3 a4 a5) ↔ OnlyChanges ps s0 s :=
  onlyChanges_iff (State.tileStore_only s a1 a2 a3 a4 a5) h
theorem State.deliver_only (s a1 a2 a3 a4 a5 a6) : OnlyChanges [.stats, .ctrs, .cqf, .mem, .hif, .err, .mat, .fab, .draws] s (State.deliver s a1 a2 a3 a4 a5 a6) := by
  unfold State.deliver
  (repeat' split) <;> simp
@[simp] theorem State.deliver_only_iff (s a1 a2 a3 a4 a5 a6) (h : [.stats, .ctrs, .cqf, .mem, .hif, .err, .mat, .fab, .draws] ⊆ ps) : OnlyChanges ps s0 (State.deliver s a1 a2 a3 a4 a5 a6) ↔ OnlyChanges ps s0 s :=
  onlyChanges_iff (State.deliver_only s a1 a2 a3 a4 a5 a6) h
theorem State.deliverHold_only (s a1 a2 a3 a4) : OnlyChanges [.ctrs, .mem] s (State.deliverHold s a1 a2 a3 a4) := by
  unfold State.deliverHold
  simp
@[simp] theorem State.deliverHold_only_iff (s a1 a2 a3 a4) (h : [.ctrs, .mem] ⊆ ps) : OnlyChanges ps s0 (State.deliverHold s a1 a2 a3 a4) ↔ OnlyChanges ps s0 s :=
  onlyChanges_iff (State.deliverHold_only s a1 a2 a3 a4) h
theorem State.itemResidue_only (s a1 a2 a3 a4 a5 a6 a7) : OnlyChanges [.stats, .ctrs, .cqf, .mem, .hif, .err, .mat, .fab, .draws] s (State.itemResidue s a1 a2 a3 a4 a5 a6 a7) := by
  unfold State.itemResidue
  simp
@[simp] theorem State.itemResidue_only_iff (s a1 a2 a3 a4 a5 a6 a7) (h : [.stats, .ctrs, .cqf, .mem, .hif, .err, .mat, .fab, .draws] ⊆ ps) : OnlyChanges ps s0 (State.itemResidue s a1 a2 a3 a4 a5 a6 a7) ↔ OnlyChanges ps s0 s :=
  onlyChanges_iff (State.itemResidue_only s a1 a2 a3 a4 a5 a6 a7) h
theorem State.itemSram_only (s a1 a2 a3 a4) : OnlyChanges [.stats, .ctrs, .cqf, .hif, .err, .mat, .draws] s (State.itemSram s a1 a2 a3 a4) := by
  unfold State.itemSram
  simp
@[simp] theorem State.itemSram_only_iff (s a1 a2 a3 a4) (h : [.stats, .ctrs, .cqf, .hif, .err, .mat, .draws] ⊆ ps) : OnlyChanges ps s0 (State.itemSram s a1 a2 a3 a4) ↔ OnlyChanges ps s0 s :=
  onlyChanges_iff (State.itemSram_only s a1 a2 a3 a4) h
theorem State.itemComplete_only (s a1 a2) : OnlyChanges [.stats, .ctrs, .cqf, .mem, .hif, .err, .mat, .fab, .draws] s (State.itemComplete s a1 a2) := by
  unfold State.itemComplete
  (repeat' (first | split | dsimp only)) <;> simp
@[simp] theorem State.itemComplete_only_iff (s a1 a2) (h : [.stats, .ctrs, .cqf, .mem, .hif, .err, .mat, .fab, .draws] ⊆ ps) : OnlyChanges ps s0 (State.itemComplete s a1 a2) ↔ OnlyChanges ps s0 s :=
  onlyChanges_iff (State.itemComplete_only s a1 a2) h
theorem State.openBind_only (s a1 a2 a3 a4 a5 a6) : OnlyChanges [.stats, .ctrs, .cqf, .hif, .mat] s (State.openBind s a1 a2 a3 a4 a5 a6) := by
  unfold State.openBind
  (repeat' split) <;> simp
@[simp] theorem State.openBind_only_iff (s a1 a2 a3 a4 a5 a6) (h : [.stats, .ctrs, .cqf, .hif, .mat] ⊆ ps) : OnlyChanges ps s0 (State.openBind s a1 a2 a3 a4 a5 a6) ↔ OnlyChanges ps s0 s :=
  onlyChanges_iff (State.openBind_only s a1 a2 a3 a4 a5 a6) h
theorem State.accOpen_only (s a1) : OnlyChanges [.stats, .ctrs, .cqf, .mem, .hif, .err, .mat, .fab, .draws] s (State.accOpen s a1) := by
  unfold State.accOpen
  (repeat' (first | split | dsimp only)) <;> simp
@[simp] theorem State.accOpen_only_iff (s a1) (h : [.stats, .ctrs, .cqf, .mem, .hif, .err, .mat, .fab, .draws] ⊆ ps) : OnlyChanges ps s0 (State.accOpen s a1) ↔ OnlyChanges ps s0 s :=
  onlyChanges_iff (State.accOpen_only s a1) h
theorem State.flushVals_only (s a1 a2 a3 a4) : OnlyChanges [.stats, .ctrs, .cqf, .mem, .hif, .err, .fab, .draws] s (State.flushVals s a1 a2 a3 a4).2 := by
  unfold State.flushVals
  simp
@[simp] theorem State.flushVals_only_iff (s a1 a2 a3 a4) (h : [.stats, .ctrs, .cqf, .mem, .hif, .err, .fab, .draws] ⊆ ps) : OnlyChanges ps s0 (State.flushVals s a1 a2 a3 a4).2 ↔ OnlyChanges ps s0 s :=
  onlyChanges_iff (State.flushVals_only s a1 a2 a3 a4) h
theorem State.flushStore_only (s a1 a2 a3 a4 a5 a6 a7) : OnlyChanges [.stats, .ctrs, .cqf, .mem, .hif, .err, .mat, .fab, .draws] s (State.flushStore s a1 a2 a3 a4 a5 a6 a7) := by
  unfold State.flushStore
  simp
@[simp] theorem State.flushStore_only_iff (s a1 a2 a3 a4 a5 a6 a7) (h : [.stats, .ctrs, .cqf, .mem, .hif, .err, .mat, .fab, .draws] ⊆ ps) : OnlyChanges ps s0 (State.flushStore s a1 a2 a3 a4 a5 a6 a7) ↔ OnlyChanges ps s0 s :=
  onlyChanges_iff (State.flushStore_only s a1 a2 a3 a4 a5 a6 a7) h
theorem State.flushResidue_only (s a1 a2 a3 a4 a5) : OnlyChanges [.stats, .ctrs, .cqf, .mem, .hif, .err, .mat, .fab, .draws] s (State.flushResidue s a1 a2 a3 a4 a5) := by
  unfold State.flushResidue
  simp
@[simp] theorem State.flushResidue_only_iff (s a1 a2 a3 a4 a5) (h : [.stats, .ctrs, .cqf, .mem, .hif, .err, .mat, .fab, .draws] ⊆ ps) : OnlyChanges ps s0 (State.flushResidue s a1 a2 a3 a4 a5) ↔ OnlyChanges ps s0 s :=
  onlyChanges_iff (State.flushResidue_only s a1 a2 a3 a4 a5) h
theorem State.accFlush_only (s a1 a2) : OnlyChanges [.stats, .ctrs, .cqf, .mem, .hif, .err, .mat, .fab, .draws] s (State.accFlush s a1 a2) := by
  unfold State.accFlush
  (repeat' (first | split | dsimp only)) <;> simp
@[simp] theorem State.accFlush_only_iff (s a1 a2) (h : [.stats, .ctrs, .cqf, .mem, .hif, .err, .mat, .fab, .draws] ⊆ ps) : OnlyChanges ps s0 (State.accFlush s a1 a2) ↔ OnlyChanges ps s0 s :=
  onlyChanges_iff (State.accFlush_only s a1 a2) h
theorem State.matStop_only (s a1) : OnlyChanges [.mat] s (State.matStop s a1) := by
  unfold State.matStop
  simp
@[simp] theorem State.matStop_only_iff (s a1) (h : [.mat] ⊆ ps) : OnlyChanges ps s0 (State.matStop s a1) ↔ OnlyChanges ps s0 s :=
  onlyChanges_iff (State.matStop_only s a1) h
theorem State.matNfClr_only (s) : OnlyChanges [.ctrs] s (State.matNfClr s) := by
  unfold State.matNfClr
  simp
@[simp] theorem State.matNfClr_only_iff (s) (h : [.ctrs] ⊆ ps) : OnlyChanges ps s0 (State.matNfClr s) ↔ OnlyChanges ps s0 s :=
  onlyChanges_iff (State.matNfClr_only s) h
theorem State.setQd_only (s a1 a2) : OnlyChanges [.vec] s (State.setQd s a1 a2) := by
  unfold State.setQd
  simp
@[simp] theorem State.setQd_only_iff (s a1 a2) (h : [.vec] ⊆ ps) : OnlyChanges ps s0 (State.setQd s a1 a2) ↔ OnlyChanges ps s0 s :=
  onlyChanges_iff (State.setQd_only s a1 a2) h
theorem State.setVRun_only (s a1) : OnlyChanges [.vec] s (State.setVRun s a1) := by
  unfold State.setVRun
  simp
@[simp] theorem State.setVRun_only_iff (s a1) (h : [.vec] ⊆ ps) : OnlyChanges ps s0 (State.setVRun s a1) ↔ OnlyChanges ps s0 s :=
  onlyChanges_iff (State.setVRun_only s a1) h
theorem State.dropVRun_only (s a1) : OnlyChanges [.vec] s (State.dropVRun s a1) := by
  unfold State.dropVRun
  simp
@[simp] theorem State.dropVRun_only_iff (s a1) (h : [.vec] ⊆ ps) : OnlyChanges ps s0 (State.dropVRun s a1) ↔ OnlyChanges ps s0 s :=
  onlyChanges_iff (State.dropVRun_only s a1) h
theorem State.vecNf_only (s a1 a2) : OnlyChanges [.stats, .ctrs, .hif] s (State.vecNf s a1 a2) := by
  unfold State.vecNf
  simp
@[simp] theorem State.vecNf_only_iff (s a1 a2) (h : [.stats, .ctrs, .hif] ⊆ ps) : OnlyChanges ps s0 (State.vecNf s a1 a2) ↔ OnlyChanges ps s0 s :=
  onlyChanges_iff (State.vecNf_only s a1 a2) h
theorem State.snapAll_only_aux (s a1 a2) : OnlyChanges [.stats, .ctrs, .cqf, .mem, .hif, .err, .fab, .draws] s0 (State.snapAll s a1 a2).2 ↔ OnlyChanges [.stats, .ctrs, .cqf, .mem, .hif, .err, .fab, .draws] s0 s := by
  fun_induction State.snapAll <;> simp_all +zetaDelta
theorem State.snapAll_only (s a1 a2) : OnlyChanges [.stats, .ctrs, .cqf, .mem, .hif, .err, .fab, .draws] s (State.snapAll s a1 a2).2 := 
  (State.snapAll_only_aux s a1 a2).2 (onlyChanges_refl _ _)
@[simp] theorem State.snapAll_only_iff (s a1 a2) (h : [.stats, .ctrs, .cqf, .mem, .hif, .err, .fab, .draws] ⊆ ps) : OnlyChanges ps s0 (State.snapAll s a1 a2).2 ↔ OnlyChanges ps s0 s :=
  onlyChanges_iff (State.snapAll_only s a1 a2) h
theorem State.vStart_only (s a1 a2) : OnlyChanges [.stats, .ctrs, .cqf, .mem, .hif, .err, .vec, .fab, .draws] s (State.vStart s a1 a2) := by
  unfold State.vStart
  (repeat' (first | split | dsimp only)) <;> simp
@[simp] theorem State.vStart_only_iff (s a1 a2) (h : [.stats, .ctrs, .cqf, .mem, .hif, .err, .vec, .fab, .draws] ⊆ ps) : OnlyChanges ps s0 (State.vStart s a1 a2) ↔ OnlyChanges ps s0 s :=
  onlyChanges_iff (State.vStart_only s a1 a2) h
theorem State.vIssue_only (s a1) : OnlyChanges [.vec] s (State.vIssue s a1) := by
  unfold State.vIssue
  (repeat' split) <;> simp
@[simp] theorem State.vIssue_only_iff (s a1) (h : [.vec] ⊆ ps) : OnlyChanges ps s0 (State.vIssue s a1) ↔ OnlyChanges ps s0 s :=
  onlyChanges_iff (State.vIssue_only s a1) h
theorem State.qdWake_only (s a1) : OnlyChanges [.vec] s (State.qdWake s a1) := by
  unfold State.qdWake
  simp
@[simp] theorem State.qdWake_only_iff (s a1) (h : [.vec] ⊆ ps) : OnlyChanges ps s0 (State.qdWake s a1) ↔ OnlyChanges ps s0 s :=
  onlyChanges_iff (State.qdWake_only s a1) h
theorem State.qdDone_only (s a1) : OnlyChanges [.ctrs, .vec, .draws] s (State.qdDone s a1) := by
  unfold State.qdDone
  simp
@[simp] theorem State.qdDone_only_iff (s a1) (h : [.ctrs, .vec, .draws] ⊆ ps) : OnlyChanges ps s0 (State.qdDone s a1) ↔ OnlyChanges ps s0 s :=
  onlyChanges_iff (State.qdDone_only s a1) h
theorem State.vEnd_only (s a1) : OnlyChanges [.stats, .cqf, .hif, .vec] s (State.vEnd s a1) := by
  unfold State.vEnd
  (repeat' split) <;> simp
@[simp] theorem State.vEnd_only_iff (s a1) (h : [.stats, .cqf, .hif, .vec] ⊆ ps) : OnlyChanges ps s0 (State.vEnd s a1) ↔ OnlyChanges ps s0 s :=
  onlyChanges_iff (State.vEnd_only s a1) h
theorem State.vFail_only (s a1 a2 a3) : OnlyChanges [.stats, .ctrs, .cqf, .hif, .vec, .draws] s (State.vFail s a1 a2 a3) := by
  unfold State.vFail
  simp
@[simp] theorem State.vFail_only_iff (s a1 a2 a3) (h : [.stats, .ctrs, .cqf, .hif, .vec, .draws] ⊆ ps) : OnlyChanges ps s0 (State.vFail s a1 a2 a3) ↔ OnlyChanges ps s0 s :=
  onlyChanges_iff (State.vFail_only s a1 a2 a3) h
theorem State.vecReadFail_only (s a1 a2) : OnlyChanges [.stats, .ctrs, .cqf, .hif, .vec, .draws] s (State.vecReadFail s a1 a2) := by
  unfold State.vecReadFail
  (repeat' split) <;> simp
@[simp] theorem State.vecReadFail_only_iff (s a1 a2) (h : [.stats, .ctrs, .cqf, .hif, .vec, .draws] ⊆ ps) : OnlyChanges ps s0 (State.vecReadFail s a1 a2) ↔ OnlyChanges ps s0 s :=
  onlyChanges_iff (State.vecReadFail_only s a1 a2) h
theorem State.vWaiting_only (s t a2 a3) : OnlyChanges [.vec] t (State.vWaiting s t a2 a3) := by
  unfold State.vWaiting
  (repeat' split) <;> simp
@[simp] theorem State.vWaiting_only_iff (s t a2 a3) (h : [.vec] ⊆ ps) : OnlyChanges ps s0 (State.vWaiting s t a2 a3) ↔ OnlyChanges ps s0 t :=
  onlyChanges_iff (State.vWaiting_only s t a2 a3) h
theorem State.vDone_only (s a1 a2) : OnlyChanges [.stats, .ctrs, .cqf, .hif, .vec, .draws] s (State.vDone s a1 a2) := by
  unfold State.vDone
  simp
@[simp] theorem State.vDone_only_iff (s a1 a2) (h : [.stats, .ctrs, .cqf, .hif, .vec, .draws] ⊆ ps) : OnlyChanges ps s0 (State.vDone s a1 a2) ↔ OnlyChanges ps s0 s :=
  onlyChanges_iff (State.vDone_only s a1 a2) h
theorem State.vResidue_only (s a1 a2 a3) : OnlyChanges [.stats, .ctrs, .hif, .err] s (State.vResidue s a1 a2 a3).2 := by
  unfold State.vResidue
  simp
@[simp] theorem State.vResidue_only_iff (s a1 a2 a3) (h : [.stats, .ctrs, .hif, .err] ⊆ ps) : OnlyChanges ps s0 (State.vResidue s a1 a2 a3).2 ↔ OnlyChanges ps s0 s :=
  onlyChanges_iff (State.vResidue_only s a1 a2 a3) h
theorem State.vRow_only (s a1 a2 a3 a4) : OnlyChanges [.stats, .ctrs, .cqf, .mem, .hif, .err, .fab, .draws] s (State.vRow s a1 a2 a3 a4).2 := by
  unfold State.vRow
  simp
@[simp] theorem State.vRow_only_iff (s a1 a2 a3 a4) (h : [.stats, .ctrs, .cqf, .mem, .hif, .err, .fab, .draws] ⊆ ps) : OnlyChanges ps s0 (State.vRow s a1 a2 a3 a4).2 ↔ OnlyChanges ps s0 s :=
  onlyChanges_iff (State.vRow_only s a1 a2 a3 a4) h
theorem State.vRowsOf_only_aux (s a1 a2 a3) : OnlyChanges [.stats, .ctrs, .cqf, .mem, .hif, .err, .fab, .draws] s0 (State.vRowsOf s a1 a2 a3).2 ↔ OnlyChanges [.stats, .ctrs, .cqf, .mem, .hif, .err, .fab, .draws] s0 s := by
  fun_induction State.vRowsOf <;> simp_all +zetaDelta
theorem State.vRowsOf_only (s a1 a2 a3) : OnlyChanges [.stats, .ctrs, .cqf, .mem, .hif, .err, .fab, .draws] s (State.vRowsOf s a1 a2 a3).2 := 
  (State.vRowsOf_only_aux s a1 a2 a3).2 (onlyChanges_refl _ _)
@[simp] theorem State.vRowsOf_only_iff (s a1 a2 a3) (h : [.stats, .ctrs, .cqf, .mem, .hif, .err, .fab, .draws] ⊆ ps) : OnlyChanges ps s0 (State.vRowsOf s a1 a2 a3).2 ↔ OnlyChanges ps s0 s :=
  onlyChanges_iff (State.vRowsOf_only s a1 a2 a3) h
theorem State.vCol_only (s a1 a2 a3) : OnlyChanges [.stats, .ctrs, .cqf, .mem, .hif, .err, .fab, .draws] s (State.vCol s a1 a2 a3).2 := by
  unfold State.vCol
  simp
@[simp] theorem State.vCol_only_iff (s a1 a2 a3) (h : [.stats, .ctrs, .cqf, .mem, .hif, .err, .fab, .draws] ⊆ ps) : OnlyChanges ps s0 (State.vCol s a1 a2 a3).2 ↔ OnlyChanges ps s0 s :=
  onlyChanges_iff (State.vCol_only s a1 a2 a3) h
theorem State.vHold_only (s a1 a2) : OnlyChanges [.ctrs, .mem] s (State.vHold s a1 a2) := by
  unfold State.vHold
  simp
@[simp] theorem State.vHold_only_iff (s a1 a2) (h : [.ctrs, .mem] ⊆ ps) : OnlyChanges ps s0 (State.vHold s a1 a2) ↔ OnlyChanges ps s0 s :=
  onlyChanges_iff (State.vHold_only s a1 a2) h
theorem State.vStore_only (s a1 a2 a3) : OnlyChanges [.stats, .ctrs, .cqf, .mem, .hif, .err, .fab, .draws] s (State.vStore s a1 a2 a3) := by
  unfold State.vStore
  simp
@[simp] theorem State.vStore_only_iff (s a1 a2 a3) (h : [.stats, .ctrs, .cqf, .mem, .hif, .err, .fab, .draws] ⊆ ps) : OnlyChanges ps s0 (State.vStore s a1 a2 a3) ↔ OnlyChanges ps s0 s :=
  onlyChanges_iff (State.vStore_only s a1 a2 a3) h
theorem State.vRowEnd_only (s a1 a2 a3 a4 a5) : OnlyChanges [.stats, .ctrs, .cqf, .mem, .hif, .err, .vec, .fab, .draws] s (State.vRowEnd s a1 a2 a3 a4 a5) := by
  unfold State.vRowEnd
  (repeat' (first | split | dsimp only)) <;> simp
@[simp] theorem State.vRowEnd_only_iff (s a1 a2 a3 a4 a5) (h : [.stats, .ctrs, .cqf, .mem, .hif, .err, .vec, .fab, .draws] ⊆ ps) : OnlyChanges ps s0 (State.vRowEnd s a1 a2 a3 a4 a5) ↔ OnlyChanges ps s0 s :=
  onlyChanges_iff (State.vRowEnd_only s a1 a2 a3 a4 a5) h
theorem State.vColEnd_only (s a1 a2 a3 a4 a5) : OnlyChanges [.stats, .ctrs, .cqf, .mem, .hif, .err, .vec, .fab, .draws] s (State.vColEnd s a1 a2 a3 a4 a5) := by
  unfold State.vColEnd
  (repeat' (first | split | dsimp only)) <;> simp
@[simp] theorem State.vColEnd_only_iff (s a1 a2 a3 a4 a5) (h : [.stats, .ctrs, .cqf, .mem, .hif, .err, .vec, .fab, .draws] ⊆ ps) : OnlyChanges ps s0 (State.vColEnd s a1 a2 a3 a4 a5) ↔ OnlyChanges ps s0 s :=
  onlyChanges_iff (State.vColEnd_only s a1 a2 a3 a4 a5) h
theorem State.orUndef_only (s a1 a2 a3) : OnlyChanges [.draws] s (State.orUndef s a1 a2 a3).2 := by
  unfold State.orUndef
  simp
@[simp] theorem State.orUndef_only_iff (s a1 a2 a3) (h : [.draws] ⊆ ps) : OnlyChanges ps s0 (State.orUndef s a1 a2 a3).2 ↔ OnlyChanges ps s0 s :=
  onlyChanges_iff (State.orUndef_only s a1 a2 a3) h
theorem State.chunkCommit_only (s a1 a2 a3 a4 a5) : OnlyChanges [.stats, .ctrs, .cqf, .mem, .hif, .err, .vec, .fab, .draws] s (State.chunkCommit s a1 a2 a3 a4 a5) := by
  unfold State.chunkCommit
  simp
@[simp] theorem State.chunkCommit_only_iff (s a1 a2 a3 a4 a5) (h : [.stats, .ctrs, .cqf, .mem, .hif, .err, .vec, .fab, .draws] ⊆ ps) : OnlyChanges ps s0 (State.chunkCommit s a1 a2 a3 a4 a5) ↔ OnlyChanges ps s0 s :=
  onlyChanges_iff (State.chunkCommit_only s a1 a2 a3 a4 a5) h
theorem State.chunkWrite_only (s a1 a2 a3 a4 a5 a6 a7) : OnlyChanges [.stats, .ctrs, .cqf, .mem, .hif, .err, .vec, .fab, .draws] s (State.chunkWrite s a1 a2 a3 a4 a5 a6 a7) := by
  unfold State.chunkWrite
  simp
@[simp] theorem State.chunkWrite_only_iff (s a1 a2 a3 a4 a5 a6 a7) (h : [.stats, .ctrs, .cqf, .mem, .hif, .err, .vec, .fab, .draws] ⊆ ps) : OnlyChanges ps s0 (State.chunkWrite s a1 a2 a3 a4 a5 a6 a7) ↔ OnlyChanges ps s0 s :=
  onlyChanges_iff (State.chunkWrite_only s a1 a2 a3 a4 a5 a6 a7) h
theorem State.chunkHold_only (s a1 a2 a3 a4) : OnlyChanges [.ctrs, .mem] s (State.chunkHold s a1 a2 a3 a4) := by
  unfold State.chunkHold
  simp
@[simp] theorem State.chunkHold_only_iff (s a1 a2 a3 a4) (h : [.ctrs, .mem] ⊆ ps) : OnlyChanges ps s0 (State.chunkHold s a1 a2 a3 a4) ↔ OnlyChanges ps s0 s :=
  onlyChanges_iff (State.chunkHold_only s a1 a2 a3 a4) h
theorem State.chunkUpdate_only (s a1 a2 a3 a4 a5 a6) : OnlyChanges [.stats, .ctrs, .cqf, .mem, .hif, .err, .vec, .fab, .draws] s (State.chunkUpdate s a1 a2 a3 a4 a5 a6) := by
  unfold State.chunkUpdate
  (repeat' (first | split | dsimp only)) <;> simp
@[simp] theorem State.chunkUpdate_only_iff (s a1 a2 a3 a4 a5 a6) (h : [.stats, .ctrs, .cqf, .mem, .hif, .err, .vec, .fab, .draws] ⊆ ps) : OnlyChanges ps s0 (State.chunkUpdate s a1 a2 a3 a4 a5 a6) ↔ OnlyChanges ps s0 s :=
  onlyChanges_iff (State.chunkUpdate_only s a1 a2 a3 a4 a5 a6) h
theorem State.vChunkEnd_only (s a1 a2 a3 a4 a5) : OnlyChanges [.stats, .ctrs, .cqf, .mem, .hif, .err, .vec, .fab, .draws] s (State.vChunkEnd s a1 a2 a3 a4 a5) := by
  unfold State.vChunkEnd
  (repeat' (first | split | dsimp only)) <;> simp
@[simp] theorem State.vChunkEnd_only_iff (s a1 a2 a3 a4 a5) (h : [.stats, .ctrs, .cqf, .mem, .hif, .err, .vec, .fab, .draws] ⊆ ps) : OnlyChanges ps s0 (State.vChunkEnd s a1 a2 a3 a4 a5) ↔ OnlyChanges ps s0 s :=
  onlyChanges_iff (State.vChunkEnd_only s a1 a2 a3 a4 a5) h
theorem State.vSram_only (s a1 a2 a3) : OnlyChanges [.stats, .ctrs, .cqf, .hif, .err, .vec, .draws] s (State.vSram s a1 a2 a3) := by
  unfold State.vSram
  simp
@[simp] theorem State.vSram_only_iff (s a1 a2 a3) (h : [.stats, .ctrs, .cqf, .hif, .err, .vec, .draws] ⊆ ps) : OnlyChanges ps s0 (State.vSram s a1 a2 a3) ↔ OnlyChanges ps s0 s :=
  onlyChanges_iff (State.vSram_only s a1 a2 a3) h
theorem State.vItemEnd_only (s a1 a2) : OnlyChanges [.stats, .ctrs, .cqf, .mem, .hif, .err, .vec, .fab, .draws] s (State.vItemEnd s a1 a2) := by
  unfold State.vItemEnd
  (repeat' split) <;> simp
@[simp] theorem State.vItemEnd_only_iff (s a1 a2) (h : [.stats, .ctrs, .cqf, .mem, .hif, .err, .vec, .fab, .draws] ⊆ ps) : OnlyChanges ps s0 (State.vItemEnd s a1 a2) ↔ OnlyChanges ps s0 s :=
  onlyChanges_iff (State.vItemEnd_only s a1 a2) h
theorem State.vecNfClr_only (s) : OnlyChanges [.ctrs] s (State.vecNfClr s) := by
  unfold State.vecNfClr
  simp
@[simp] theorem State.vecNfClr_only_iff (s) (h : [.ctrs] ⊆ ps) : OnlyChanges ps s0 (State.vecNfClr s) ↔ OnlyChanges ps s0 s :=
  onlyChanges_iff (State.vecNfClr_only s) h
end Sys2Proof.Machine
end

