-- ==== Sys2Proof/Laws/FrameTiers.lean ====
section
/-!
SUPPORT. Frames of the operations of the tier manager, tides and the near-bank engine: which blocks of the state each of them may change.
-/
set_option maxRecDepth 4000
namespace Sys2Proof.Machine
variable {ps : List Piece} {s0 : State}
theorem State.copyWord_only (a0 a1 s) : OnlyChanges [.stats, .ctrs, .mem, .hif, .err] s (State.copyWord a0 a1 s).2 := by
  unfold State.copyWord
  (repeat' (first | split | dsimp only)) <;> simp
@[simp] theorem State.copyWord_only_iff (a0 a1 s) (h : [.stats, .ctrs, .mem, .hif, .err] ⊆ ps) : OnlyChanges ps s0 (State.copyWord a0 a1 s).2 ↔ OnlyChanges ps s0 s :=
  onlyChanges_iff (State.copyWord_only a0 a1 s) h
theorem State.copyErrs_only (a0 a1 s) : OnlyChanges [.stats, .ctrs, .mem, .hif, .err] s (State.copyErrs a0 a1 s).2 := by
  unfold State.copyErrs
  dsimp only
  simp
@[simp] theorem State.copyErrs_only_iff (a0 a1 s) (h : [.stats, .ctrs, .mem, .hif, .err] ⊆ ps) : OnlyChanges ps s0 (State.copyErrs a0 a1 s).2 ↔ OnlyChanges ps s0 s :=
  onlyChanges_iff (State.copyErrs_only a0 a1 s) h
theorem State.poisonUnits_only (a0 s) : OnlyChanges [.mem] s (State.poisonUnits a0 s) := by
  unfold State.poisonUnits
  simp
@[simp] theorem State.poisonUnits_only_iff (a0 s) (h : [.mem] ⊆ ps) : OnlyChanges ps s0 (State.poisonUnits a0 s) ↔ OnlyChanges ps s0 s :=
  onlyChanges_iff (State.poisonUnits_only a0 s) h
theorem State.copyPage_only (a0 s) : OnlyChanges [.stats, .ctrs, .mem, .hif, .err] s (State.copyPage a0 s).2 := by
  unfold State.copyPage
  simp
@[simp] theorem State.copyPage_only_iff (a0 s) (h : [.stats, .ctrs, .mem, .hif, .err] ⊆ ps) : OnlyChanges ps s0 (State.copyPage a0 s).2 ↔ OnlyChanges ps s0 s :=
  onlyChanges_iff (State.copyPage_only a0 s) h
theorem State.arriveAt_only (a0 a1 s) : OnlyChanges [.stats, .ctrs, .mem, .hif, .err] s (State.arriveAt a0 a1 s) := by
  unfold State.arriveAt
  simp
@[simp] theorem State.arriveAt_only_iff (a0 a1 s) (h : [.stats, .ctrs, .mem, .hif, .err] ⊆ ps) : OnlyChanges ps s0 (State.arriveAt a0 a1 s) ↔ OnlyChanges ps s0 s :=
  onlyChanges_iff (State.arriveAt_only a0 a1 s) h
theorem State.exchange_only (a0 a1 a2 a3 s) : OnlyChanges [.stats, .ctrs, .mem, .hif, .err] s (State.exchange a0 a1 a2 a3 s) := by
  unfold State.exchange
  simp
@[simp] theorem State.exchange_only_iff (a0 a1 a2 a3 s) (h : [.stats, .ctrs, .mem, .hif, .err] ⊆ ps) : OnlyChanges ps s0 (State.exchange a0 a1 a2 a3 s) ↔ OnlyChanges ps s0 s :=
  onlyChanges_iff (State.exchange_only a0 a1 a2 a3 s) h
theorem State.swapPages_only (a0 a1 s) : OnlyChanges [.stats, .ctrs, .mem, .hif, .err] s (State.swapPages a0 a1 s) := by
  unfold State.swapPages
  simp
@[simp] theorem State.swapPages_only_iff (a0 a1 s) (h : [.stats, .ctrs, .mem, .hif, .err] ⊆ ps) : OnlyChanges ps s0 (State.swapPages a0 a1 s) ↔ OnlyChanges ps s0 s :=
  onlyChanges_iff (State.swapPages_only a0 a1 s) h
theorem bringIn_step {P : List Piece} {c : Prop} [Decidable c] {s : State} {a b : Nat × State} {k : Nat} (o : Option Nat) (f : Nat → Nat × State)
    (ha : c → OnlyChanges P s a.2) (hf : ∀ v, OnlyChanges P s (f v).2) (hb : b = if c then a else match o with
      | none => (k, s)
      | some v => f v) : OnlyChanges P s b.2 := by
  subst hb
  split
  · exact ha ‹_›
  · cases o with
    | none => simp
    | some v => exact hf v
theorem State.bringIn_only_aux (a0 a1 a2 s) : OnlyChanges [.stats, .ctrs, .mem, .hif, .err] s0 (State.bringIn a0 a1 a2 s).2 ↔ OnlyChanges [.stats, .ctrs, .mem, .hif, .err] s0 s := by
  fun_induction State.bringIn <;> simp_all
theorem State.bringIn_only (a0 a1 a2 s) : OnlyChanges [.stats, .ctrs, .mem, .hif, .err] s (State.bringIn a0 a1 a2 s).2 := 
  (State.bringIn_only_aux a0 a1 a2 s).2 (onlyChanges_refl _ _)
@[simp] theorem State.bringIn_only_iff (a0 a1 a2 s) (h : [.stats, .ctrs, .mem, .hif, .err] ⊆ ps) : OnlyChanges ps s0 (State.bringIn a0 a1 a2 s).2 ↔ OnlyChanges ps s0 s :=
  onlyChanges_iff (State.bringIn_only a0 a1 a2 s) h
theorem State.takeRow_only (s a1 a2) : OnlyChanges [.stats, .ctrs, .mem, .hif, .err] s (State.takeRow s a1 a2) := by
  unfold State.takeRow
  simp
@[simp] theorem State.takeRow_only_iff (s a1 a2) (h : [.stats, .ctrs, .mem, .hif, .err] ⊆ ps) : OnlyChanges ps s0 (State.takeRow s a1 a2) ↔ OnlyChanges ps s0 s :=
  onlyChanges_iff (State.takeRow_only s a1 a2) h
theorem State.giveRows_only_aux (s a1 a2 a3) : OnlyChanges [.stats, .ctrs, .mem, .hif, .err] s0 (State.giveRows s a1 a2 a3).2.2 ↔ OnlyChanges [.stats, .ctrs, .mem, .hif, .err] s0 s := by
  fun_induction State.giveRows <;> simp_all
theorem State.giveRows_only (s a1 a2 a3) : OnlyChanges [.stats, .ctrs, .mem, .hif, .err] s (State.giveRows s a1 a2 a3).2.2 := 
  (State.giveRows_only_aux s a1 a2 a3).2 (onlyChanges_refl _ _)
@[simp] theorem State.giveRows_only_iff (s a1 a2 a3) (h : [.stats, .ctrs, .mem, .hif, .err] ⊆ ps) : OnlyChanges ps s0 (State.giveRows s a1 a2 a3).2.2 ↔ OnlyChanges ps s0 s :=
  onlyChanges_iff (State.giveRows_only s a1 a2 a3) h
@[simp] theorem Brought.placed_snd (b : Brought) (rows) (s : State) : (b.placed rows s).2 = s := by cases b <;> rfl
theorem State.placeRegion_only (s a1 a2 a3 a4 a5 a6) : OnlyChanges [.stats, .ctrs, .mem, .hif, .err] s (State.placeRegion s a1 a2 a3 a4 a5 a6).2 := by
  unfold State.placeRegion
  extract_lets inside xs cap excess here r1 r2 nf rf rc fast caps down up
  have h1 : OnlyChanges [.stats, .ctrs, .mem, .hif, .err] s r1.2.2 := by simp only [r1]; simp
  have h2 : OnlyChanges [.stats, .ctrs, .mem, .hif, .err] s r2.2 := by simp only [r2]; simp
  have h3 : OnlyChanges [.stats, .ctrs, .mem, .hif, .err] s down.2 := by simp only [down]; simp
  have h4 : OnlyChanges [.stats, .ctrs, .mem, .hif, .err] s up.2 := by simp only [up]; simpa using h3
  clear_value r1 r2 down up
  (repeat' split) <;> simp [h1, h2, h3, h4]
@[simp] theorem State.placeRegion_only_iff (s a1 a2 a3 a4 a5 a6) (h : [.stats, .ctrs, .mem, .hif, .err] ⊆ ps) : OnlyChanges ps s0 (State.placeRegion s a1 a2 a3 a4 a5 a6).2 ↔ OnlyChanges ps s0 s :=
  onlyChanges_iff (State.placeRegion_only s a1 a2 a3 a4 a5 a6) h
theorem State.enterRegion_only (s a1 a2) : OnlyChanges [.mem] s (State.enterRegion s a1 a2) := by
  unfold State.enterRegion
  simp
@[simp] theorem State.enterRegion_only_iff (s a1 a2) (h : [.mem] ⊆ ps) : OnlyChanges ps s0 (State.enterRegion s a1 a2) ↔ OnlyChanges ps s0 s :=
  onlyChanges_iff (State.enterRegion_only s a1 a2) h
theorem State.regionEnd_only (q) (c) (x) (r : (Except (Option Fail) (List Nat)) × State) : OnlyChanges [.cqf, .mem] r.2 (State.regionEnd q c x r) := by
  unfold State.regionEnd
  split <;> simp
@[simp] theorem State.regionEnd_only_iff (q) (c) (x) (r : (Except (Option Fail) (List Nat)) × State) (h : [.cqf, .mem] ⊆ ps) : OnlyChanges ps s0 (State.regionEnd q c x r) ↔ OnlyChanges ps s0 r.2 :=
  onlyChanges_iff (State.regionEnd_only q c x r) h
theorem State.regionPlace_only (s a1 a2) : OnlyChanges [.stats, .ctrs, .cqf, .mem, .hif, .err] s (State.regionPlace s a1 a2) := by
  unfold State.regionPlace
  rw [State.regionEnd_only_iff _ _ _ _ (by simp)]
  simp
@[simp] theorem State.regionPlace_only_iff (s a1 a2) (h : [.stats, .ctrs, .cqf, .mem, .hif, .err] ⊆ ps) : OnlyChanges ps s0 (State.regionPlace s a1 a2) ↔ OnlyChanges ps s0 s :=
  onlyChanges_iff (State.regionPlace_only s a1 a2) h
theorem regionSet_step {P : List Piece} {s : State} (o : Option Cmd) (F A : Cmd → Except Fail Unit) (fl : Fail → State) (ok : Cmd → State)
    (hf : ∀ f, OnlyChanges P s (fl f)) (hk : ∀ c, OnlyChanges P s (ok c)) :
    OnlyChanges P s (match o with
      | none => s
      | some c =>
        match F c with
        | .error f => fl f
        | .ok () => match A c with
          | .error f => fl f
          | .ok () => ok c) := by
  cases o with
  | none => simp
  | some c =>
    show OnlyChanges P s (match F c with
        | .error f => fl f
        | .ok () => match A c with
          | .error f => fl f
          | .ok () => ok c)
    cases F c with
    | error f => exact hf f
    | ok u =>
      show OnlyChanges P s (match A c with
          | .error f => fl f
          | .ok () => ok c)
      cases A c with
      | error f => exact hf f
      | ok u => exact hk c
theorem State.regionSet_only (s a1) : OnlyChanges [.stats, .ctrs, .cqf, .mem, .hif, .err] s (State.regionSet s a1) := by
  have hf : ∀ f, OnlyChanges [.stats, .ctrs, .cqf, .mem, .hif, .err] s (State.failCmd s a1 f) := fun f => by simp
  have hk : ∀ c, OnlyChanges [.stats, .ctrs, .cqf, .mem, .hif, .err] s (State.regionPlace s a1 c) := fun c => by simp
  unfold State.regionSet
  generalize State.running s a1 0x4010 = o
  generalize State.regionFields s a1 = F
  generalize State.regionAddrs s a1 = A
  generalize State.failCmd s a1 = fl at hf ⊢
  generalize State.regionPlace s a1 = ok at hk ⊢
  exact regionSet_step o F A fl ok hf hk
@[simp] theorem State.regionSet_only_iff (s a1) (h : [.stats, .ctrs, .cqf, .mem, .hif, .err] ⊆ ps) : OnlyChanges ps s0 (State.regionSet s a1) ↔ OnlyChanges ps s0 s :=
  onlyChanges_iff (State.regionSet_only s a1) h
theorem State.regionClear_only (s a1) : OnlyChanges [.cqf, .mem] s (State.regionClear s a1) := by
  unfold State.regionClear
  (repeat' split) <;> simp
@[simp] theorem State.regionClear_only_iff (s a1) (h : [.cqf, .mem] ⊆ ps) : OnlyChanges ps s0 (State.regionClear s a1) ↔ OnlyChanges ps s0 s :=
  onlyChanges_iff (State.regionClear_only s a1) h
theorem State.regionHint_only (s a1) : OnlyChanges [.stats, .ctrs, .cqf, .mem, .hif, .err] s (State.regionHint s a1) := by
  unfold State.regionHint
  (repeat' (first | split | dsimp only)) <;> simp
@[simp] theorem State.regionHint_only_iff (s a1) (h : [.stats, .ctrs, .cqf, .mem, .hif, .err] ⊆ ps) : OnlyChanges ps s0 (State.regionHint s a1) ↔ OnlyChanges ps s0 s :=
  onlyChanges_iff (State.regionHint_only s a1) h
theorem State.tollSet_only (s a1) : OnlyChanges [.cqf, .mem] s (State.tollSet s a1) := by
  unfold State.tollSet
  (repeat' (first | split | dsimp only)) <;> simp
@[simp] theorem State.tollSet_only_iff (s a1) (h : [.cqf, .mem] ⊆ ps) : OnlyChanges ps s0 (State.tollSet s a1) ↔ OnlyChanges ps s0 s :=
  onlyChanges_iff (State.tollSet_only s a1) h
theorem State.tollClose_only (s a1) : OnlyChanges [.cqf, .mem] s (State.tollClose s a1) := by
  unfold State.tollClose
  (repeat' split) <;> simp
@[simp] theorem State.tollClose_only_iff (s a1) (h : [.cqf, .mem] ⊆ ps) : OnlyChanges ps s0 (State.tollClose s a1) ↔ OnlyChanges ps s0 s :=
  onlyChanges_iff (State.tollClose_only s a1) h
theorem State.setProg_only (s a1 a2) : OnlyChanges [.mem] s (State.setProg s a1 a2) := by
  unfold State.setProg
  simp
@[simp] theorem State.setProg_only_iff (s a1 a2) (h : [.mem] ⊆ ps) : OnlyChanges ps s0 (State.setProg s a1 a2) ↔ OnlyChanges ps s0 s :=
  onlyChanges_iff (State.setProg_only s a1 a2) h
theorem State.copyBlocks_only (a0 a1 a2 a3 s) : OnlyChanges [.stats, .ctrs, .cqf, .mem, .hif, .err, .fab, .draws] s (State.copyBlocks a0 a1 a2 a3 s) := by
  induction a3 generalizing s with
  | zero => simp [State.copyBlocks]
  | succ f ih =>
    unfold State.copyBlocks
    dsimp only
    split
    · simp
    · split
      · simp
      · split
        · refine (onlyChanges_iff (ih _) (List.Subset.refl _)).2 ?_
          split <;> split <;> simp
        · simp
        · simp
@[simp] theorem State.copyBlocks_only_iff (a0 a1 a2 a3 s) (h : [.stats, .ctrs, .cqf, .mem, .hif, .err, .fab, .draws] ⊆ ps) : OnlyChanges ps s0 (State.copyBlocks a0 a1 a2 a3 s) ↔ OnlyChanges ps s0 s :=
  onlyChanges_iff (State.copyBlocks_only a0 a1 a2 a3 s) h
theorem State.ttCopy_only (s a1) : OnlyChanges [.stats, .ctrs, .cqf, .mem, .hif, .err, .fab, .draws] s (State.ttCopy s a1) := by
  unfold State.ttCopy
  (repeat' split) <;> simp
@[simp] theorem State.ttCopy_only_iff (s a1) (h : [.stats, .ctrs, .cqf, .mem, .hif, .err, .fab, .draws] ⊆ ps) : OnlyChanges ps s0 (State.ttCopy s a1) ↔ OnlyChanges ps s0 s :=
  onlyChanges_iff (State.ttCopy_only s a1) h
theorem State.fillBlocks_only_aux (a0 a1 a2 s) : OnlyChanges [.stats, .ctrs, .cqf, .mem, .hif, .err, .fab, .draws] s0 (State.fillBlocks a0 a1 a2 s) ↔ OnlyChanges [.stats, .ctrs, .cqf, .mem, .hif, .err, .fab, .draws] s0 s := by
  fun_induction State.fillBlocks <;> simp_all
theorem State.fillBlocks_only (a0 a1 a2 s) : OnlyChanges [.stats, .ctrs, .cqf, .mem, .hif, .err, .fab, .draws] s (State.fillBlocks a0 a1 a2 s) := 
  (State.fillBlocks_only_aux a0 a1 a2 s).2 (onlyChanges_refl _ _)
@[simp] theorem State.fillBlocks_only_iff (a0 a1 a2 s) (h : [.stats, .ctrs, .cqf, .mem, .hif, .err, .fab, .draws] ⊆ ps) : OnlyChanges ps s0 (State.fillBlocks a0 a1 a2 s) ↔ OnlyChanges ps s0 s :=
  onlyChanges_iff (State.fillBlocks_only a0 a1 a2 s) h
theorem State.ttFill_only (s a1) : OnlyChanges [.stats, .ctrs, .cqf, .mem, .hif, .err, .fab, .draws] s (State.ttFill s a1) := by
  unfold State.ttFill
  (repeat' split) <;> simp
@[simp] theorem State.ttFill_only_iff (s a1) (h : [.stats, .ctrs, .cqf, .mem, .hif, .err, .fab, .draws] ⊆ ps) : OnlyChanges ps s0 (State.ttFill s a1) ↔ OnlyChanges ps s0 s :=
  onlyChanges_iff (State.ttFill_only s a1) h
theorem State.placeOne_only (s a1 a2) : OnlyChanges [.stats, .ctrs, .mem, .hif, .err] s (State.placeOne s a1 a2).2 := by
  unfold State.placeOne
  (repeat' split) <;> simp
@[simp] theorem State.placeOne_only_iff (s a1 a2) (h : [.stats, .ctrs, .mem, .hif, .err] ⊆ ps) : OnlyChanges ps s0 (State.placeOne s a1 a2).2 ↔ OnlyChanges ps s0 s :=
  onlyChanges_iff (State.placeOne_only s a1 a2) h
theorem State.placePages_only (a0 a1 a2 a3 a4 s) : OnlyChanges [.stats, .ctrs, .cqf, .mem, .hif, .err] s (State.placePages a0 a1 a2 a3 a4 s) := by
  induction a4 generalizing s with
  | zero => simp [State.placePages]
  | succ f ih =>
    unfold State.placePages
    extract_lets p x
    have hy : OnlyChanges [.stats, .ctrs, .cqf, .mem, .hif, .err] s x.2 := by simp only [x]; simp
    clear_value x
    split
    · split <;> simp
    · split
      · exact hy
      · exact (onlyChanges_iff (ih _) (List.Subset.refl _)).2 (by simpa using hy)
@[simp] theorem State.placePages_only_iff (a0 a1 a2 a3 a4 s) (h : [.stats, .ctrs, .cqf, .mem, .hif, .err] ⊆ ps) : OnlyChanges ps s0 (State.placePages a0 a1 a2 a3 a4 s) ↔ OnlyChanges ps s0 s :=
  onlyChanges_iff (State.placePages_only a0 a1 a2 a3 a4 s) h
theorem State.ttPlace_only (s a1) : OnlyChanges [.stats, .ctrs, .cqf, .mem, .hif, .err] s (State.ttPlace s a1) := by
  unfold State.ttPlace
  (repeat' (first | split | dsimp only)) <;> simp
@[simp] theorem State.ttPlace_only_iff (s a1) (h : [.stats, .ctrs, .cqf, .mem, .hif, .err] ⊆ ps) : OnlyChanges ps s0 (State.ttPlace s a1) ↔ OnlyChanges ps s0 s :=
  onlyChanges_iff (State.ttPlace_only s a1) h
theorem State.bgStart_only (s a1) : OnlyChanges [.stats, .mem, .hif] s (State.bgStart s a1) := by
  unfold State.bgStart
  (repeat' split) <;> simp
@[simp] theorem State.bgStart_only_iff (s a1) (h : [.stats, .mem, .hif] ⊆ ps) : OnlyChanges ps s0 (State.bgStart s a1) ↔ OnlyChanges ps s0 s :=
  onlyChanges_iff (State.bgStart_only s a1) h
theorem State.halve_only (s) : OnlyChanges [.mem] s (State.halve s) := by
  unfold State.halve
  simp
@[simp] theorem State.halve_only_iff (s) (h : [.mem] ⊆ ps) : OnlyChanges ps s0 (State.halve s) ↔ OnlyChanges ps s0 s :=
  onlyChanges_iff (State.halve_only s) h
theorem State.setFord_only (s a1 a2) : OnlyChanges [.mem] s (State.setFord s a1 a2) := by
  unfold State.setFord
  simp
@[simp] theorem State.setFord_only_iff (s a1 a2) (h : [.mem] ⊆ ps) : OnlyChanges ps s0 (State.setFord s a1 a2) ↔ OnlyChanges ps s0 s :=
  onlyChanges_iff (State.setFord_only s a1 a2) h
theorem State.readTable_only (s a1 a2 a3 a4 a5 a6) : OnlyChanges [.stats, .ctrs, .cqf, .mem, .hif, .err, .fab, .draws] s (State.readTable s a1 a2 a3 a4 a5 a6).2 := by
  induction a4 generalizing s a5 a6 with
  | zero => simp [State.readTable]
  | succ f ih =>
    unfold State.readTable
    extract_lets r t
    have h1 : OnlyChanges [.stats, .ctrs, .cqf, .mem, .hif, .err, .fab, .draws] s r.2 := by simp only [r]; simp
    have h2 : OnlyChanges [.stats, .ctrs, .cqf, .mem, .hif, .err, .fab, .draws] s t.2 := by simp only [t]; exact (onlyChanges_iff (ih _ _ _) (List.Subset.refl _)).2 h1
    clear_value r
    split
    · split
      · exact h1
      · split
        · exact h2
        · exact h2
    · exact h1
@[simp] theorem State.readTable_only_iff (s a1 a2 a3 a4 a5 a6) (h : [.stats, .ctrs, .cqf, .mem, .hif, .err, .fab, .draws] ⊆ ps) : OnlyChanges ps s0 (State.readTable s a1 a2 a3 a4 a5 a6).2 ↔ OnlyChanges ps s0 s :=
  onlyChanges_iff (State.readTable_only s a1 a2 a3 a4 a5 a6) h
theorem State.fordSet_only (s a1) : OnlyChanges [.stats, .ctrs, .cqf, .mem, .hif, .err, .fab, .draws] s (State.fordSet s a1) := by
  unfold State.fordSet
  (repeat' (first | split | dsimp only)) <;> simp
@[simp] theorem State.fordSet_only_iff (s a1) (h : [.stats, .ctrs, .cqf, .mem, .hif, .err, .fab, .draws] ⊆ ps) : OnlyChanges ps s0 (State.fordSet s a1) ↔ OnlyChanges ps s0 s :=
  onlyChanges_iff (State.fordSet_only s a1) h
theorem State.fordReturn_only (s a1) : OnlyChanges [.stats, .ctrs, .mem, .hif, .err] s (State.fordReturn s a1) := by
  unfold State.fordReturn
  (repeat' split) <;> simp
@[simp] theorem State.fordReturn_only_iff (s a1) (h : [.stats, .ctrs, .mem, .hif, .err] ⊆ ps) : OnlyChanges ps s0 (State.fordReturn s a1) ↔ OnlyChanges ps s0 s :=
  onlyChanges_iff (State.fordReturn_only s a1) h
theorem State.fordMove_only (s f x r) (hr : State.fordMove s f x = .ok r) : OnlyChanges [.mem] s r := by
  unfold State.fordMove at hr
  split at hr
  · simp at hr
  · split at hr
    · simp at hr
    · split at hr
      · simp at hr
      · simp only [Except.ok.injEq] at hr
        subst hr
        simp
theorem State.fordRefuse_only (s a1 a2) : OnlyChanges [.stats, .cqf, .mem, .hif] s (State.fordRefuse s a1 a2) := by
  unfold State.fordRefuse
  simp
@[simp] theorem State.fordRefuse_only_iff (s a1 a2) (h : [.stats, .cqf, .mem, .hif] ⊆ ps) : OnlyChanges ps s0 (State.fordRefuse s a1 a2) ↔ OnlyChanges ps s0 s :=
  onlyChanges_iff (State.fordRefuse_only s a1 a2) h
theorem State.fordDone_only (s a1) : OnlyChanges [.cqf, .mem] s (State.fordDone s a1) := by
  unfold State.fordDone
  simp
@[simp] theorem State.fordDone_only_iff (s a1) (h : [.cqf, .mem] ⊆ ps) : OnlyChanges ps s0 (State.fordDone s a1) ↔ OnlyChanges ps s0 s :=
  onlyChanges_iff (State.fordDone_only s a1) h
theorem State.fordAdvance_only (s a1) : OnlyChanges [.stats, .cqf, .mem, .hif] s (State.fordAdvance s a1) := by
  unfold State.fordAdvance
  extract_lets t f
  have ht : OnlyChanges [.stats, .cqf, .mem, .hif] s t := by simp only [t]; simp
  clear_value t
  split
  · exact ht
  · split
    · simpa using ht
    · split
      · rename_i h
        exact (onlyChanges_iff (State.fordMove_only _ _ _ _ h) (by simp)).2 ht
      · simpa using ht
@[simp] theorem State.fordAdvance_only_iff (s a1) (h : [.stats, .cqf, .mem, .hif] ⊆ ps) : OnlyChanges ps s0 (State.fordAdvance s a1) ↔ OnlyChanges ps s0 s :=
  onlyChanges_iff (State.fordAdvance_only s a1) h
theorem State.fordStep_only (s a1) : OnlyChanges [.stats, .ctrs, .cqf, .mem, .hif, .err] s (State.fordStep s a1) := by
  unfold State.fordStep
  (repeat' (first | split | dsimp only)) <;> simp
@[simp] theorem State.fordStep_only_iff (s a1) (h : [.stats, .ctrs, .cqf, .mem, .hif, .err] ⊆ ps) : OnlyChanges ps s0 (State.fordStep s a1) ↔ OnlyChanges ps s0 s :=
  onlyChanges_iff (State.fordStep_only s a1) h
theorem State.fordEnd_only (s a1) : OnlyChanges [.cqf, .mem] s (State.fordEnd s a1) := by
  unfold State.fordEnd
  (repeat' (first | split | dsimp only)) <;> simp
@[simp] theorem State.fordEnd_only_iff (s a1) (h : [.cqf, .mem] ⊆ ps) : OnlyChanges ps s0 (State.fordEnd s a1) ↔ OnlyChanges ps s0 s :=
  onlyChanges_iff (State.fordEnd_only s a1) h
theorem State.moveEnd_only (s a1) : OnlyChanges [.stats, .cqf, .mem, .hif] s (State.moveEnd s a1) := by
  unfold State.moveEnd
  (repeat' split) <;> simp
@[simp] theorem State.moveEnd_only_iff (s a1) (h : [.stats, .cqf, .mem, .hif] ⊆ ps) : OnlyChanges ps s0 (State.moveEnd s a1) ↔ OnlyChanges ps s0 s :=
  onlyChanges_iff (State.moveEnd_only s a1) h
theorem State.moveSwitch_only (s a1) : OnlyChanges [.stats, .ctrs, .cqf, .mem, .hif, .err] s (State.moveSwitch s a1) := by
  unfold State.moveSwitch
  (repeat' split) <;> simp
@[simp] theorem State.moveSwitch_only_iff (s a1) (h : [.stats, .ctrs, .cqf, .mem, .hif, .err] ⊆ ps) : OnlyChanges ps s0 (State.moveSwitch s a1) ↔ OnlyChanges ps s0 s :=
  onlyChanges_iff (State.moveSwitch_only s a1) h
theorem State.packPage_only (s a1 a2 a3) : OnlyChanges [.stats, .ctrs, .mem, .hif, .err, .draws] s (State.packPage s a1 a2 a3) := by
  unfold State.packPage
  generalize List.replicate 2048 (0 : Byte) = z
  dsimp only
  split <;> simp [only_upd]
@[simp] theorem State.packPage_only_iff (s a1 a2 a3) (h : [.stats, .ctrs, .mem, .hif, .err, .draws] ⊆ ps) : OnlyChanges ps s0 (State.packPage s a1 a2 a3) ↔ OnlyChanges ps s0 s :=
  onlyChanges_iff (State.packPage_only s a1 a2 a3) h
theorem State.tirResidue_only (s a1) : OnlyChanges [.stats, .ctrs, .cqf, .hif, .err] s (State.tirResidue s a1) := by
  unfold State.tirResidue
  simp
@[simp] theorem State.tirResidue_only_iff (s a1) (h : [.stats, .ctrs, .cqf, .hif, .err] ⊆ ps) : OnlyChanges ps s0 (State.tirResidue s a1) ↔ OnlyChanges ps s0 s :=
  onlyChanges_iff (State.tirResidue_only s a1) h
theorem State.readBlocks_only (a0 a1 a2 a3 s) : OnlyChanges [.stats, .ctrs, .mem, .hif, .err, .draws] s (State.readBlocks a0 a1 a2 a3 s).2 := by
  induction a2 generalizing s a3 with
  | zero => simp [State.readBlocks]
  | succ n ih =>
    unfold State.readBlocks
    extract_lets r t
    have h1 : OnlyChanges [.stats, .ctrs, .mem, .hif, .err, .draws] s r.2 := by simp only [r]; simp
    have h2 : OnlyChanges [.stats, .ctrs, .mem, .hif, .err, .draws] s t.2 := by simp only [t]; exact (onlyChanges_iff (ih _ _) (List.Subset.refl _)).2 h1
    clear_value r
    split
    · split
      · exact h2
      · exact h2
    · exact h1
@[simp] theorem State.readBlocks_only_iff (a0 a1 a2 a3 s) (h : [.stats, .ctrs, .mem, .hif, .err, .draws] ⊆ ps) : OnlyChanges ps s0 (State.readBlocks a0 a1 a2 a3 s).2 ↔ OnlyChanges ps s0 s :=
  onlyChanges_iff (State.readBlocks_only a0 a1 a2 a3 s) h
theorem State.packRead_only (q) (r) (x) (p) (flt) (g : (Got × Nat) × State) : OnlyChanges [.stats, .ctrs, .cqf, .mem, .hif, .err, .draws] g.2 (State.packRead q r x p flt g).2 := by
  unfold State.packRead
  repeat' split
  all_goals simp
@[simp] theorem State.packRead_only_iff (q) (r) (x) (p) (flt) (g : (Got × Nat) × State) (h : [.stats, .ctrs, .cqf, .mem, .hif, .err, .draws] ⊆ ps) : OnlyChanges ps s0 (State.packRead q r x p flt g).2 ↔ OnlyChanges ps s0 g.2 :=
  onlyChanges_iff (State.packRead_only q r x p flt g) h
theorem State.packOne_only (a0 a1 a2 a3 a4 s) : OnlyChanges [.stats, .ctrs, .cqf, .mem, .hif, .err, .draws] s (State.packOne a0 a1 a2 a3 a4 s).2 := by
  unfold State.packOne
  extract_lets p x
  split
  · dsimp only; split <;> simp
  · split
    · simp
    · generalize State.writeWaits _ _ _ = w
      cases w
      · simp only [Bool.false_eq_true, if_false]
        rw [State.packRead_only_iff _ _ _ _ _ _ (by simp)]
        exact (State.readBlocks_only_iff _ _ _ _ _ (by simp)).2 (onlyChanges_refl _ _)
      · simp
@[simp] theorem State.packOne_only_iff (a0 a1 a2 a3 a4 s) (h : [.stats, .ctrs, .cqf, .mem, .hif, .err, .draws] ⊆ ps) : OnlyChanges ps s0 (State.packOne a0 a1 a2 a3 a4 s).2 ↔ OnlyChanges ps s0 s :=
  onlyChanges_iff (State.packOne_only a0 a1 a2 a3 a4 s) h
theorem State.compressPages_only_aux (a0 a1 a2 a3 a4 a5 s) : OnlyChanges [.stats, .ctrs, .cqf, .mem, .hif, .err, .draws] s0 (State.compressPages a0 a1 a2 a3 a4 a5 s) ↔ OnlyChanges [.stats, .ctrs, .cqf, .mem, .hif, .err, .draws] s0 s := by
  fun_induction State.compressPages <;> simp_all +zetaDelta
theorem State.compressPages_only (a0 a1 a2 a3 a4 a5 s) : OnlyChanges [.stats, .ctrs, .cqf, .mem, .hif, .err, .draws] s (State.compressPages a0 a1 a2 a3 a4 a5 s) := 
  (State.compressPages_only_aux a0 a1 a2 a3 a4 a5 s).2 (onlyChanges_refl _ _)
@[simp] theorem State.compressPages_only_iff (a0 a1 a2 a3 a4 a5 s) (h : [.stats, .ctrs, .cqf, .mem, .hif, .err, .draws] ⊆ ps) : OnlyChanges ps s0 (State.compressPages a0 a1 a2 a3 a4 a5 s) ↔ OnlyChanges ps s0 s :=
  onlyChanges_iff (State.compressPages_only a0 a1 a2 a3 a4 a5 s) h
theorem State.ttCompress_only (s a1 a2) : OnlyChanges [.stats, .ctrs, .cqf, .mem, .hif, .err, .draws] s (State.ttCompress s a1 a2) := by
  unfold State.ttCompress
  (repeat' (first | split | dsimp only)) <;> simp
@[simp] theorem State.ttCompress_only_iff (s a1 a2) (h : [.stats, .ctrs, .cqf, .mem, .hif, .err, .draws] ⊆ ps) : OnlyChanges ps s0 (State.ttCompress s a1 a2) ↔ OnlyChanges ps s0 s :=
  onlyChanges_iff (State.ttCompress_only s a1 a2) h
theorem State.ttRetire_only (s a1) : OnlyChanges [.stats, .ctrs, .cqf, .mem, .hif, .err] s (State.ttRetire s a1) := by
  unfold State.ttRetire
  (repeat' (first | split | dsimp only)) <;> simp
@[simp] theorem State.ttRetire_only_iff (s a1) (h : [.stats, .ctrs, .cqf, .mem, .hif, .err] ⊆ ps) : OnlyChanges ps s0 (State.ttRetire s a1) ↔ OnlyChanges ps s0 s :=
  onlyChanges_iff (State.ttRetire_only s a1) h
theorem State.tirStop_only (s a1) : OnlyChanges [.mem] s (State.tirStop s a1) := by
  unfold State.tirStop
  simp
@[simp] theorem State.tirStop_only_iff (s a1) (h : [.mem] ⊆ ps) : OnlyChanges ps s0 (State.tirStop s a1) ↔ OnlyChanges ps s0 s :=
  onlyChanges_iff (State.tirStop_only s a1) h
theorem State.writeSites_only_aux (a0 a1 a2 s) : OnlyChanges [.stats, .ctrs, .mem, .hif, .err, .draws] s0 (State.writeSites a0 a1 a2 s) ↔ OnlyChanges [.stats, .ctrs, .mem, .hif, .err, .draws] s0 s := by
  fun_induction State.writeSites <;> simp_all
theorem State.writeSites_only (a0 a1 a2 s) : OnlyChanges [.stats, .ctrs, .mem, .hif, .err, .draws] s (State.writeSites a0 a1 a2 s) := 
  (State.writeSites_only_aux a0 a1 a2 s).2 (onlyChanges_refl _ _)
@[simp] theorem State.writeSites_only_iff (a0 a1 a2 s) (h : [.stats, .ctrs, .mem, .hif, .err, .draws] ⊆ ps) : OnlyChanges ps s0 (State.writeSites a0 a1 a2 s) ↔ OnlyChanges ps s0 s :=
  onlyChanges_iff (State.writeSites_only a0 a1 a2 s) h
theorem State.tideUpdate_only (a0 a1 a2 s) : OnlyChanges [.stats, .ctrs, .mem, .hif, .err, .draws] s (State.tideUpdate a0 a1 a2 s) := by
  unfold State.tideUpdate
  simp
@[simp] theorem State.tideUpdate_only_iff (a0 a1 a2 s) (h : [.stats, .ctrs, .mem, .hif, .err, .draws] ⊆ ps) : OnlyChanges ps s0 (State.tideUpdate a0 a1 a2 s) ↔ OnlyChanges ps s0 s :=
  onlyChanges_iff (State.tideUpdate_only a0 a1 a2 s) h
theorem State.tideEntries_only_aux (a0 a1 a2 a3 a4 a5 s) : OnlyChanges [.stats, .ctrs, .cqf, .mem, .hif, .err, .draws] s0 (State.tideEntries a0 a1 a2 a3 a4 a5 s) ↔ OnlyChanges [.stats, .ctrs, .cqf, .mem, .hif, .err, .draws] s0 s := by
  fun_induction State.tideEntries <;> simp_all +zetaDelta
theorem State.tideEntries_only (a0 a1 a2 a3 a4 a5 s) : OnlyChanges [.stats, .ctrs, .cqf, .mem, .hif, .err, .draws] s (State.tideEntries a0 a1 a2 a3 a4 a5 s) := 
  (State.tideEntries_only_aux a0 a1 a2 a3 a4 a5 s).2 (onlyChanges_refl _ _)
@[simp] theorem State.tideEntries_only_iff (a0 a1 a2 a3 a4 a5 s) (h : [.stats, .ctrs, .cqf, .mem, .hif, .err, .draws] ⊆ ps) : OnlyChanges ps s0 (State.tideEntries a0 a1 a2 a3 a4 a5 s) ↔ OnlyChanges ps s0 s :=
  onlyChanges_iff (State.tideEntries_only a0 a1 a2 a3 a4 a5 s) h
theorem State.ttTide_only (s a1 a2) : OnlyChanges [.stats, .ctrs, .cqf, .mem, .hif, .err, .draws] s (State.ttTide s a1 a2) := by
  unfold State.ttTide
  (repeat' (first | split | dsimp only)) <;> simp
@[simp] theorem State.ttTide_only_iff (s a1 a2) (h : [.stats, .ctrs, .cqf, .mem, .hif, .err, .draws] ⊆ ps) : OnlyChanges ps s0 (State.ttTide s a1 a2) ↔ OnlyChanges ps s0 s :=
  onlyChanges_iff (State.ttTide_only s a1 a2) h
theorem State.nbSet_only (s a1 a2 a3 a4) : OnlyChanges [.stats, .ctrs, .hif, .err, .nbu] s (State.nbSet s a1 a2 a3 a4) := by
  unfold State.nbSet
  simp
@[simp] theorem State.nbSet_only_iff (s a1 a2 a3 a4) (h : [.stats, .ctrs, .hif, .err, .nbu] ⊆ ps) : OnlyChanges ps s0 (State.nbSet s a1 a2 a3 a4) ↔ OnlyChanges ps s0 s :=
  onlyChanges_iff (State.nbSet_only s a1 a2 a3 a4) h
theorem State.nbResidue_only (s a1 a2) : OnlyChanges [.stats, .ctrs, .hif, .err, .nbu] s (State.nbResidue s a1 a2) := by
  unfold State.nbResidue
  simp
@[simp] theorem State.nbResidue_only_iff (s a1 a2) (h : [.stats, .ctrs, .hif, .err, .nbu] ⊆ ps) : OnlyChanges ps s0 (State.nbResidue s a1 a2) ↔ OnlyChanges ps s0 s :=
  onlyChanges_iff (State.nbResidue_only s a1 a2) h
theorem State.nbNf_only (s a1 a2) : OnlyChanges [.stats, .ctrs, .hif] s (State.nbNf s a1 a2) := by
  unfold State.nbNf
  simp
@[simp] theorem State.nbNf_only_iff (s a1 a2) (h : [.stats, .ctrs, .hif] ⊆ ps) : OnlyChanges ps s0 (State.nbNf s a1 a2) ↔ OnlyChanges ps s0 s :=
  onlyChanges_iff (State.nbNf_only s a1 a2) h
theorem State.nbPoisoned_only (s a1) : OnlyChanges [.stats, .ctrs, .hif] s (State.nbPoisoned s a1) := by
  unfold State.nbPoisoned
  simp
@[simp] theorem State.nbPoisoned_only_iff (s a1) (h : [.stats, .ctrs, .hif] ⊆ ps) : OnlyChanges ps s0 (State.nbPoisoned s a1) ↔ OnlyChanges ps s0 s :=
  onlyChanges_iff (State.nbPoisoned_only s a1) h
theorem State.setNRun_only (s a1) : OnlyChanges [.nbu] s (State.setNRun s a1) := by
  unfold State.setNRun
  simp
@[simp] theorem State.setNRun_only_iff (s a1) (h : [.nbu] ⊆ ps) : OnlyChanges ps s0 (State.setNRun s a1) ↔ OnlyChanges ps s0 s :=
  onlyChanges_iff (State.setNRun_only s a1) h
theorem State.dropNRun_only (s a1) : OnlyChanges [.nbu] s (State.dropNRun s a1) := by
  unfold State.dropNRun
  simp
@[simp] theorem State.dropNRun_only_iff (s a1) (h : [.nbu] ⊆ ps) : OnlyChanges ps s0 (State.dropNRun s a1) ↔ OnlyChanges ps s0 s :=
  onlyChanges_iff (State.dropNRun_only s a1) h
theorem State.setHold_only (s a1 a2 a3) : OnlyChanges [.nbu] s (State.setHold s a1 a2 a3) := by
  unfold State.setHold
  simp
@[simp] theorem State.setHold_only_iff (s a1 a2 a3) (h : [.nbu] ⊆ ps) : OnlyChanges ps s0 (State.setHold s a1 a2 a3) ↔ OnlyChanges ps s0 s :=
  onlyChanges_iff (State.setHold_only s a1 a2 a3) h
theorem State.nbFail_only (s a1 a2) : OnlyChanges [.stats, .cqf, .hif] s (State.nbFail s a1 a2) := by
  unfold State.nbFail
  simp
@[simp] theorem State.nbFail_only_iff (s a1 a2) (h : [.stats, .cqf, .hif] ⊆ ps) : OnlyChanges ps s0 (State.nbFail s a1 a2) ↔ OnlyChanges ps s0 s :=
  onlyChanges_iff (State.nbFail_only s a1 a2) h
theorem State.setProgRow_only (s a1 a2) : OnlyChanges [.nbu] s (State.setProgRow s a1 a2) := by
  unfold State.setProgRow
  simp
@[simp] theorem State.setProgRow_only_iff (s a1 a2) (h : [.nbu] ⊆ ps) : OnlyChanges ps s0 (State.setProgRow s a1 a2) ↔ OnlyChanges ps s0 s :=
  onlyChanges_iff (State.setProgRow_only s a1 a2) h
theorem State.setProgStep_only (s a1 a2) : OnlyChanges [.nbu] s (State.setProgStep s a1 a2) := by
  unfold State.setProgStep
  simp
@[simp] theorem State.setProgStep_only_iff (s a1 a2) (h : [.nbu] ⊆ ps) : OnlyChanges ps s0 (State.setProgStep s a1 a2) ↔ OnlyChanges ps s0 s :=
  onlyChanges_iff (State.setProgStep_only s a1 a2) h
theorem State.startProg_only (s a1 a2 a3) : OnlyChanges [.nbu] s (State.startProg s a1 a2 a3) := by
  unfold State.startProg
  simp
@[simp] theorem State.startProg_only_iff (s a1 a2 a3) (h : [.nbu] ⊆ ps) : OnlyChanges ps s0 (State.startProg s a1 a2 a3) ↔ OnlyChanges ps s0 s :=
  onlyChanges_iff (State.startProg_only s a1 a2 a3) h
theorem State.nbWord_only (s a1 a2 a3) : OnlyChanges [.stats, .ctrs, .mem, .hif, .err] s (State.nbWord s a1 a2 a3).2 := by
  unfold State.nbWord
  (repeat' (first | split | dsimp only)) <;> simp
@[simp] theorem State.nbWord_only_iff (s a1 a2 a3) (h : [.stats, .ctrs, .mem, .hif, .err] ⊆ ps) : OnlyChanges ps s0 (State.nbWord s a1 a2 a3).2 ↔ OnlyChanges ps s0 s :=
  onlyChanges_iff (State.nbWord_only s a1 a2 a3) h
theorem State.nbWords_only (s a1 a2 a3 a4) : OnlyChanges [.stats, .ctrs, .mem, .hif, .err] s (State.nbWords s a1 a2 a3 a4).2 := by
  induction a3 generalizing s a4 with
  | zero => simp [State.nbWords]
  | succ n ih =>
    unfold State.nbWords
    exact (onlyChanges_iff (ih _ _) (List.Subset.refl _)).2 (State.nbWord_only _ _ _ _)
@[simp] theorem State.nbWords_only_iff (s a1 a2 a3 a4) (h : [.stats, .ctrs, .mem, .hif, .err] ⊆ ps) : OnlyChanges ps s0 (State.nbWords s a1 a2 a3 a4).2 ↔ OnlyChanges ps s0 s :=
  onlyChanges_iff (State.nbWords_only s a1 a2 a3 a4) h
theorem State.nbProgram_only (s a1 a2 a3 a4 a5 a6 a7) : OnlyChanges [.stats, .ctrs, .mem, .hif, .err] s (State.nbProgram s a1 a2 a3 a4 a5 a6 a7).2 := by
  induction a6 generalizing s a7 with
  | nil => simp [State.nbProgram]
  | cons w ws ih =>
    have hl : ∀ (a : Nat) (k : Option (List Byte)) (f : List Byte → RowRun) (g : Byte → RowRun × RowEnd),
        OnlyChanges [.stats, .ctrs, .mem, .hif, .err] s (match k with
          | some v => s.nbProgram a1 a2 a3 a4 a5 ws (f v)
          | none => match (s.nbWord a1 a2 a).1 with
            | .bytes bs => (s.nbWord a1 a2 a).2.nbProgram a1 a2 a3 a4 a5 ws (f bs)
            | .fault e => (g e, (s.nbWord a1 a2 a).2)).2 := by
      intro a k f g
      split
      · exact ih _ _
      · split
        · exact (onlyChanges_iff (ih _ _) (List.Subset.refl _)).2 (State.nbWord_only _ _ _ _)
        · exact State.nbWord_only _ _ _ _
    unfold State.nbProgram
    dsimp only
    split
    · exact ih _ _
    · exact hl _ _ _ _
    · exact hl _ _ _ _
    · exact ih _ _
    · exact ih _ _
    · exact ih _ _
@[simp] theorem State.nbProgram_only_iff (s a1 a2 a3 a4 a5 a6 a7) (h : [.stats, .ctrs, .mem, .hif, .err] ⊆ ps) : OnlyChanges ps s0 (State.nbProgram s a1 a2 a3 a4 a5 a6 a7).2 ↔ OnlyChanges ps s0 s :=
  onlyChanges_iff (State.nbProgram_only s a1 a2 a3 a4 a5 a6 a7) h
theorem State.poisonRow_only (s a1 a2) : OnlyChanges [.stats, .ctrs, .mem, .hif] s (State.poisonRow s a1 a2) := by
  unfold State.poisonRow
  simp
@[simp] theorem State.poisonRow_only_iff (s a1 a2) (h : [.stats, .ctrs, .mem, .hif] ⊆ ps) : OnlyChanges ps s0 (State.poisonRow s a1 a2) ↔ OnlyChanges ps s0 s :=
  onlyChanges_iff (State.poisonRow_only s a1 a2) h
theorem State.ferryRow_only (s a1 a2 a3 a4 a5) : OnlyChanges [.stats, .ctrs, .mem, .hif, .err, .nbu, .draws] s (State.ferryRow s a1 a2 a3 a4 a5).2.2 := by
  unfold State.ferryRow
  dsimp only
  (repeat' split) <;> simp
@[simp] theorem State.ferryRow_only_iff (s a1 a2 a3 a4 a5) (h : [.stats, .ctrs, .mem, .hif, .err, .nbu, .draws] ⊆ ps) : OnlyChanges ps s0 (State.ferryRow s a1 a2 a3 a4 a5).2.2 ↔ OnlyChanges ps s0 s :=
  onlyChanges_iff (State.ferryRow_only s a1 a2 a3 a4 a5) h
theorem State.optApply_only (s a1 a2 a3 a4 a5 a6) : OnlyChanges [.stats, .ctrs, .mem, .hif, .err, .nbu, .draws] s (State.optApply s a1 a2 a3 a4 a5 a6).2.2 := by
  unfold State.optApply
  (repeat' (first | split | dsimp only)) <;> simp
@[simp] theorem State.optApply_only_iff (s a1 a2 a3 a4 a5 a6) (h : [.stats, .ctrs, .mem, .hif, .err, .nbu, .draws] ⊆ ps) : OnlyChanges ps s0 (State.optApply s a1 a2 a3 a4 a5 a6).2.2 ↔ OnlyChanges ps s0 s :=
  onlyChanges_iff (State.optApply_only s a1 a2 a3 a4 a5 a6) h
theorem State.optUpdate_only (s a1 a2 a3 a4 a5 a6) : OnlyChanges [.stats, .ctrs, .mem, .hif, .err, .nbu, .draws] s (State.optUpdate s a1 a2 a3 a4 a5 a6).2.2 := by
  unfold State.optUpdate
  (repeat' (first | split | dsimp only)) <;> simp
@[simp] theorem State.optUpdate_only_iff (s a1 a2 a3 a4 a5 a6) (h : [.stats, .ctrs, .mem, .hif, .err, .nbu, .draws] ⊆ ps) : OnlyChanges ps s0 (State.optUpdate s a1 a2 a3 a4 a5 a6).2.2 ↔ OnlyChanges ps s0 s :=
  onlyChanges_iff (State.optUpdate_only s a1 a2 a3 a4 a5 a6) h
theorem State.optimizeRow_only (s a1 a2 a3 a4 a5) : OnlyChanges [.stats, .ctrs, .mem, .hif, .err, .nbu, .draws] s (State.optimizeRow s a1 a2 a3 a4 a5).2.2 := by
  unfold State.optimizeRow
  dsimp only
  (repeat' split) <;> simp
@[simp] theorem State.optimizeRow_only_iff (s a1 a2 a3 a4 a5) (h : [.stats, .ctrs, .mem, .hif, .err, .nbu, .draws] ⊆ ps) : OnlyChanges ps s0 (State.optimizeRow s a1 a2 a3 a4 a5).2.2 ↔ OnlyChanges ps s0 s :=
  onlyChanges_iff (State.optimizeRow_only s a1 a2 a3 a4 a5) h
theorem State.attendRow_only (s a1 a2 a3 a4 a5) : OnlyChanges [.stats, .ctrs, .mem, .hif, .err, .nbu] s (State.attendRow s a1 a2 a3 a4 a5).2.2 := by
  unfold State.attendRow
  dsimp only
  (repeat' split) <;> simp
@[simp] theorem State.attendRow_only_iff (s a1 a2 a3 a4 a5) (h : [.stats, .ctrs, .mem, .hif, .err, .nbu] ⊆ ps) : OnlyChanges ps s0 (State.attendRow s a1 a2 a3 a4 a5).2.2 ↔ OnlyChanges ps s0 s :=
  onlyChanges_iff (State.attendRow_only s a1 a2 a3 a4 a5) h
theorem State.ferryStart_only (s a1 a2) : OnlyChanges [.stats, .ctrs, .cqf, .mem, .hif, .err, .nbu, .fab, .draws] s (State.ferryStart s a1 a2) := by
  unfold State.ferryStart
  (repeat' (first | split | dsimp only)) <;> simp
@[simp] theorem State.ferryStart_only_iff (s a1 a2) (h : [.stats, .ctrs, .cqf, .mem, .hif, .err, .nbu, .fab, .draws] ⊆ ps) : OnlyChanges ps s0 (State.ferryStart s a1 a2) ↔ OnlyChanges ps s0 s :=
  onlyChanges_iff (State.ferryStart_only s a1 a2) h
theorem State.optStart_only (s a1 a2) : OnlyChanges [.stats, .ctrs, .cqf, .mem, .hif, .err, .nbu, .fab, .draws] s (State.optStart s a1 a2) := by
  unfold State.optStart
  (repeat' (first | split | dsimp only)) <;> simp
@[simp] theorem State.optStart_only_iff (s a1 a2) (h : [.stats, .ctrs, .cqf, .mem, .hif, .err, .nbu, .fab, .draws] ⊆ ps) : OnlyChanges ps s0 (State.optStart s a1 a2) ↔ OnlyChanges ps s0 s :=
  onlyChanges_iff (State.optStart_only s a1 a2) h
theorem State.attLoad_only (s a1 a2 a3) : OnlyChanges [.stats, .ctrs, .cqf, .mem, .hif, .err, .nbu, .fab, .draws] s (State.attLoad s a1 a2 a3) := by
  unfold State.attLoad
  (repeat' (first | split | dsimp only)) <;> simp
@[simp] theorem State.attLoad_only_iff (s a1 a2 a3) (h : [.stats, .ctrs, .cqf, .mem, .hif, .err, .nbu, .fab, .draws] ⊆ ps) : OnlyChanges ps s0 (State.attLoad s a1 a2 a3) ↔ OnlyChanges ps s0 s :=
  onlyChanges_iff (State.attLoad_only s a1 a2 a3) h
theorem State.nbLeave_only (s) : OnlyChanges [.stats, .ctrs, .hif, .err, .nbu] s (State.nbLeave s) := by
  unfold State.nbLeave
  simp
@[simp] theorem State.nbLeave_only_iff (s) (h : [.stats, .ctrs, .hif, .err, .nbu] ⊆ ps) : OnlyChanges ps s0 (State.nbLeave s) ↔ OnlyChanges ps s0 s :=
  onlyChanges_iff (State.nbLeave_only s) h
theorem State.nbEnd_only (s a1 a2 a3) : OnlyChanges [.stats, .ctrs, .cqf, .hif, .err, .nbu] s (State.nbEnd s a1 a2 a3) := by
  unfold State.nbEnd
  simp
@[simp] theorem State.nbEnd_only_iff (s a1 a2 a3) (h : [.stats, .ctrs, .cqf, .hif, .err, .nbu] ⊆ ps) : OnlyChanges ps s0 (State.nbEnd s a1 a2 a3) ↔ OnlyChanges ps s0 s :=
  onlyChanges_iff (State.nbEnd_only s a1 a2 a3) h
theorem State.nbEndFail_only (s a1 a2 a3) : OnlyChanges [.stats, .ctrs, .cqf, .hif, .err, .nbu] s (State.nbEndFail s a1 a2 a3) := by
  unfold State.nbEndFail
  (repeat' split) <;> simp
@[simp] theorem State.nbEndFail_only_iff (s a1 a2 a3) (h : [.stats, .ctrs, .cqf, .hif, .err, .nbu] ⊆ ps) : OnlyChanges ps s0 (State.nbEndFail s a1 a2 a3) ↔ OnlyChanges ps s0 s :=
  onlyChanges_iff (State.nbEndFail_only s a1 a2 a3) h
theorem State.ferryOut_only (s a1 a2 a3) : OnlyChanges [.stats, .ctrs, .cqf, .mem, .hif, .err, .fab, .draws] s (State.ferryOut s a1 a2 a3) := by
  unfold State.ferryOut
  simp
@[simp] theorem State.ferryOut_only_iff (s a1 a2 a3) (h : [.stats, .ctrs, .cqf, .mem, .hif, .err, .fab, .draws] ⊆ ps) : OnlyChanges ps s0 (State.ferryOut s a1 a2 a3) ↔ OnlyChanges ps s0 s :=
  onlyChanges_iff (State.ferryOut_only s a1 a2 a3) h
theorem State.attNext_only (s a1 a2 a3) : OnlyChanges [.stats, .ctrs, .cqf, .mem, .hif, .err, .nbu, .fab, .draws] s (State.attNext s a1 a2 a3) := by
  unfold State.attNext
  simp
@[simp] theorem State.attNext_only_iff (s a1 a2 a3) (h : [.stats, .ctrs, .cqf, .mem, .hif, .err, .nbu, .fab, .draws] ⊆ ps) : OnlyChanges ps s0 (State.attNext s a1 a2 a3) ↔ OnlyChanges ps s0 s :=
  onlyChanges_iff (State.attNext_only s a1 a2 a3) h
theorem State.nbAdvance_only (s a1) : OnlyChanges [.stats, .ctrs, .cqf, .mem, .hif, .err, .nbu, .fab, .draws] s (State.nbAdvance s a1) := by
  unfold State.nbAdvance
  (repeat' split) <;> simp
@[simp] theorem State.nbAdvance_only_iff (s a1) (h : [.stats, .ctrs, .cqf, .mem, .hif, .err, .nbu, .fab, .draws] ⊆ ps) : OnlyChanges ps s0 (State.nbAdvance s a1) ↔ OnlyChanges ps s0 s :=
  onlyChanges_iff (State.nbAdvance_only s a1) h
theorem State.nbFerry_only (s a1) : OnlyChanges [.stats, .ctrs, .cqf, .mem, .hif, .err, .nbu, .fab, .draws] s (State.nbFerry s a1) := by
  unfold State.nbFerry
  (repeat' split) <;> simp
@[simp] theorem State.nbFerry_only_iff (s a1) (h : [.stats, .ctrs, .cqf, .mem, .hif, .err, .nbu, .fab, .draws] ⊆ ps) : OnlyChanges ps s0 (State.nbFerry s a1) ↔ OnlyChanges ps s0 s :=
  onlyChanges_iff (State.nbFerry_only s a1) h
theorem State.nbOptimize_only (s a1) : OnlyChanges [.stats, .ctrs, .cqf, .mem, .hif, .err, .nbu, .fab, .draws] s (State.nbOptimize s a1) := by
  unfold State.nbOptimize
  (repeat' split) <;> simp
@[simp] theorem State.nbOptimize_only_iff (s a1) (h : [.stats, .ctrs, .cqf, .mem, .hif, .err, .nbu, .fab, .draws] ⊆ ps) : OnlyChanges ps s0 (State.nbOptimize s a1) ↔ OnlyChanges ps s0 s :=
  onlyChanges_iff (State.nbOptimize_only s a1) h
theorem State.nbAttend_only (s a1) : OnlyChanges [.stats, .ctrs, .cqf, .mem, .hif, .err, .nbu, .fab, .draws] s (State.nbAttend s a1) := by
  unfold State.nbAttend
  (repeat' split) <;> simp
@[simp] theorem State.nbAttend_only_iff (s a1) (h : [.stats, .ctrs, .cqf, .mem, .hif, .err, .nbu, .fab, .draws] ⊆ ps) : OnlyChanges ps s0 (State.nbAttend s a1) ↔ OnlyChanges ps s0 s :=
  onlyChanges_iff (State.nbAttend_only s a1) h
theorem State.rowDone_only (s a1 a2) : OnlyChanges [.nbu] s (State.rowDone s a1 a2) := by
  unfold State.rowDone
  simp
@[simp] theorem State.rowDone_only_iff (s a1 a2) (h : [.nbu] ⊆ ps) : OnlyChanges ps s0 (State.rowDone s a1 a2) ↔ OnlyChanges ps s0 s :=
  onlyChanges_iff (State.rowDone_only s a1 a2) h
theorem State.setCapHeld_only (s a1 a2) : OnlyChanges [.nbu] s (State.setCapHeld s a1 a2) := by
  unfold State.setCapHeld
  simp
@[simp] theorem State.setCapHeld_only_iff (s a1 a2) (h : [.nbu] ⊆ ps) : OnlyChanges ps s0 (State.setCapHeld s a1 a2) ↔ OnlyChanges ps s0 s :=
  onlyChanges_iff (State.setCapHeld_only s a1 a2) h
theorem State.addCols_only (s a1 a2) : OnlyChanges [.ctrs, .nbu] s (State.addCols s a1 a2) := by
  unfold State.addCols
  simp
@[simp] theorem State.addCols_only_iff (s a1 a2) (h : [.ctrs, .nbu] ⊆ ps) : OnlyChanges ps s0 (State.addCols s a1 a2) ↔ OnlyChanges ps s0 s :=
  onlyChanges_iff (State.addCols_only s a1 a2) h
theorem State.rowStart_only (s a1 a2 a3 a4) : OnlyChanges [.stats, .ctrs, .cqf, .mem, .hif, .err, .nbu, .fab, .draws] s (State.rowStart s a1 a2 a3 a4) := by
  unfold State.rowStart
  (repeat' split) <;> simp
@[simp] theorem State.rowStart_only_iff (s a1 a2 a3 a4) (h : [.stats, .ctrs, .cqf, .mem, .hif, .err, .nbu, .fab, .draws] ⊆ ps) : OnlyChanges ps s0 (State.rowStart s a1 a2 a3 a4) ↔ OnlyChanges ps s0 s :=
  onlyChanges_iff (State.rowStart_only s a1 a2 a3 a4) h
theorem State.rowIssue_only (s a1) : OnlyChanges [.stats, .ctrs, .cqf, .mem, .hif, .err, .nbu, .fab, .draws] s (State.rowIssue s a1) := by
  unfold State.rowIssue
  (repeat' split) <;> simp
@[simp] theorem State.rowIssue_only_iff (s a1) (h : [.stats, .ctrs, .cqf, .mem, .hif, .err, .nbu, .fab, .draws] ⊆ ps) : OnlyChanges ps s0 (State.rowIssue s a1) ↔ OnlyChanges ps s0 s :=
  onlyChanges_iff (State.rowIssue_only s a1) h
theorem State.rowEnd_only (s a1 a2) : OnlyChanges [.stats, .ctrs, .cqf, .mem, .hif, .err, .nbu, .fab, .draws] s (State.rowEnd s a1 a2) := by
  unfold State.rowEnd
  split
  · simp
  · split
    · extract_lets e fail y run run2 t moved u v
      have he : OnlyChanges [.stats, .ctrs, .cqf, .mem, .hif, .err, .nbu, .fab, .draws] s e.2.2 := by simp only [e]; split <;> simp
      clear_value e
      have hu : OnlyChanges [.stats, .ctrs, .cqf, .mem, .hif, .err, .nbu, .fab, .draws] s u := by
        simp only [u, t]
        simpa using he
      clear_value u
      have hv : OnlyChanges [.stats, .ctrs, .cqf, .mem, .hif, .err, .nbu, .fab, .draws] s v := by
        simp only [v]
        split
        · simpa using hu
        · exact hu
      clear_value v
      simpa using hv
    · simp
@[simp] theorem State.rowEnd_only_iff (s a1 a2) (h : [.stats, .ctrs, .cqf, .mem, .hif, .err, .nbu, .fab, .draws] ⊆ ps) : OnlyChanges ps s0 (State.rowEnd s a1 a2) ↔ OnlyChanges ps s0 s :=
  onlyChanges_iff (State.rowEnd_only s a1 a2) h
theorem State.repairWord_only (q) (pg) (x : Nat × State) (w) : OnlyChanges [.stats, .ctrs, .mem, .hif, .err] x.2 (State.repairWord q pg x w).2 := by
  unfold State.repairWord
  dsimp only
  split <;> simp
@[simp] theorem State.repairWord_only_iff (q) (pg) (x : Nat × State) (w) (h : [.stats, .ctrs, .mem, .hif, .err] ⊆ ps) : OnlyChanges ps s0 (State.repairWord q pg x w).2 ↔ OnlyChanges ps s0 x.2 :=
  onlyChanges_iff (State.repairWord_only q pg x w) h
theorem State.repairBank_only (s a1 a2 a3) : OnlyChanges [.stats, .ctrs, .mem, .hif, .err, .nbu] s (State.repairBank s a1 a2 a3).2 := by
  unfold State.repairBank
  dsimp only
  simp only [State.setHold_only_iff, State.nbPoisoned_only_iff, List.cons_subset, List.mem_cons, List.nil_subset, true_or, or_true, and_self]
  refine (foldl_only_snd (fun a b => ?_) _ _).2 (onlyChanges_refl _ _)
  exact (State.repairWord_only_iff _ _ _ _ (by simp)).2 (onlyChanges_refl _ _)
@[simp] theorem State.repairBank_only_iff (s a1 a2 a3) (h : [.stats, .ctrs, .mem, .hif, .err, .nbu] ⊆ ps) : OnlyChanges ps s0 (State.repairBank s a1 a2 a3).2 ↔ OnlyChanges ps s0 s :=
  onlyChanges_iff (State.repairBank_only s a1 a2 a3) h
theorem State.repairNext_only (s a1 a2) : OnlyChanges [.stats, .ctrs, .mem, .hif, .err, .nbu] s (State.repairNext s a1 a2) := by
  unfold State.repairNext
  simp
@[simp] theorem State.repairNext_only_iff (s a1 a2) (h : [.stats, .ctrs, .mem, .hif, .err, .nbu] ⊆ ps) : OnlyChanges ps s0 (State.repairNext s a1 a2) ↔ OnlyChanges ps s0 s :=
  onlyChanges_iff (State.repairNext_only s a1 a2) h
theorem State.nbRepair_only (s a1) : OnlyChanges [.stats, .ctrs, .cqf, .mem, .hif, .err, .nbu] s (State.nbRepair s a1) := by
  unfold State.nbRepair
  (repeat' split) <;> simp
@[simp] theorem State.nbRepair_only_iff (s a1) (h : [.stats, .ctrs, .cqf, .mem, .hif, .err, .nbu] ⊆ ps) : OnlyChanges ps s0 (State.nbRepair s a1) ↔ OnlyChanges ps s0 s :=
  onlyChanges_iff (State.nbRepair_only s a1) h
theorem State.arriveWord_only (s a1) : OnlyChanges [.mem] s (State.arriveWord s a1) := by
  unfold State.arriveWord
  (repeat' (first | split | dsimp only)) <;> simp
@[simp] theorem State.arriveWord_only_iff (s a1) (h : [.mem] ⊆ ps) : OnlyChanges ps s0 (State.arriveWord s a1) ↔ OnlyChanges ps s0 s :=
  onlyChanges_iff (State.arriveWord_only s a1) h
theorem State.repairSwitch_only (s a1) : OnlyChanges [.stats, .ctrs, .cqf, .mem, .hif, .err, .nbu] s (State.repairSwitch s a1) := by
  unfold State.repairSwitch
  (repeat' split) <;> simp
@[simp] theorem State.repairSwitch_only_iff (s a1) (h : [.stats, .ctrs, .cqf, .mem, .hif, .err, .nbu] ⊆ ps) : OnlyChanges ps s0 (State.repairSwitch s a1) ↔ OnlyChanges ps s0 s :=
  onlyChanges_iff (State.repairSwitch_only s a1) h
theorem State.repairLet_only (s a1) : OnlyChanges [.nbu] s (State.repairLet s a1) := by
  unfold State.repairLet
  (repeat' split) <;> simp
@[simp] theorem State.repairLet_only_iff (s a1) (h : [.nbu] ⊆ ps) : OnlyChanges ps s0 (State.repairLet s a1) ↔ OnlyChanges ps s0 s :=
  onlyChanges_iff (State.repairLet_only s a1) h
theorem State.nbStop_only (s a1) : OnlyChanges [.nbu] s (State.nbStop s a1) := by
  unfold State.nbStop
  (repeat' split) <;> simp
@[simp] theorem State.nbStop_only_iff (s a1) (h : [.nbu] ⊆ ps) : OnlyChanges ps s0 (State.nbStop s a1) ↔ OnlyChanges ps s0 s :=
  onlyChanges_iff (State.nbStop_only s a1) h
theorem State.nbuNfClr_only (s) : OnlyChanges [.ctrs] s (State.nbuNfClr s) := by
  unfold State.nbuNfClr
  simp
@[simp] theorem State.nbuNfClr_only_iff (s) (h : [.ctrs] ⊆ ps) : OnlyChanges ps s0 (State.nbuNfClr s) ↔ OnlyChanges ps s0 s :=
  onlyChanges_iff (State.nbuNfClr_only s) h
end Sys2Proof.Machine
end

