-- ==== Sys2Proof/Laws/FrameExchange.lean ====
section
/-!
SUPPORT. Frames of the operations of the exchange and intake engines: which blocks of the state each of them may change.
-/
set_option maxRecDepth 4000
namespace Sys2Proof.Machine
variable {ps : List Piece} {s0 : State}
theorem State.setGroup_only (s a1 a2) : OnlyChanges [.xch] s (State.setGroup s a1 a2) := by
  unfold State.setGroup
  simp
@[simp] theorem State.setGroup_only_iff (s a1 a2) (h : [.xch] ⊆ ps) : OnlyChanges ps s0 (State.setGroup s a1 a2) ↔ OnlyChanges ps s0 s :=
  onlyChanges_iff (State.setGroup_only s a1 a2) h
theorem State.setXRun_only (s a1) : OnlyChanges [.xch] s (State.setXRun s a1) := by
  unfold State.setXRun
  simp
@[simp] theorem State.setXRun_only_iff (s a1) (h : [.xch] ⊆ ps) : OnlyChanges ps s0 (State.setXRun s a1) ↔ OnlyChanges ps s0 s :=
  onlyChanges_iff (State.setXRun_only s a1) h
theorem State.dropXRun_only (s a1) : OnlyChanges [.xch] s (State.dropXRun s a1) := by
  unfold State.dropXRun
  simp
@[simp] theorem State.dropXRun_only_iff (s a1) (h : [.xch] ⊆ ps) : OnlyChanges ps s0 (State.dropXRun s a1) ↔ OnlyChanges ps s0 s :=
  onlyChanges_iff (State.dropXRun_only s a1) h
theorem State.xNf_only (s a1) : OnlyChanges [.stats, .ctrs, .hif] s (State.xNf s a1) := by
  unfold State.xNf
  simp
@[simp] theorem State.xNf_only_iff (s a1) (h : [.stats, .ctrs, .hif] ⊆ ps) : OnlyChanges ps s0 (State.xNf s a1) ↔ OnlyChanges ps s0 s :=
  onlyChanges_iff (State.xNf_only s a1) h
theorem State.xSend_only (s a1 a2 a3 a4 a5 a6) : OnlyChanges [.ctrs, .xch] s (State.xSend s a1 a2 a3 a4 a5 a6) := by
  unfold State.xSend
  simp
@[simp] theorem State.xSend_only_iff (s a1 a2 a3 a4 a5 a6) (h : [.ctrs, .xch] ⊆ ps) : OnlyChanges ps s0 (State.xSend s a1 a2 a3 a4 a5 a6) ↔ OnlyChanges ps s0 s :=
  onlyChanges_iff (State.xSend_only s a1 a2 a3 a4 a5 a6) h
theorem State.xSendAll_only (s a1 a2 a3 a4 a5) : OnlyChanges [.ctrs, .xch] s (State.xSendAll s a1 a2 a3 a4 a5) := by
  unfold State.xSendAll
  simp
@[simp] theorem State.xSendAll_only_iff (s a1 a2 a3 a4 a5) (h : [.ctrs, .xch] ⊆ ps) : OnlyChanges ps s0 (State.xSendAll s a1 a2 a3 a4 a5) ↔ OnlyChanges ps s0 s :=
  onlyChanges_iff (State.xSendAll_only s a1 a2 a3 a4 a5) h
theorem State.xBreak_only (s a1 a2 a3) : OnlyChanges [.stats, .hif, .xch] s (State.xBreak s a1 a2 a3) := by
  unfold State.xBreak
  simp
@[simp] theorem State.xBreak_only_iff (s a1 a2 a3) (h : [.stats, .hif, .xch] ⊆ ps) : OnlyChanges ps s0 (State.xBreak s a1 a2 a3) ↔ OnlyChanges ps s0 s :=
  onlyChanges_iff (State.xBreak_only s a1 a2 a3) h
theorem State.xAbort_only (s a1 a2 a3) : OnlyChanges [.ctrs, .xch] s (State.xAbort s a1 a2 a3) := by
  unfold State.xAbort
  simp
@[simp] theorem State.xAbort_only_iff (s a1 a2 a3) (h : [.ctrs, .xch] ⊆ ps) : OnlyChanges ps s0 (State.xAbort s a1 a2 a3) ↔ OnlyChanges ps s0 s :=
  onlyChanges_iff (State.xAbort_only s a1 a2 a3) h
theorem State.xFail_only (s a1 a2 a3 a4) : OnlyChanges [.stats, .ctrs, .cqf, .hif, .xch] s (State.xFail s a1 a2 a3 a4) := by
  unfold State.xFail
  simp
@[simp] theorem State.xFail_only_iff (s a1 a2 a3 a4) (h : [.stats, .ctrs, .cqf, .hif, .xch] ⊆ ps) : OnlyChanges ps s0 (State.xFail s a1 a2 a3 a4) ↔ OnlyChanges ps s0 s :=
  onlyChanges_iff (State.xFail_only s a1 a2 a3 a4) h
theorem State.xAborted_only (s a1 a2 a3) : OnlyChanges [.stats, .cqf, .hif, .xch] s (State.xAborted s a1 a2 a3) := by
  unfold State.xAborted
  simp
@[simp] theorem State.xAborted_only_iff (s a1 a2 a3) (h : [.stats, .cqf, .hif, .xch] ⊆ ps) : OnlyChanges ps s0 (State.xAborted s a1 a2 a3) ↔ OnlyChanges ps s0 s :=
  onlyChanges_iff (State.xAborted_only s a1 a2 a3) h
theorem State.xResidue_only (s a1 a2) : OnlyChanges [.stats, .ctrs, .cqf, .hif, .err, .xch] s (State.xResidue s a1 a2) := by
  unfold State.xResidue
  simp
@[simp] theorem State.xResidue_only_iff (s a1 a2) (h : [.stats, .ctrs, .cqf, .hif, .err, .xch] ⊆ ps) : OnlyChanges ps s0 (State.xResidue s a1 a2) ↔ OnlyChanges ps s0 s :=
  onlyChanges_iff (State.xResidue_only s a1 a2) h
theorem State.xStop_only (s a1) : OnlyChanges [.stats, .ctrs, .cqf, .hif, .xch] s (State.xStop s a1) := by
  unfold State.xStop
  (repeat' split) <;> simp
@[simp] theorem State.xStop_only_iff (s a1) (h : [.stats, .ctrs, .cqf, .hif, .xch] ⊆ ps) : OnlyChanges ps s0 (State.xStop s a1) ↔ OnlyChanges ps s0 s :=
  onlyChanges_iff (State.xStop_only s a1) h
theorem State.xRead_only (s a1 a2 a3 a4 a5) : OnlyChanges [.stats, .ctrs, .cqf, .mem, .hif, .err, .fab, .draws] s (State.xRead s a1 a2 a3 a4 a5).2 := by
  unfold State.xRead
  (repeat' (first | split | dsimp only)) <;> simp
@[simp] theorem State.xRead_only_iff (s a1 a2 a3 a4 a5) (h : [.stats, .ctrs, .cqf, .mem, .hif, .err, .fab, .draws] ⊆ ps) : OnlyChanges ps s0 (State.xRead s a1 a2 a3 a4 a5).2 ↔ OnlyChanges ps s0 s :=
  onlyChanges_iff (State.xRead_only s a1 a2 a3 a4 a5) h
theorem State.xWrite_only (s a1 a2 a3 a4 a5 a6) : OnlyChanges [.stats, .ctrs, .cqf, .mem, .hif, .err, .fab, .draws] s (State.xWrite s a1 a2 a3 a4 a5 a6).2 := by
  unfold State.xWrite
  (repeat' split) <;> simp
@[simp] theorem State.xWrite_only_iff (s a1 a2 a3 a4 a5 a6) (h : [.stats, .ctrs, .cqf, .mem, .hif, .err, .fab, .draws] ⊆ ps) : OnlyChanges ps s0 (State.xWrite s a1 a2 a3 a4 a5 a6).2 ↔ OnlyChanges ps s0 s :=
  onlyChanges_iff (State.xWrite_only s a1 a2 a3 a4 a5 a6) h
theorem State.xPut_only (s a1 a2 a3 a4 a5) : OnlyChanges [.stats, .ctrs, .cqf, .mem, .hif, .err, .fab, .draws] s (State.xPut s a1 a2 a3 a4 a5).2 := by
  unfold State.xPut
  simp
@[simp] theorem State.xPut_only_iff (s a1 a2 a3 a4 a5) (h : [.stats, .ctrs, .cqf, .mem, .hif, .err, .fab, .draws] ⊆ ps) : OnlyChanges ps s0 (State.xPut s a1 a2 a3 a4 a5).2 ↔ OnlyChanges ps s0 s :=
  onlyChanges_iff (State.xPut_only s a1 a2 a3 a4 a5) h
theorem State.xContrib_only (s a1 a2 a3) : OnlyChanges [.stats, .ctrs, .cqf, .mem, .hif, .err, .fab, .draws] s (State.xContrib s a1 a2 a3).2 := by
  unfold State.xContrib
  (repeat' (first | split | dsimp only)) <;> simp
@[simp] theorem State.xContrib_only_iff (s a1 a2 a3) (h : [.stats, .ctrs, .cqf, .mem, .hif, .err, .fab, .draws] ⊆ ps) : OnlyChanges ps s0 (State.xContrib s a1 a2 a3).2 ↔ OnlyChanges ps s0 s :=
  onlyChanges_iff (State.xContrib_only s a1 a2 a3) h
theorem State.xStore_only (s a1 a2 a3 a4) : OnlyChanges [.stats, .ctrs, .cqf, .mem, .hif, .err, .fab, .draws] s (State.xStore s a1 a2 a3 a4).2 := by
  unfold State.xStore
  (repeat' split) <;> simp
@[simp] theorem State.xStore_only_iff (s a1 a2 a3 a4) (h : [.stats, .ctrs, .cqf, .mem, .hif, .err, .fab, .draws] ⊆ ps) : OnlyChanges ps s0 (State.xStore s a1 a2 a3 a4).2 ↔ OnlyChanges ps s0 s :=
  onlyChanges_iff (State.xStore_only s a1 a2 a3 a4) h
theorem State.xSource_only (s a1 a2) : OnlyChanges [.stats, .ctrs, .cqf, .mem, .hif, .err, .fab, .draws] s (State.xSource s a1 a2).2 := by
  unfold State.xSource
  (repeat' (first | split | dsimp only)) <;> simp
@[simp] theorem State.xSource_only_iff (s a1 a2) (h : [.stats, .ctrs, .cqf, .mem, .hif, .err, .fab, .draws] ⊆ ps) : OnlyChanges ps s0 (State.xSource s a1 a2).2 ↔ OnlyChanges ps s0 s :=
  onlyChanges_iff (State.xSource_only s a1 a2) h
theorem State.xEntry_only (s a1) : OnlyChanges [.stats, .ctrs, .mem, .hif, .err, .draws] s (State.xEntry s a1) := by
  unfold State.xEntry
  simp
@[simp] theorem State.xEntry_only_iff (s a1) (h : [.stats, .ctrs, .mem, .hif, .err, .draws] ⊆ ps) : OnlyChanges ps s0 (State.xEntry s a1) ↔ OnlyChanges ps s0 s :=
  onlyChanges_iff (State.xEntry_only s a1) h
theorem State.xAdd_only (s a1 a2 a3) : OnlyChanges [.stats, .ctrs, .cqf, .hif, .xch] s (State.xAdd s a1 a2 a3) := by
  unfold State.xAdd
  (repeat' split) <;> simp
@[simp] theorem State.xAdd_only_iff (s a1 a2 a3) (h : [.stats, .ctrs, .cqf, .hif, .xch] ⊆ ps) : OnlyChanges ps s0 (State.xAdd s a1 a2 a3) ↔ OnlyChanges ps s0 s :=
  onlyChanges_iff (State.xAdd_only s a1 a2 a3) h
theorem State.xOwner_only (s a1 a2 a3) : OnlyChanges [.stats, .ctrs, .cqf, .mem, .hif, .err, .xch, .fab, .draws] s (State.xOwner s a1 a2 a3) := by
  unfold State.xOwner
  (repeat' (first | split | dsimp only)) <;> simp
@[simp] theorem State.xOwner_only_iff (s a1 a2 a3) (h : [.stats, .ctrs, .cqf, .mem, .hif, .err, .xch, .fab, .draws] ⊆ ps) : OnlyChanges ps s0 (State.xOwner s a1 a2 a3) ↔ OnlyChanges ps s0 s :=
  onlyChanges_iff (State.xOwner_only s a1 a2 a3) h
theorem State.xGive_only (s a1 a2 a3) : OnlyChanges [.stats, .ctrs, .cqf, .mem, .hif, .err, .xch, .fab, .draws] s (State.xGive s a1 a2 a3) := by
  unfold State.xGive
  (repeat' (first | split | dsimp only)) <;> simp
@[simp] theorem State.xGive_only_iff (s a1 a2 a3) (h : [.stats, .ctrs, .cqf, .mem, .hif, .err, .xch, .fab, .draws] ⊆ ps) : OnlyChanges ps s0 (State.xGive s a1 a2 a3) ↔ OnlyChanges ps s0 s :=
  onlyChanges_iff (State.xGive_only s a1 a2 a3) h
theorem State.xSpread_only (s a1 a2) : OnlyChanges [.stats, .ctrs, .cqf, .mem, .hif, .err, .xch, .fab, .draws] s (State.xSpread s a1 a2) := by
  unfold State.xSpread
  (repeat' (first | split | dsimp only)) <;> simp
@[simp] theorem State.xSpread_only_iff (s a1 a2) (h : [.stats, .ctrs, .cqf, .mem, .hif, .err, .xch, .fab, .draws] ⊆ ps) : OnlyChanges ps s0 (State.xSpread s a1 a2) ↔ OnlyChanges ps s0 s :=
  onlyChanges_iff (State.xSpread_only s a1 a2) h
theorem State.xStats_only (s a1 a2) : OnlyChanges [.ctrs, .xch] s (State.xStats s a1 a2) := by
  unfold State.xStats
  simp
@[simp] theorem State.xStats_only_iff (s a1 a2) (h : [.ctrs, .xch] ⊆ ps) : OnlyChanges ps s0 (State.xStats s a1 a2) ↔ OnlyChanges ps s0 s :=
  onlyChanges_iff (State.xStats_only s a1 a2) h
theorem State.xFinish_only (s a1) : OnlyChanges [.stats, .ctrs, .cqf, .mem, .hif, .err, .xch, .draws] s (State.xFinish s a1) := by
  unfold State.xFinish
  simp
@[simp] theorem State.xFinish_only_iff (s a1) (h : [.stats, .ctrs, .cqf, .mem, .hif, .err, .xch, .draws] ⊆ ps) : OnlyChanges ps s0 (State.xFinish s a1) ↔ OnlyChanges ps s0 s :=
  onlyChanges_iff (State.xFinish_only s a1) h
theorem State.xMore_only (s a1 a2 a3) : OnlyChanges [.stats, .ctrs, .cqf, .mem, .hif, .err, .xch, .fab, .draws] s (State.xMore s a1 a2 a3) := by
  unfold State.xMore
  (repeat' split) <;> simp
@[simp] theorem State.xMore_only_iff (s a1 a2 a3) (h : [.stats, .ctrs, .cqf, .mem, .hif, .err, .xch, .fab, .draws] ⊆ ps) : OnlyChanges ps s0 (State.xMore s a1 a2 a3) ↔ OnlyChanges ps s0 s :=
  onlyChanges_iff (State.xMore_only s a1 a2 a3) h
theorem State.xStep_only (s a1 a2) : OnlyChanges [.stats, .ctrs, .cqf, .mem, .hif, .err, .xch, .fab, .draws] s (State.xStep s a1 a2) := by
  unfold State.xStep
  (repeat' split) <;> simp
@[simp] theorem State.xStep_only_iff (s a1 a2) (h : [.stats, .ctrs, .cqf, .mem, .hif, .err, .xch, .fab, .draws] ⊆ ps) : OnlyChanges ps s0 (State.xStep s a1 a2) ↔ OnlyChanges ps s0 s :=
  onlyChanges_iff (State.xStep_only s a1 a2) h
theorem State.xTake_only (s a1 a2) : OnlyChanges [.stats, .ctrs, .cqf, .hif, .xch] s (State.xTake s a1 a2) := by
  unfold State.xTake
  simp
@[simp] theorem State.xTake_only_iff (s a1 a2) (h : [.stats, .ctrs, .cqf, .hif, .xch] ⊆ ps) : OnlyChanges ps s0 (State.xTake s a1 a2) ↔ OnlyChanges ps s0 s :=
  onlyChanges_iff (State.xTake_only s a1 a2) h
theorem State.dropHeld_only (s a1) : OnlyChanges [.cqf, .xch] s (State.dropHeld s a1) := by
  unfold State.dropHeld
  simp
@[simp] theorem State.dropHeld_only_iff (s a1) (h : [.cqf, .xch] ⊆ ps) : OnlyChanges ps s0 (State.dropHeld s a1) ↔ OnlyChanges ps s0 s :=
  onlyChanges_iff (State.dropHeld_only s a1) h
theorem State.takeHeld_only (s a1) : OnlyChanges [.stats, .ctrs, .cqf, .hif, .xch] s (State.takeHeld s a1) := by
  unfold State.takeHeld
  dsimp only
  split
  · simp
  · refine (foldl_only (fun t o => ?_) _ _).2 (by simp)
    split <;> simp
@[simp] theorem State.takeHeld_only_iff (s a1) (h : [.stats, .ctrs, .cqf, .hif, .xch] ⊆ ps) : OnlyChanges ps s0 (State.takeHeld s a1) ↔ OnlyChanges ps s0 s :=
  onlyChanges_iff (State.takeHeld_only s a1) h
theorem State.xDispatch_only (s a1 a2) : OnlyChanges [.xch] s (State.xDispatch s a1 a2) := by
  unfold State.xDispatch
  simp
@[simp] theorem State.xDispatch_only_iff (s a1 a2) (h : [.xch] ⊆ ps) : OnlyChanges ps s0 (State.xDispatch s a1 a2) ↔ OnlyChanges ps s0 s :=
  onlyChanges_iff (State.xDispatch_only s a1 a2) h
theorem State.xStart_only (s a1 a2 a3) : OnlyChanges [.stats, .ctrs, .cqf, .hif, .xch] s (State.xStart s a1 a2 a3) := by
  unfold State.xStart
  (repeat' (first | split | dsimp only)) <;> simp
@[simp] theorem State.xStart_only_iff (s a1 a2 a3) (h : [.stats, .ctrs, .cqf, .hif, .xch] ⊆ ps) : OnlyChanges ps s0 (State.xStart s a1 a2 a3) ↔ OnlyChanges ps s0 s :=
  onlyChanges_iff (State.xStart_only s a1 a2 a3) h
theorem State.collective_only (s a1 a2 a3) : OnlyChanges [.stats, .ctrs, .cqf, .mem, .hif, .err, .xch, .fab, .draws] s (State.collective s a1 a2 a3) := by
  unfold State.collective
  (repeat' split) <;> simp
@[simp] theorem State.collective_only_iff (s a1 a2 a3) (h : [.stats, .ctrs, .cqf, .mem, .hif, .err, .xch, .fab, .draws] ⊆ ps) : OnlyChanges ps s0 (State.collective s a1 a2 a3) ↔ OnlyChanges ps s0 s :=
  onlyChanges_iff (State.collective_only s a1 a2 a3) h
theorem State.rankSet_only (s a1) : OnlyChanges [.stats, .ctrs, .cqf, .mem, .hif, .err, .xch, .fab, .draws] s (State.rankSet s a1) := by
  unfold State.rankSet
  (repeat' (first | split | dsimp only)) <;> simp
@[simp] theorem State.rankSet_only_iff (s a1) (h : [.stats, .ctrs, .cqf, .mem, .hif, .err, .xch, .fab, .draws] ⊆ ps) : OnlyChanges ps s0 (State.rankSet s a1) ↔ OnlyChanges ps s0 s :=
  onlyChanges_iff (State.rankSet_only s a1) h
theorem State.peerTimeout_only (s a1) : OnlyChanges [.stats, .ctrs, .cqf, .hif, .xch] s (State.peerTimeout s a1) := by
  unfold State.peerTimeout
  (repeat' split) <;> simp
@[simp] theorem State.peerTimeout_only_iff (s a1) (h : [.stats, .ctrs, .cqf, .hif, .xch] ⊆ ps) : OnlyChanges ps s0 (State.peerTimeout s a1) ↔ OnlyChanges ps s0 s :=
  onlyChanges_iff (State.peerTimeout_only s a1) h
theorem State.xchNfClr_only (s) : OnlyChanges [.ctrs] s (State.xchNfClr s) := by
  unfold State.xchNfClr
  simp
@[simp] theorem State.xchNfClr_only_iff (s) (h : [.ctrs] ⊆ ps) : OnlyChanges ps s0 (State.xchNfClr s) ↔ OnlyChanges ps s0 s :=
  onlyChanges_iff (State.xchNfClr_only s) h
theorem State.blockWrite_only (s a1 a2 a3) : OnlyChanges [.stats, .ctrs, .mem, .hif, .err, .draws] s (State.blockWrite s a1 a2 a3) := by
  unfold State.blockWrite
  simp
@[simp] theorem State.blockWrite_only_iff (s a1 a2 a3) (h : [.stats, .ctrs, .mem, .hif, .err, .draws] ⊆ ps) : OnlyChanges ps s0 (State.blockWrite s a1 a2 a3) ↔ OnlyChanges ps s0 s :=
  onlyChanges_iff (State.blockWrite_only s a1 a2 a3) h
theorem State.blockHold_only (s a1 a2 a3) : OnlyChanges [.ctrs, .mem] s (State.blockHold s a1 a2 a3) := by
  unfold State.blockHold
  simp
@[simp] theorem State.blockHold_only_iff (s a1 a2 a3) (h : [.ctrs, .mem] ⊆ ps) : OnlyChanges ps s0 (State.blockHold s a1 a2 a3) ↔ OnlyChanges ps s0 s :=
  onlyChanges_iff (State.blockHold_only s a1 a2 a3) h
theorem State.blockRead_only_aux (a0 a1 a2 a3 s) : OnlyChanges [.stats, .ctrs, .mem, .hif, .err, .draws] s0 (State.blockRead a0 a1 a2 a3 s).2 ↔ OnlyChanges [.stats, .ctrs, .mem, .hif, .err, .draws] s0 s := by
  fun_induction State.blockRead <;> simp_all +zetaDelta
theorem State.blockRead_only (a0 a1 a2 a3 s) : OnlyChanges [.stats, .ctrs, .mem, .hif, .err, .draws] s (State.blockRead a0 a1 a2 a3 s).2 := 
  (State.blockRead_only_aux a0 a1 a2 a3 s).2 (onlyChanges_refl _ _)
@[simp] theorem State.blockRead_only_iff (a0 a1 a2 a3 s) (h : [.stats, .ctrs, .mem, .hif, .err, .draws] ⊆ ps) : OnlyChanges ps s0 (State.blockRead a0 a1 a2 a3 s).2 ↔ OnlyChanges ps s0 s :=
  onlyChanges_iff (State.blockRead_only a0 a1 a2 a3 s) h
theorem State.setBatch_only (s a1) : OnlyChanges [.itk] s (State.setBatch s a1) := by
  unfold State.setBatch
  simp
@[simp] theorem State.setBatch_only_iff (s a1) (h : [.itk] ⊆ ps) : OnlyChanges ps s0 (State.setBatch s a1) ↔ OnlyChanges ps s0 s :=
  onlyChanges_iff (State.setBatch_only s a1) h
theorem State.setSample_only (s a1 a2) : OnlyChanges [.itk] s (State.setSample s a1 a2) := by
  unfold State.setSample
  simp
@[simp] theorem State.setSample_only_iff (s a1 a2) (h : [.itk] ⊆ ps) : OnlyChanges ps s0 (State.setSample s a1 a2) ↔ OnlyChanges ps s0 s :=
  onlyChanges_iff (State.setSample_only s a1 a2) h
theorem State.dropBatch_only (s a1) : OnlyChanges [.ctrs, .itk] s (State.dropBatch s a1) := by
  unfold State.dropBatch
  (repeat' (first | split | dsimp only)) <;> simp
@[simp] theorem State.dropBatch_only_iff (s a1) (h : [.ctrs, .itk] ⊆ ps) : OnlyChanges ps s0 (State.dropBatch s a1) ↔ OnlyChanges ps s0 s :=
  onlyChanges_iff (State.dropBatch_only s a1) h
theorem State.itkFail_only (s a1 a2) : OnlyChanges [.stats, .ctrs, .cqf, .hif, .itk] s (State.itkFail s a1 a2) := by
  unfold State.itkFail
  simp
@[simp] theorem State.itkFail_only_iff (s a1 a2) (h : [.stats, .ctrs, .cqf, .hif, .itk] ⊆ ps) : OnlyChanges ps s0 (State.itkFail s a1 a2) ↔ OnlyChanges ps s0 s :=
  onlyChanges_iff (State.itkFail_only s a1 a2) h
theorem State.itkStop_only (s a1) : OnlyChanges [.ctrs, .cqf, .itk] s (State.itkStop s a1) := by
  unfold State.itkStop
  (repeat' (first | split | dsimp only)) <;> simp
@[simp] theorem State.itkStop_only_iff (s a1) (h : [.ctrs, .cqf, .itk] ⊆ ps) : OnlyChanges ps s0 (State.itkStop s a1) ↔ OnlyChanges ps s0 s :=
  onlyChanges_iff (State.itkStop_only s a1) h
theorem State.itkWake_only (s) : OnlyChanges [.itk] s (State.itkWake s) := by
  unfold State.itkWake
  simp
@[simp] theorem State.itkWake_only_iff (s) (h : [.itk] ⊆ ps) : OnlyChanges ps s0 (State.itkWake s) ↔ OnlyChanges ps s0 s :=
  onlyChanges_iff (State.itkWake_only s) h
theorem State.ikRecs_only_aux (a0 a1 a2 a3 s) : OnlyChanges [.stats, .ctrs, .cqf, .mem, .hif, .err, .fab, .draws] s0 (State.ikRecs a0 a1 a2 a3 s).2 ↔ OnlyChanges [.stats, .ctrs, .cqf, .mem, .hif, .err, .fab, .draws] s0 s := by
  fun_induction State.ikRecs <;> simp_all +zetaDelta
theorem State.ikRecs_only (a0 a1 a2 a3 s) : OnlyChanges [.stats, .ctrs, .cqf, .mem, .hif, .err, .fab, .draws] s (State.ikRecs a0 a1 a2 a3 s).2 := 
  (State.ikRecs_only_aux a0 a1 a2 a3 s).2 (onlyChanges_refl _ _)
@[simp] theorem State.ikRecs_only_iff (a0 a1 a2 a3 s) (h : [.stats, .ctrs, .cqf, .mem, .hif, .err, .fab, .draws] ⊆ ps) : OnlyChanges ps s0 (State.ikRecs a0 a1 a2 a3 s).2 ↔ OnlyChanges ps s0 s :=
  onlyChanges_iff (State.ikRecs_only a0 a1 a2 a3 s) h
theorem State.ikSchema_only (s a1 a2 a3) : OnlyChanges [.stats, .ctrs, .cqf, .mem, .hif, .err, .fab, .draws] s (State.ikSchema s a1 a2 a3).2 := by
  unfold State.ikSchema
  (repeat' (first | split | dsimp only)) <;> simp
@[simp] theorem State.ikSchema_only_iff (s a1 a2 a3) (h : [.stats, .ctrs, .cqf, .mem, .hif, .err, .fab, .draws] ⊆ ps) : OnlyChanges ps s0 (State.ikSchema s a1 a2 a3).2 ↔ OnlyChanges ps s0 s :=
  onlyChanges_iff (State.ikSchema_only s a1 a2 a3) h
theorem State.ikEnter_only (s a1 a2 a3 a4 a5) : OnlyChanges [.itk] s (State.ikEnter s a1 a2 a3 a4 a5) := by
  unfold State.ikEnter
  simp
@[simp] theorem State.ikEnter_only_iff (s a1 a2 a3 a4 a5) (h : [.itk] ⊆ ps) : OnlyChanges ps s0 (State.ikEnter s a1 a2 a3 a4 a5) ↔ OnlyChanges ps s0 s :=
  onlyChanges_iff (State.ikEnter_only s a1 a2 a3 a4 a5) h
theorem State.ikStart_only (s a1 a2) : OnlyChanges [.stats, .ctrs, .cqf, .mem, .hif, .err, .fab, .itk, .draws] s (State.ikStart s a1 a2) := by
  unfold State.ikStart
  (repeat' (first | split | dsimp only)) <;> simp
@[simp] theorem State.ikStart_only_iff (s a1 a2) (h : [.stats, .ctrs, .cqf, .mem, .hif, .err, .fab, .itk, .draws] ⊆ ps) : OnlyChanges ps s0 (State.ikStart s a1 a2) ↔ OnlyChanges ps s0 s :=
  onlyChanges_iff (State.ikStart_only s a1 a2) h
theorem State.itkNf_only (s a1) : OnlyChanges [.stats, .ctrs, .hif] s (State.itkNf s a1) := by
  unfold State.itkNf
  simp
@[simp] theorem State.itkNf_only_iff (s a1) (h : [.stats, .ctrs, .hif] ⊆ ps) : OnlyChanges ps s0 (State.itkNf s a1) ↔ OnlyChanges ps s0 s :=
  onlyChanges_iff (State.itkNf_only s a1) h
theorem State.slotHold_only (s a1 a2) : OnlyChanges [.ctrs, .mem] s (State.slotHold s a1 a2) := by
  unfold State.slotHold
  (repeat' split) <;> simp
@[simp] theorem State.slotHold_only_iff (s a1 a2) (h : [.ctrs, .mem] ⊆ ps) : OnlyChanges ps s0 (State.slotHold s a1 a2) ↔ OnlyChanges ps s0 s :=
  onlyChanges_iff (State.slotHold_only s a1 a2) h
theorem State.slotRows_only (s a1 a2 a3) : OnlyChanges [.stats, .ctrs, .cqf, .mem, .hif, .err, .fab, .draws] s (State.slotRows s a1 a2 a3) := by
  unfold State.slotRows
  simp
@[simp] theorem State.slotRows_only_iff (s a1 a2 a3) (h : [.stats, .ctrs, .cqf, .mem, .hif, .err, .fab, .draws] ⊆ ps) : OnlyChanges ps s0 (State.slotRows s a1 a2 a3) ↔ OnlyChanges ps s0 s :=
  onlyChanges_iff (State.slotRows_only s a1 a2 a3) h
theorem State.slotPad_only (s a1 a2) : OnlyChanges [.stats, .ctrs, .cqf, .mem, .hif, .err, .fab, .draws] s (State.slotPad s a1 a2) := by
  unfold State.slotPad
  (repeat' split) <;> simp
@[simp] theorem State.slotPad_only_iff (s a1 a2) (h : [.stats, .ctrs, .cqf, .mem, .hif, .err, .fab, .draws] ⊆ ps) : OnlyChanges ps s0 (State.slotPad s a1 a2) ↔ OnlyChanges ps s0 s :=
  onlyChanges_iff (State.slotPad_only s a1 a2) h
theorem State.slotCount_only (s a1) : OnlyChanges [.stats, .ctrs, .hif] s (State.slotCount s a1) := by
  unfold State.slotCount
  (repeat' split) <;> simp
@[simp] theorem State.slotCount_only_iff (s a1) (h : [.stats, .ctrs, .hif] ⊆ ps) : OnlyChanges ps s0 (State.slotCount s a1) ↔ OnlyChanges ps s0 s :=
  onlyChanges_iff (State.slotCount_only s a1) h
theorem State.slotDone_only (s a1 a2 a3 a4 a5 a6) : OnlyChanges [.stats, .ctrs, .hif, .itk] s (State.slotDone s a1 a2 a3 a4 a5 a6) := by
  unfold State.slotDone
  simp
@[simp] theorem State.slotDone_only_iff (s a1 a2 a3 a4 a5 a6) (h : [.stats, .ctrs, .hif, .itk] ⊆ ps) : OnlyChanges ps s0 (State.slotDone s a1 a2 a3 a4 a5 a6) ↔ OnlyChanges ps s0 s :=
  onlyChanges_iff (State.slotDone_only s a1 a2 a3 a4 a5 a6) h
theorem State.padHead_only (s a1 a2 a3 a4 a5) : OnlyChanges [.stats, .ctrs, .cqf, .mem, .hif, .err, .fab, .itk, .draws] s (State.padHead s a1 a2 a3 a4 a5) := by
  unfold State.padHead
  simp
@[simp] theorem State.padHead_only_iff (s a1 a2 a3 a4 a5) (h : [.stats, .ctrs, .cqf, .mem, .hif, .err, .fab, .itk, .draws] ⊆ ps) : OnlyChanges ps s0 (State.padHead s a1 a2 a3 a4 a5) ↔ OnlyChanges ps s0 s :=
  onlyChanges_iff (State.padHead_only s a1 a2 a3 a4 a5) h
theorem State.ikManifest_only (s a1 a2) : OnlyChanges [.stats, .ctrs, .cqf, .mem, .hif, .err, .fab, .itk, .draws] s (State.ikManifest s a1 a2) := by
  unfold State.ikManifest
  simp
@[simp] theorem State.ikManifest_only_iff (s a1 a2) (h : [.stats, .ctrs, .cqf, .mem, .hif, .err, .fab, .itk, .draws] ⊆ ps) : OnlyChanges ps s0 (State.ikManifest s a1 a2) ↔ OnlyChanges ps s0 s :=
  onlyChanges_iff (State.ikManifest_only s a1 a2) h
theorem State.ikFinish_only (s a1 a2) : OnlyChanges [.stats, .ctrs, .cqf, .mem, .hif, .err, .fab, .itk, .draws] s (State.ikFinish s a1 a2) := by
  unfold State.ikFinish
  simp
@[simp] theorem State.ikFinish_only_iff (s a1 a2) (h : [.stats, .ctrs, .cqf, .mem, .hif, .err, .fab, .itk, .draws] ⊆ ps) : OnlyChanges ps s0 (State.ikFinish s a1 a2) ↔ OnlyChanges ps s0 s :=
  onlyChanges_iff (State.ikFinish_only s a1 a2) h
theorem State.ikBatch_only (s a1) : OnlyChanges [.stats, .ctrs, .cqf, .mem, .hif, .err, .fab, .itk, .draws] s (State.ikBatch s a1) := by
  unfold State.ikBatch
  (repeat' split) <;> simp
@[simp] theorem State.ikBatch_only_iff (s a1) (h : [.stats, .ctrs, .cqf, .mem, .hif, .err, .fab, .itk, .draws] ⊆ ps) : OnlyChanges ps s0 (State.ikBatch s a1) ↔ OnlyChanges ps s0 s :=
  onlyChanges_iff (State.ikBatch_only s a1) h
theorem State.vocabFail_only (s a1 a2) : OnlyChanges [.stats, .cqf, .hif] s (State.vocabFail s a1 a2) := by
  unfold State.vocabFail
  simp
@[simp] theorem State.vocabFail_only_iff (s a1 a2) (h : [.stats, .cqf, .hif] ⊆ ps) : OnlyChanges ps s0 (State.vocabFail s a1 a2) ↔ OnlyChanges ps s0 s :=
  onlyChanges_iff (State.vocabFail_only s a1 a2) h
theorem State.vocabLoad_only (s a1) : OnlyChanges [.stats, .ctrs, .cqf, .mem, .hif, .err, .fab, .itk, .draws] s (State.vocabLoad s a1) := by
  unfold State.vocabLoad
  dsimp only
  (repeat' split) <;> simp [only_upd]
@[simp] theorem State.vocabLoad_only_iff (s a1) (h : [.stats, .ctrs, .cqf, .mem, .hif, .err, .fab, .itk, .draws] ⊆ ps) : OnlyChanges ps s0 (State.vocabLoad s a1) ↔ OnlyChanges ps s0 s :=
  onlyChanges_iff (State.vocabLoad_only s a1) h
theorem State.cacheEmpty_only (s) : OnlyChanges [.itk] s (State.cacheEmpty s) := by
  unfold State.cacheEmpty
  simp
@[simp] theorem State.cacheEmpty_only_iff (s) (h : [.itk] ⊆ ps) : OnlyChanges ps s0 (State.cacheEmpty s) ↔ OnlyChanges ps s0 s :=
  onlyChanges_iff (State.cacheEmpty_only s) h
theorem State.cacheFlush_only (s a1) : OnlyChanges [.cqf, .itk] s (State.cacheFlush s a1) := by
  unfold State.cacheFlush
  (repeat' split) <;> simp
@[simp] theorem State.cacheFlush_only_iff (s a1) (h : [.cqf, .itk] ⊆ ps) : OnlyChanges ps s0 (State.cacheFlush s a1) ↔ OnlyChanges ps s0 s :=
  onlyChanges_iff (State.cacheFlush_only s a1) h
theorem State.cacheSync_only (s a1) : OnlyChanges [.itk] s (State.cacheSync s a1) := by
  unfold State.cacheSync
  simp
@[simp] theorem State.cacheSync_only_iff (s a1) (h : [.itk] ⊆ ps) : OnlyChanges ps s0 (State.cacheSync s a1) ↔ OnlyChanges ps s0 s :=
  onlyChanges_iff (State.cacheSync_only s a1) h
theorem State.cachePut_only (s a1 a2 a3 a4) : OnlyChanges [.stats, .ctrs, .mem, .hif, .err, .itk, .draws] s (State.cachePut s a1 a2 a3 a4) := by
  unfold State.cachePut
  (repeat' (first | split | dsimp only)) <;> simp
@[simp] theorem State.cachePut_only_iff (s a1 a2 a3 a4) (h : [.stats, .ctrs, .mem, .hif, .err, .itk, .draws] ⊆ ps) : OnlyChanges ps s0 (State.cachePut s a1 a2 a3 a4) ↔ OnlyChanges ps s0 s :=
  onlyChanges_iff (State.cachePut_only s a1 a2 a3 a4) h
theorem State.decodeStart_only (s a1) : OnlyChanges [.itk] s (State.decodeStart s a1) := by
  unfold State.decodeStart
  (repeat' split) <;> simp
@[simp] theorem State.decodeStart_only_iff (s a1) (h : [.itk] ⊆ ps) : OnlyChanges ps s0 (State.decodeStart s a1) ↔ OnlyChanges ps s0 s :=
  onlyChanges_iff (State.decodeStart_only s a1) h
theorem State.endDecode_only (s a1 a2 a3) : OnlyChanges [.itk] s (State.endDecode s a1 a2 a3) := by
  unfold State.endDecode
  simp
@[simp] theorem State.endDecode_only_iff (s a1 a2 a3) (h : [.itk] ⊆ ps) : OnlyChanges ps s0 (State.endDecode s a1 a2 a3) ↔ OnlyChanges ps s0 s :=
  onlyChanges_iff (State.endDecode_only s a1 a2 a3) h
theorem State.grant_only (s a1 a2 a3 a4 a5 a6 a7 a8) : OnlyChanges [.itk] s (State.grant s a1 a2 a3 a4 a5 a6 a7 a8) := by
  unfold State.grant
  (repeat' (first | split | dsimp only)) <;> simp
@[simp] theorem State.grant_only_iff (s a1 a2 a3 a4 a5 a6 a7 a8) (h : [.itk] ⊆ ps) : OnlyChanges ps s0 (State.grant s a1 a2 a3 a4 a5 a6 a7 a8) ↔ OnlyChanges ps s0 s :=
  onlyChanges_iff (State.grant_only s a1 a2 a3 a4 a5 a6 a7 a8) h
theorem State.reserveFresh_only (s a1 a2 a3) : OnlyChanges [.stats, .ctrs, .cqf, .mem, .hif, .err, .fab, .itk, .draws] s (State.reserveFresh s a1 a2 a3) := by
  unfold State.reserveFresh
  (repeat' (first | split | dsimp only)) <;> simp
@[simp] theorem State.reserveFresh_only_iff (s a1 a2 a3) (h : [.stats, .ctrs, .cqf, .mem, .hif, .err, .fab, .itk, .draws] ⊆ ps) : OnlyChanges ps s0 (State.reserveFresh s a1 a2 a3) ↔ OnlyChanges ps s0 s :=
  onlyChanges_iff (State.reserveFresh_only s a1 a2 a3) h
theorem State.reserveHit_only (s a1 a2 a3 a4 a5) : OnlyChanges [.stats, .ctrs, .mem, .hif, .err, .itk, .draws] s (State.reserveHit s a1 a2 a3 a4 a5) := by
  unfold State.reserveHit
  (repeat' (first | split | dsimp only)) <;> simp
@[simp] theorem State.reserveHit_only_iff (s a1 a2 a3 a4 a5) (h : [.stats, .ctrs, .mem, .hif, .err, .itk, .draws] ⊆ ps) : OnlyChanges ps s0 (State.reserveHit s a1 a2 a3 a4 a5) ↔ OnlyChanges ps s0 s :=
  onlyChanges_iff (State.reserveHit_only s a1 a2 a3 a4 a5) h
theorem State.stagingReserve_only (s a1) : OnlyChanges [.stats, .ctrs, .cqf, .mem, .hif, .err, .fab, .itk, .draws] s (State.stagingReserve s a1) := by
  unfold State.stagingReserve
  (repeat' (first | split | dsimp only)) <;> simp
@[simp] theorem State.stagingReserve_only_iff (s a1) (h : [.stats, .ctrs, .cqf, .mem, .hif, .err, .fab, .itk, .draws] ⊆ ps) : OnlyChanges ps s0 (State.stagingReserve s a1) ↔ OnlyChanges ps s0 s :=
  onlyChanges_iff (State.stagingReserve_only s a1) h
theorem State.decodeEnd_only (s a1) : OnlyChanges [.stats, .ctrs, .mem, .hif, .err, .itk, .draws] s (State.decodeEnd s a1) := by
  unfold State.decodeEnd
  (repeat' (first | split | dsimp only)) <;> simp
@[simp] theorem State.decodeEnd_only_iff (s a1) (h : [.stats, .ctrs, .mem, .hif, .err, .itk, .draws] ⊆ ps) : OnlyChanges ps s0 (State.decodeEnd s a1) ↔ OnlyChanges ps s0 s :=
  onlyChanges_iff (State.decodeEnd_only s a1) h
theorem State.roiTry_only (s a1 a2) : OnlyChanges [.stats, .ctrs, .cqf, .mem, .hif, .err, .fab, .itk, .draws] s (State.roiTry s a1 a2) := by
  unfold State.roiTry
  (repeat' (first | split | dsimp only)) <;> simp
@[simp] theorem State.roiTry_only_iff (s a1 a2) (h : [.stats, .ctrs, .cqf, .mem, .hif, .err, .fab, .itk, .draws] ⊆ ps) : OnlyChanges ps s0 (State.roiTry s a1 a2) ↔ OnlyChanges ps s0 s :=
  onlyChanges_iff (State.roiTry_only s a1 a2) h
theorem State.roiPoll_only (s) : OnlyChanges [.stats, .ctrs, .cqf, .mem, .hif, .err, .fab, .itk, .draws] s (State.roiPoll s) := by
  unfold State.roiPoll
  (repeat' split) <;> simp
@[simp] theorem State.roiPoll_only_iff (s) (h : [.stats, .ctrs, .cqf, .mem, .hif, .err, .fab, .itk, .draws] ⊆ ps) : OnlyChanges ps s0 (State.roiPoll s) ↔ OnlyChanges ps s0 s :=
  onlyChanges_iff (State.roiPoll_only s) h
theorem State.itkResidue_only (s a1) : OnlyChanges [.stats, .ctrs, .cqf, .hif, .err, .itk] s (State.itkResidue s a1) := by
  unfold State.itkResidue
  simp
@[simp] theorem State.itkResidue_only_iff (s a1) (h : [.stats, .ctrs, .cqf, .hif, .err, .itk] ⊆ ps) : OnlyChanges ps s0 (State.itkResidue s a1) ↔ OnlyChanges ps s0 s :=
  onlyChanges_iff (State.itkResidue_only s a1) h
theorem State.writeHead_only (s a1 a2 a3 a4 a5 a6 a7 a8 a9 a10) : OnlyChanges [.stats, .ctrs, .cqf, .mem, .hif, .err, .fab, .itk, .draws] s (State.writeHead s a1 a2 a3 a4 a5 a6 a7 a8 a9 a10) := by
  unfold State.writeHead
  (repeat' (first | split | dsimp only)) <;> simp
@[simp] theorem State.writeHead_only_iff (s a1 a2 a3 a4 a5 a6 a7 a8 a9 a10) (h : [.stats, .ctrs, .cqf, .mem, .hif, .err, .fab, .itk, .draws] ⊆ ps) : OnlyChanges ps s0 (State.writeHead s a1 a2 a3 a4 a5 a6 a7 a8 a9 a10) ↔ OnlyChanges ps s0 s :=
  onlyChanges_iff (State.writeHead_only s a1 a2 a3 a4 a5 a6 a7 a8 a9 a10) h
theorem State.transformSample_only (s a1) : OnlyChanges [.stats, .ctrs, .cqf, .mem, .hif, .err, .fab, .itk, .draws] s (State.transformSample s a1) := by
  unfold State.transformSample
  (repeat' split) <;> simp
@[simp] theorem State.transformSample_only_iff (s a1) (h : [.stats, .ctrs, .cqf, .mem, .hif, .err, .fab, .itk, .draws] ⊆ ps) : OnlyChanges ps s0 (State.transformSample s a1) ↔ OnlyChanges ps s0 s :=
  onlyChanges_iff (State.transformSample_only s a1) h
theorem State.itkNfClr_only (s) : OnlyChanges [.ctrs] s (State.itkNfClr s) := by
  unfold State.itkNfClr
  simp
@[simp] theorem State.itkNfClr_only_iff (s) (h : [.ctrs] ⊆ ps) : OnlyChanges ps s0 (State.itkNfClr s) ↔ OnlyChanges ps s0 s :=
  onlyChanges_iff (State.itkNfClr_only s) h
theorem State.itkPeakClr_only (s) : OnlyChanges [.itk] s (State.itkPeakClr s) := by
  unfold State.itkPeakClr
  simp
@[simp] theorem State.itkPeakClr_only_iff (s) (h : [.itk] ⊆ ps) : OnlyChanges ps s0 (State.itkPeakClr s) ↔ OnlyChanges ps s0 s :=
  onlyChanges_iff (State.itkPeakClr_only s) h
end Sys2Proof.Machine
end

