-- ==== Sys2Proof/Laws/FrameFront.lean ====
section
/-!
SUPPORT. Frames of the operations of the front end, the dispatcher and the fabric: which blocks of the state each of them may change.
-/
set_option maxRecDepth 4000
namespace Sys2Proof.Machine
variable {ps : List Piece} {s0 : State}
theorem State.endStopped_only (s a1 a2) : OnlyChanges [.cqf] s (State.endStopped s a1 a2) := by
  unfold State.endStopped
  (repeat' split) <;> simp
@[simp] theorem State.endStopped_only_iff (s a1 a2) (h : [.cqf] ⊆ ps) : OnlyChanges ps s0 (State.endStopped s a1 a2) ↔ OnlyChanges ps s0 s :=
  onlyChanges_iff (State.endStopped_only s a1 a2) h
theorem State.matLeave_only (s) : OnlyChanges [.stats, .ctrs, .hif, .err, .mat] s (State.matLeave s) := by
  unfold State.matLeave
  simp
@[simp] theorem State.matLeave_only_iff (s) (h : [.stats, .ctrs, .hif, .err, .mat] ⊆ ps) : OnlyChanges ps s0 (State.matLeave s) ↔ OnlyChanges ps s0 s :=
  onlyChanges_iff (State.matLeave_only s) h
theorem State.engineDone_only (s a1 a2 a3) : OnlyChanges [.stats, .ctrs, .mem, .hif, .err, .mat, .vec, .nbu, .xch, .itk] s (State.engineDone s a1 a2 a3) := by
  unfold State.engineDone
  (repeat' split) <;> simp
@[simp] theorem State.engineDone_only_iff (s a1 a2 a3) (h : [.stats, .ctrs, .mem, .hif, .err, .mat, .vec, .nbu, .xch, .itk] ⊆ ps) : OnlyChanges ps s0 (State.engineDone s a1 a2 a3) ↔ OnlyChanges ps s0 s :=
  onlyChanges_iff (State.engineDone_only s a1 a2 a3) h
theorem State.nbHalt_only (s a1) : OnlyChanges [.cqf, .nbu] s (State.nbHalt s a1) := by
  unfold State.nbHalt
  (repeat' split) <;> simp
@[simp] theorem State.nbHalt_only_iff (s a1) (h : [.cqf, .nbu] ⊆ ps) : OnlyChanges ps s0 (State.nbHalt s a1) ↔ OnlyChanges ps s0 s :=
  onlyChanges_iff (State.nbHalt_only s a1) h
theorem State.engineStop_only (s a1) : OnlyChanges [.stats, .ctrs, .cqf, .mem, .hif, .err, .mat, .vec, .nbu, .xch, .itk] s (State.engineStop s a1) := by
  unfold State.engineStop
  (repeat' split) <;> simp
@[simp] theorem State.engineStop_only_iff (s a1) (h : [.stats, .ctrs, .cqf, .mem, .hif, .err, .mat, .vec, .nbu, .xch, .itk] ⊆ ps) : OnlyChanges ps s0 (State.engineStop s a1) ↔ OnlyChanges ps s0 s :=
  onlyChanges_iff (State.engineStop_only s a1) h
theorem State.engineReadFail_only (s a1 a2) : OnlyChanges [.stats, .ctrs, .cqf, .mem, .hif, .err, .mat, .vec, .nbu, .xch, .itk, .draws] s (State.engineReadFail s a1 a2) := by
  unfold State.engineReadFail
  (repeat' split) <;> simp
@[simp] theorem State.engineReadFail_only_iff (s a1 a2) (h : [.stats, .ctrs, .cqf, .mem, .hif, .err, .mat, .vec, .nbu, .xch, .itk, .draws] ⊆ ps) : OnlyChanges ps s0 (State.engineReadFail s a1 a2) ↔ OnlyChanges ps s0 s :=
  onlyChanges_iff (State.engineReadFail_only s a1 a2) h
theorem State.setSlip_only (s a1 a2) : OnlyChanges [.cqf] s (State.setSlip s a1 a2) := by
  unfold State.setSlip
  simp
@[simp] theorem State.setSlip_only_iff (s a1 a2) (h : [.cqf] ⊆ ps) : OnlyChanges ps s0 (State.setSlip s a1 a2) ↔ OnlyChanges ps s0 s :=
  onlyChanges_iff (State.setSlip_only s a1 a2) h
theorem State.makeCurrent_only (s a1 a2 a3 a4 a5) : OnlyChanges [.cqf] s (State.makeCurrent s a1 a2 a3 a4 a5) := by
  unfold State.makeCurrent
  simp
@[simp] theorem State.makeCurrent_only_iff (s a1 a2 a3 a4 a5) (h : [.cqf] ⊆ ps) : OnlyChanges ps s0 (State.makeCurrent s a1 a2 a3 a4 a5) ↔ OnlyChanges ps s0 s :=
  onlyChanges_iff (State.makeCurrent_only s a1 a2 a3 a4 a5) h
theorem State.endList_only (s a1) : OnlyChanges [.cqf] s (State.endList s a1) := by
  unfold State.endList
  (repeat' split) <;> simp
@[simp] theorem State.endList_only_iff (s a1) (h : [.cqf] ⊆ ps) : OnlyChanges ps s0 (State.endList s a1) ↔ OnlyChanges ps s0 s :=
  onlyChanges_iff (State.endList_only s a1) h
theorem State.fetchParams_only (s a1 a2 a3) : OnlyChanges [.stats, .ctrs, .cqf, .mem, .hif, .err, .fab, .draws] s (State.fetchParams s a1 a2 a3) := by
  unfold State.fetchParams
  (repeat' (first | split | dsimp only)) <;> simp
@[simp] theorem State.fetchParams_only_iff (s a1 a2 a3) (h : [.stats, .ctrs, .cqf, .mem, .hif, .err, .fab, .draws] ⊆ ps) : OnlyChanges ps s0 (State.fetchParams s a1 a2 a3) ↔ OnlyChanges ps s0 s :=
  onlyChanges_iff (State.fetchParams_only s a1 a2 a3) h
theorem State.fetchNext_only (s a1) : OnlyChanges [.stats, .ctrs, .cqf, .mem, .hif, .err, .fab, .draws] s (State.fetchNext s a1) := by
  unfold State.fetchNext
  (repeat' (first | split | dsimp only)) <;> simp
@[simp] theorem State.fetchNext_only_iff (s a1) (h : [.stats, .ctrs, .cqf, .mem, .hif, .err, .fab, .draws] ⊆ ps) : OnlyChanges ps s0 (State.fetchNext s a1) ↔ OnlyChanges ps s0 s :=
  onlyChanges_iff (State.fetchNext_only s a1) h
theorem State.takeEntry_only (s a1 a2) : OnlyChanges [.stats, .ctrs, .cqf, .mem, .hif, .err, .draws] s (State.takeEntry s a1 a2) := by
  unfold State.takeEntry
  (repeat' (first | split | dsimp only)) <;> simp
@[simp] theorem State.takeEntry_only_iff (s a1 a2) (h : [.stats, .ctrs, .cqf, .mem, .hif, .err, .draws] ⊆ ps) : OnlyChanges ps s0 (State.takeEntry s a1 a2) ↔ OnlyChanges ps s0 s :=
  onlyChanges_iff (State.takeEntry_only s a1 a2) h
theorem State.overrun_only (s a1 a2) : OnlyChanges [.stats, .ctrs, .cqf, .mem, .hif, .err, .draws] s (State.overrun s a1 a2) := by
  unfold State.overrun
  simp
@[simp] theorem State.overrun_only_iff (s a1 a2) (h : [.stats, .ctrs, .cqf, .mem, .hif, .err, .draws] ⊆ ps) : OnlyChanges ps s0 (State.overrun s a1 a2) ↔ OnlyChanges ps s0 s :=
  onlyChanges_iff (State.overrun_only s a1 a2) h
theorem State.seeSlot_only (s a1 a2) : OnlyChanges [.stats, .ctrs, .cqf, .mem, .hif, .err, .draws] s (State.seeSlot s a1 a2) := by
  unfold State.seeSlot
  (repeat' (first | split | dsimp only)) <;> simp
@[simp] theorem State.seeSlot_only_iff (s a1 a2) (h : [.stats, .ctrs, .cqf, .mem, .hif, .err, .draws] ⊆ ps) : OnlyChanges ps s0 (State.seeSlot s a1 a2) ↔ OnlyChanges ps s0 s :=
  onlyChanges_iff (State.seeSlot_only s a1 a2) h
theorem State.entryTake_only (s a1) : OnlyChanges [.stats, .ctrs, .cqf, .mem, .hif, .err, .fab, .draws] s (State.entryTake s a1) := by
  unfold State.entryTake
  (repeat' (first | split | dsimp only)) <;> simp
@[simp] theorem State.entryTake_only_iff (s a1) (h : [.stats, .ctrs, .cqf, .mem, .hif, .err, .fab, .draws] ⊆ ps) : OnlyChanges ps s0 (State.entryTake s a1) ↔ OnlyChanges ps s0 s :=
  onlyChanges_iff (State.entryTake_only s a1) h
theorem State.hostPoll_only (s a1) : OnlyChanges [.stats, .ctrs, .cqf, .mem, .hif, .err, .fab, .draws] s (State.hostPoll s a1) := by
  unfold State.hostPoll
  (repeat' (first | split | dsimp only)) <;> simp
@[simp] theorem State.hostPoll_only_iff (s a1) (h : [.stats, .ctrs, .cqf, .mem, .hif, .err, .fab, .draws] ⊆ ps) : OnlyChanges ps s0 (State.hostPoll s a1) ↔ OnlyChanges ps s0 s :=
  onlyChanges_iff (State.hostPoll_only s a1) h
theorem State.listFetch_only (s a1) : OnlyChanges [.stats, .ctrs, .cqf, .mem, .hif, .err, .fab, .draws] s (State.listFetch s a1) := by
  unfold State.listFetch
  (repeat' (first | split | dsimp only)) <;> simp
@[simp] theorem State.listFetch_only_iff (s a1) (h : [.stats, .ctrs, .cqf, .mem, .hif, .err, .fab, .draws] ⊆ ps) : OnlyChanges ps s0 (State.listFetch s a1) ↔ OnlyChanges ps s0 s :=
  onlyChanges_iff (State.listFetch_only s a1) h
theorem State.dispatch_only (s a1) : OnlyChanges [.regs, .stats, .ctrs, .cqf, .hif, .err, .mat, .xch] s (State.dispatch s a1) := by
  unfold State.dispatch
  (repeat' split) <;> simp
@[simp] theorem State.dispatch_only_iff (s a1) (h : [.regs, .stats, .ctrs, .cqf, .hif, .err, .mat, .xch] ⊆ ps) : OnlyChanges ps s0 (State.dispatch s a1) ↔ OnlyChanges ps s0 s :=
  onlyChanges_iff (State.dispatch_only s a1) h
theorem State.drained_only (s a1) : OnlyChanges [.cqf] s (State.drained s a1) := by
  unfold State.drained
  simp
@[simp] theorem State.drained_only_iff (s a1) (h : [.cqf] ⊆ ps) : OnlyChanges ps s0 (State.drained s a1) ↔ OnlyChanges ps s0 s :=
  onlyChanges_iff (State.drained_only s a1) h
theorem State.dropReads_only (s a1) : OnlyChanges [.cqf, .fab] s (State.dropReads s a1) := by
  unfold State.dropReads
  simp
@[simp] theorem State.dropReads_only_iff (s a1) (h : [.cqf, .fab] ⊆ ps) : OnlyChanges ps s0 (State.dropReads s a1) ↔ OnlyChanges ps s0 s :=
  onlyChanges_iff (State.dropReads_only s a1) h
theorem State.release_only (s a1) : OnlyChanges [.cqf, .hif, .fab] s (State.release s a1) := by
  unfold State.release
  dsimp only
  (repeat' split) <;> simp [only_upd]
@[simp] theorem State.release_only_iff (s a1) (h : [.cqf, .hif, .fab] ⊆ ps) : OnlyChanges ps s0 (State.release s a1) ↔ OnlyChanges ps s0 s :=
  onlyChanges_iff (State.release_only s a1) h
theorem State.replyCmd_only (s a1 a2 a3 a4) : OnlyChanges [.stats, .ctrs, .cqf, .mem, .hif, .err, .draws] s (State.replyCmd s a1 a2 a3 a4) := by
  unfold State.replyCmd
  simp
@[simp] theorem State.replyCmd_only_iff (s a1 a2 a3 a4) (h : [.stats, .ctrs, .cqf, .mem, .hif, .err, .draws] ⊆ ps) : OnlyChanges ps s0 (State.replyCmd s a1 a2 a3 a4) ↔ OnlyChanges ps s0 s :=
  onlyChanges_iff (State.replyCmd_only s a1 a2 a3 a4) h
theorem State.muteList_only (s a1) : OnlyChanges [.cqf] s (State.muteList s a1) := by
  unfold State.muteList
  simp
@[simp] theorem State.muteList_only_iff (s a1) (h : [.cqf] ⊆ ps) : OnlyChanges ps s0 (State.muteList s a1) ↔ OnlyChanges ps s0 s :=
  onlyChanges_iff (State.muteList_only s a1) h
theorem State.complete_only (s a1) : OnlyChanges [.stats, .ctrs, .cqf, .mem, .hif, .err, .mat, .vec, .nbu, .xch, .fab, .itk, .draws] s (State.complete s a1) := by
  unfold State.complete
  (repeat' split) <;> simp
@[simp] theorem State.complete_only_iff (s a1) (h : [.stats, .ctrs, .cqf, .mem, .hif, .err, .mat, .vec, .nbu, .xch, .fab, .itk, .draws] ⊆ ps) : OnlyChanges ps s0 (State.complete s a1) ↔ OnlyChanges ps s0 s :=
  onlyChanges_iff (State.complete_only s a1) h
theorem State.requestStop_only (s a1 a2 a3) : OnlyChanges [.stats, .ctrs, .cqf, .mem, .hif, .err, .mat, .vec, .nbu, .xch, .itk] s (State.requestStop s a1 a2 a3) := by
  unfold State.requestStop
  (repeat' split) <;> simp
@[simp] theorem State.requestStop_only_iff (s a1 a2 a3) (h : [.stats, .ctrs, .cqf, .mem, .hif, .err, .mat, .vec, .nbu, .xch, .itk] ⊆ ps) : OnlyChanges ps s0 (State.requestStop s a1 a2 a3) ↔ OnlyChanges ps s0 s :=
  onlyChanges_iff (State.requestStop_only s a1 a2 a3) h
theorem State.timeout_only (s a1) : OnlyChanges [.stats, .ctrs, .cqf, .mem, .hif, .err, .mat, .vec, .nbu, .xch, .itk, .draws] s (State.timeout s a1) := by
  unfold State.timeout
  (repeat' (first | split | dsimp only)) <;> simp
@[simp] theorem State.timeout_only_iff (s a1) (h : [.stats, .ctrs, .cqf, .mem, .hif, .err, .mat, .vec, .nbu, .xch, .itk, .draws] ⊆ ps) : OnlyChanges ps s0 (State.timeout s a1) ↔ OnlyChanges ps s0 s :=
  onlyChanges_iff (State.timeout_only s a1) h
theorem State.resumeNext_only (s a1) : OnlyChanges [.stats, .ctrs, .cqf, .mem, .hif, .err, .fab, .draws] s (State.resumeNext s a1) := by
  unfold State.resumeNext
  (repeat' (first | split | dsimp only)) <;> simp
@[simp] theorem State.resumeNext_only_iff (s a1) (h : [.stats, .ctrs, .cqf, .mem, .hif, .err, .fab, .draws] ⊆ ps) : OnlyChanges ps s0 (State.resumeNext s a1) ↔ OnlyChanges ps s0 s :=
  onlyChanges_iff (State.resumeNext_only s a1) h
theorem State.dropList_only (s a1) : OnlyChanges [.cqf] s (State.dropList s a1) := by
  unfold State.dropList
  simp
@[simp] theorem State.dropList_only_iff (s a1) (h : [.cqf] ⊆ ps) : OnlyChanges ps s0 (State.dropList s a1) ↔ OnlyChanges ps s0 s :=
  onlyChanges_iff (State.dropList_only s a1) h
theorem State.clearEnable_only (s a1) : OnlyChanges [.regs] s (State.clearEnable s a1) := by
  unfold State.clearEnable
  simp
@[simp] theorem State.clearEnable_only_iff (s a1) (h : [.regs] ⊆ ps) : OnlyChanges ps s0 (State.clearEnable s a1) ↔ OnlyChanges ps s0 s :=
  onlyChanges_iff (State.clearEnable_only s a1) h
theorem State.abandonQ_only (s a1 a2) : OnlyChanges [.regs, .stats, .ctrs, .cqf, .mem, .hif, .err, .mat, .vec, .nbu, .xch, .fab, .itk, .draws] s (State.abandonQ s a1 a2) := by
  unfold State.abandonQ
  (repeat' (first | split | dsimp only)) <;> simp
@[simp] theorem State.abandonQ_only_iff (s a1 a2) (h : [.regs, .stats, .ctrs, .cqf, .mem, .hif, .err, .mat, .vec, .nbu, .xch, .fab, .itk, .draws] ⊆ ps) : OnlyChanges ps s0 (State.abandonQ s a1 a2) ↔ OnlyChanges ps s0 s :=
  onlyChanges_iff (State.abandonQ_only s a1 a2) h
theorem State.resetQ_only (s a1) : OnlyChanges [.regs, .stats, .ctrs, .cqf, .mem, .hif, .err, .mat, .vec, .nbu, .xch, .fab, .itk, .draws] s (State.resetQ s a1) := by
  unfold State.resetQ
  simp
@[simp] theorem State.resetQ_only_iff (s a1) (h : [.regs, .stats, .ctrs, .cqf, .mem, .hif, .err, .mat, .vec, .nbu, .xch, .fab, .itk, .draws] ⊆ ps) : OnlyChanges ps s0 (State.resetQ s a1) ↔ OnlyChanges ps s0 s :=
  onlyChanges_iff (State.resetQ_only s a1) h
theorem State.disable_only (s a1) : OnlyChanges [.regs, .stats, .ctrs, .cqf, .mem, .hif, .err, .fab, .draws] s (State.disable s a1) := by
  unfold State.disable
  (repeat' (first | split | dsimp only)) <;> simp
@[simp] theorem State.disable_only_iff (s a1) (h : [.regs, .stats, .ctrs, .cqf, .mem, .hif, .err, .fab, .draws] ⊆ ps) : OnlyChanges ps s0 (State.disable s a1) ↔ OnlyChanges ps s0 s :=
  onlyChanges_iff (State.disable_only s a1) h
theorem State.refuseQ_only (s a1) : OnlyChanges [.stats] s (State.refuseQ s a1) := by
  unfold State.refuseQ
  simp
@[simp] theorem State.refuseQ_only_iff (s a1) (h : [.stats] ⊆ ps) : OnlyChanges ps s0 (State.refuseQ s a1) ↔ OnlyChanges ps s0 s :=
  onlyChanges_iff (State.refuseQ_only s a1) h
theorem State.enable_only (s a1) : OnlyChanges [.regs, .stats, .ctrs, .cqf, .mem, .hif, .err, .draws] s (State.enable s a1) := by
  unfold State.enable
  simp
@[simp] theorem State.enable_only_iff (s a1) (h : [.regs, .stats, .ctrs, .cqf, .mem, .hif, .err, .draws] ⊆ ps) : OnlyChanges ps s0 (State.enable s a1) ↔ OnlyChanges ps s0 s :=
  onlyChanges_iff (State.enable_only s a1) h
theorem State.frontReadFail_only (s a1 a2 a3 a4) : OnlyChanges [.stats, .ctrs, .cqf, .mem, .hif, .err, .draws] s (State.frontReadFail s a1 a2 a3 a4) := by
  unfold State.frontReadFail
  (repeat' (first | split | dsimp only)) <;> simp
@[simp] theorem State.frontReadFail_only_iff (s a1 a2 a3 a4) (h : [.stats, .ctrs, .cqf, .mem, .hif, .err, .draws] ⊆ ps) : OnlyChanges ps s0 (State.frontReadFail s a1 a2 a3 a4) ↔ OnlyChanges ps s0 s :=
  onlyChanges_iff (State.frontReadFail_only s a1 a2 a3 a4) h
theorem State.hostReadFail_only (s a1 a2 a3 a4) : OnlyChanges [.stats, .ctrs, .cqf, .mem, .hif, .err, .mat, .vec, .nbu, .xch, .fab, .itk, .draws] s (State.hostReadFail s a1 a2 a3 a4) := by
  unfold State.hostReadFail
  (repeat' (first | split | dsimp only)) <;> simp
@[simp] theorem State.hostReadFail_only_iff (s a1 a2 a3 a4) (h : [.stats, .ctrs, .cqf, .mem, .hif, .err, .mat, .vec, .nbu, .xch, .fab, .itk, .draws] ⊆ ps) : OnlyChanges ps s0 (State.hostReadFail s a1 a2 a3 a4) ↔ OnlyChanges ps s0 s :=
  onlyChanges_iff (State.hostReadFail_only s a1 a2 a3 a4) h
theorem State.hostComplete_only (s a1 a2) : OnlyChanges [.stats, .ctrs, .cqf, .mem, .hif, .err, .mat, .vec, .nbu, .xch, .fab, .itk, .draws] s (State.hostComplete s a1 a2) := by
  unfold State.hostComplete
  dsimp only
  split
  · simp
  · split
    · split
      · rename_i r rest _ _ bs _
        generalize ht : (if r.word = 0xFF then _ else _ : State) = t
        have h : OnlyChanges [.stats, .ctrs, .cqf, .mem, .hif, .err, .mat, .vec, .nbu, .xch, .fab, .itk, .draws] s t := by
          rw [← ht]; split <;> simp
        clear ht
        split
        · split
          · exact (State.overrun_only_iff _ _ _ (by simp)).2 h
          · exact (State.setQ_only_iff _ _ _ (by simp)).2 h
          · exact h
        · exact h
      · simp
    · simp
    · simp
    · simp
@[simp] theorem State.hostComplete_only_iff (s a1 a2) (h : [.stats, .ctrs, .cqf, .mem, .hif, .err, .mat, .vec, .nbu, .xch, .fab, .itk, .draws] ⊆ ps) : OnlyChanges ps s0 (State.hostComplete s a1 a2) ↔ OnlyChanges ps s0 s :=
  onlyChanges_iff (State.hostComplete_only s a1 a2) h
theorem State.hostTimeout_only (s a1) : OnlyChanges [.stats, .ctrs, .cqf, .mem, .hif, .err, .mat, .vec, .nbu, .xch, .fab, .itk, .draws] s (State.hostTimeout s a1) := by
  unfold State.hostTimeout
  (repeat' split) <;> simp
@[simp] theorem State.hostTimeout_only_iff (s a1) (h : [.stats, .ctrs, .cqf, .mem, .hif, .err, .mat, .vec, .nbu, .xch, .fab, .itk, .draws] ⊆ ps) : OnlyChanges ps s0 (State.hostTimeout s a1) ↔ OnlyChanges ps s0 s :=
  onlyChanges_iff (State.hostTimeout_only s a1) h
theorem State.peerEnd_only (s a1 a2 a3 a4) : OnlyChanges [.stats, .ctrs, .cqf, .mem, .hif, .err, .mat, .vec, .nbu, .xch, .fab, .itk, .draws] s (State.peerEnd s a1 a2 a3 a4) := by
  unfold State.peerEnd
  (repeat' split) <;> simp
@[simp] theorem State.peerEnd_only_iff (s a1 a2 a3 a4) (h : [.stats, .ctrs, .cqf, .mem, .hif, .err, .mat, .vec, .nbu, .xch, .fab, .itk, .draws] ⊆ ps) : OnlyChanges ps s0 (State.peerEnd s a1 a2 a3 a4) ↔ OnlyChanges ps s0 s :=
  onlyChanges_iff (State.peerEnd_only s a1 a2 a3 a4) h
theorem State.setPeerTag_only (s a1 a2) : OnlyChanges [.fab] s (State.setPeerTag s a1 a2) := by
  unfold State.setPeerTag
  simp
@[simp] theorem State.setPeerTag_only_iff (s a1 a2) (h : [.fab] ⊆ ps) : OnlyChanges ps s0 (State.setPeerTag s a1 a2) ↔ OnlyChanges ps s0 s :=
  onlyChanges_iff (State.setPeerTag_only s a1 a2) h
theorem State.peerLost_only (s a1 a2 a3) : OnlyChanges [.stats, .ctrs, .cqf, .mem, .hif, .err, .mat, .vec, .nbu, .xch, .fab, .itk, .draws] s (State.peerLost s a1 a2 a3) := by
  unfold State.peerLost
  simp
@[simp] theorem State.peerLost_only_iff (s a1 a2 a3) (h : [.stats, .ctrs, .cqf, .mem, .hif, .err, .mat, .vec, .nbu, .xch, .fab, .itk, .draws] ⊆ ps) : OnlyChanges ps s0 (State.peerLost s a1 a2 a3) ↔ OnlyChanges ps s0 s :=
  onlyChanges_iff (State.peerLost_only s a1 a2 a3) h
theorem State.peerSend_only (s a1 a2) : OnlyChanges [.fab] s (State.peerSend s a1 a2) := by
  unfold State.peerSend
  (repeat' split) <;> simp
@[simp] theorem State.peerSend_only_iff (s a1 a2) (h : [.fab] ⊆ ps) : OnlyChanges ps s0 (State.peerSend s a1 a2) ↔ OnlyChanges ps s0 s :=
  onlyChanges_iff (State.peerSend_only s a1 a2) h
theorem State.peerTake_only (s a1 a2) : OnlyChanges [.cqf, .fab] s (State.peerTake s a1 a2) := by
  unfold State.peerTake
  simp
@[simp] theorem State.peerTake_only_iff (s a1 a2) (h : [.cqf, .fab] ⊆ ps) : OnlyChanges ps s0 (State.peerTake s a1 a2) ↔ OnlyChanges ps s0 s :=
  onlyChanges_iff (State.peerTake_only s a1 a2) h
theorem State.issueReqs_only (a0 a1 a2 s) : OnlyChanges [.stats, .ctrs, .cqf, .mem, .hif, .err, .mat, .vec, .nbu, .xch, .fab, .itk, .draws] s (State.issueReqs a0 a1 a2 s) := by
  induction a0 generalizing a1 a2 s with
  | zero => simp [State.issueReqs]
  | succ f ih =>
    cases a1 with
    | nil => simp [State.issueReqs]
    | cons r l =>
      unfold State.issueReqs
      dsimp only
      split
      · exact ih _ _ _
      · split
        · exact (onlyChanges_iff (ih _ _ _) (List.Subset.refl _)).2 (by simp)
        · refine (onlyChanges_iff (ih _ _ _) (List.Subset.refl _)).2 ?_
          repeat' split
          all_goals simp
@[simp] theorem State.issueReqs_only_iff (a0 a1 a2 s) (h : [.stats, .ctrs, .cqf, .mem, .hif, .err, .mat, .vec, .nbu, .xch, .fab, .itk, .draws] ⊆ ps) : OnlyChanges ps s0 (State.issueReqs a0 a1 a2 s) ↔ OnlyChanges ps s0 s :=
  onlyChanges_iff (State.issueReqs_only a0 a1 a2 s) h
theorem State.rankLost_only (s a1 a2 a3) : OnlyChanges [.stats, .ctrs, .cqf, .hif, .xch] s (State.rankLost s a1 a2 a3) := by
  unfold State.rankLost
  (repeat' split) <;> simp
@[simp] theorem State.rankLost_only_iff (s a1 a2 a3) (h : [.stats, .ctrs, .cqf, .hif, .xch] ⊆ ps) : OnlyChanges ps s0 (State.rankLost s a1 a2 a3) ↔ OnlyChanges ps s0 s :=
  onlyChanges_iff (State.rankLost_only s a1 a2 a3) h
theorem State.segTake_only (s a1 a2) : OnlyChanges [.cqf, .fab] s (State.segTake s a1 a2) := by
  unfold State.segTake
  simp
@[simp] theorem State.segTake_only_iff (s a1 a2) (h : [.cqf, .fab] ⊆ ps) : OnlyChanges ps s0 (State.segTake s a1 a2) ↔ OnlyChanges ps s0 s :=
  onlyChanges_iff (State.segTake_only s a1 a2) h
theorem State.issueSegs_only_aux (a0 a1 a2 a3 s) : OnlyChanges [.stats, .ctrs, .cqf, .hif, .xch, .fab] s0 (State.issueSegs a0 a1 a2 a3 s) ↔ OnlyChanges [.stats, .ctrs, .cqf, .hif, .xch, .fab] s0 s := by
  fun_induction State.issueSegs <;> simp_all +zetaDelta
theorem State.issueSegs_only (a0 a1 a2 a3 s) : OnlyChanges [.stats, .ctrs, .cqf, .hif, .xch, .fab] s (State.issueSegs a0 a1 a2 a3 s) := 
  (State.issueSegs_only_aux a0 a1 a2 a3 s).2 (onlyChanges_refl _ _)
@[simp] theorem State.issueSegs_only_iff (a0 a1 a2 a3 s) (h : [.stats, .ctrs, .cqf, .hif, .xch, .fab] ⊆ ps) : OnlyChanges ps s0 (State.issueSegs a0 a1 a2 a3 s) ↔ OnlyChanges ps s0 s :=
  onlyChanges_iff (State.issueSegs_only a0 a1 a2 a3 s) h
theorem State.pump_only (s a1) : OnlyChanges [.stats, .ctrs, .cqf, .mem, .hif, .err, .mat, .vec, .nbu, .xch, .fab, .itk, .draws] s (State.pump s a1) := by
  unfold State.pump
  simp
@[simp] theorem State.pump_only_iff (s a1) (h : [.stats, .ctrs, .cqf, .mem, .hif, .err, .mat, .vec, .nbu, .xch, .fab, .itk, .draws] ⊆ ps) : OnlyChanges ps s0 (State.pump s a1) ↔ OnlyChanges ps s0 s :=
  onlyChanges_iff (State.pump_only s a1) h
theorem State.tagTo_only (s a1 a2) : OnlyChanges [.stats, .ctrs, .cqf, .mem, .hif, .err, .mat, .vec, .nbu, .xch, .fab, .itk, .draws] s (State.tagTo s a1 a2) := by
  unfold State.tagTo
  (repeat' split) <;> simp
@[simp] theorem State.tagTo_only_iff (s a1 a2) (h : [.stats, .ctrs, .cqf, .mem, .hif, .err, .mat, .vec, .nbu, .xch, .fab, .itk, .draws] ⊆ ps) : OnlyChanges ps s0 (State.tagTo s a1 a2) ↔ OnlyChanges ps s0 s :=
  onlyChanges_iff (State.tagTo_only s a1 a2) h
theorem State.tagGrant_only (s a1) : OnlyChanges [.stats, .ctrs, .cqf, .mem, .hif, .err, .mat, .vec, .nbu, .xch, .fab, .itk, .draws] s (State.tagGrant s a1) := by
  unfold State.tagGrant
  (repeat' split) <;> simp
@[simp] theorem State.tagGrant_only_iff (s a1) (h : [.stats, .ctrs, .cqf, .mem, .hif, .err, .mat, .vec, .nbu, .xch, .fab, .itk, .draws] ⊆ ps) : OnlyChanges ps s0 (State.tagGrant s a1) ↔ OnlyChanges ps s0 s :=
  onlyChanges_iff (State.tagGrant_only s a1) h
theorem State.dbChanged_only (s) : OnlyChanges [.stats, .hif, .fab] s (State.dbChanged s) := by
  unfold State.dbChanged
  simp
@[simp] theorem State.dbChanged_only_iff (s) (h : [.stats, .hif, .fab] ⊆ ps) : OnlyChanges ps s0 (State.dbChanged s) ↔ OnlyChanges ps s0 s :=
  onlyChanges_iff (State.dbChanged_only s) h
theorem State.dbPut_only (s a1) : OnlyChanges [.stats, .hif, .fab] s (State.dbPut s a1) := by
  unfold State.dbPut
  (repeat' (first | split | dsimp only)) <;> simp
@[simp] theorem State.dbPut_only_iff (s a1) (h : [.stats, .hif, .fab] ⊆ ps) : OnlyChanges ps s0 (State.dbPut s a1) ↔ OnlyChanges ps s0 s :=
  onlyChanges_iff (State.dbPut_only s a1) h
theorem State.flood_only (s a1 a2) : OnlyChanges [.fab] s (State.flood s a1 a2) := by
  unfold State.flood
  simp
@[simp] theorem State.flood_only_iff (s a1 a2) (h : [.fab] ⊆ ps) : OnlyChanges ps s0 (State.flood s a1 a2) ↔ OnlyChanges ps s0 s :=
  onlyChanges_iff (State.flood_only s a1 a2) h
theorem State.advertise_only (s) : OnlyChanges [.stats, .hif, .fab] s (State.advertise s) := by
  unfold State.advertise
  simp
@[simp] theorem State.advertise_only_iff (s) (h : [.stats, .hif, .fab] ⊆ ps) : OnlyChanges ps s0 (State.advertise s) ↔ OnlyChanges ps s0 s :=
  onlyChanges_iff (State.advertise_only s) h
@[simp] theorem State.portsChange_only_iff {ps : List Piece} {s0 : State} (s) (f : State → State) (hf : ∀ t, OnlyChanges ps t (f t)) (h : [.stats, .hif, .fab] ⊆ ps) :
    OnlyChanges ps s0 (State.portsChange s f) ↔ OnlyChanges ps s0 s := by
  refine onlyChanges_iff (qs := ps) ?_ (List.Subset.refl _)
  unfold State.portsChange
  dsimp only
  split <;> simp [hf, h]
theorem State.lsaRefresh_only (s) : OnlyChanges [.stats, .hif, .fab] s (State.lsaRefresh s) := by
  unfold State.lsaRefresh
  simp
@[simp] theorem State.lsaRefresh_only_iff (s) (h : [.stats, .hif, .fab] ⊆ ps) : OnlyChanges ps s0 (State.lsaRefresh s) ↔ OnlyChanges ps s0 s :=
  onlyChanges_iff (State.lsaRefresh_only s) h
theorem State.lsaExpiry_only (s a1) : OnlyChanges [.stats, .hif, .fab] s (State.lsaExpiry s a1) := by
  unfold State.lsaExpiry
  (repeat' split) <;> simp
@[simp] theorem State.lsaExpiry_only_iff (s a1) (h : [.stats, .hif, .fab] ⊆ ps) : OnlyChanges ps s0 (State.lsaExpiry s a1) ↔ OnlyChanges ps s0 s :=
  onlyChanges_iff (State.lsaExpiry_only s a1) h
theorem State.conflict_only (s) : OnlyChanges [.stats, .hif, .fab] s (State.conflict s) := by
  unfold State.conflict
  simp
@[simp] theorem State.conflict_only_iff (s) (h : [.stats, .hif, .fab] ⊆ ps) : OnlyChanges ps s0 (State.conflict s) ↔ OnlyChanges ps s0 s :=
  onlyChanges_iff (State.conflict_only s) h
theorem State.idConfig_only (s) : OnlyChanges [.regs, .stats, .ctrs, .hif, .err, .fab] s (State.idConfig s) := by
  unfold State.idConfig
  simp
@[simp] theorem State.idConfig_only_iff (s) (h : [.regs, .stats, .ctrs, .hif, .err, .fab] ⊆ ps) : OnlyChanges ps s0 (State.idConfig s) ↔ OnlyChanges ps s0 s :=
  onlyChanges_iff (State.idConfig_only s) h
theorem State.takeId_only (s a1) : OnlyChanges [.regs, .stats, .ctrs, .hif, .err, .fab] s (State.takeId s a1) := by
  unfold State.takeId
  simp
@[simp] theorem State.takeId_only_iff (s a1) (h : [.regs, .stats, .ctrs, .hif, .err, .fab] ⊆ ps) : OnlyChanges ps s0 (State.takeId s a1) ↔ OnlyChanges ps s0 s :=
  onlyChanges_iff (State.takeId_only s a1) h
theorem State.grantAll_only (a0 a1 s) : OnlyChanges [.regs, .stats, .ctrs, .hif, .err, .fab] s (State.grantAll a0 a1 s) := by
  induction a0 generalizing a1 s with
  | nil => simp [State.grantAll]
  | cons e l ih =>
    unfold State.grantAll
    dsimp only
    repeat' split
    all_goals first | exact ih _ _ | (simp; done) | exact (onlyChanges_iff (ih _ _) (List.Subset.refl _)).2 (by simp)
@[simp] theorem State.grantAll_only_iff (a0 a1 s) (h : [.regs, .stats, .ctrs, .hif, .err, .fab] ⊆ ps) : OnlyChanges ps s0 (State.grantAll a0 a1 s) ↔ OnlyChanges ps s0 s :=
  onlyChanges_iff (State.grantAll_only a0 a1 s) h
theorem State.doSwap_only (s) : OnlyChanges [.stats, .ctrs, .hif, .err, .fab] s (State.doSwap s) := by
  unfold State.doSwap
  simp
@[simp] theorem State.doSwap_only_iff (s) (h : [.stats, .ctrs, .hif, .err, .fab] ⊆ ps) : OnlyChanges ps s0 (State.doSwap s) ↔ OnlyChanges ps s0 s :=
  onlyChanges_iff (State.doSwap_only s) h
theorem State.swap_only (s) : OnlyChanges [.stats, .ctrs, .hif, .err, .fab] s (State.swap s) := by
  unfold State.swap
  simp
@[simp] theorem State.swap_only_iff (s) (h : [.stats, .ctrs, .hif, .err, .fab] ⊆ ps) : OnlyChanges ps s0 (State.swap s) ↔ OnlyChanges ps s0 s :=
  onlyChanges_iff (State.swap_only s) h
theorem State.copyStart_only (s) : OnlyChanges [.fab] s (State.copyStart s) := by
  unfold State.copyStart
  simp
@[simp] theorem State.copyStart_only_iff (s) (h : [.fab] ⊆ ps) : OnlyChanges ps s0 (State.copyStart s) ↔ OnlyChanges ps s0 s :=
  onlyChanges_iff (State.copyStart_only s) h
theorem State.copyDone_only (s) : OnlyChanges [.fab] s (State.copyDone s) := by
  unfold State.copyDone
  simp
@[simp] theorem State.copyDone_only_iff (s) (h : [.fab] ⊆ ps) : OnlyChanges ps s0 (State.copyDone s) ↔ OnlyChanges ps s0 s :=
  onlyChanges_iff (State.copyDone_only s) h
theorem State.shadowWrite_only (s a1) : OnlyChanges [.regs, .stats, .hif, .fab] s (State.shadowWrite s a1) := by
  unfold State.shadowWrite
  simp
@[simp] theorem State.shadowWrite_only_iff (s a1) (h : [.regs, .stats, .hif, .fab] ⊆ ps) : OnlyChanges ps s0 (State.shadowWrite s a1) ↔ OnlyChanges ps s0 s :=
  onlyChanges_iff (State.shadowWrite_only s a1) h
theorem State.settle_only (s) : OnlyChanges [.regs, .stats, .ctrs, .hif, .err, .fab] s (State.settle s) := by
  unfold State.settle
  simp
@[simp] theorem State.settle_only_iff (s) (h : [.regs, .stats, .ctrs, .hif, .err, .fab] ⊆ ps) : OnlyChanges ps s0 (State.settle s) ↔ OnlyChanges ps s0 s :=
  onlyChanges_iff (State.settle_only s) h
theorem State.negotiate_only (s a1) : OnlyChanges [.stats, .ctrs, .hif, .err, .fab] s (State.negotiate s a1) := by
  unfold State.negotiate
  simp
@[simp] theorem State.negotiate_only_iff (s a1) (h : [.stats, .ctrs, .hif, .err, .fab] ⊆ ps) : OnlyChanges ps s0 (State.negotiate s a1) ↔ OnlyChanges ps s0 s :=
  onlyChanges_iff (State.negotiate_only s a1) h
theorem State.portLock_only (s a1) : OnlyChanges [.stats, .ctrs, .hif, .err, .fab] s (State.portLock s a1) := by
  unfold State.portLock
  simp
@[simp] theorem State.portLock_only_iff (s a1) (h : [.stats, .ctrs, .hif, .err, .fab] ⊆ ps) : OnlyChanges ps s0 (State.portLock s a1) ↔ OnlyChanges ps s0 s :=
  onlyChanges_iff (State.portLock_only s a1) h
theorem State.fabReady_only (s) : OnlyChanges [.stats, .ctrs, .hif, .err, .fab] s (State.fabReady s) := by
  unfold State.fabReady
  simp
@[simp] theorem State.fabReady_only_iff (s) (h : [.stats, .ctrs, .hif, .err, .fab] ⊆ ps) : OnlyChanges ps s0 (State.fabReady s) ↔ OnlyChanges ps s0 s :=
  onlyChanges_iff (State.fabReady_only s) h
theorem State.trainTimeout_only (s a1) : OnlyChanges [.stats, .ctrs, .cqf, .hif, .err, .fab] s (State.trainTimeout s a1) := by
  unfold State.trainTimeout
  simp
@[simp] theorem State.trainTimeout_only_iff (s a1) (h : [.stats, .ctrs, .cqf, .hif, .err, .fab] ⊆ ps) : OnlyChanges ps s0 (State.trainTimeout s a1) ↔ OnlyChanges ps s0 s :=
  onlyChanges_iff (State.trainTimeout_only s a1) h
theorem State.failedRetry_only (s a1) : OnlyChanges [.stats, .ctrs, .hif, .err, .fab] s (State.failedRetry s a1) := by
  unfold State.failedRetry
  simp
@[simp] theorem State.failedRetry_only_iff (s a1) (h : [.stats, .ctrs, .hif, .err, .fab] ⊆ ps) : OnlyChanges ps s0 (State.failedRetry s a1) ↔ OnlyChanges ps s0 s :=
  onlyChanges_iff (State.failedRetry_only s a1) h
theorem State.takeCtl_only (s) (p) (t) (r) (hr : State.takeCtl s p t = some r) : OnlyChanges [.fab] s r.2 := by
  unfold State.takeCtl at hr
  simp only [] at hr
  repeat' split at hr
  all_goals simp_all
  all_goals subst hr
  all_goals simp
theorem State.agree_only (s a1) : OnlyChanges [.stats, .ctrs, .hif, .err, .fab] s (State.agree s a1) := by
  unfold State.agree
  simp
@[simp] theorem State.agree_only_iff (s a1) (h : [.stats, .ctrs, .hif, .err, .fab] ⊆ ps) : OnlyChanges ps s0 (State.agree s a1) ↔ OnlyChanges ps s0 s :=
  onlyChanges_iff (State.agree_only s a1) h
theorem State.versionOffer_only (s a1) : OnlyChanges [.stats, .ctrs, .hif, .err, .fab] s (State.versionOffer s a1) := by
  unfold State.versionOffer
  split
  · simp
  · split
    · simp
    · rename_i h
      have k := State.takeCtl_only _ _ _ _ h
      dsimp only
      split <;>
        simp only [State.agree_only_iff, State.setPort_only_iff, State.evFab_only_iff, List.cons_subset, List.mem_cons, List.nil_subset, true_or, or_true, and_self] <;>
        exact (onlyChanges_iff k (by simp)).2 (onlyChanges_refl _ _)
@[simp] theorem State.versionOffer_only_iff (s a1) (h : [.stats, .ctrs, .hif, .err, .fab] ⊆ ps) : OnlyChanges ps s0 (State.versionOffer s a1) ↔ OnlyChanges ps s0 s :=
  onlyChanges_iff (State.versionOffer_only s a1) h
theorem State.versionAccept_only (s a1) : OnlyChanges [.stats, .ctrs, .hif, .err, .fab] s (State.versionAccept s a1) := by
  unfold State.versionAccept
  split
  · simp
  · split
    · simp
    · rename_i h
      have k := State.takeCtl_only _ _ _ _ h
      simp only [State.agree_only_iff, State.setPort_only_iff, List.cons_subset, List.mem_cons, List.nil_subset, true_or, or_true, and_self]
      exact (onlyChanges_iff k (by simp)).2 (onlyChanges_refl _ _)
@[simp] theorem State.versionAccept_only_iff (s a1) (h : [.stats, .ctrs, .hif, .err, .fab] ⊆ ps) : OnlyChanges ps s0 (State.versionAccept s a1) ↔ OnlyChanges ps s0 s :=
  onlyChanges_iff (State.versionAccept_only s a1) h
theorem State.versionRetry_only (s a1) : OnlyChanges [.stats, .ctrs, .hif, .err, .fab] s (State.versionRetry s a1) := by
  unfold State.versionRetry
  simp
@[simp] theorem State.versionRetry_only_iff (s a1) (h : [.stats, .ctrs, .hif, .err, .fab] ⊆ ps) : OnlyChanges ps s0 (State.versionRetry s a1) ↔ OnlyChanges ps s0 s :=
  onlyChanges_iff (State.versionRetry_only s a1) h
theorem State.linkNotice_only (s a1) : OnlyChanges [.stats, .ctrs, .cqf, .hif, .err, .fab] s (State.linkNotice s a1) := by
  unfold State.linkNotice
  split
  · simp
  · rename_i h
    have k := State.takeCtl_only _ _ _ _ h
    rw [State.portsChange_only_iff]
    · exact (onlyChanges_iff k (by simp)).2 (onlyChanges_refl _ _)
    · intro t
      dsimp only
      repeat' split
      all_goals simp
    · simp
@[simp] theorem State.linkNotice_only_iff (s a1) (h : [.stats, .ctrs, .cqf, .hif, .err, .fab] ⊆ ps) : OnlyChanges ps s0 (State.linkNotice s a1) ↔ OnlyChanges ps s0 s :=
  onlyChanges_iff (State.linkNotice_only s a1) h
theorem State.drainTimeout_only (s a1) : OnlyChanges [.stats, .ctrs, .cqf, .hif, .err, .fab] s (State.drainTimeout s a1) := by
  unfold State.drainTimeout
  simp
@[simp] theorem State.drainTimeout_only_iff (s a1) (h : [.stats, .ctrs, .cqf, .hif, .err, .fab] ⊆ ps) : OnlyChanges ps s0 (State.drainTimeout s a1) ↔ OnlyChanges ps s0 s :=
  onlyChanges_iff (State.drainTimeout_only s a1) h
theorem State.lockLoss_only (s a1) : OnlyChanges [.stats, .ctrs, .cqf, .hif, .err, .fab] s (State.lockLoss s a1) := by
  unfold State.lockLoss
  (repeat' (first | split | dsimp only)) <;> simp
@[simp] theorem State.lockLoss_only_iff (s a1) (h : [.stats, .ctrs, .cqf, .hif, .err, .fab] ⊆ ps) : OnlyChanges ps s0 (State.lockLoss s a1) ↔ OnlyChanges ps s0 s :=
  onlyChanges_iff (State.lockLoss_only s a1) h
theorem State.retrainDone_only (s a1 a2) : OnlyChanges [.stats, .ctrs, .cqf, .hif, .err, .fab] s (State.retrainDone s a1 a2) := by
  unfold State.retrainDone
  simp
@[simp] theorem State.retrainDone_only_iff (s a1 a2) (h : [.stats, .ctrs, .cqf, .hif, .err, .fab] ⊆ ps) : OnlyChanges ps s0 (State.retrainDone s a1 a2) ↔ OnlyChanges ps s0 s :=
  onlyChanges_iff (State.retrainDone_only s a1 a2) h
theorem State.retrainTimeout_only (s a1) : OnlyChanges [.stats, .ctrs, .cqf, .hif, .err, .fab] s (State.retrainTimeout s a1) := by
  unfold State.retrainTimeout
  simp
@[simp] theorem State.retrainTimeout_only_iff (s a1) (h : [.stats, .ctrs, .cqf, .hif, .err, .fab] ⊆ ps) : OnlyChanges ps s0 (State.retrainTimeout s a1) ↔ OnlyChanges ps s0 s :=
  onlyChanges_iff (State.retrainTimeout_only s a1) h
theorem State.portReset_only (s a1) : OnlyChanges [.stats, .ctrs, .hif, .err, .fab] s (State.portReset s a1) := by
  unfold State.portReset
  simp
@[simp] theorem State.portReset_only_iff (s a1) (h : [.stats, .ctrs, .hif, .err, .fab] ⊆ ps) : OnlyChanges ps s0 (State.portReset s a1) ↔ OnlyChanges ps s0 s :=
  onlyChanges_iff (State.portReset_only s a1) h
theorem State.portEnable_only (s a1 a2) : OnlyChanges [.regs, .stats, .ctrs, .cqf, .hif, .err, .fab] s (State.portEnable s a1 a2) := by
  unfold State.portEnable
  simp
@[simp] theorem State.portEnable_only_iff (s a1 a2) (h : [.regs, .stats, .ctrs, .cqf, .hif, .err, .fab] ⊆ ps) : OnlyChanges ps s0 (State.portEnable s a1 a2) ↔ OnlyChanges ps s0 s :=
  onlyChanges_iff (State.portEnable_only s a1 a2) h
theorem State.frameTransmit_only (s a1) : OnlyChanges [.stats, .ctrs, .cqf, .mem, .hif, .err, .mat, .vec, .nbu, .xch, .fab, .itk, .draws] s (State.frameTransmit s a1) := by
  unfold State.frameTransmit
  simp
@[simp] theorem State.frameTransmit_only_iff (s a1) (h : [.stats, .ctrs, .cqf, .mem, .hif, .err, .mat, .vec, .nbu, .xch, .fab, .itk, .draws] ⊆ ps) : OnlyChanges ps s0 (State.frameTransmit s a1) ↔ OnlyChanges ps s0 s :=
  onlyChanges_iff (State.frameTransmit_only s a1) h
theorem State.routeLast_only (s a1) : OnlyChanges [.ctrs, .fab] s (State.routeLast s a1) := by
  unfold State.routeLast
  (repeat' split) <;> simp
@[simp] theorem State.routeLast_only_iff (s a1) (h : [.ctrs, .fab] ⊆ ps) : OnlyChanges ps s0 (State.routeLast s a1) ↔ OnlyChanges ps s0 s :=
  onlyChanges_iff (State.routeLast_only s a1) h
theorem State.fabNotice_only (s a1) : OnlyChanges [.stats, .ctrs, .hif, .err, .xch, .fab] s (State.fabNotice s a1) := by
  unfold State.fabNotice
  refine (foldl_only (fun t p => ?_) _ _).2 ((foldl_only (fun t e => ?_) _ _).2 ((foldl_only (fun t x => ?_) _ _).2 (by simp)))
  · split <;> simp
  · split
    · split <;> simp
    · simp
  · simp
@[simp] theorem State.fabNotice_only_iff (s a1) (h : [.stats, .ctrs, .hif, .err, .xch, .fab] ⊆ ps) : OnlyChanges ps s0 (State.fabNotice s a1) ↔ OnlyChanges ps s0 s :=
  onlyChanges_iff (State.fabNotice_only s a1) h
theorem State.leave_only (s a1 a2) : OnlyChanges [.fab] s (State.leave s a1 a2) := by
  unfold State.leave
  simp
@[simp] theorem State.leave_only_iff (s a1 a2) (h : [.fab] ⊆ ps) : OnlyChanges ps s0 (State.leave s a1 a2) ↔ OnlyChanges ps s0 s :=
  onlyChanges_iff (State.leave_only s a1 a2) h
theorem State.markGranted_only (s a1 a2) : OnlyChanges [.fab] s (State.markGranted s a1 a2) := by
  unfold State.markGranted
  simp
@[simp] theorem State.markGranted_only_iff (s a1 a2) (h : [.fab] ⊆ ps) : OnlyChanges ps s0 (State.markGranted s a1 a2) ↔ OnlyChanges ps s0 s :=
  onlyChanges_iff (State.markGranted_only s a1 a2) h
theorem State.pktWrite_only (s a1) : OnlyChanges [.stats, .ctrs, .cqf, .mem, .hif, .err, .fab, .draws] s (State.pktWrite s a1) := by
  unfold State.pktWrite
  (repeat' (first | split | dsimp only)) <;> simp
@[simp] theorem State.pktWrite_only_iff (s a1) (h : [.stats, .ctrs, .cqf, .mem, .hif, .err, .fab, .draws] ⊆ ps) : OnlyChanges ps s0 (State.pktWrite s a1) ↔ OnlyChanges ps s0 s :=
  onlyChanges_iff (State.pktWrite_only s a1) h
theorem State.pktRead_only (s a1) : OnlyChanges [.stats, .ctrs, .mem, .hif, .err, .fab, .draws] s (State.pktRead s a1) := by
  unfold State.pktRead
  (repeat' (first | split | dsimp only)) <;> simp
@[simp] theorem State.pktRead_only_iff (s a1) (h : [.stats, .ctrs, .mem, .hif, .err, .fab, .draws] ⊆ ps) : OnlyChanges ps s0 (State.pktRead s a1) ↔ OnlyChanges ps s0 s :=
  onlyChanges_iff (State.pktRead_only s a1) h
theorem State.tagBack_only (s a1 a2) : OnlyChanges [.cqf, .fab] s (State.tagBack s a1 a2) := by
  unfold State.tagBack
  simp
@[simp] theorem State.tagBack_only_iff (s a1 a2) (h : [.cqf, .fab] ⊆ ps) : OnlyChanges ps s0 (State.tagBack s a1 a2) ↔ OnlyChanges ps s0 s :=
  onlyChanges_iff (State.tagBack_only s a1 a2) h
theorem State.tagLate_only (s a1) : OnlyChanges [.fab] s (State.tagLate s a1) := by
  unfold State.tagLate
  simp
@[simp] theorem State.tagLate_only_iff (s a1) (h : [.fab] ⊆ ps) : OnlyChanges ps s0 (State.tagLate s a1) ↔ OnlyChanges ps s0 s :=
  onlyChanges_iff (State.tagLate_only s a1) h
theorem State.pktCompletion_only (s a1) : OnlyChanges [.ctrs, .cqf, .hif, .fab] s (State.pktCompletion s a1) := by
  unfold State.pktCompletion
  (repeat' (first | split | dsimp only)) <;> simp
@[simp] theorem State.pktCompletion_only_iff (s a1) (h : [.ctrs, .cqf, .hif, .fab] ⊆ ps) : OnlyChanges ps s0 (State.pktCompletion s a1) ↔ OnlyChanges ps s0 s :=
  onlyChanges_iff (State.pktCompletion_only s a1) h
theorem State.pktRefusal_only (s a1) : OnlyChanges [.stats, .ctrs, .cqf, .mem, .hif, .err, .mat, .vec, .nbu, .xch, .fab, .itk, .draws] s (State.pktRefusal s a1) := by
  unfold State.pktRefusal
  (repeat' (first | split | dsimp only)) <;> simp
@[simp] theorem State.pktRefusal_only_iff (s a1) (h : [.stats, .ctrs, .cqf, .mem, .hif, .err, .mat, .vec, .nbu, .xch, .fab, .itk, .draws] ⊆ ps) : OnlyChanges ps s0 (State.pktRefusal s a1) ↔ OnlyChanges ps s0 s :=
  onlyChanges_iff (State.pktRefusal_only s a1) h
theorem State.cplTimeout_only (s a1) : OnlyChanges [.stats, .ctrs, .cqf, .mem, .hif, .err, .mat, .vec, .nbu, .xch, .fab, .itk, .draws] s (State.cplTimeout s a1) := by
  unfold State.cplTimeout
  (repeat' split) <;> simp
@[simp] theorem State.cplTimeout_only_iff (s a1) (h : [.stats, .ctrs, .cqf, .mem, .hif, .err, .mat, .vec, .nbu, .xch, .fab, .itk, .draws] ⊆ ps) : OnlyChanges ps s0 (State.cplTimeout s a1) ↔ OnlyChanges ps s0 s :=
  onlyChanges_iff (State.cplTimeout_only s a1) h
theorem State.segLand_only (s a1 a2 a3 a4) : OnlyChanges [.stats, .ctrs, .cqf, .mem, .hif, .err, .xch, .fab, .draws] s (State.segLand s a1 a2 a3 a4) := by
  unfold State.segLand
  (repeat' (first | split | dsimp only)) <;> simp
@[simp] theorem State.segLand_only_iff (s a1 a2 a3 a4) (h : [.stats, .ctrs, .cqf, .mem, .hif, .err, .xch, .fab, .draws] ⊆ ps) : OnlyChanges ps s0 (State.segLand s a1 a2 a3 a4) ↔ OnlyChanges ps s0 s :=
  onlyChanges_iff (State.segLand_only s a1 a2 a3 a4) h
theorem State.segIn_only (s a1 a2 a3 a4) : OnlyChanges [.stats, .ctrs, .cqf, .mem, .hif, .err, .xch, .fab, .draws] s (State.segIn s a1 a2 a3 a4) := by
  unfold State.segIn
  (repeat' split) <;> simp
@[simp] theorem State.segIn_only_iff (s a1 a2 a3 a4) (h : [.stats, .ctrs, .cqf, .mem, .hif, .err, .xch, .fab, .draws] ⊆ ps) : OnlyChanges ps s0 (State.segIn s a1 a2 a3 a4) ↔ OnlyChanges ps s0 s :=
  onlyChanges_iff (State.segIn_only s a1 a2 a3 a4) h
theorem State.pktSegment_only (s a1 a2 a3) : OnlyChanges [.stats, .ctrs, .cqf, .mem, .hif, .err, .xch, .fab, .draws] s (State.pktSegment s a1 a2 a3) := by
  unfold State.pktSegment
  (repeat' split) <;> simp
@[simp] theorem State.pktSegment_only_iff (s a1 a2 a3) (h : [.stats, .ctrs, .cqf, .mem, .hif, .err, .xch, .fab, .draws] ⊆ ps) : OnlyChanges ps s0 (State.pktSegment s a1 a2 a3) ↔ OnlyChanges ps s0 s :=
  onlyChanges_iff (State.pktSegment_only s a1 a2 a3) h
theorem State.pktNotice_only (s a1) : OnlyChanges [.fab] s (State.pktNotice s a1) := by
  unfold State.pktNotice
  (repeat' split) <;> simp
@[simp] theorem State.pktNotice_only_iff (s a1) (h : [.fab] ⊆ ps) : OnlyChanges ps s0 (State.pktNotice s a1) ↔ OnlyChanges ps s0 s :=
  onlyChanges_iff (State.pktNotice_only s a1) h
theorem State.pktLsa_only (s a1) : OnlyChanges [.stats, .hif, .fab] s (State.pktLsa s a1) := by
  unfold State.pktLsa
  (repeat' split) <;> simp
@[simp] theorem State.pktLsa_only_iff (s a1) (h : [.stats, .hif, .fab] ⊆ ps) : OnlyChanges ps s0 (State.pktLsa s a1) ↔ OnlyChanges ps s0 s :=
  onlyChanges_iff (State.pktLsa_only s a1) h
theorem State.pktGrant_only (s a1) : OnlyChanges [.regs, .stats, .ctrs, .hif, .err, .fab] s (State.pktGrant s a1) := by
  unfold State.pktGrant
  (repeat' split) <;> simp
@[simp] theorem State.pktGrant_only_iff (s a1) (h : [.regs, .stats, .ctrs, .hif, .err, .fab] ⊆ ps) : OnlyChanges ps s0 (State.pktGrant s a1) ↔ OnlyChanges ps s0 s :=
  onlyChanges_iff (State.pktGrant_only s a1) h
@[simp] theorem State.byWrite_only_iff {ps : List Piece} {s0 : State} (s) (f : State → State) (hf : ∀ t, OnlyChanges ps t (f t)) (h : Piece.cfg ∈ ps) :
    OnlyChanges ps s0 (State.byWrite s f) ↔ OnlyChanges ps s0 s := by
  refine onlyChanges_iff (qs := ps) ?_ (List.Subset.refl _)
  unfold State.byWrite
  dsimp only
  split <;> simp [hf, h]
theorem State.nop_only (s a1) : OnlyChanges [.cqf] s (State.nop s a1) := by
  unfold State.nop
  (repeat' split) <;> simp
@[simp] theorem State.nop_only_iff (s a1) (h : [.cqf] ⊆ ps) : OnlyChanges ps s0 (State.nop s a1) ↔ OnlyChanges ps s0 s :=
  onlyChanges_iff (State.nop_only s a1) h
theorem State.writeImm_only (s a1) : OnlyChanges [.stats, .ctrs, .cqf, .mem, .hif, .err, .fab, .draws] s (State.writeImm s a1) := by
  unfold State.writeImm
  (repeat' split) <;> simp
@[simp] theorem State.writeImm_only_iff (s a1) (h : [.stats, .ctrs, .cqf, .mem, .hif, .err, .fab, .draws] ⊆ ps) : OnlyChanges ps s0 (State.writeImm s a1) ↔ OnlyChanges ps s0 s :=
  onlyChanges_iff (State.writeImm_only s a1) h
theorem State.tokenSet_only (s a1) : OnlyChanges [.cqf] s (State.tokenSet s a1) := by
  unfold State.tokenSet
  (repeat' split) <;> simp
@[simp] theorem State.tokenSet_only_iff (s a1) (h : [.cqf] ⊆ ps) : OnlyChanges ps s0 (State.tokenSet s a1) ↔ OnlyChanges ps s0 s :=
  onlyChanges_iff (State.tokenSet_only s a1) h
theorem State.slipEffect_only (s a1 a2 a3) : OnlyChanges [.cqf] s (State.slipEffect s a1 a2 a3) := by
  unfold State.slipEffect
  (repeat' split) <;> simp
@[simp] theorem State.slipEffect_only_iff (s a1 a2 a3) (h : [.cqf] ⊆ ps) : OnlyChanges ps s0 (State.slipEffect s a1 a2 a3) ↔ OnlyChanges ps s0 s :=
  onlyChanges_iff (State.slipEffect_only s a1 a2 a3) h
theorem State.slipCmd_only (s a1 a2) : OnlyChanges [.stats, .cqf] s (State.slipCmd s a1 a2) := by
  unfold State.slipCmd
  (repeat' split) <;> simp
@[simp] theorem State.slipCmd_only_iff (s a1 a2) (h : [.stats, .cqf] ⊆ ps) : OnlyChanges ps s0 (State.slipCmd s a1 a2) ↔ OnlyChanges ps s0 s :=
  onlyChanges_iff (State.slipCmd_only s a1 a2) h
theorem State.refuseSl_only (s a1) : OnlyChanges [.stats] s (State.refuseSl s a1) := by
  unfold State.refuseSl
  simp
@[simp] theorem State.refuseSl_only_iff (s a1) (h : [.stats] ⊆ ps) : OnlyChanges ps s0 (State.refuseSl s a1) ↔ OnlyChanges ps s0 s :=
  onlyChanges_iff (State.refuseSl_only s a1) h
theorem State.slipEnable_only (s a1 a2) : OnlyChanges [.regs, .stats, .cqf] s (State.slipEnable s a1 a2) := by
  unfold State.slipEnable
  simp
@[simp] theorem State.slipEnable_only_iff (s a1 a2) (h : [.regs, .stats, .cqf] ⊆ ps) : OnlyChanges ps s0 (State.slipEnable s a1 a2) ↔ OnlyChanges ps s0 s :=
  onlyChanges_iff (State.slipEnable_only s a1 a2) h
theorem State.refuseB_only (s a1 a2) : OnlyChanges [.stats] s (State.refuseB s a1 a2) := by
  unfold State.refuseB
  simp
@[simp] theorem State.refuseB_only_iff (s a1 a2) (h : [.stats] ⊆ ps) : OnlyChanges ps s0 (State.refuseB s a1 a2) ↔ OnlyChanges ps s0 s :=
  onlyChanges_iff (State.refuseB_only s a1 a2) h
theorem State.berthOpen_only (s a1) : OnlyChanges [.regs, .stats] s (State.berthOpen s a1) := by
  unfold State.berthOpen
  simp
@[simp] theorem State.berthOpen_only_iff (s a1) (h : [.regs, .stats] ⊆ ps) : OnlyChanges ps s0 (State.berthOpen s a1) ↔ OnlyChanges ps s0 s :=
  onlyChanges_iff (State.berthOpen_only s a1) h
theorem State.emptyBerth_only (s a1) : OnlyChanges [.cqf, .xch, .fab] s (State.emptyBerth s a1) := by
  unfold State.emptyBerth
  simp [only_upd]
@[simp] theorem State.emptyBerth_only_iff (s a1) (h : [.cqf, .xch, .fab] ⊆ ps) : OnlyChanges ps s0 (State.emptyBerth s a1) ↔ OnlyChanges ps s0 s :=
  onlyChanges_iff (State.emptyBerth_only s a1) h
theorem State.berthClose_only (s a1) : OnlyChanges [.regs, .stats, .cqf, .xch, .fab] s (State.berthClose s a1) := by
  unfold State.berthClose
  simp
@[simp] theorem State.berthClose_only_iff (s a1) (h : [.regs, .stats, .cqf, .xch, .fab] ⊆ ps) : OnlyChanges ps s0 (State.berthClose s a1) ↔ OnlyChanges ps s0 s :=
  onlyChanges_iff (State.berthClose_only s a1) h
theorem State.landingGrant_only (s) : OnlyChanges [.stats, .cqf, .hif, .fab] s (State.landingGrant s) := by
  unfold State.landingGrant
  (repeat' split) <;> simp
@[simp] theorem State.landingGrant_only_iff (s) (h : [.stats, .cqf, .hif, .fab] ⊆ ps) : OnlyChanges ps s0 (State.landingGrant s) ↔ OnlyChanges ps s0 s :=
  onlyChanges_iff (State.landingGrant_only s) h
theorem State.weirWrite_only (s a1 a2) : OnlyChanges [.regs, .stats, .hif] s (State.weirWrite s a1 a2) := by
  unfold State.weirWrite
  simp
@[simp] theorem State.weirWrite_only_iff (s a1 a2) (h : [.regs, .stats, .hif] ⊆ ps) : OnlyChanges ps s0 (State.weirWrite s a1 a2) ↔ OnlyChanges ps s0 s :=
  onlyChanges_iff (State.weirWrite_only s a1 a2) h
theorem State.cqfPeakClr_only (s) : OnlyChanges [.cqf] s (State.cqfPeakClr s) := by
  unfold State.cqfPeakClr
  simp
@[simp] theorem State.cqfPeakClr_only_iff (s) (h : [.cqf] ⊆ ps) : OnlyChanges ps s0 (State.cqfPeakClr s) ↔ OnlyChanges ps s0 s :=
  onlyChanges_iff (State.cqfPeakClr_only s) h
theorem State.dispatchHold_only (s a1) : OnlyChanges [.regs] s (State.dispatchHold s a1) := by
  unfold State.dispatchHold
  simp
@[simp] theorem State.dispatchHold_only_iff (s a1) (h : [.regs] ⊆ ps) : OnlyChanges ps s0 (State.dispatchHold s a1) ↔ OnlyChanges ps s0 s :=
  onlyChanges_iff (State.dispatchHold_only s a1) h
end Sys2Proof.Machine
end

