-- ==== Sys2Proof/Laws/FrameSystem.lean ====
section
/-!
SUPPORT. Frames of the operations of the security block, the configuration store, errors, resets, power, firmware and the host interface: which blocks of the state each of them may change.
-/
set_option maxRecDepth 4000
namespace Sys2Proof.Machine
variable {ps : List Piece} {s0 : State}
theorem State.fwLocal_only_aux (a0 a1 a2 a3 s) : OnlyChanges [.stats, .ctrs, .mem, .hif, .err, .draws] s0 (State.fwLocal a0 a1 a2 a3 s).2 ↔ OnlyChanges [.stats, .ctrs, .mem, .hif, .err, .draws] s0 s := by
  fun_induction State.fwLocal <;> simp_all +zetaDelta
theorem State.fwLocal_only (a0 a1 a2 a3 s) : OnlyChanges [.stats, .ctrs, .mem, .hif, .err, .draws] s (State.fwLocal a0 a1 a2 a3 s).2 := 
  (State.fwLocal_only_aux a0 a1 a2 a3 s).2 (onlyChanges_refl _ _)
@[simp] theorem State.fwLocal_only_iff (a0 a1 a2 a3 s) (h : [.stats, .ctrs, .mem, .hif, .err, .draws] ⊆ ps) : OnlyChanges ps s0 (State.fwLocal a0 a1 a2 a3 s).2 ↔ OnlyChanges ps s0 s :=
  onlyChanges_iff (State.fwLocal_only a0 a1 a2 a3 s) h
theorem State.fwHost_only (s a1 a2) : OnlyChanges [.stats, .ctrs, .hif, .draws] s (State.fwHost s a1 a2).2 := by
  unfold State.fwHost
  simp
@[simp] theorem State.fwHost_only_iff (s a1 a2) (h : [.stats, .ctrs, .hif, .draws] ⊆ ps) : OnlyChanges ps s0 (State.fwHost s a1 a2).2 ↔ OnlyChanges ps s0 s :=
  onlyChanges_iff (State.fwHost_only s a1 a2) h
theorem State.fwPeer_only (s a1 a2) : OnlyChanges [.draws] s (State.fwPeer s a1 a2).2 := by
  unfold State.fwPeer
  simp
@[simp] theorem State.fwPeer_only_iff (s a1 a2) (h : [.draws] ⊆ ps) : OnlyChanges ps s0 (State.fwPeer s a1 a2).2 ↔ OnlyChanges ps s0 s :=
  onlyChanges_iff (State.fwPeer_only s a1 a2) h
theorem State.fwRead_only (s a1 a2 a3) : OnlyChanges [.stats, .ctrs, .mem, .hif, .err, .draws] s (State.fwRead s a1 a2 a3).2 := by
  unfold State.fwRead
  simp
@[simp] theorem State.fwRead_only_iff (s a1 a2 a3) (h : [.stats, .ctrs, .mem, .hif, .err, .draws] ⊆ ps) : OnlyChanges ps s0 (State.fwRead s a1 a2 a3).2 ↔ OnlyChanges ps s0 s :=
  onlyChanges_iff (State.fwRead_only s a1 a2 a3) h
theorem State.verifyFailed_only (s) : OnlyChanges [.stats, .ctrs, .hif] s (State.verifyFailed s) := by
  unfold State.verifyFailed
  simp
@[simp] theorem State.verifyFailed_only_iff (s) (h : [.stats, .ctrs, .hif] ⊆ ps) : OnlyChanges ps s0 (State.verifyFailed s) ↔ OnlyChanges ps s0 s :=
  onlyChanges_iff (State.verifyFailed_only s) h
theorem State.verify_only (s a1 a2 a3 a4) : OnlyChanges [.stats, .ctrs, .hif] s (State.verify s a1 a2 a3 a4).2 := by
  unfold State.verify
  simp
@[simp] theorem State.verify_only_iff (s a1 a2 a3 a4) (h : [.stats, .ctrs, .hif] ⊆ ps) : OnlyChanges ps s0 (State.verify s a1 a2 a3 a4).2 ↔ OnlyChanges ps s0 s :=
  onlyChanges_iff (State.verify_only s a1 a2 a3 a4) h
theorem State.identify_only (s a1 a2) : OnlyChanges [.stats, .hif, .sec] s (State.identify s a1 a2) := by
  unfold State.identify
  simp
@[simp] theorem State.identify_only_iff (s a1 a2) (h : [.stats, .hif, .sec] ⊆ ps) : OnlyChanges ps s0 (State.identify s a1 a2) ↔ OnlyChanges ps s0 s :=
  onlyChanges_iff (State.identify_only s a1 a2) h
theorem State.checkDevCert_only (s) : OnlyChanges [.stats, .ctrs, .hif, .sec] s (State.checkDevCert s) := by
  unfold State.checkDevCert
  simp
@[simp] theorem State.checkDevCert_only_iff (s) (h : [.stats, .ctrs, .hif, .sec] ⊆ ps) : OnlyChanges ps s0 (State.checkDevCert s) ↔ OnlyChanges ps s0 s :=
  onlyChanges_iff (State.checkDevCert_only s) h
theorem State.extendProg_only (s a1) : OnlyChanges [.ctrs, .sec] s (State.extendProg s a1) := by
  unfold State.extendProg
  simp
@[simp] theorem State.extendProg_only_iff (s a1) (h : [.ctrs, .sec] ⊆ ps) : OnlyChanges ps s0 (State.extendProg s a1) ↔ OnlyChanges ps s0 s :=
  onlyChanges_iff (State.extendProg_only s a1) h
theorem State.clearProg_only (s) : OnlyChanges [.ctrs, .sec] s (State.clearProg s) := by
  unfold State.clearProg
  simp
@[simp] theorem State.clearProg_only_iff (s) (h : [.ctrs, .sec] ⊆ ps) : OnlyChanges ps s0 (State.clearProg s) ↔ OnlyChanges ps s0 s :=
  onlyChanges_iff (State.clearProg_only s) h
theorem State.report_only (s a1 a2) : OnlyChanges [.ctrs] s (State.report s a1 a2).2 := by
  unfold State.report
  simp
@[simp] theorem State.report_only_iff (s a1 a2) (h : [.ctrs] ⊆ ps) : OnlyChanges ps s0 (State.report s a1 a2).2 ↔ OnlyChanges ps s0 s :=
  onlyChanges_iff (State.report_only s a1 a2) h
theorem recordVerdict_only (v : Bool × State) : OnlyChanges [.stats, .hif] v.2 (recordVerdict v).2 := by
  unfold recordVerdict
  split <;> simp
@[simp] theorem recordVerdict_only_iff {ps : List Piece} {s0 : State} (v : Bool × State) (h : [.stats, .hif] ⊆ ps) : OnlyChanges ps s0 (recordVerdict v).2 ↔ OnlyChanges ps s0 v.2 :=
  onlyChanges_iff (recordVerdict_only v) h
theorem State.verifyRecord_only (s a1 a2) : OnlyChanges [.stats, .ctrs, .hif] s (State.verifyRecord s a1 a2).2 := by
  exact (recordVerdict_only_iff _ (by simp)).2 ((State.verify_only_iff _ _ _ _ _ (by simp)).2 (onlyChanges_refl _ _))
@[simp] theorem State.verifyRecord_only_iff (s a1 a2) (h : [.stats, .ctrs, .hif] ⊆ ps) : OnlyChanges ps s0 (State.verifyRecord s a1 a2).2 ↔ OnlyChanges ps s0 s :=
  onlyChanges_iff (State.verifyRecord_only s a1 a2) h
theorem State.applyValues_only (s a1 a2 a3 a4 a5 a6 a7) : OnlyChanges [.regs, .sec, .cfg, .nbu, .fab] s (State.applyValues s a1 a2 a3 a4 a5 a6 a7) := by
  unfold State.applyValues
  dsimp only
  (repeat' split) <;> simp [only_upd]
@[simp] theorem State.applyValues_only_iff (s a1 a2 a3 a4 a5 a6 a7) (h : [.regs, .sec, .cfg, .nbu, .fab] ⊆ ps) : OnlyChanges ps s0 (State.applyValues s a1 a2 a3 a4 a5 a6 a7) ↔ OnlyChanges ps s0 s :=
  onlyChanges_iff (State.applyValues_only s a1 a2 a3 a4 a5 a6 a7) h
theorem State.applyRecord_only (s a1 a2) : OnlyChanges [.regs, .sec, .cfg, .nbu, .fab] s (State.applyRecord s a1 a2) := by
  unfold State.applyRecord
  simp
@[simp] theorem State.applyRecord_only_iff (s a1 a2) (h : [.regs, .sec, .cfg, .nbu, .fab] ⊆ ps) : OnlyChanges ps s0 (State.applyRecord s a1 a2) ↔ OnlyChanges ps s0 s :=
  onlyChanges_iff (State.applyRecord_only s a1 a2) h
theorem State.recover_only (s) : OnlyChanges [.cfg, .pwr] s (State.recover s) := by
  unfold State.recover
  (repeat' split) <;> simp [only_upd]
@[simp] theorem State.recover_only_iff (s) (h : [.cfg, .pwr] ⊆ ps) : OnlyChanges ps s0 (State.recover s) ↔ OnlyChanges ps s0 s :=
  onlyChanges_iff (State.recover_only s) h
theorem State.adopt_only (s) : OnlyChanges [.cfg] s (State.adopt s) := by
  unfold State.adopt
  simp
@[simp] theorem State.adopt_only_iff (s) (h : [.cfg] ⊆ ps) : OnlyChanges ps s0 (State.adopt s) ↔ OnlyChanges ps s0 s :=
  onlyChanges_iff (State.adopt_only s) h
theorem State.adoptSelf_only (s) : OnlyChanges [.stats, .cfg] s (State.adoptSelf s) := by
  unfold State.adoptSelf
  simp
@[simp] theorem State.adoptSelf_only_iff (s) (h : [.stats, .cfg] ⊆ ps) : OnlyChanges ps s0 (State.adoptSelf s) ↔ OnlyChanges ps s0 s :=
  onlyChanges_iff (State.adoptSelf_only s) h
theorem State.setRef_only (s a1) : OnlyChanges [.regs, .cfg] s (State.setRef s a1) := by
  unfold State.setRef
  simp
@[simp] theorem State.setRef_only_iff (s a1) (h : [.regs, .cfg] ⊆ ps) : OnlyChanges ps s0 (State.setRef s a1) ↔ OnlyChanges ps s0 s :=
  onlyChanges_iff (State.setRef_only s a1) h
theorem State.refHiWrite_only (s a1) : OnlyChanges [.regs, .cfg] s (State.refHiWrite s a1) := by
  unfold State.refHiWrite
  simp
@[simp] theorem State.refHiWrite_only_iff (s a1) (h : [.regs, .cfg] ⊆ ps) : OnlyChanges ps s0 (State.refHiWrite s a1) ↔ OnlyChanges ps s0 s :=
  onlyChanges_iff (State.refHiWrite_only s a1) h
theorem State.scan_only (s) : OnlyChanges [.regs, .ctrs, .cqf, .cfg] s (State.scan s).2 := by
  unfold State.scan
  simp
@[simp] theorem State.scan_only_iff (s) (h : [.regs, .ctrs, .cqf, .cfg] ⊆ ps) : OnlyChanges ps s0 (State.scan s).2 ↔ OnlyChanges ps s0 s :=
  onlyChanges_iff (State.scan_only s) h
theorem State.crcReact_only (s) : OnlyChanges [.regs, .stats, .ctrs, .cqf, .hif, .err] s (State.crcReact s) := by
  unfold State.crcReact
  simp
@[simp] theorem State.crcReact_only_iff (s) (h : [.regs, .stats, .ctrs, .cqf, .hif, .err] ⊆ ps) : OnlyChanges ps s0 (State.crcReact s) ↔ OnlyChanges ps s0 s :=
  onlyChanges_iff (State.crcReact_only s) h
theorem State.regUpset_only (s a1 a2 a3) : OnlyChanges [.regs] s (State.regUpset s a1 a2 a3) := by
  unfold State.regUpset
  (repeat' (first | split | dsimp only)) <;> simp [only_upd]
@[simp] theorem State.regUpset_only_iff (s a1 a2 a3) (h : [.regs] ⊆ ps) : OnlyChanges ps s0 (State.regUpset s a1 a2 a3) ↔ OnlyChanges ps s0 s :=
  onlyChanges_iff (State.regUpset_only s a1 a2 a3) h
theorem State.regUpsets_only (s a1) : OnlyChanges [.regs] s (State.regUpsets s a1) := by
  unfold State.regUpsets
  simp
@[simp] theorem State.regUpsets_only_iff (s a1) (h : [.regs] ⊆ ps) : OnlyChanges ps s0 (State.regUpsets s a1) ↔ OnlyChanges ps s0 s :=
  onlyChanges_iff (State.regUpsets_only s a1) h
theorem State.voteAll_only (s) : OnlyChanges [.regs, .stats, .ctrs, .hif, .err] s (State.voteAll s) := by
  unfold State.voteAll
  simp
@[simp] theorem State.voteAll_only_iff (s) (h : [.regs, .stats, .ctrs, .hif, .err] ⊆ ps) : OnlyChanges ps s0 (State.voteAll s) ↔ OnlyChanges ps s0 s :=
  onlyChanges_iff (State.voteAll_only s) h
theorem State.voteScan_only (s) : OnlyChanges [.regs, .stats, .ctrs, .hif, .err, .cfg] s (State.voteScan s) := by
  unfold State.voteScan
  simp
@[simp] theorem State.voteScan_only_iff (s) (h : [.regs, .stats, .ctrs, .hif, .err, .cfg] ⊆ ps) : OnlyChanges ps s0 (State.voteScan s) ↔ OnlyChanges ps s0 s :=
  onlyChanges_iff (State.voteScan_only s) h
theorem State.writeSlot_only (s a1) : OnlyChanges [.flash] s (State.writeSlot s a1) := by
  unfold State.writeSlot
  simp
@[simp] theorem State.writeSlot_only_iff (s a1) (h : [.flash] ⊆ ps) : OnlyChanges ps s0 (State.writeSlot s a1) ↔ OnlyChanges ps s0 s :=
  onlyChanges_iff (State.writeSlot_only s a1) h
theorem State.commitRecord_only (s) : OnlyChanges [.flash, .cfg] s (State.commitRecord s) := by
  unfold State.commitRecord
  dsimp only
  (repeat' split) <;> simp [only_upd]
@[simp] theorem State.commitRecord_only_iff (s) (h : [.flash, .cfg] ⊆ ps) : OnlyChanges ps s0 (State.commitRecord s) ↔ OnlyChanges ps s0 s :=
  onlyChanges_iff (State.commitRecord_only s) h
theorem State.setScrub_only (s a1 a2) : OnlyChanges [.mem] s (State.setScrub s a1 a2) := by
  unfold State.setScrub
  simp
@[simp] theorem State.setScrub_only_iff (s a1 a2) (h : [.mem] ⊆ ps) : OnlyChanges ps s0 (State.setScrub s a1 a2) ↔ OnlyChanges ps s0 s :=
  onlyChanges_iff (State.setScrub_only s a1 a2) h
theorem State.strike_only (s a1) : OnlyChanges [.mem] s (State.strike s a1) := by
  unfold State.strike
  simp
@[simp] theorem State.strike_only_iff (s a1) (h : [.mem] ⊆ ps) : OnlyChanges ps s0 (State.strike s a1) ↔ OnlyChanges ps s0 s :=
  onlyChanges_iff (State.strike_only s a1) h
theorem State.scrubNext_only (s a1) : OnlyChanges [.ctrs, .mem] s (State.scrubNext s a1) := by
  unfold State.scrubNext
  simp
@[simp] theorem State.scrubNext_only_iff (s a1) (h : [.ctrs, .mem] ⊆ ps) : OnlyChanges ps s0 (State.scrubNext s a1) ↔ OnlyChanges ps s0 s :=
  onlyChanges_iff (State.scrubNext_only s a1) h
theorem State.scrubCount_only (s a1 a2) : OnlyChanges [.stats, .ctrs, .mem, .hif, .err] s (State.scrubCount s a1 a2) := by
  unfold State.scrubCount
  simp
@[simp] theorem State.scrubCount_only_iff (s a1 a2) (h : [.stats, .ctrs, .mem, .hif, .err] ⊆ ps) : OnlyChanges ps s0 (State.scrubCount s a1 a2) ↔ OnlyChanges ps s0 s :=
  onlyChanges_iff (State.scrubCount_only s a1 a2) h
theorem State.scrubWord_only (s a1 a2) : OnlyChanges [.stats, .ctrs, .mem, .hif, .err] s (State.scrubWord s a1 a2) := by
  unfold State.scrubWord
  (repeat' (first | split | dsimp only)) <;> simp
@[simp] theorem State.scrubWord_only_iff (s a1 a2) (h : [.stats, .ctrs, .mem, .hif, .err] ⊆ ps) : OnlyChanges ps s0 (State.scrubWord s a1 a2) ↔ OnlyChanges ps s0 s :=
  onlyChanges_iff (State.scrubWord_only s a1 a2) h
theorem State.scrubRead_only (s a1 a2) : OnlyChanges [.stats, .ctrs, .mem, .hif, .err] s (State.scrubRead s a1 a2) := by
  unfold State.scrubRead
  (repeat' split) <;> simp
@[simp] theorem State.scrubRead_only_iff (s a1 a2) (h : [.stats, .ctrs, .mem, .hif, .err] ⊆ ps) : OnlyChanges ps s0 (State.scrubRead s a1 a2) ↔ OnlyChanges ps s0 s :=
  onlyChanges_iff (State.scrubRead_only s a1 a2) h
theorem State.qualWrite_only (s a1) : OnlyChanges [.regs, .stats] s (State.qualWrite s a1) := by
  unfold State.qualWrite
  simp
@[simp] theorem State.qualWrite_only_iff (s a1) (h : [.regs, .stats] ⊆ ps) : OnlyChanges ps s0 (State.qualWrite s a1) ↔ OnlyChanges ps s0 s :=
  onlyChanges_iff (State.qualWrite_only s a1) h
theorem State.pcSet_only (s a1 a2 a3 a4) : OnlyChanges [.stats, .ctrs, .hif, .err] s (State.pcSet s a1 a2 a3 a4) := by
  unfold State.pcSet
  simp
@[simp] theorem State.pcSet_only_iff (s a1 a2 a3 a4) (h : [.stats, .ctrs, .hif, .err] ⊆ ps) : OnlyChanges ps s0 (State.pcSet s a1 a2 a3 a4) ↔ OnlyChanges ps s0 s :=
  onlyChanges_iff (State.pcSet_only s a1 a2 a3 a4) h
theorem State.unitSet_only (s a1 a2 a3 a4) : OnlyChanges [.stats, .ctrs, .hif, .err, .mat, .nbu] s (State.unitSet s a1 a2 a3 a4) := by
  unfold State.unitSet
  (repeat' split) <;> simp
@[simp] theorem State.unitSet_only_iff (s a1 a2 a3 a4) (h : [.stats, .ctrs, .hif, .err, .mat, .nbu] ⊆ ps) : OnlyChanges ps s0 (State.unitSet s a1 a2 a3 a4) ↔ OnlyChanges ps s0 s :=
  onlyChanges_iff (State.unitSet_only s a1 a2 a3 a4) h
theorem State.unitLeave_only (s a1) : OnlyChanges [.stats, .ctrs, .hif, .err, .mat, .nbu] s (State.unitLeave s a1) := by
  unfold State.unitLeave
  (repeat' split) <;> simp
@[simp] theorem State.unitLeave_only_iff (s a1) (h : [.stats, .ctrs, .hif, .err, .mat, .nbu] ⊆ ps) : OnlyChanges ps s0 (State.unitLeave s a1) ↔ OnlyChanges ps s0 s :=
  onlyChanges_iff (State.unitLeave_only s a1) h
theorem State.svcOut_only (s a1) : OnlyChanges [.stats, .ctrs, .hif, .err, .mat, .nbu] s (State.svcOut s a1) := by
  unfold State.svcOut
  (repeat' split) <;> simp
@[simp] theorem State.svcOut_only_iff (s a1) (h : [.stats, .ctrs, .hif, .err, .mat, .nbu] ⊆ ps) : OnlyChanges ps s0 (State.svcOut s a1) ↔ OnlyChanges ps s0 s :=
  onlyChanges_iff (State.svcOut_only s a1) h
theorem State.requalify_only (s a1) : OnlyChanges [.stats, .ctrs, .hif, .err, .mat, .nbu] s (State.requalify s a1) := by
  unfold State.requalify
  simp
@[simp] theorem State.requalify_only_iff (s a1) (h : [.stats, .ctrs, .hif, .err, .mat, .nbu] ⊆ ps) : OnlyChanges ps s0 (State.requalify s a1) ↔ OnlyChanges ps s0 s :=
  onlyChanges_iff (State.requalify_only s a1) h
theorem State.admitSvc_only (s a1) : OnlyChanges [.stats, .ctrs, .hif, .err, .mat, .nbu] s (State.admitSvc s a1) := by
  unfold State.admitSvc
  simp
@[simp] theorem State.admitSvc_only_iff (s a1) (h : [.stats, .ctrs, .hif, .err, .mat, .nbu] ⊆ ps) : OnlyChanges ps s0 (State.admitSvc s a1) ↔ OnlyChanges ps s0 s :=
  onlyChanges_iff (State.admitSvc_only s a1) h
theorem State.trainingRecord_only (s a1 a2 a3 a4) : OnlyChanges [.stats, .ctrs, .hif, .err] s (State.trainingRecord s a1 a2 a3 a4) := by
  unfold State.trainingRecord
  simp
@[simp] theorem State.trainingRecord_only_iff (s a1 a2 a3 a4) (h : [.stats, .ctrs, .hif, .err] ⊆ ps) : OnlyChanges ps s0 (State.trainingRecord s a1 a2 a3 a4) ↔ OnlyChanges ps s0 s :=
  onlyChanges_iff (State.trainingRecord_only s a1 a2 a3 a4) h
theorem State.pcTrained_only (s a1 a2) : OnlyChanges [.err] s (State.pcTrained s a1 a2) := by
  unfold State.pcTrained
  simp
@[simp] theorem State.pcTrained_only_iff (s a1 a2) (h : [.err] ⊆ ps) : OnlyChanges ps s0 (State.pcTrained s a1 a2) ↔ OnlyChanges ps s0 s :=
  onlyChanges_iff (State.pcTrained_only s a1 a2) h
theorem State.requalEnd_only (s a1 a2) : OnlyChanges [.stats, .ctrs, .hif, .err, .mat, .nbu] s (State.requalEnd s a1 a2) := by
  unfold State.requalEnd
  simp
@[simp] theorem State.requalEnd_only_iff (s a1 a2) (h : [.stats, .ctrs, .hif, .err, .mat, .nbu] ⊆ ps) : OnlyChanges ps s0 (State.requalEnd s a1 a2) ↔ OnlyChanges ps s0 s :=
  onlyChanges_iff (State.requalEnd_only s a1 a2) h
theorem State.pcLockLoss_only (s a1) : OnlyChanges [.stats, .ctrs, .hif, .err] s (State.pcLockLoss s a1) := by
  unfold State.pcLockLoss
  simp
@[simp] theorem State.pcLockLoss_only_iff (s a1) (h : [.stats, .ctrs, .hif, .err] ⊆ ps) : OnlyChanges ps s0 (State.pcLockLoss s a1) ↔ OnlyChanges ps s0 s :=
  onlyChanges_iff (State.pcLockLoss_only s a1) h
theorem State.resetRegs_only (s a1) : OnlyChanges [.regs, .stats, .ctrs] s (State.resetRegs s a1) := by
  unfold State.resetRegs
  first
  | (repeat' split) <;> first | (simp; done) | (intro p hp; cases p <;> simp_all [Piece.same]; done) | (simp_all; done)
  | (repeat' (first | split | dsimp only)) <;> first | (simp; done) | (simp_all; done) | (simp; refine foldl_only' (fun t o => ?_) _ _; (repeat' split) <;> simp; done)
@[simp] theorem State.resetRegs_only_iff (s a1) (h : [.regs, .stats, .ctrs] ⊆ ps) : OnlyChanges ps s0 (State.resetRegs s a1) ↔ OnlyChanges ps s0 s :=
  onlyChanges_iff (State.resetRegs_only s a1) h
theorem State.nbDrain_only (s) : OnlyChanges [.stats, .ctrs, .cqf, .mem, .hif, .err, .nbu, .fab, .draws] s (State.nbDrain s) := by
  unfold State.nbDrain
  simp
@[simp] theorem State.nbDrain_only_iff (s) (h : [.stats, .ctrs, .cqf, .mem, .hif, .err, .nbu, .fab, .draws] ⊆ ps) : OnlyChanges ps s0 (State.nbDrain s) ↔ OnlyChanges ps s0 s :=
  onlyChanges_iff (State.nbDrain_only s) h
theorem State.breakGroups_only (s) : OnlyChanges [.stats, .hif, .xch] s (State.breakGroups s) := by
  unfold State.breakGroups
  simp
@[simp] theorem State.breakGroups_only_iff (s) (h : [.stats, .hif, .xch] ⊆ ps) : OnlyChanges ps s0 (State.breakGroups s) ↔ OnlyChanges ps s0 s :=
  onlyChanges_iff (State.breakGroups_only s) h
theorem State.xchReset_only (s) : OnlyChanges [.stats, .ctrs, .cqf, .hif, .xch] s (State.xchReset s) := by
  unfold State.xchReset
  simp
@[simp] theorem State.xchReset_only_iff (s) (h : [.stats, .ctrs, .cqf, .hif, .xch] ⊆ ps) : OnlyChanges ps s0 (State.xchReset s) ↔ OnlyChanges ps s0 s :=
  onlyChanges_iff (State.xchReset_only s) h
theorem State.endFords_only (s) : OnlyChanges [.mem] s (State.endFords s) := by
  unfold State.endFords
  simp
@[simp] theorem State.endFords_only_iff (s) (h : [.mem] ⊆ ps) : OnlyChanges ps s0 (State.endFords s) ↔ OnlyChanges ps s0 s :=
  onlyChanges_iff (State.endFords_only s) h
theorem State.itkReset_only (s) : OnlyChanges [.itk] s (State.itkReset s) := by
  unfold State.itkReset
  simp
@[simp] theorem State.itkReset_only_iff (s) (h : [.itk] ⊆ ps) : OnlyChanges ps s0 (State.itkReset s) ↔ OnlyChanges ps s0 s :=
  onlyChanges_iff (State.itkReset_only s) h
theorem State.peaksReset_only (s) : OnlyChanges [.cqf, .itk] s (State.peaksReset s) := by
  unfold State.peaksReset
  simp
@[simp] theorem State.peaksReset_only_iff (s) (h : [.cqf, .itk] ⊆ ps) : OnlyChanges ps s0 (State.peaksReset s) ↔ OnlyChanges ps s0 s :=
  onlyChanges_iff (State.peaksReset_only s) h
theorem State.stopEngines_only (s) : OnlyChanges [.stats, .ctrs, .cqf, .mem, .hif, .err, .mat, .vec, .nbu, .xch, .fab, .itk, .draws] s (State.stopEngines s) := by
  unfold State.stopEngines
  dsimp only
  (repeat' split) <;> simp [only_upd]
@[simp] theorem State.stopEngines_only_iff (s) (h : [.stats, .ctrs, .cqf, .mem, .hif, .err, .mat, .vec, .nbu, .xch, .fab, .itk, .draws] ⊆ ps) : OnlyChanges ps s0 (State.stopEngines s) ↔ OnlyChanges ps s0 s :=
  onlyChanges_iff (State.stopEngines_only s) h
theorem State.leaveNow_only (s) : OnlyChanges [.stats, .ctrs, .hif, .err, .mat, .nbu] s (State.leaveNow s) := by
  unfold State.leaveNow
  simp
@[simp] theorem State.leaveNow_only_iff (s) (h : [.stats, .ctrs, .hif, .err, .mat, .nbu] ⊆ ps) : OnlyChanges ps s0 (State.leaveNow s) ↔ OnlyChanges ps s0 s :=
  onlyChanges_iff (State.leaveNow_only s) h
theorem State.portGiveUp_only (s a1) : OnlyChanges [.stats, .ctrs, .cqf, .hif, .fab] s (State.portGiveUp s a1) := by
  unfold State.portGiveUp
  simp
@[simp] theorem State.portGiveUp_only_iff (s a1) (h : [.stats, .ctrs, .cqf, .hif, .fab] ⊆ ps) : OnlyChanges ps s0 (State.portGiveUp s a1) ↔ OnlyChanges ps s0 s :=
  onlyChanges_iff (State.portGiveUp_only s a1) h
theorem State.fabReset_only (s) : OnlyChanges [.stats, .ctrs, .cqf, .hif, .err, .xch, .fab] s (State.fabReset s) := by
  unfold State.fabReset
  simp
@[simp] theorem State.fabReset_only_iff (s) (h : [.stats, .ctrs, .cqf, .hif, .err, .xch, .fab] ⊆ ps) : OnlyChanges ps s0 (State.fabReset s) ↔ OnlyChanges ps s0 s :=
  onlyChanges_iff (State.fabReset_only s) h
theorem State.selfReset_only (s a1) : OnlyChanges [.regs, .stats, .ctrs, .cqf, .mem, .hif, .mgt, .sec, .err, .cfg, .pwr, .mat, .vec, .nbu, .xch, .fab, .itk, .draws] s (State.selfReset s a1) := by
  unfold State.selfReset
  dsimp only
  (repeat' split) <;> simp [only_upd]
@[simp] theorem State.selfReset_only_iff (s a1) (h : [.regs, .stats, .ctrs, .cqf, .mem, .hif, .mgt, .sec, .err, .cfg, .pwr, .mat, .vec, .nbu, .xch, .fab, .itk, .draws] ⊆ ps) : OnlyChanges ps s0 (State.selfReset s a1) ↔ OnlyChanges ps s0 s :=
  onlyChanges_iff (State.selfReset_only s a1) h
theorem State.flrQueue_only (s a1) : OnlyChanges [.cqf, .hif, .fab] s (State.flrQueue s a1) := by
  unfold State.flrQueue
  simp
@[simp] theorem State.flrQueue_only_iff (s a1) (h : [.cqf, .hif, .fab] ⊆ ps) : OnlyChanges ps s0 (State.flrQueue s a1) ↔ OnlyChanges ps s0 s :=
  onlyChanges_iff (State.flrQueue_only s a1) h
theorem State.flrBerths_only (s) : OnlyChanges [.cqf, .xch, .fab] s (State.flrBerths s) := by
  unfold State.flrBerths
  simp
@[simp] theorem State.flrBerths_only_iff (s) (h : [.cqf, .xch, .fab] ⊆ ps) : OnlyChanges ps s0 (State.flrBerths s) ↔ OnlyChanges ps s0 s :=
  onlyChanges_iff (State.flrBerths_only s) h
theorem State.flrApply_only (s) : OnlyChanges [.regs, .stats, .ctrs, .cqf, .mem, .hif, .mgt, .sec, .err, .cfg, .pwr, .mat, .vec, .nbu, .xch, .fab, .itk, .draws] s (State.flrApply s) := by
  unfold State.flrApply
  dsimp only
  (repeat' split) <;> simp [only_upd]
@[simp] theorem State.flrApply_only_iff (s) (h : [.regs, .stats, .ctrs, .cqf, .mem, .hif, .mgt, .sec, .err, .cfg, .pwr, .mat, .vec, .nbu, .xch, .fab, .itk, .draws] ⊆ ps) : OnlyChanges ps s0 (State.flrApply s) ↔ OnlyChanges ps s0 s :=
  onlyChanges_iff (State.flrApply_only s) h
theorem State.functionReset_only (s) : OnlyChanges [.regs, .stats, .ctrs, .cqf, .mem, .hif, .mgt, .sec, .err, .cfg, .pwr, .mat, .vec, .nbu, .xch, .fab, .itk, .draws] s (State.functionReset s) := by
  unfold State.functionReset
  dsimp only
  (repeat' split) <;> simp [only_upd]
@[simp] theorem State.functionReset_only_iff (s) (h : [.regs, .stats, .ctrs, .cqf, .mem, .hif, .mgt, .sec, .err, .cfg, .pwr, .mat, .vec, .nbu, .xch, .fab, .itk, .draws] ⊆ ps) : OnlyChanges ps s0 (State.functionReset s) ↔ OnlyChanges ps s0 s :=
  onlyChanges_iff (State.functionReset_only s) h
theorem State.flrDue_only (s) : OnlyChanges [.regs, .stats, .ctrs, .cqf, .mem, .hif, .mgt, .sec, .err, .cfg, .pwr, .mat, .vec, .nbu, .xch, .fab, .itk, .draws] s (State.flrDue s) := by
  unfold State.flrDue
  simp
@[simp] theorem State.flrDue_only_iff (s) (h : [.regs, .stats, .ctrs, .cqf, .mem, .hif, .mgt, .sec, .err, .cfg, .pwr, .mat, .vec, .nbu, .xch, .fab, .itk, .draws] ⊆ ps) : OnlyChanges ps s0 (State.flrDue s) ↔ OnlyChanges ps s0 s :=
  onlyChanges_iff (State.flrDue_only s) h
theorem State.slipResets_only (s a1) : OnlyChanges [.regs, .stats, .cqf] s (State.slipResets s a1) := by
  unfold State.slipResets
  simp
@[simp] theorem State.slipResets_only_iff (s a1) (h : [.regs, .stats, .cqf] ⊆ ps) : OnlyChanges ps s0 (State.slipResets s a1) ↔ OnlyChanges ps s0 s :=
  onlyChanges_iff (State.slipResets_only s a1) h
theorem State.resetEngine_only (s a1) : OnlyChanges [.regs, .stats, .ctrs, .cqf, .mem, .hif, .err, .pwr, .mat, .vec, .nbu, .xch, .fab, .itk, .draws] s (State.resetEngine s a1) := by
  unfold State.resetEngine
  dsimp only
  (repeat' split) <;> simp [only_upd]
@[simp] theorem State.resetEngine_only_iff (s a1) (h : [.regs, .stats, .ctrs, .cqf, .mem, .hif, .err, .pwr, .mat, .vec, .nbu, .xch, .fab, .itk, .draws] ⊆ ps) : OnlyChanges ps s0 (State.resetEngine s a1) ↔ OnlyChanges ps s0 s :=
  onlyChanges_iff (State.resetEngine_only s a1) h
theorem State.engineReset_only (s a1) : OnlyChanges [.regs, .stats, .ctrs, .cqf, .mem, .hif, .err, .pwr, .mat, .vec, .nbu, .xch, .fab, .itk, .draws] s (State.engineReset s a1) := by
  unfold State.engineReset
  simp
@[simp] theorem State.engineReset_only_iff (s a1) (h : [.regs, .stats, .ctrs, .cqf, .mem, .hif, .err, .pwr, .mat, .vec, .nbu, .xch, .fab, .itk, .draws] ⊆ ps) : OnlyChanges ps s0 (State.engineReset s a1) ↔ OnlyChanges ps s0 s :=
  onlyChanges_iff (State.engineReset_only s a1) h
theorem State.engineResetDone_only (s a1) : OnlyChanges [.regs, .stats, .ctrs, .cqf, .mem, .hif, .mgt, .sec, .err, .cfg, .pwr, .mat, .vec, .nbu, .xch, .fab, .itk, .draws] s (State.engineResetDone s a1) := by
  unfold State.engineResetDone
  simp
@[simp] theorem State.engineResetDone_only_iff (s a1) (h : [.regs, .stats, .ctrs, .cqf, .mem, .hif, .mgt, .sec, .err, .cfg, .pwr, .mat, .vec, .nbu, .xch, .fab, .itk, .draws] ⊆ ps) : OnlyChanges ps s0 (State.engineResetDone s a1) ↔ OnlyChanges ps s0 s :=
  onlyChanges_iff (State.engineResetDone_only s a1) h
theorem State.afresh_only (s) : OnlyChanges [.regs, .stats, .ctrs, .cqf, .mem, .hif, .mgt, .sec, .err, .cfg, .pwr, .mat, .vec, .nbu, .xch, .fab, .itk] s (State.afresh s) := by
  intro p hp
  cases p <;> simp_all [Piece.same, State.afresh]
@[simp] theorem State.afresh_only_iff (s) (h : [.regs, .stats, .ctrs, .cqf, .mem, .hif, .mgt, .sec, .err, .cfg, .pwr, .mat, .vec, .nbu, .xch, .fab, .itk] ⊆ ps) : OnlyChanges ps s0 (State.afresh s) ↔ OnlyChanges ps s0 s :=
  onlyChanges_iff (State.afresh_only s) h
theorem State.powerOff_only (s a1) : OnlyChanges [.regs, .stats, .ctrs, .cqf, .mem, .hif, .mgt, .sec, .err, .cfg, .pwr, .mat, .vec, .nbu, .xch, .fab, .itk] s (State.powerOff s a1) := by
  unfold State.powerOff
  simp
@[simp] theorem State.powerOff_only_iff (s a1) (h : [.regs, .stats, .ctrs, .cqf, .mem, .hif, .mgt, .sec, .err, .cfg, .pwr, .mat, .vec, .nbu, .xch, .fab, .itk] ⊆ ps) : OnlyChanges ps s0 (State.powerOff s a1) ↔ OnlyChanges ps s0 s :=
  onlyChanges_iff (State.powerOff_only s a1) h
theorem State.postWrite_only (s a1 a2 a3) : OnlyChanges [.stats, .hif, .pwr] s (State.postWrite s a1 a2 a3) := by
  unfold State.postWrite
  (repeat' split) <;> simp
@[simp] theorem State.postWrite_only_iff (s a1 a2 a3) (h : [.stats, .hif, .pwr] ⊆ ps) : OnlyChanges ps s0 (State.postWrite s a1 a2 a3) ↔ OnlyChanges ps s0 s :=
  onlyChanges_iff (State.postWrite_only s a1 a2 a3) h
theorem State.postApply_only (s a1) : OnlyChanges [.regs, .cfg, .pwr] s (State.postApply s a1) := by
  unfold State.postApply
  (repeat' split) <;> simp
@[simp] theorem State.postApply_only_iff (s a1) (h : [.regs, .cfg, .pwr] ⊆ ps) : OnlyChanges ps s0 (State.postApply s a1) ↔ OnlyChanges ps s0 s :=
  onlyChanges_iff (State.postApply_only s a1) h
theorem State.setTemp_only (s a1 a2) : OnlyChanges [.pwr] s (State.setTemp s a1 a2) := by
  unfold State.setTemp
  (repeat' split) <;> simp
@[simp] theorem State.setTemp_only_iff (s a1 a2) (h : [.pwr] ⊆ ps) : OnlyChanges ps s0 (State.setTemp s a1 a2) ↔ OnlyChanges ps s0 s :=
  onlyChanges_iff (State.setTemp_only s a1 a2) h
theorem State.reduce_only (s a1 a2) : OnlyChanges [.stats, .hif, .pwr] s (State.reduce s a1 a2) := by
  unfold State.reduce
  simp
@[simp] theorem State.reduce_only_iff (s a1 a2) (h : [.stats, .hif, .pwr] ⊆ ps) : OnlyChanges ps s0 (State.reduce s a1 a2) ↔ OnlyChanges ps s0 s :=
  onlyChanges_iff (State.reduce_only s a1 a2) h
theorem State.relax_only (s) : OnlyChanges [.pwr] s (State.relax s) := by
  unfold State.relax
  simp
@[simp] theorem State.relax_only_iff (s) (h : [.pwr] ⊆ ps) : OnlyChanges ps s0 (State.relax s) ↔ OnlyChanges ps s0 s :=
  onlyChanges_iff (State.relax_only s) h
theorem State.measure_only (s a1) : OnlyChanges [.ctrs, .pwr] s (State.measure s a1) := by
  unfold State.measure
  simp
@[simp] theorem State.measure_only_iff (s a1) (h : [.ctrs, .pwr] ⊆ ps) : OnlyChanges ps s0 (State.measure s a1) ↔ OnlyChanges ps s0 s :=
  onlyChanges_iff (State.measure_only s a1) h
theorem State.arbiterWindow_only (s a1) : OnlyChanges [.stats, .ctrs, .hif, .pwr] s (State.arbiterWindow s a1) := by
  unfold State.arbiterWindow
  simp
@[simp] theorem State.arbiterWindow_only_iff (s a1) (h : [.stats, .ctrs, .hif, .pwr] ⊆ ps) : OnlyChanges ps s0 (State.arbiterWindow s a1) ↔ OnlyChanges ps s0 s :=
  onlyChanges_iff (State.arbiterWindow_only s a1) h
theorem State.inputLow_only (s) : OnlyChanges [.stats, .hif, .pwr] s (State.inputLow s) := by
  unfold State.inputLow
  simp
@[simp] theorem State.inputLow_only_iff (s) (h : [.stats, .hif, .pwr] ⊆ ps) : OnlyChanges ps s0 (State.inputLow s) ↔ OnlyChanges ps s0 s :=
  onlyChanges_iff (State.inputLow_only s) h
theorem State.inputHigh_only (s) : OnlyChanges [.stats, .hif, .pwr] s (State.inputHigh s) := by
  unfold State.inputHigh
  simp
@[simp] theorem State.inputHigh_only_iff (s) (h : [.stats, .hif, .pwr] ⊆ ps) : OnlyChanges ps s0 (State.inputHigh s) ↔ OnlyChanges ps s0 s :=
  onlyChanges_iff (State.inputHigh_only s) h
theorem State.inputRestored_only (s) : OnlyChanges [.pwr] s (State.inputRestored s) := by
  unfold State.inputRestored
  simp
@[simp] theorem State.inputRestored_only_iff (s) (h : [.pwr] ⊆ ps) : OnlyChanges ps s0 (State.inputRestored s) ↔ OnlyChanges ps s0 s :=
  onlyChanges_iff (State.inputRestored_only s) h
theorem State.shutdown_only (s a1) : OnlyChanges [.regs, .stats, .ctrs, .cqf, .mem, .hif, .mgt, .sec, .err, .cfg, .pwr, .mat, .vec, .nbu, .xch, .fab, .itk] s (State.shutdown s a1) := by
  unfold State.shutdown
  simp
@[simp] theorem State.shutdown_only_iff (s a1) (h : [.regs, .stats, .ctrs, .cqf, .mem, .hif, .mgt, .sec, .err, .cfg, .pwr, .mat, .vec, .nbu, .xch, .fab, .itk] ⊆ ps) : OnlyChanges ps s0 (State.shutdown s a1) ↔ OnlyChanges ps s0 s :=
  onlyChanges_iff (State.shutdown_only s a1) h
theorem State.thermalTrip_only (s a1 a2) : OnlyChanges [.regs, .stats, .ctrs, .cqf, .mem, .hif, .mgt, .sec, .err, .cfg, .pwr, .mat, .vec, .nbu, .xch, .fab, .itk] s (State.thermalTrip s a1 a2) := by
  unfold State.thermalTrip
  simp
@[simp] theorem State.thermalTrip_only_iff (s a1 a2) (h : [.regs, .stats, .ctrs, .cqf, .mem, .hif, .mgt, .sec, .err, .cfg, .pwr, .mat, .vec, .nbu, .xch, .fab, .itk] ⊆ ps) : OnlyChanges ps s0 (State.thermalTrip s a1 a2) ↔ OnlyChanges ps s0 s :=
  onlyChanges_iff (State.thermalTrip_only s a1 a2) h
theorem State.hotReached_only (s a1 a2) : OnlyChanges [.stats, .hif, .pwr] s (State.hotReached s a1 a2) := by
  unfold State.hotReached
  (repeat' split) <;> simp
@[simp] theorem State.hotReached_only_iff (s a1 a2) (h : [.stats, .hif, .pwr] ⊆ ps) : OnlyChanges ps s0 (State.hotReached s a1 a2) ↔ OnlyChanges ps s0 s :=
  onlyChanges_iff (State.hotReached_only s a1 a2) h
theorem State.oscillatorFail_only (s) : OnlyChanges [.stats, .ctrs, .hif, .err, .pwr, .draws] s (State.oscillatorFail s) := by
  unfold State.oscillatorFail
  simp
@[simp] theorem State.oscillatorFail_only_iff (s) (h : [.stats, .ctrs, .hif, .err, .pwr, .draws] ⊆ ps) : OnlyChanges ps s0 (State.oscillatorFail s) ↔ OnlyChanges ps s0 s :=
  onlyChanges_iff (State.oscillatorFail_only s) h
theorem State.portsProbation_only (s a1) : OnlyChanges [.fab] s (State.portsProbation s a1) := by
  unfold State.portsProbation
  simp
@[simp] theorem State.portsProbation_only_iff (s a1) (h : [.fab] ⊆ ps) : OnlyChanges ps s0 (State.portsProbation s a1) ↔ OnlyChanges ps s0 s :=
  onlyChanges_iff (State.portsProbation_only s a1) h
theorem State.slackEnter_only (s a1) : OnlyChanges [.stats, .ctrs, .cqf, .mem, .hif, .err, .pwr, .mat, .xch, .fab] s (State.slackEnter s a1) := by
  unfold State.slackEnter
  dsimp only
  (repeat' split) <;> simp [only_upd]
@[simp] theorem State.slackEnter_only_iff (s a1) (h : [.stats, .ctrs, .cqf, .mem, .hif, .err, .pwr, .mat, .xch, .fab] ⊆ ps) : OnlyChanges ps s0 (State.slackEnter s a1) ↔ OnlyChanges ps s0 s :=
  onlyChanges_iff (State.slackEnter_only s a1) h
theorem State.slackExit_only (s) : OnlyChanges [.mem, .pwr] s (State.slackExit s) := by
  unfold State.slackExit
  (repeat' split) <;> simp [only_upd]
@[simp] theorem State.slackExit_only_iff (s) (h : [.mem, .pwr] ⊆ ps) : OnlyChanges ps s0 (State.slackExit s) ↔ OnlyChanges ps s0 s :=
  onlyChanges_iff (State.slackExit_only s) h
theorem State.d3Settle_only (s) : OnlyChanges [.stats, .ctrs, .cqf, .mem, .hif, .err, .pwr, .mat, .xch, .fab] s (State.d3Settle s) := by
  unfold State.d3Settle
  simp
@[simp] theorem State.d3Settle_only_iff (s) (h : [.stats, .ctrs, .cqf, .mem, .hif, .err, .pwr, .mat, .xch, .fab] ⊆ ps) : OnlyChanges ps s0 (State.d3Settle s) ↔ OnlyChanges ps s0 s :=
  onlyChanges_iff (State.d3Settle_only s) h
theorem State.d3hotEntry_only (s) : OnlyChanges [.stats, .ctrs, .cqf, .mem, .hif, .err, .pwr, .mat, .xch, .fab] s (State.d3hotEntry s) := by
  unfold State.d3hotEntry
  (repeat' split) <;> simp
@[simp] theorem State.d3hotEntry_only_iff (s) (h : [.stats, .ctrs, .cqf, .mem, .hif, .err, .pwr, .mat, .xch, .fab] ⊆ ps) : OnlyChanges ps s0 (State.d3hotEntry s) ↔ OnlyChanges ps s0 s :=
  onlyChanges_iff (State.d3hotEntry_only s) h
theorem State.d3hotExit_only (s) : OnlyChanges [.cqf, .mem, .pwr] s (State.d3hotExit s) := by
  unfold State.d3hotExit
  simp
@[simp] theorem State.d3hotExit_only_iff (s) (h : [.cqf, .mem, .pwr] ⊆ ps) : OnlyChanges ps s0 (State.d3hotExit s) ↔ OnlyChanges ps s0 s :=
  onlyChanges_iff (State.d3hotExit_only s) h
theorem State.deepOffEnd_only (s a1) : OnlyChanges [.regs, .stats, .ctrs, .cqf, .mem, .hif, .mgt, .sec, .err, .cfg, .pwr, .mat, .vec, .nbu, .xch, .fab, .itk] s (State.deepOffEnd s a1) := by
  unfold State.deepOffEnd
  simp
@[simp] theorem State.deepOffEnd_only_iff (s a1) (h : [.regs, .stats, .ctrs, .cqf, .mem, .hif, .mgt, .sec, .err, .cfg, .pwr, .mat, .vec, .nbu, .xch, .fab, .itk] ⊆ ps) : OnlyChanges ps s0 (State.deepOffEnd s a1) ↔ OnlyChanges ps s0 s :=
  onlyChanges_iff (State.deepOffEnd_only s a1) h
theorem State.deepOffBegin_only (s) : OnlyChanges [.regs, .stats, .ctrs, .cqf, .mem, .hif, .mgt, .sec, .err, .cfg, .pwr, .mat, .vec, .nbu, .xch, .fab, .itk] s (State.deepOffBegin s) := by
  unfold State.deepOffBegin
  (repeat' split) <;> simp
@[simp] theorem State.deepOffBegin_only_iff (s) (h : [.regs, .stats, .ctrs, .cqf, .mem, .hif, .mgt, .sec, .err, .cfg, .pwr, .mat, .vec, .nbu, .xch, .fab, .itk] ⊆ ps) : OnlyChanges ps s0 (State.deepOffBegin s) ↔ OnlyChanges ps s0 s :=
  onlyChanges_iff (State.deepOffBegin_only s) h
theorem State.deepOffTick_only (s) : OnlyChanges [.regs, .stats, .ctrs, .cqf, .mem, .hif, .mgt, .sec, .err, .cfg, .pwr, .mat, .vec, .nbu, .xch, .fab, .itk] s (State.deepOffTick s) := by
  unfold State.deepOffTick
  simp
@[simp] theorem State.deepOffTick_only_iff (s) (h : [.regs, .stats, .ctrs, .cqf, .mem, .hif, .mgt, .sec, .err, .cfg, .pwr, .mat, .vec, .nbu, .xch, .fab, .itk] ⊆ ps) : OnlyChanges ps s0 (State.deepOffTick s) ↔ OnlyChanges ps s0 s :=
  onlyChanges_iff (State.deepOffTick_only s) h
theorem State.tierReturn_only (s a1) : OnlyChanges [.mem] s (State.tierReturn s a1) := by
  unfold State.tierReturn
  simp
@[simp] theorem State.tierReturn_only_iff (s a1) (h : [.mem] ⊆ ps) : OnlyChanges ps s0 (State.tierReturn s a1) ↔ OnlyChanges ps s0 s :=
  onlyChanges_iff (State.tierReturn_only s a1) h
theorem State.stepReached_only (s a1) : OnlyChanges [.ctrs, .mgt, .pwr] s (State.stepReached s a1) := by
  unfold State.stepReached
  simp
@[simp] theorem State.stepReached_only_iff (s a1) (h : [.ctrs, .mgt, .pwr] ⊆ ps) : OnlyChanges ps s0 (State.stepReached s a1) ↔ OnlyChanges ps s0 s :=
  onlyChanges_iff (State.stepReached_only s a1) h
theorem State.wdtArm_only (s) : OnlyChanges [.regs, .stats, .ctrs, .hif, .mgt, .err] s (State.wdtArm s) := by
  unfold State.wdtArm
  simp
@[simp] theorem State.wdtArm_only_iff (s) (h : [.regs, .stats, .ctrs, .hif, .mgt, .err] ⊆ ps) : OnlyChanges ps s0 (State.wdtArm s) ↔ OnlyChanges ps s0 s :=
  onlyChanges_iff (State.wdtArm_only s) h
theorem State.bootRecord_only (s a1) : OnlyChanges [.regs, .stats, .ctrs, .hif, .mgt, .sec, .cfg, .pwr, .nbu, .fab] s (State.bootRecord s a1) := by
  unfold State.bootRecord
  (repeat' split) <;> simp
@[simp] theorem State.bootRecord_only_iff (s a1) (h : [.regs, .stats, .ctrs, .hif, .mgt, .sec, .cfg, .pwr, .nbu, .fab] ⊆ ps) : OnlyChanges ps s0 (State.bootRecord s a1) ↔ OnlyChanges ps s0 s :=
  onlyChanges_iff (State.bootRecord_only s a1) h
theorem State.bootFactory_only (s a1) : OnlyChanges [.regs, .stats, .ctrs, .hif, .mgt, .sec, .cfg, .pwr, .nbu, .fab] s (State.bootFactory s a1) := by
  unfold State.bootFactory
  (repeat' split) <;> simp
@[simp] theorem State.bootFactory_only_iff (s a1) (h : [.regs, .stats, .ctrs, .hif, .mgt, .sec, .cfg, .pwr, .nbu, .fab] ⊆ ps) : OnlyChanges ps s0 (State.bootFactory s a1) ↔ OnlyChanges ps s0 s :=
  onlyChanges_iff (State.bootFactory_only s a1) h
theorem State.powerAfresh_only (s a1) : OnlyChanges [.regs, .stats, .ctrs, .cqf, .mem, .hif, .mgt, .sec, .err, .flash, .cfg, .pwr, .mat, .vec, .nbu, .xch, .fab, .itk] s (State.powerAfresh s a1) := by
  unfold State.powerAfresh
  simp [only_upd]
@[simp] theorem State.powerAfresh_only_iff (s a1) (h : [.regs, .stats, .ctrs, .cqf, .mem, .hif, .mgt, .sec, .err, .flash, .cfg, .pwr, .mat, .vec, .nbu, .xch, .fab, .itk] ⊆ ps) : OnlyChanges ps s0 (State.powerAfresh s a1) ↔ OnlyChanges ps s0 s :=
  onlyChanges_iff (State.powerAfresh_only s a1) h
theorem State.powerBoot_only (s) : OnlyChanges [.regs, .stats, .ctrs, .hif, .mgt, .sec, .cfg, .pwr, .nbu, .fab] s (State.powerBoot s) := by
  unfold State.powerBoot
  (repeat' split) <;> simp
@[simp] theorem State.powerBoot_only_iff (s) (h : [.regs, .stats, .ctrs, .hif, .mgt, .sec, .cfg, .pwr, .nbu, .fab] ⊆ ps) : OnlyChanges ps s0 (State.powerBoot s) ↔ OnlyChanges ps s0 s :=
  onlyChanges_iff (State.powerBoot_only s) h
theorem State.readFactory_only (s a1) : OnlyChanges [.regs, .stats, .ctrs, .hif, .mgt, .sec, .flash, .cfg, .pwr, .nbu, .fab] s (State.readFactory s a1) := by
  unfold State.readFactory
  simp
@[simp] theorem State.readFactory_only_iff (s a1) (h : [.regs, .stats, .ctrs, .hif, .mgt, .sec, .flash, .cfg, .pwr, .nbu, .fab] ⊆ ps) : OnlyChanges ps s0 (State.readFactory s a1) ↔ OnlyChanges ps s0 s :=
  onlyChanges_iff (State.readFactory_only s a1) h
theorem State.powerOn_only (s a1) : OnlyChanges [.regs, .stats, .ctrs, .cqf, .mem, .hif, .mgt, .sec, .err, .flash, .cfg, .pwr, .mat, .vec, .nbu, .xch, .fab, .itk] s (State.powerOn s a1) := by
  unfold State.powerOn
  split <;> simp
@[simp] theorem State.powerOn_only_iff (s a1) (h : [.regs, .stats, .ctrs, .cqf, .mem, .hif, .mgt, .sec, .err, .flash, .cfg, .pwr, .mat, .vec, .nbu, .xch, .fab, .itk] ⊆ ps) : OnlyChanges ps s0 (State.powerOn s a1) ↔ OnlyChanges ps s0 s :=
  onlyChanges_iff (State.powerOn_only s a1) h
theorem State.startFail_only (s a1) : OnlyChanges [.stats, .ctrs, .hif, .err, .mat, .nbu] s (State.startFail s a1) := by
  unfold State.startFail
  simp
@[simp] theorem State.startFail_only_iff (s a1) (h : [.stats, .ctrs, .hif, .err, .mat, .nbu] ⊆ ps) : OnlyChanges ps s0 (State.startFail s a1) ↔ OnlyChanges ps s0 s :=
  onlyChanges_iff (State.startFail_only s a1) h
theorem State.trained_only (s a1) : OnlyChanges [.stats, .ctrs, .hif, .err, .mat, .nbu, .itk] s (State.trained s a1) := by
  unfold State.trained
  simp
@[simp] theorem State.trained_only_iff (s a1) (h : [.stats, .ctrs, .hif, .err, .mat, .nbu, .itk] ⊆ ps) : OnlyChanges ps s0 (State.trained s a1) ↔ OnlyChanges ps s0 s :=
  onlyChanges_iff (State.trained_only s a1) h
theorem State.softRepair_only (s) : OnlyChanges [.err, .draws] s (State.softRepair s) := by
  unfold State.softRepair
  simp
@[simp] theorem State.softRepair_only_iff (s) (h : [.err, .draws] ⊆ ps) : OnlyChanges ps s0 (State.softRepair s) ↔ OnlyChanges ps s0 s :=
  onlyChanges_iff (State.softRepair_only s) h
theorem State.portsTrain_only (s) : OnlyChanges [.stats, .ctrs, .hif, .err, .fab] s (State.portsTrain s) := by
  unfold State.portsTrain
  simp
@[simp] theorem State.portsTrain_only_iff (s) (h : [.stats, .ctrs, .hif, .err, .fab] ⊆ ps) : OnlyChanges ps s0 (State.portsTrain s) ↔ OnlyChanges ps s0 s :=
  onlyChanges_iff (State.portsTrain_only s) h
theorem State.startTrain_only (s a1) : OnlyChanges [.stats, .ctrs, .hif, .err, .mat, .nbu, .itk, .draws] s (State.startTrain s a1) := by
  unfold State.startTrain
  simp
@[simp] theorem State.startTrain_only_iff (s a1) (h : [.stats, .ctrs, .hif, .err, .mat, .nbu, .itk, .draws] ⊆ ps) : OnlyChanges ps s0 (State.startTrain s a1) ↔ OnlyChanges ps s0 s :=
  onlyChanges_iff (State.startTrain_only s a1) h
theorem State.startOpen_only (s) : OnlyChanges [.regs, .stats, .ctrs, .mem, .hif, .mgt, .err, .pwr, .fab] s (State.startOpen s) := by
  unfold State.startOpen
  dsimp only
  (repeat' split) <;> simp [only_upd]
@[simp] theorem State.startOpen_only_iff (s) (h : [.regs, .stats, .ctrs, .mem, .hif, .mgt, .err, .pwr, .fab] ⊆ ps) : OnlyChanges ps s0 (State.startOpen s) ↔ OnlyChanges ps s0 s :=
  onlyChanges_iff (State.startOpen_only s) h
theorem State.startRecord_only (s a1) : OnlyChanges [.regs, .stats, .ctrs, .hif, .mgt, .sec, .flash, .cfg, .pwr, .nbu, .fab] s (State.startRecord s a1) := by
  unfold State.startRecord
  simp
@[simp] theorem State.startRecord_only_iff (s a1) (h : [.regs, .stats, .ctrs, .hif, .mgt, .sec, .flash, .cfg, .pwr, .nbu, .fab] ⊆ ps) : OnlyChanges ps s0 (State.startRecord s a1) ↔ OnlyChanges ps s0 s :=
  onlyChanges_iff (State.startRecord_only s a1) h
theorem State.startLog_only (s) : OnlyChanges [.ctrs, .mgt] s (State.startLog s) := by
  unfold State.startLog
  simp
@[simp] theorem State.startLog_only_iff (s) (h : [.ctrs, .mgt] ⊆ ps) : OnlyChanges ps s0 (State.startLog s) ↔ OnlyChanges ps s0 s :=
  onlyChanges_iff (State.startLog_only s) h
theorem State.coreRuns_only (s) : OnlyChanges [.mgt] s (State.coreRuns s) := by
  unfold State.coreRuns
  simp
@[simp] theorem State.coreRuns_only_iff (s) (h : [.mgt] ⊆ ps) : OnlyChanges ps s0 (State.coreRuns s) ↔ OnlyChanges ps s0 s :=
  onlyChanges_iff (State.coreRuns_only s) h
theorem State.startUpEnd_only (s a1) : OnlyChanges [.regs, .stats, .ctrs, .mem, .hif, .mgt, .sec, .err, .flash, .cfg, .pwr, .mat, .nbu, .fab, .itk, .draws] s (State.startUpEnd s a1) := by
  unfold State.startUpEnd
  simp
@[simp] theorem State.startUpEnd_only_iff (s a1) (h : [.regs, .stats, .ctrs, .mem, .hif, .mgt, .sec, .err, .flash, .cfg, .pwr, .mat, .nbu, .fab, .itk, .draws] ⊆ ps) : OnlyChanges ps s0 (State.startUpEnd s a1) ↔ OnlyChanges ps s0 s :=
  onlyChanges_iff (State.startUpEnd_only s a1) h
theorem State.becomeReady_only (s) : OnlyChanges [.stats, .ctrs, .hif, .mgt, .err, .pwr, .fab] s (State.becomeReady s) := by
  unfold State.becomeReady
  simp
@[simp] theorem State.becomeReady_only_iff (s) (h : [.stats, .ctrs, .hif, .mgt, .err, .pwr, .fab] ⊆ ps) : OnlyChanges ps s0 (State.becomeReady s) ↔ OnlyChanges ps s0 s :=
  onlyChanges_iff (State.becomeReady_only s) h
theorem State.reqWrite_only (s a1 a2) : OnlyChanges [.mgt] s (State.reqWrite s a1 a2) := by
  unfold State.reqWrite
  simp
@[simp] theorem State.reqWrite_only_iff (s a1 a2) (h : [.mgt] ⊆ ps) : OnlyChanges ps s0 (State.reqWrite s a1 a2) ↔ OnlyChanges ps s0 s :=
  onlyChanges_iff (State.reqWrite_only s a1 a2) h
theorem State.msgReply_only (s a1 a2 a3 a4) : OnlyChanges [.stats, .ctrs, .hif, .mgt] s (State.msgReply s a1 a2 a3 a4) := by
  unfold State.msgReply
  simp
@[simp] theorem State.msgReply_only_iff (s a1 a2 a3 a4) (h : [.stats, .ctrs, .hif, .mgt] ⊆ ps) : OnlyChanges ps s0 (State.msgReply s a1 a2 a3 a4) ↔ OnlyChanges ps s0 s :=
  onlyChanges_iff (State.msgReply_only s a1 a2 a3 a4) h
theorem State.takeMsg_only (s a1 a2) : OnlyChanges [.stats, .ctrs, .hif, .mgt] s (State.takeMsg s a1 a2) := by
  unfold State.takeMsg
  (repeat' (first | split | dsimp only)) <;> simp
@[simp] theorem State.takeMsg_only_iff (s a1 a2) (h : [.stats, .ctrs, .hif, .mgt] ⊆ ps) : OnlyChanges ps s0 (State.takeMsg s a1 a2) ↔ OnlyChanges ps s0 s :=
  onlyChanges_iff (State.takeMsg_only s a1 a2) h
theorem State.takeTow_only_aux (a0 s) : OnlyChanges [.stats, .ctrs, .hif, .mgt] s0 (State.takeTow a0 s) ↔ OnlyChanges [.stats, .ctrs, .hif, .mgt] s0 s := by
  fun_induction State.takeTow <;> simp_all
theorem State.takeTow_only (a0 s) : OnlyChanges [.stats, .ctrs, .hif, .mgt] s (State.takeTow a0 s) := 
  (State.takeTow_only_aux a0 s).2 (onlyChanges_refl _ _)
@[simp] theorem State.takeTow_only_iff (a0 s) (h : [.stats, .ctrs, .hif, .mgt] ⊆ ps) : OnlyChanges ps s0 (State.takeTow a0 s) ↔ OnlyChanges ps s0 s :=
  onlyChanges_iff (State.takeTow_only a0 s) h
theorem State.nextMsg_only (s) : OnlyChanges [.stats, .ctrs, .hif, .mgt] s (State.nextMsg s) := by
  unfold State.nextMsg
  simp
@[simp] theorem State.nextMsg_only_iff (s) (h : [.stats, .ctrs, .hif, .mgt] ⊆ ps) : OnlyChanges ps s0 (State.nextMsg s) ↔ OnlyChanges ps s0 s :=
  onlyChanges_iff (State.nextMsg_only s) h
theorem State.finish_only (s a1 a2 a3 a4) : OnlyChanges [.stats, .ctrs, .hif, .mgt] s (State.finish s a1 a2 a3 a4) := by
  unfold State.finish
  simp
@[simp] theorem State.finish_only_iff (s a1 a2 a3 a4) (h : [.stats, .ctrs, .hif, .mgt] ⊆ ps) : OnlyChanges ps s0 (State.finish s a1 a2 a3 a4) ↔ OnlyChanges ps s0 s :=
  onlyChanges_iff (State.finish_only s a1 a2 a3 a4) h
theorem State.finishFail_only (s a1 a2) : OnlyChanges [.stats, .ctrs, .hif, .mgt] s (State.finishFail s a1 a2) := by
  unfold State.finishFail
  simp
@[simp] theorem State.finishFail_only_iff (s a1 a2) (h : [.stats, .ctrs, .hif, .mgt] ⊆ ps) : OnlyChanges ps s0 (State.finishFail s a1 a2) ↔ OnlyChanges ps s0 s :=
  onlyChanges_iff (State.finishFail_only s a1 a2) h
theorem State.mailboxTake_only (s) : OnlyChanges [.stats, .ctrs, .hif, .mgt] s (State.mailboxTake s) := by
  unfold State.mailboxTake
  simp
@[simp] theorem State.mailboxTake_only_iff (s) (h : [.stats, .ctrs, .hif, .mgt] ⊆ ps) : OnlyChanges ps s0 (State.mailboxTake s) ↔ OnlyChanges ps s0 s :=
  onlyChanges_iff (State.mailboxTake_only s) h
theorem State.towpathRequest_only (s a1) : OnlyChanges [.stats, .ctrs, .hif, .mgt] s (State.towpathRequest s a1) := by
  unfold State.towpathRequest
  simp
@[simp] theorem State.towpathRequest_only_iff (s a1) (h : [.stats, .ctrs, .hif, .mgt] ⊆ ps) : OnlyChanges ps s0 (State.towpathRequest s a1) ↔ OnlyChanges ps s0 s :=
  onlyChanges_iff (State.towpathRequest_only s a1) h
theorem State.suppDiscard_only (s) : OnlyChanges [.mgt, .sec] s (State.suppDiscard s) := by
  unfold State.suppDiscard
  (repeat' split) <;> simp [only_upd]
@[simp] theorem State.suppDiscard_only_iff (s) (h : [.mgt, .sec] ⊆ ps) : OnlyChanges ps s0 (State.suppDiscard s) ↔ OnlyChanges ps s0 s :=
  onlyChanges_iff (State.suppDiscard_only s) h
theorem State.fwRestartBy_only (s a1 a2) : OnlyChanges [.stats, .ctrs, .hif, .mgt, .err] s (State.fwRestartBy s a1 a2) := by
  unfold State.fwRestartBy
  dsimp only
  (repeat' split) <;> simp [only_upd]
@[simp] theorem State.fwRestartBy_only_iff (s a1 a2) (h : [.stats, .ctrs, .hif, .mgt, .err] ⊆ ps) : OnlyChanges ps s0 (State.fwRestartBy s a1 a2) ↔ OnlyChanges ps s0 s :=
  onlyChanges_iff (State.fwRestartBy_only s a1 a2) h
theorem State.watchdogExpiry_only (s) : OnlyChanges [.stats, .ctrs, .hif, .mgt, .err] s (State.watchdogExpiry s) := by
  unfold State.watchdogExpiry
  simp
@[simp] theorem State.watchdogExpiry_only_iff (s) (h : [.stats, .ctrs, .hif, .mgt, .err] ⊆ ps) : OnlyChanges ps s0 (State.watchdogExpiry s) ↔ OnlyChanges ps s0 s :=
  onlyChanges_iff (State.watchdogExpiry_only s) h
theorem State.coreFault_only (s a1) : OnlyChanges [.stats, .ctrs, .hif, .mgt, .err, .draws] s (State.coreFault s a1) := by
  unfold State.coreFault
  (repeat' split) <;> simp
@[simp] theorem State.coreFault_only_iff (s a1) (h : [.stats, .ctrs, .hif, .mgt, .err, .draws] ⊆ ps) : OnlyChanges ps s0 (State.coreFault s a1) ↔ OnlyChanges ps s0 s :=
  onlyChanges_iff (State.coreFault_only s a1) h
theorem State.suppIntact_only (s) : OnlyChanges [.draws] s (State.suppIntact s).2 := by
  unfold State.suppIntact
  simp
@[simp] theorem State.suppIntact_only_iff (s) (h : [.draws] ⊆ ps) : OnlyChanges ps s0 (State.suppIntact s).2 ↔ OnlyChanges ps s0 s :=
  onlyChanges_iff (State.suppIntact_only s) h
theorem State.restartDone_only (s) : OnlyChanges [.regs, .stats, .ctrs, .hif, .mgt, .sec, .err, .fab, .draws] s (State.restartDone s) := by
  unfold State.restartDone
  dsimp only
  (repeat' split) <;> simp [only_upd]
@[simp] theorem State.restartDone_only_iff (s) (h : [.regs, .stats, .ctrs, .hif, .mgt, .sec, .err, .fab, .draws] ⊆ ps) : OnlyChanges ps s0 (State.restartDone s) ↔ OnlyChanges ps s0 s :=
  onlyChanges_iff (State.restartDone_only s) h
theorem State.wdtKick_only (s) : OnlyChanges [.regs, .stats, .ctrs, .hif, .mgt, .err] s (State.wdtKick s) := by
  unfold State.wdtKick
  simp
@[simp] theorem State.wdtKick_only_iff (s) (h : [.regs, .stats, .ctrs, .hif, .mgt, .err] ⊆ ps) : OnlyChanges ps s0 (State.wdtKick s) ↔ OnlyChanges ps s0 s :=
  onlyChanges_iff (State.wdtKick_only s) h
theorem State.mctpReply_only (s a1) : OnlyChanges [.mgt] s (State.mctpReply s a1) := by
  unfold State.mctpReply
  simp
@[simp] theorem State.mctpReply_only_iff (s a1) (h : [.mgt] ⊆ ps) : OnlyChanges ps s0 (State.mctpReply s a1) ↔ OnlyChanges ps s0 s :=
  onlyChanges_iff (State.mctpReply_only s a1) h
theorem State.entdaa_only (s a1) : OnlyChanges [.cfg] s (State.entdaa s a1) := by
  unfold State.entdaa
  simp
@[simp] theorem State.entdaa_only_iff (s a1) (h : [.cfg] ⊆ ps) : OnlyChanges ps s0 (State.entdaa s a1) ↔ OnlyChanges ps s0 s :=
  onlyChanges_iff (State.entdaa_only s a1) h
theorem State.setEid_only (s a1) : OnlyChanges [.mgt, .cfg] s (State.setEid s a1) := by
  unfold State.setEid
  simp
@[simp] theorem State.setEid_only_iff (s a1) (h : [.mgt, .cfg] ⊆ ps) : OnlyChanges ps s0 (State.setEid s a1) ↔ OnlyChanges ps s0 s :=
  onlyChanges_iff (State.setEid_only s a1) h
theorem State.getEid_only (s) : OnlyChanges [.mgt] s (State.getEid s) := by
  unfold State.getEid
  simp
@[simp] theorem State.getEid_only_iff (s) (h : [.mgt] ⊆ ps) : OnlyChanges ps s0 (State.getEid s) ↔ OnlyChanges ps s0 s :=
  onlyChanges_iff (State.getEid_only s) h
theorem State.getMctpVersion_only (s a1) : OnlyChanges [.mgt, .draws] s (State.getMctpVersion s a1) := by
  unfold State.getMctpVersion
  simp
@[simp] theorem State.getMctpVersion_only_iff (s a1) (h : [.mgt, .draws] ⊆ ps) : OnlyChanges ps s0 (State.getMctpVersion s a1) ↔ OnlyChanges ps s0 s :=
  onlyChanges_iff (State.getMctpVersion_only s a1) h
theorem State.getMsgTypes_only (s) : OnlyChanges [.mgt] s (State.getMsgTypes s) := by
  unfold State.getMsgTypes
  simp
@[simp] theorem State.getMsgTypes_only_iff (s) (h : [.mgt] ⊆ ps) : OnlyChanges ps s0 (State.getMsgTypes s) ↔ OnlyChanges ps s0 s :=
  onlyChanges_iff (State.getMsgTypes_only s) h
theorem State.getVendorMsgs_only (s a1) : OnlyChanges [.mgt, .draws] s (State.getVendorMsgs s a1) := by
  unfold State.getVendorMsgs
  simp
@[simp] theorem State.getVendorMsgs_only_iff (s a1) (h : [.mgt, .draws] ⊆ ps) : OnlyChanges ps s0 (State.getVendorMsgs s a1) ↔ OnlyChanges ps s0 s :=
  onlyChanges_iff (State.getVendorMsgs_only s a1) h
theorem State.msgEcho_only (s) : OnlyChanges [.stats, .ctrs, .hif, .mgt] s (State.msgEcho s) := by
  unfold State.msgEcho
  (repeat' split) <;> simp
@[simp] theorem State.msgEcho_only_iff (s) (h : [.stats, .ctrs, .hif, .mgt] ⊆ ps) : OnlyChanges ps s0 (State.msgEcho s) ↔ OnlyChanges ps s0 s :=
  onlyChanges_iff (State.msgEcho_only s) h
theorem State.msgGetInfo_only (s) : OnlyChanges [.stats, .ctrs, .hif, .mgt] s (State.msgGetInfo s) := by
  unfold State.msgGetInfo
  (repeat' split) <;> simp
@[simp] theorem State.msgGetInfo_only_iff (s) (h : [.stats, .ctrs, .hif, .mgt] ⊆ ps) : OnlyChanges ps s0 (State.msgGetInfo s) ↔ OnlyChanges ps s0 s :=
  onlyChanges_iff (State.msgGetInfo_only s) h
theorem State.msgSuppStatus_only (s) : OnlyChanges [.stats, .ctrs, .hif, .mgt] s (State.msgSuppStatus s) := by
  unfold State.msgSuppStatus
  (repeat' split) <;> simp
@[simp] theorem State.msgSuppStatus_only_iff (s) (h : [.stats, .ctrs, .hif, .mgt] ⊆ ps) : OnlyChanges ps s0 (State.msgSuppStatus s) ↔ OnlyChanges ps s0 s :=
  onlyChanges_iff (State.msgSuppStatus_only s) h
theorem State.msgLogRead_only (s) : OnlyChanges [.stats, .ctrs, .hif, .mgt] s (State.msgLogRead s) := by
  unfold State.msgLogRead
  (repeat' split) <;> simp
@[simp] theorem State.msgLogRead_only_iff (s) (h : [.stats, .ctrs, .hif, .mgt] ⊆ ps) : OnlyChanges ps s0 (State.msgLogRead s) ↔ OnlyChanges ps s0 s :=
  onlyChanges_iff (State.msgLogRead_only s) h
theorem State.msgTelemetry_only (s) : OnlyChanges [.stats, .ctrs, .hif, .mgt, .draws] s (State.msgTelemetry s) := by
  unfold State.msgTelemetry
  (repeat' split) <;> simp
@[simp] theorem State.msgTelemetry_only_iff (s) (h : [.stats, .ctrs, .hif, .mgt, .draws] ⊆ ps) : OnlyChanges ps s0 (State.msgTelemetry s) ↔ OnlyChanges ps s0 s :=
  onlyChanges_iff (State.msgTelemetry_only s) h
theorem State.msgAttach_only (s) : OnlyChanges [.stats, .ctrs, .hif, .mgt] s (State.msgAttach s) := by
  unfold State.msgAttach
  (repeat' split) <;> simp
@[simp] theorem State.msgAttach_only_iff (s) (h : [.stats, .ctrs, .hif, .mgt] ⊆ ps) : OnlyChanges ps s0 (State.msgAttach s) ↔ OnlyChanges ps s0 s :=
  onlyChanges_iff (State.msgAttach_only s) h
theorem State.suppSections_only_aux (a0 a1 a2 s) : OnlyChanges [.stats, .ctrs, .mem, .hif, .err, .draws] s0 (State.suppSections a0 a1 a2 s).2 ↔ OnlyChanges [.stats, .ctrs, .mem, .hif, .err, .draws] s0 s := by
  fun_induction State.suppSections <;> simp_all +zetaDelta
theorem State.suppSections_only (a0 a1 a2 s) : OnlyChanges [.stats, .ctrs, .mem, .hif, .err, .draws] s (State.suppSections a0 a1 a2 s).2 := 
  (State.suppSections_only_aux a0 a1 a2 s).2 (onlyChanges_refl _ _)
@[simp] theorem State.suppSections_only_iff (a0 a1 a2 s) (h : [.stats, .ctrs, .mem, .hif, .err, .draws] ⊆ ps) : OnlyChanges ps s0 (State.suppSections a0 a1 a2 s).2 ↔ OnlyChanges ps s0 s :=
  onlyChanges_iff (State.suppSections_only a0 a1 a2 s) h
theorem State.suppVerified_only (base) (n) (h0) (cert) (v : Bool × State) : OnlyChanges [.stats, .ctrs, .mem, .hif, .err, .draws] v.2 (State.suppVerified base n h0 cert v).2 := by
  unfold State.suppVerified
  (repeat' (first | split | dsimp only)) <;> simp
@[simp] theorem State.suppVerified_only_iff {ps : List Piece} {s0 : State} (base) (n) (h0) (cert) (v : Bool × State) (h : [.stats, .ctrs, .mem, .hif, .err, .draws] ⊆ ps) : OnlyChanges ps s0 (State.suppVerified base n h0 cert v).2 ↔ OnlyChanges ps s0 v.2 :=
  onlyChanges_iff (State.suppVerified_only base n h0 cert v) h
theorem State.suppLoadBody_only (s a1 a2 a3 a4) : OnlyChanges [.stats, .ctrs, .mem, .hif, .err, .draws] s (State.suppLoadBody s a1 a2 a3 a4).2 := by
  unfold State.suppLoadBody
  (repeat' (first | split | dsimp only)) <;> simp
@[simp] theorem State.suppLoadBody_only_iff (s a1 a2 a3 a4) (h : [.stats, .ctrs, .mem, .hif, .err, .draws] ⊆ ps) : OnlyChanges ps s0 (State.suppLoadBody s a1 a2 a3 a4).2 ↔ OnlyChanges ps s0 s :=
  onlyChanges_iff (State.suppLoadBody_only s a1 a2 a3 a4) h
theorem State.suppLoadTry_only (s a1 a2) : OnlyChanges [.stats, .ctrs, .mem, .hif, .err, .draws] s (State.suppLoadTry s a1 a2).2 := by
  unfold State.suppLoadTry
  (repeat' (first | split | dsimp only)) <;> simp
@[simp] theorem State.suppLoadTry_only_iff (s a1 a2) (h : [.stats, .ctrs, .mem, .hif, .err, .draws] ⊆ ps) : OnlyChanges ps s0 (State.suppLoadTry s a1 a2).2 ↔ OnlyChanges ps s0 s :=
  onlyChanges_iff (State.suppLoadTry_only s a1 a2) h
theorem State.suppCommit_only (s a1) : OnlyChanges [.stats, .ctrs, .hif, .mgt, .sec, .err, .pwr, .fab] s (State.suppCommit s a1) := by
  unfold State.suppCommit
  dsimp only
  (repeat' split) <;> simp [only_upd]
@[simp] theorem State.suppCommit_only_iff (s a1) (h : [.stats, .ctrs, .hif, .mgt, .sec, .err, .pwr, .fab] ⊆ ps) : OnlyChanges ps s0 (State.suppCommit s a1) ↔ OnlyChanges ps s0 s :=
  onlyChanges_iff (State.suppCommit_only s a1) h
theorem State.msgSuppLoad_only (s) : OnlyChanges [.stats, .ctrs, .mem, .hif, .mgt, .sec, .err, .pwr, .fab, .draws] s (State.msgSuppLoad s) := by
  unfold State.msgSuppLoad
  (repeat' (first | split | dsimp only)) <;> simp
@[simp] theorem State.msgSuppLoad_only_iff (s) (h : [.stats, .ctrs, .mem, .hif, .mgt, .sec, .err, .pwr, .fab, .draws] ⊆ ps) : OnlyChanges ps s0 (State.msgSuppLoad s) ↔ OnlyChanges ps s0 s :=
  onlyChanges_iff (State.msgSuppLoad_only s) h
theorem State.msgFwRestart_only (s) : OnlyChanges [.stats, .ctrs, .hif, .mgt, .err] s (State.msgFwRestart s) := by
  unfold State.msgFwRestart
  (repeat' split) <;> simp
@[simp] theorem State.msgFwRestart_only_iff (s) (h : [.stats, .ctrs, .hif, .mgt, .err] ⊆ ps) : OnlyChanges ps s0 (State.msgFwRestart s) ↔ OnlyChanges ps s0 s :=
  onlyChanges_iff (State.msgFwRestart_only s) h
theorem State.msgReport_only (s) : OnlyChanges [.stats, .ctrs, .hif, .mgt] s (State.msgReport s) := by
  unfold State.msgReport
  (repeat' split) <;> simp
@[simp] theorem State.msgReport_only_iff (s) (h : [.stats, .ctrs, .hif, .mgt] ⊆ ps) : OnlyChanges ps s0 (State.msgReport s) ↔ OnlyChanges ps s0 s :=
  onlyChanges_iff (State.msgReport_only s) h
theorem State.msgExtend_only (s) : OnlyChanges [.stats, .ctrs, .mem, .hif, .mgt, .sec, .err, .draws] s (State.msgExtend s) := by
  unfold State.msgExtend
  (repeat' (first | split | dsimp only)) <;> simp
@[simp] theorem State.msgExtend_only_iff (s) (h : [.stats, .ctrs, .mem, .hif, .mgt, .sec, .err, .draws] ⊆ ps) : OnlyChanges ps s0 (State.msgExtend s) ↔ OnlyChanges ps s0 s :=
  onlyChanges_iff (State.msgExtend_only s) h
theorem State.msgClear_only (s) : OnlyChanges [.stats, .ctrs, .hif, .mgt, .sec] s (State.msgClear s) := by
  unfold State.msgClear
  (repeat' split) <;> simp
@[simp] theorem State.msgClear_only_iff (s) (h : [.stats, .ctrs, .hif, .mgt, .sec] ⊆ ps) : OnlyChanges ps s0 (State.msgClear s) ↔ OnlyChanges ps s0 s :=
  onlyChanges_iff (State.msgClear_only s) h
theorem State.msgCertRead_only (s) : OnlyChanges [.stats, .ctrs, .hif, .mgt] s (State.msgCertRead s) := by
  unfold State.msgCertRead
  (repeat' split) <;> simp
@[simp] theorem State.msgCertRead_only_iff (s) (h : [.stats, .ctrs, .hif, .mgt] ⊆ ps) : OnlyChanges ps s0 (State.msgCertRead s) ↔ OnlyChanges ps s0 s :=
  onlyChanges_iff (State.msgCertRead_only s) h
theorem State.powerReply_only (s a1) : OnlyChanges [.stats, .ctrs, .hif, .mgt] s (State.powerReply s a1) := by
  unfold State.powerReply
  simp
@[simp] theorem State.powerReply_only_iff (s a1) (h : [.stats, .ctrs, .hif, .mgt] ⊆ ps) : OnlyChanges ps s0 (State.powerReply s a1) ↔ OnlyChanges ps s0 s :=
  onlyChanges_iff (State.powerReply_only s a1) h
theorem State.msgPowerRun_only (s) : OnlyChanges [.stats, .ctrs, .mem, .hif, .mgt, .pwr] s (State.msgPowerRun s) := by
  unfold State.msgPowerRun
  (repeat' split) <;> simp
@[simp] theorem State.msgPowerRun_only_iff (s) (h : [.stats, .ctrs, .mem, .hif, .mgt, .pwr] ⊆ ps) : OnlyChanges ps s0 (State.msgPowerRun s) ↔ OnlyChanges ps s0 s :=
  onlyChanges_iff (State.msgPowerRun_only s) h
theorem State.msgSlack_only (s) : OnlyChanges [.stats, .ctrs, .cqf, .mem, .hif, .mgt, .err, .pwr, .mat, .xch, .fab] s (State.msgSlack s) := by
  unfold State.msgSlack
  (repeat' split) <;> simp
@[simp] theorem State.msgSlack_only_iff (s) (h : [.stats, .ctrs, .cqf, .mem, .hif, .mgt, .err, .pwr, .mat, .xch, .fab] ⊆ ps) : OnlyChanges ps s0 (State.msgSlack s) ↔ OnlyChanges ps s0 s :=
  onlyChanges_iff (State.msgSlack_only s) h
theorem State.msgDeepOff_only (s) : OnlyChanges [.stats, .ctrs, .hif, .mgt, .pwr] s (State.msgDeepOff s) := by
  unfold State.msgDeepOff
  (repeat' split) <;> simp
@[simp] theorem State.msgDeepOff_only_iff (s) (h : [.stats, .ctrs, .hif, .mgt, .pwr] ⊆ ps) : OnlyChanges ps s0 (State.msgDeepOff s) ↔ OnlyChanges ps s0 s :=
  onlyChanges_iff (State.msgDeepOff_only s) h
theorem State.msgPowerLimit_only (s) : OnlyChanges [.regs, .stats, .ctrs, .hif, .mgt, .cfg] s (State.msgPowerLimit s) := by
  unfold State.msgPowerLimit
  (repeat' split) <;> simp
@[simp] theorem State.msgPowerLimit_only_iff (s) (h : [.regs, .stats, .ctrs, .hif, .mgt, .cfg] ⊆ ps) : OnlyChanges ps s0 (State.msgPowerLimit s) ↔ OnlyChanges ps s0 s :=
  onlyChanges_iff (State.msgPowerLimit_only s) h
theorem State.msgHistRead_only (s) : OnlyChanges [.stats, .ctrs, .hif, .mgt] s (State.msgHistRead s) := by
  unfold State.msgHistRead
  (repeat' split) <;> simp
@[simp] theorem State.msgHistRead_only_iff (s) (h : [.stats, .ctrs, .hif, .mgt] ⊆ ps) : OnlyChanges ps s0 (State.msgHistRead s) ↔ OnlyChanges ps s0 s :=
  onlyChanges_iff (State.msgHistRead_only s) h
theorem State.msgHistAdd_only (s) : OnlyChanges [.stats, .ctrs, .hif, .mgt, .err] s (State.msgHistAdd s) := by
  unfold State.msgHistAdd
  (repeat' split) <;> simp
@[simp] theorem State.msgHistAdd_only_iff (s) (h : [.stats, .ctrs, .hif, .mgt, .err] ⊆ ps) : OnlyChanges ps s0 (State.msgHistAdd s) ↔ OnlyChanges ps s0 s :=
  onlyChanges_iff (State.msgHistAdd_only s) h
theorem State.histWritten_only (s) : OnlyChanges [.stats, .ctrs, .hif, .mgt, .err, .flash] s (State.histWritten s) := by
  unfold State.histWritten
  dsimp only
  (repeat' split) <;> simp [only_upd]
@[simp] theorem State.histWritten_only_iff (s) (h : [.stats, .ctrs, .hif, .mgt, .err, .flash] ⊆ ps) : OnlyChanges ps s0 (State.histWritten s) ↔ OnlyChanges ps s0 s :=
  onlyChanges_iff (State.histWritten_only s) h
theorem State.msgMargin_only (s a1 a2) : OnlyChanges [.stats, .ctrs, .hif, .mgt, .draws] s (State.msgMargin s a1 a2) := by
  unfold State.msgMargin
  (repeat' split) <;> simp
@[simp] theorem State.msgMargin_only_iff (s a1 a2) (h : [.stats, .ctrs, .hif, .mgt, .draws] ⊆ ps) : OnlyChanges ps s0 (State.msgMargin s a1 a2) ↔ OnlyChanges ps s0 s :=
  onlyChanges_iff (State.msgMargin_only s a1 a2) h
theorem State.cfgVerdict_only (s) (r) (v : Bool × State) : OnlyChanges [] v.2 (State.cfgVerdict s r v).2 := by
  unfold State.cfgVerdict
  (repeat' split) <;> simp
@[simp] theorem State.cfgVerdict_only_iff {ps : List Piece} {s0 : State} (s) (r) (v : Bool × State) (h : [] ⊆ ps) : OnlyChanges ps s0 (State.cfgVerdict s r v).2 ↔ OnlyChanges ps s0 v.2 :=
  onlyChanges_iff (State.cfgVerdict_only s r v) h
theorem State.cfgCheck_only (s a1 a2) : OnlyChanges [.stats, .ctrs, .hif] s (State.cfgCheck s a1 a2).2 := by
  unfold State.cfgCheck
  (repeat' split) <;> simp
@[simp] theorem State.cfgCheck_only_iff (s a1 a2) (h : [.stats, .ctrs, .hif] ⊆ ps) : OnlyChanges ps s0 (State.cfgCheck s a1 a2).2 ↔ OnlyChanges ps s0 s :=
  onlyChanges_iff (State.cfgCheck_only s a1 a2) h
theorem State.msgConfigUpdate_only (s) : OnlyChanges [.stats, .ctrs, .mem, .hif, .mgt, .err, .flash, .cfg, .draws] s (State.msgConfigUpdate s) := by
  unfold State.msgConfigUpdate
  (repeat' (first | split | dsimp only)) <;> simp
@[simp] theorem State.msgConfigUpdate_only_iff (s) (h : [.stats, .ctrs, .mem, .hif, .mgt, .err, .flash, .cfg, .draws] ⊆ ps) : OnlyChanges ps s0 (State.msgConfigUpdate s) ↔ OnlyChanges ps s0 s :=
  onlyChanges_iff (State.msgConfigUpdate_only s) h
theorem State.barRefuse_only (s) : OnlyChanges [.hif, .draws] s (State.barRefuse s) := by
  unfold State.barRefuse
  simp
@[simp] theorem State.barRefuse_only_iff (s) (h : [.hif, .draws] ⊆ ps) : OnlyChanges ps s0 (State.barRefuse s) ↔ OnlyChanges ps s0 s :=
  onlyChanges_iff (State.barRefuse_only s) h
theorem State.gwWake_only (s a1 a2) : OnlyChanges [.mem] s (State.gwWake s a1 a2) := by
  unfold State.gwWake
  simp
@[simp] theorem State.gwWake_only_iff (s a1 a2) (h : [.mem] ⊆ ps) : OnlyChanges ps s0 (State.gwWake s a1 a2) ↔ OnlyChanges ps s0 s :=
  onlyChanges_iff (State.gwWake_only s a1 a2) h
theorem State.gwRead_only (s a n t) (hr : State.gwRead s a n = some t) : OnlyChanges [.stats, .ctrs, .mem, .hif, .err, .draws] s t := by
  unfold State.gwRead at hr
  dsimp only at hr
  repeat' split at hr
  all_goals simp only [Option.some.injEq, reduceCtorEq] at hr
  all_goals subst hr
  all_goals simp
theorem State.gwWrite_only (s a bs t) (hr : State.gwWrite s a bs = some t) : OnlyChanges [.stats, .ctrs, .mem, .hif, .err, .draws] s t := by
  unfold State.gwWrite at hr
  dsimp only at hr
  split at hr
  · simp at hr
  · simp only [Option.some.injEq] at hr
    subst hr
    simp
theorem State.gwTry_only (s r t) (hr : State.gwTry s r = some t) : OnlyChanges [.stats, .ctrs, .mem, .hif, .err, .draws] s t := by
  cases r with
  | read a n => exact (onlyChanges_iff (State.gwRead_only s a n t hr) (by simp)).2 (onlyChanges_refl _ _)
  | write a bs => exact (onlyChanges_iff (State.gwWrite_only s a bs t hr) (by simp)).2 (onlyChanges_refl _ _)
theorem State.gwHold_only (s a1) : OnlyChanges [.ctrs, .mem] s (State.gwHold s a1) := by
  unfold State.gwHold
  (repeat' split) <;> simp
@[simp] theorem State.gwHold_only_iff (s a1) (h : [.ctrs, .mem] ⊆ ps) : OnlyChanges ps s0 (State.gwHold s a1) ↔ OnlyChanges ps s0 s :=
  onlyChanges_iff (State.gwHold_only s a1) h
theorem State.gwStep_only (s) : OnlyChanges [.stats, .ctrs, .mem, .hif, .err, .draws] s (State.gwStep s) := by
  unfold State.gwStep
  split
  · simp
  · split
    · rename_i h
      exact (only_hif _ _ (by simp)).2 ((onlyChanges_iff (State.gwTry_only _ _ _ h) (by simp)).2 (onlyChanges_refl _ _))
    · simp
@[simp] theorem State.gwStep_only_iff (s) (h : [.stats, .ctrs, .mem, .hif, .err, .draws] ⊆ ps) : OnlyChanges ps s0 (State.gwStep s) ↔ OnlyChanges ps s0 s :=
  onlyChanges_iff (State.gwStep_only s) h
theorem State.gwArrive_only (s a1) : OnlyChanges [.stats, .ctrs, .mem, .hif, .err, .draws] s (State.gwArrive s a1) := by
  unfold State.gwArrive
  simp
@[simp] theorem State.gwArrive_only_iff (s a1) (h : [.stats, .ctrs, .mem, .hif, .err, .draws] ⊆ ps) : OnlyChanges ps s0 (State.gwArrive s a1) ↔ OnlyChanges ps s0 s :=
  onlyChanges_iff (State.gwArrive_only s a1) h
theorem State.gangwayRead_only (s a1 a2) : OnlyChanges [.stats, .ctrs, .mem, .hif, .err, .draws] s (State.gangwayRead s a1 a2) := by
  unfold State.gangwayRead
  (repeat' (first | split | dsimp only)) <;> simp
@[simp] theorem State.gangwayRead_only_iff (s a1 a2) (h : [.stats, .ctrs, .mem, .hif, .err, .draws] ⊆ ps) : OnlyChanges ps s0 (State.gangwayRead s a1 a2) ↔ OnlyChanges ps s0 s :=
  onlyChanges_iff (State.gangwayRead_only s a1 a2) h
theorem State.gangwayWrite_only (s a1 a2) : OnlyChanges [.stats, .ctrs, .mem, .hif, .err, .draws] s (State.gangwayWrite s a1 a2) := by
  unfold State.gangwayWrite
  simp
@[simp] theorem State.gangwayWrite_only_iff (s a1 a2) (h : [.stats, .ctrs, .mem, .hif, .err, .draws] ⊆ ps) : OnlyChanges ps s0 (State.gangwayWrite s a1 a2) ↔ OnlyChanges ps s0 s :=
  onlyChanges_iff (State.gangwayWrite_only s a1 a2) h
theorem State.gwCommit_only (s a1) : OnlyChanges [.regs, .stats, .hif] s (State.gwCommit s a1) := by
  unfold State.gwCommit
  simp
@[simp] theorem State.gwCommit_only_iff (s a1) (h : [.regs, .stats, .hif] ⊆ ps) : OnlyChanges ps s0 (State.gwCommit s a1) ↔ OnlyChanges ps s0 s :=
  onlyChanges_iff (State.gwCommit_only s a1) h
theorem State.msixDeliver_only (s a1) : OnlyChanges [.hif] s (State.msixDeliver s a1) := by
  unfold State.msixDeliver
  simp
@[simp] theorem State.msixDeliver_only_iff (s a1) (h : [.hif] ⊆ ps) : OnlyChanges ps s0 (State.msixDeliver s a1) ↔ OnlyChanges ps s0 s :=
  onlyChanges_iff (State.msixDeliver_only s a1) h
theorem State.deliverAll_only (s) : OnlyChanges [.hif] s (State.deliverAll s) := by
  unfold State.deliverAll
  simp
@[simp] theorem State.deliverAll_only_iff (s) (h : [.hif] ⊆ ps) : OnlyChanges ps s0 (State.deliverAll s) ↔ OnlyChanges ps s0 s :=
  onlyChanges_iff (State.deliverAll_only s) h
theorem State.msixSet_only (s a1 a2) : OnlyChanges [.hif] s (State.msixSet s a1 a2) := by
  unfold State.msixSet
  simp
@[simp] theorem State.msixSet_only_iff (s a1 a2) (h : [.hif] ⊆ ps) : OnlyChanges ps s0 (State.msixSet s a1 a2) ↔ OnlyChanges ps s0 s :=
  onlyChanges_iff (State.msixSet_only s a1 a2) h
theorem State.msixEnable_only (s) : OnlyChanges [.hif] s (State.msixEnable s) := by
  unfold State.msixEnable
  simp
@[simp] theorem State.msixEnable_only_iff (s) (h : [.hif] ⊆ ps) : OnlyChanges ps s0 (State.msixEnable s) ↔ OnlyChanges ps s0 s :=
  onlyChanges_iff (State.msixEnable_only s) h
theorem State.msixControl_only (s a1 a2) : OnlyChanges [.hif] s (State.msixControl s a1 a2) := by
  unfold State.msixControl
  simp
@[simp] theorem State.msixControl_only_iff (s a1 a2) (h : [.hif] ⊆ ps) : OnlyChanges ps s0 (State.msixControl s a1 a2) ↔ OnlyChanges ps s0 s :=
  onlyChanges_iff (State.msixControl_only s a1 a2) h
theorem State.msixWord_only (s a1 a2) : OnlyChanges [.hif] s (State.msixWord s a1 a2) := by
  unfold State.msixWord
  simp
@[simp] theorem State.msixWord_only_iff (s a1 a2) (h : [.hif] ⊆ ps) : OnlyChanges ps s0 (State.msixWord s a1 a2) ↔ OnlyChanges ps s0 s :=
  onlyChanges_iff (State.msixWord_only s a1 a2) h
theorem State.msixUnmask_only (s a1) : OnlyChanges [.hif] s (State.msixUnmask s a1) := by
  unfold State.msixUnmask
  (repeat' split) <;> simp
@[simp] theorem State.msixUnmask_only_iff (s a1) (h : [.hif] ⊆ ps) : OnlyChanges ps s0 (State.msixUnmask s a1) ↔ OnlyChanges ps s0 s :=
  onlyChanges_iff (State.msixUnmask_only s a1) h
theorem State.tlpUndo_only (s a1) : OnlyChanges [.hif] s (State.tlpUndo s a1) := by
  unfold State.tlpUndo
  simp
@[simp] theorem State.tlpUndo_only_iff (s a1) (h : [.hif] ⊆ ps) : OnlyChanges ps s0 (State.tlpUndo s a1) ↔ OnlyChanges ps s0 s :=
  onlyChanges_iff (State.tlpUndo_only s a1) h
theorem State.tlpLost_only (s a1) : OnlyChanges [.stats, .ctrs, .cqf, .mem, .hif, .err, .mat, .vec, .nbu, .xch, .fab, .itk, .draws] s (State.tlpLost s a1) := by
  unfold State.tlpLost
  (repeat' split) <;> simp
@[simp] theorem State.tlpLost_only_iff (s a1) (h : [.stats, .ctrs, .cqf, .mem, .hif, .err, .mat, .vec, .nbu, .xch, .fab, .itk, .draws] ⊆ ps) : OnlyChanges ps s0 (State.tlpLost s a1) ↔ OnlyChanges ps s0 s :=
  onlyChanges_iff (State.tlpLost_only s a1) h
theorem State.loseTlps_only (s a1) : OnlyChanges [.stats, .ctrs, .cqf, .mem, .hif, .err, .mat, .vec, .nbu, .xch, .fab, .itk, .draws] s (State.loseTlps s a1) := by
  unfold State.loseTlps
  refine (foldl_only (fun t x => ?_) _ _).2 ((foldl_only (fun t x => ?_) _ _).2 (by simp))
  · simp
  · simp
@[simp] theorem State.loseTlps_only_iff (s a1) (h : [.stats, .ctrs, .cqf, .mem, .hif, .err, .mat, .vec, .nbu, .xch, .fab, .itk, .draws] ⊆ ps) : OnlyChanges ps s0 (State.loseTlps s a1) ↔ OnlyChanges ps s0 s :=
  onlyChanges_iff (State.loseTlps_only s a1) h
theorem State.loseUnacked_only (s) : OnlyChanges [.stats, .ctrs, .cqf, .mem, .hif, .err, .mat, .vec, .nbu, .xch, .fab, .itk, .draws] s (State.loseUnacked s) := by
  unfold State.loseUnacked
  simp
@[simp] theorem State.loseUnacked_only_iff (s) (h : [.stats, .ctrs, .cqf, .mem, .hif, .err, .mat, .vec, .nbu, .xch, .fab, .itk, .draws] ⊆ ps) : OnlyChanges ps s0 (State.loseUnacked s) ↔ OnlyChanges ps s0 s :=
  onlyChanges_iff (State.loseUnacked_only s) h
theorem State.dlDown_only (s) : OnlyChanges [.stats, .ctrs, .cqf, .mem, .hif, .err, .mat, .vec, .nbu, .xch, .fab, .itk, .draws] s (State.dlDown s) := by
  unfold State.dlDown
  split
  · simp
  · refine (foldl_only (fun t e => ?_) _ _).2 (by simp)
    split <;> simp
@[simp] theorem State.dlDown_only_iff (s) (h : [.stats, .ctrs, .cqf, .mem, .hif, .err, .mat, .vec, .nbu, .xch, .fab, .itk, .draws] ⊆ ps) : OnlyChanges ps s0 (State.dlDown s) ↔ OnlyChanges ps s0 s :=
  onlyChanges_iff (State.dlDown_only s) h
theorem State.flushOut_only_aux (a0 s) : OnlyChanges [.hif] s0 (State.flushOut a0 s) ↔ OnlyChanges [.hif] s0 s := by
  fun_induction State.flushOut <;> simp_all
theorem State.flushOut_only (a0 s) : OnlyChanges [.hif] s (State.flushOut a0 s) := 
  (State.flushOut_only_aux a0 s).2 (onlyChanges_refl _ _)
@[simp] theorem State.flushOut_only_iff (a0 s) (h : [.hif] ⊆ ps) : OnlyChanges ps s0 (State.flushOut a0 s) ↔ OnlyChanges ps s0 s :=
  onlyChanges_iff (State.flushOut_only a0 s) h
theorem State.outFlow_only (s) : OnlyChanges [.stats, .cqf, .hif] s (State.outFlow s) := by
  unfold State.outFlow
  simp
@[simp] theorem State.outFlow_only_iff (s) (h : [.stats, .cqf, .hif] ⊆ ps) : OnlyChanges ps s0 (State.outFlow s) ↔ OnlyChanges ps s0 s :=
  onlyChanges_iff (State.outFlow_only s) h
theorem State.confSet_only (s a1 a2) : OnlyChanges [.hif] s (State.confSet s a1 a2) := by
  unfold State.confSet
  simp
@[simp] theorem State.confSet_only_iff (s a1 a2) (h : [.hif] ⊆ ps) : OnlyChanges ps s0 (State.confSet s a1 a2) ↔ OnlyChanges ps s0 s :=
  onlyChanges_iff (State.confSet_only s a1 a2) h
theorem State.dlUp_only (s a1) : OnlyChanges [.stats, .cqf, .hif] s (State.dlUp s a1) := by
  unfold State.dlUp
  simp
@[simp] theorem State.dlUp_only_iff (s a1) (h : [.stats, .cqf, .hif] ⊆ ps) : OnlyChanges ps s0 (State.dlUp s a1) ↔ OnlyChanges ps s0 s :=
  onlyChanges_iff (State.dlUp_only s a1) h
theorem State.confWrite_only (s a1 a2 a3) : OnlyChanges [.stats, .cqf, .hif] s (State.confWrite s a1 a2 a3) := by
  unfold State.confWrite
  simp
@[simp] theorem State.confWrite_only_iff (s a1 a2 a3) (h : [.stats, .cqf, .hif] ⊆ ps) : OnlyChanges ps s0 (State.confWrite s a1 a2 a3) ↔ OnlyChanges ps s0 s :=
  onlyChanges_iff (State.confWrite_only s a1 a2 a3) h
theorem State.confRead_only (s a1) : OnlyChanges [.hif] s (State.confRead s a1) := by
  unfold State.confRead
  simp
@[simp] theorem State.confRead_only_iff (s a1) (h : [.hif] ⊆ ps) : OnlyChanges ps s0 (State.confRead s a1) ↔ OnlyChanges ps s0 s :=
  onlyChanges_iff (State.confRead_only s a1) h
theorem State.linkLoss_only (s) : OnlyChanges [.regs, .stats, .ctrs, .cqf, .mem, .hif, .mgt, .sec, .err, .cfg, .pwr, .mat, .vec, .nbu, .xch, .fab, .itk, .draws] s (State.linkLoss s) := by
  unfold State.linkLoss
  (repeat' split) <;> simp
@[simp] theorem State.linkLoss_only_iff (s) (h : [.regs, .stats, .ctrs, .cqf, .mem, .hif, .mgt, .sec, .err, .cfg, .pwr, .mat, .vec, .nbu, .xch, .fab, .itk, .draws] ⊆ ps) : OnlyChanges ps s0 (State.linkLoss s) ↔ OnlyChanges ps s0 s :=
  onlyChanges_iff (State.linkLoss_only s) h
theorem State.perstAssert_only (s) : OnlyChanges [.regs, .stats, .ctrs, .cqf, .mem, .hif, .mgt, .sec, .err, .cfg, .pwr, .mat, .vec, .nbu, .xch, .fab, .itk, .draws] s (State.perstAssert s) := by
  unfold State.perstAssert
  simp
@[simp] theorem State.perstAssert_only_iff (s) (h : [.regs, .stats, .ctrs, .cqf, .mem, .hif, .mgt, .sec, .err, .cfg, .pwr, .mat, .vec, .nbu, .xch, .fab, .itk, .draws] ⊆ ps) : OnlyChanges ps s0 (State.perstAssert s) ↔ OnlyChanges ps s0 s :=
  onlyChanges_iff (State.perstAssert_only s) h
theorem State.perstDeassert_only (s) : OnlyChanges [.hif] s (State.perstDeassert s) := by
  unfold State.perstDeassert
  simp
@[simp] theorem State.perstDeassert_only_iff (s) (h : [.hif] ⊆ ps) : OnlyChanges ps s0 (State.perstDeassert s) ↔ OnlyChanges ps s0 s :=
  onlyChanges_iff (State.perstDeassert_only s) h
theorem State.crcScan_only (s) : OnlyChanges [.regs, .stats, .ctrs, .cqf, .mem, .hif, .mgt, .sec, .err, .cfg, .pwr, .mat, .vec, .nbu, .xch, .fab, .itk, .draws] s (State.crcScan s) := by
  unfold State.crcScan
  (repeat' (first | split | dsimp only)) <;> simp
@[simp] theorem State.crcScan_only_iff (s) (h : [.regs, .stats, .ctrs, .cqf, .mem, .hif, .mgt, .sec, .err, .cfg, .pwr, .mat, .vec, .nbu, .xch, .fab, .itk, .draws] ⊆ ps) : OnlyChanges ps s0 (State.crcScan s) ↔ OnlyChanges ps s0 s :=
  onlyChanges_iff (State.crcScan_only s) h
theorem State.plainRead_only (s a1 a2 a3) : OnlyChanges [.regs, .stats, .ctrs, .hif, .err] s (State.plainRead s a1 a2 a3).2 := by
  unfold State.plainRead
  (repeat' split) <;> simp
@[simp] theorem State.plainRead_only_iff (s a1 a2 a3) (h : [.regs, .stats, .ctrs, .hif, .err] ⊆ ps) : OnlyChanges ps s0 (State.plainRead s a1 a2 a3).2 ↔ OnlyChanges ps s0 s :=
  onlyChanges_iff (State.plainRead_only s a1 a2 a3) h
theorem State.barRead_only (s a1 a2) : OnlyChanges [.regs, .stats, .ctrs, .hif, .err] s (State.barRead s a1 a2).2 := by
  unfold State.barRead
  (repeat' split) <;> simp
@[simp] theorem State.barRead_only_iff (s a1 a2) (h : [.regs, .stats, .ctrs, .hif, .err] ⊆ ps) : OnlyChanges ps s0 (State.barRead s a1 a2).2 ↔ OnlyChanges ps s0 s :=
  onlyChanges_iff (State.barRead_only s a1 a2) h
theorem State.writeLow_only (s a1 a2 a3 a4) : OnlyChanges [.regs, .stats, .ctrs, .cqf, .mem, .hif, .mgt, .err, .cfg, .pwr, .mat, .vec, .nbu, .xch, .fab, .itk, .draws] s (State.writeLow s a1 a2 a3 a4) := by
  unfold State.writeLow
  (repeat' split) <;> simp
@[simp] theorem State.writeLow_only_iff (s a1 a2 a3 a4) (h : [.regs, .stats, .ctrs, .cqf, .mem, .hif, .mgt, .err, .cfg, .pwr, .mat, .vec, .nbu, .xch, .fab, .itk, .draws] ⊆ ps) : OnlyChanges ps s0 (State.writeLow s a1 a2 a3 a4) ↔ OnlyChanges ps s0 s :=
  onlyChanges_iff (State.writeLow_only s a1 a2 a3 a4) h
theorem State.writeQueue_only (s a1 a2 a3 a4 a5 a6) : OnlyChanges [.regs, .stats, .ctrs, .cqf, .mem, .hif, .err, .mat, .vec, .nbu, .xch, .fab, .itk, .draws] s (State.writeQueue s a1 a2 a3 a4 a5 a6) := by
  unfold State.writeQueue
  (repeat' split) <;> simp
@[simp] theorem State.writeQueue_only_iff (s a1 a2 a3 a4 a5 a6) (h : [.regs, .stats, .ctrs, .cqf, .mem, .hif, .err, .mat, .vec, .nbu, .xch, .fab, .itk, .draws] ⊆ ps) : OnlyChanges ps s0 (State.writeQueue s a1 a2 a3 a4 a5 a6) ↔ OnlyChanges ps s0 s :=
  onlyChanges_iff (State.writeQueue_only s a1 a2 a3 a4 a5 a6) h
theorem State.writeSlip_only (s a1 a2 a3 a4 a5) : OnlyChanges [.regs, .stats, .cqf] s (State.writeSlip s a1 a2 a3 a4 a5) := by
  unfold State.writeSlip
  simp
@[simp] theorem State.writeSlip_only_iff (s a1 a2 a3 a4 a5) (h : [.regs, .stats, .cqf] ⊆ ps) : OnlyChanges ps s0 (State.writeSlip s a1 a2 a3 a4 a5) ↔ OnlyChanges ps s0 s :=
  onlyChanges_iff (State.writeSlip_only s a1 a2 a3 a4 a5) h
theorem State.writeBerth_only (s a1 a2 a3 a4 a5 a6) : OnlyChanges [.regs, .stats, .cqf, .hif, .xch, .fab] s (State.writeBerth s a1 a2 a3 a4 a5 a6) := by
  unfold State.writeBerth
  simp
@[simp] theorem State.writeBerth_only_iff (s a1 a2 a3 a4 a5 a6) (h : [.regs, .stats, .cqf, .hif, .xch, .fab] ⊆ ps) : OnlyChanges ps s0 (State.writeBerth s a1 a2 a3 a4 a5 a6) ↔ OnlyChanges ps s0 s :=
  onlyChanges_iff (State.writeBerth_only s a1 a2 a3 a4 a5 a6) h
theorem State.writeCqf_only (s a1 a2 a3 a4 a5 a6) : OnlyChanges [.regs, .stats, .ctrs, .cqf, .mem, .hif, .err, .mat, .vec, .nbu, .xch, .fab, .itk, .draws] s (State.writeCqf s a1 a2 a3 a4 a5 a6) := by
  unfold State.writeCqf
  simp
@[simp] theorem State.writeCqf_only_iff (s a1 a2 a3 a4 a5 a6) (h : [.regs, .stats, .ctrs, .cqf, .mem, .hif, .err, .mat, .vec, .nbu, .xch, .fab, .itk, .draws] ⊆ ps) : OnlyChanges ps s0 (State.writeCqf s a1 a2 a3 a4 a5 a6) ↔ OnlyChanges ps s0 s :=
  onlyChanges_iff (State.writeCqf_only s a1 a2 a3 a4 a5 a6) h
theorem State.capWrite_only (s a1) : OnlyChanges [.regs, .pwr] s (State.capWrite s a1) := by
  unfold State.capWrite
  simp
@[simp] theorem State.capWrite_only_iff (s a1) (h : [.regs, .pwr] ⊆ ps) : OnlyChanges ps s0 (State.capWrite s a1) ↔ OnlyChanges ps s0 s :=
  onlyChanges_iff (State.capWrite_only s a1) h
theorem State.writeEngines_only (s a1 a2 a3) : OnlyChanges [.regs, .ctrs, .pwr] s (State.writeEngines s a1 a2 a3) := by
  unfold State.writeEngines
  (repeat' split) <;> simp
@[simp] theorem State.writeEngines_only_iff (s a1 a2 a3) (h : [.regs, .ctrs, .pwr] ⊆ ps) : OnlyChanges ps s0 (State.writeEngines s a1 a2 a3) ↔ OnlyChanges ps s0 s :=
  onlyChanges_iff (State.writeEngines_only s a1 a2 a3) h
theorem State.writeFab_only (s a1 a2 a3 a4 a5) : OnlyChanges [.regs, .stats, .ctrs, .cqf, .hif, .err, .fab] s (State.writeFab s a1 a2 a3 a4 a5) := by
  unfold State.writeFab
  (repeat' split) <;> simp
@[simp] theorem State.writeFab_only_iff (s a1 a2 a3 a4 a5) (h : [.regs, .stats, .ctrs, .cqf, .hif, .err, .fab] ⊆ ps) : OnlyChanges ps s0 (State.writeFab s a1 a2 a3 a4 a5) ↔ OnlyChanges ps s0 s :=
  onlyChanges_iff (State.writeFab_only s a1 a2 a3 a4 a5) h
theorem State.writeItk_only (s a1 a2 a3) : OnlyChanges [.regs, .stats, .ctrs, .hif, .itk] s (State.writeItk s a1 a2 a3) := by
  unfold State.writeItk
  (repeat' split) <;> simp
@[simp] theorem State.writeItk_only_iff (s a1 a2 a3) (h : [.regs, .stats, .ctrs, .hif, .itk] ⊆ ps) : OnlyChanges ps s0 (State.writeItk s a1 a2 a3) ↔ OnlyChanges ps s0 s :=
  onlyChanges_iff (State.writeItk_only s a1 a2 a3) h
theorem State.writeHigh_only (s a1 a2 a3 a4) : OnlyChanges [.regs, .stats, .ctrs, .hif, .mgt, .err, .mat, .nbu] s (State.writeHigh s a1 a2 a3 a4) := by
  unfold State.writeHigh
  (repeat' split) <;> simp
@[simp] theorem State.writeHigh_only_iff (s a1 a2 a3 a4) (h : [.regs, .stats, .ctrs, .hif, .mgt, .err, .mat, .nbu] ⊆ ps) : OnlyChanges ps s0 (State.writeHigh s a1 a2 a3 a4) ↔ OnlyChanges ps s0 s :=
  onlyChanges_iff (State.writeHigh_only s a1 a2 a3 a4) h
theorem State.ctlWrite_only (s a1 a2 a3) : OnlyChanges [.regs, .stats, .ctrs, .cqf, .mem, .hif, .mgt, .err, .cfg, .pwr, .mat, .vec, .nbu, .xch, .fab, .itk, .draws] s (State.ctlWrite s a1 a2 a3) := by
  unfold State.ctlWrite
  simp
@[simp] theorem State.ctlWrite_only_iff (s a1 a2 a3) (h : [.regs, .stats, .ctrs, .cqf, .mem, .hif, .mgt, .err, .cfg, .pwr, .mat, .vec, .nbu, .xch, .fab, .itk, .draws] ⊆ ps) : OnlyChanges ps s0 (State.ctlWrite s a1 a2 a3) ↔ OnlyChanges ps s0 s :=
  onlyChanges_iff (State.ctlWrite_only s a1 a2 a3) h
theorem State.barWordWrite_only (s a1 a2) : OnlyChanges [.regs, .stats, .ctrs, .cqf, .mem, .hif, .mgt, .err, .cfg, .pwr, .mat, .vec, .nbu, .xch, .fab, .itk, .draws] s (State.barWordWrite s a1 a2) := by
  unfold State.barWordWrite
  (repeat' split) <;> simp
@[simp] theorem State.barWordWrite_only_iff (s a1 a2) (h : [.regs, .stats, .ctrs, .cqf, .mem, .hif, .mgt, .err, .cfg, .pwr, .mat, .vec, .nbu, .xch, .fab, .itk, .draws] ⊆ ps) : OnlyChanges ps s0 (State.barWordWrite s a1 a2) ↔ OnlyChanges ps s0 s :=
  onlyChanges_iff (State.barWordWrite_only s a1 a2) h
theorem State.regWrite_only (s a1 a2 a3) : OnlyChanges [.regs, .stats, .ctrs, .cqf, .mem, .hif, .mgt, .err, .cfg, .pwr, .mat, .vec, .nbu, .xch, .fab, .itk, .draws] s (State.regWrite s a1 a2 a3) := by
  unfold State.regWrite
  simp
@[simp] theorem State.regWrite_only_iff (s a1 a2 a3) (h : [.regs, .stats, .ctrs, .cqf, .mem, .hif, .mgt, .err, .cfg, .pwr, .mat, .vec, .nbu, .xch, .fab, .itk, .draws] ⊆ ps) : OnlyChanges ps s0 (State.regWrite s a1 a2 a3) ↔ OnlyChanges ps s0 s :=
  onlyChanges_iff (State.regWrite_only s a1 a2 a3) h
@[simp] theorem State.barDo_only_iff {ps : List Piece} {s0 : State} (s) (f : State → State) (hf : ∀ t, OnlyChanges ps t (f t))
    (h : [.hif, .cfg, .draws] ⊆ ps) : OnlyChanges ps s0 (State.barDo s f) ↔ OnlyChanges ps s0 s := by
  refine onlyChanges_iff (qs := ps) ?_ (List.Subset.refl _)
  have hc : Piece.cfg ∈ ps := h (by simp)
  have hd : [Piece.hif, .draws] ⊆ ps := fun p hp => h (by simp at hp ⊢; rcases hp with h | h <;> simp [h])
  unfold State.barDo
  split
  · simp [hf, hc]
  · exact (State.barRefuse_only_iff _ hd).2 (onlyChanges_refl _ _)
theorem State.regRead_only (s a1 a2) : OnlyChanges [.regs, .stats, .ctrs, .hif, .err, .draws] s (State.regRead s a1 a2) := by
  unfold State.regRead
  simp
@[simp] theorem State.regRead_only_iff (s a1 a2) (h : [.regs, .stats, .ctrs, .hif, .err, .draws] ⊆ ps) : OnlyChanges ps s0 (State.regRead s a1 a2) ↔ OnlyChanges ps s0 s :=
  onlyChanges_iff (State.regRead_only s a1 a2) h
theorem State.hostAccess_only (s a1 a2 a3) : OnlyChanges [.regs, .stats, .ctrs, .cqf, .mem, .hif, .mgt, .err, .cfg, .pwr, .mat, .vec, .nbu, .xch, .fab, .itk, .draws] s (State.hostAccess s a1 a2 a3) := by
  unfold State.hostAccess
  (repeat' split) <;> simp
@[simp] theorem State.hostAccess_only_iff (s a1 a2 a3) (h : [.regs, .stats, .ctrs, .cqf, .mem, .hif, .mgt, .err, .cfg, .pwr, .mat, .vec, .nbu, .xch, .fab, .itk, .draws] ⊆ ps) : OnlyChanges ps s0 (State.hostAccess s a1 a2 a3) ↔ OnlyChanges ps s0 s :=
  onlyChanges_iff (State.hostAccess_only s a1 a2 a3) h
@[simp] theorem State.byCore_only_iff {ps : List Piece} {s0 : State} (s) (f : State → State) (hf : ∀ t, OnlyChanges ps t (f t)) :
    OnlyChanges ps s0 (State.byCore s f) ↔ OnlyChanges ps s0 s := by
  refine onlyChanges_iff (qs := ps) ?_ (List.Subset.refl _)
  unfold State.byCore
  split <;> simp [hf]
theorem State.databaseSettled_only (s) : OnlyChanges [.regs, .stats, .ctrs, .hif, .mgt, .err, .pwr, .fab] s (State.databaseSettled s) := by
  unfold State.databaseSettled
  simp
@[simp] theorem State.databaseSettled_only_iff (s) (h : [.regs, .stats, .ctrs, .hif, .mgt, .err, .pwr, .fab] ⊆ ps) : OnlyChanges ps s0 (State.databaseSettled s) ↔ OnlyChanges ps s0 s :=
  onlyChanges_iff (State.databaseSettled_only s) h
theorem State.seqWrite_only (s a1 a2) : OnlyChanges [.regs, .stats, .ctrs, .cqf, .mem, .hif, .mgt, .err, .cfg, .pwr, .mat, .vec, .nbu, .xch, .fab, .itk, .draws] s (State.seqWrite s a1 a2) := by
  unfold State.seqWrite
  simp
@[simp] theorem State.seqWrite_only_iff (s a1 a2) (h : [.regs, .stats, .ctrs, .cqf, .mem, .hif, .mgt, .err, .cfg, .pwr, .mat, .vec, .nbu, .xch, .fab, .itk, .draws] ⊆ ps) : OnlyChanges ps s0 (State.seqWrite s a1 a2) ↔ OnlyChanges ps s0 s :=
  onlyChanges_iff (State.seqWrite_only s a1 a2) h
theorem State.countWrite_only (s a1 a2) : OnlyChanges [.regs, .stats, .ctrs, .cqf, .mem, .hif, .mgt, .err, .cfg, .pwr, .mat, .vec, .nbu, .xch, .fab, .itk, .draws] s (State.countWrite s a1 a2) := by
  unfold State.countWrite
  simp
@[simp] theorem State.countWrite_only_iff (s a1 a2) (h : [.regs, .stats, .ctrs, .cqf, .mem, .hif, .mgt, .err, .cfg, .pwr, .mat, .vec, .nbu, .xch, .fab, .itk, .draws] ⊆ ps) : OnlyChanges ps s0 (State.countWrite s a1 a2) ↔ OnlyChanges ps s0 s :=
  onlyChanges_iff (State.countWrite_only s a1 a2) h
theorem State.cqfWrite_only (s a1 a2) : OnlyChanges [.regs, .stats, .ctrs, .cqf, .mem, .hif, .mgt, .err, .cfg, .pwr, .mat, .vec, .nbu, .xch, .fab, .itk, .draws] s (State.cqfWrite s a1 a2) := by
  unfold State.cqfWrite
  simp
@[simp] theorem State.cqfWrite_only_iff (s a1 a2) (h : [.regs, .stats, .ctrs, .cqf, .mem, .hif, .mgt, .err, .cfg, .pwr, .mat, .vec, .nbu, .xch, .fab, .itk, .draws] ⊆ ps) : OnlyChanges ps s0 (State.cqfWrite s a1 a2) ↔ OnlyChanges ps s0 s :=
  onlyChanges_iff (State.cqfWrite_only s a1 a2) h
theorem State.tickBerth_only (s a1) : OnlyChanges [.ctrs, .cqf] s (State.tickBerth s a1) := by
  unfold State.tickBerth
  simp
@[simp] theorem State.tickBerth_only_iff (s a1) (h : [.ctrs, .cqf] ⊆ ps) : OnlyChanges ps s0 (State.tickBerth s a1) ↔ OnlyChanges ps s0 s :=
  onlyChanges_iff (State.tickBerth_only s a1) h
theorem State.tickRail_only (s) : OnlyChanges [.pwr] s (State.tickRail s) := by
  unfold State.tickRail
  simp
@[simp] theorem State.tickRail_only_iff (s) (h : [.pwr] ⊆ ps) : OnlyChanges ps s0 (State.tickRail s) ↔ OnlyChanges ps s0 s :=
  onlyChanges_iff (State.tickRail_only s) h
theorem State.tickHeld_only (s) : OnlyChanges [.ctrs] s (State.tickHeld s) := by
  unfold State.tickHeld
  simp
@[simp] theorem State.tickHeld_only_iff (s) (h : [.ctrs] ⊆ ps) : OnlyChanges ps s0 (State.tickHeld s) ↔ OnlyChanges ps s0 s :=
  onlyChanges_iff (State.tickHeld_only s) h
theorem State.tick_only (s) : OnlyChanges [.regs, .stats, .ctrs, .cqf, .mem, .hif, .mgt, .sec, .err, .cfg, .pwr, .mat, .vec, .nbu, .xch, .fab, .itk, .draws] s (State.tick s) := by
  unfold State.tick
  simp
@[simp] theorem State.tick_only_iff (s) (h : [.regs, .stats, .ctrs, .cqf, .mem, .hif, .mgt, .sec, .err, .cfg, .pwr, .mat, .vec, .nbu, .xch, .fab, .itk, .draws] ⊆ ps) : OnlyChanges ps s0 (State.tick s) ↔ OnlyChanges ps s0 s :=
  onlyChanges_iff (State.tick_only s) h
end Sys2Proof.Machine
end

