-- ==== Sys2Proof/Laws/Table.lean ====
section
/-!
SUPPORT. Laws of sparse tables: every write keeps the canonical form, a read after a write, two canonical tables that
read alike are equal.
-/
namespace Sys2Proof.Machine
variable {α : Type} [DecidableEq α] {d : Nat → α}

/-- Every key of the table is above k. -/
def above (k : Nat) (t : Tbl α) : Bool := t.all fun e => decide (k < e.1)

@[simp] theorem above_nil (k : Nat) : above k ([] : Tbl α) = true := rfl
@[simp] theorem above_cons (k j : Nat) (v : α) (t : Tbl α) : above k ((j, v) :: t) = true ↔ k < j ∧ above k t = true := by
  simp [above]

theorem above_trans {j k : Nat} {t : Tbl α} (h : j < k) (ht : above k t = true) : above j t = true := by
  simp only [above, List.all_eq_true, decide_eq_true_eq] at *
  exact fun e he => Nat.lt_trans h (ht e he)

theorem tsorted_cons (j : Nat) (v : α) (t : Tbl α) : tsorted ((j, v) :: t) = true ↔ above j t = true ∧ tsorted t = true := by
  induction t generalizing j v with
  | nil => simp [tsorted]
  | cons e t ih =>
    obtain ⟨k, w⟩ := e
    simp only [tsorted, Bool.and_eq_true, decide_eq_true_eq, above_cons, ih]
    constructor
    · rintro ⟨h, ha, hs⟩; exact ⟨⟨h, above_trans h ha⟩, ha, hs⟩
    · rintro ⟨⟨h, _⟩, ha, hs⟩; exact ⟨h, ha, hs⟩

theorem twf_nil : twf d [] = true := rfl
theorem twf_cons (j : Nat) (v : α) (t : Tbl α) : twf d ((j, v) :: t) = true ↔ above j t = true ∧ v ≠ d j ∧ twf d t = true := by
  simp only [twf, Bool.and_eq_true, tsorted_cons, List.all_cons, decide_eq_true_eq]
  constructor
  · rintro ⟨⟨a, b⟩, c, e⟩; exact ⟨a, c, b, e⟩
  · rintro ⟨a, c, b, e⟩; exact ⟨⟨a, b⟩, c, e⟩

theorem twf_tcons {k : Nat} {v : α} {t : Tbl α} (ha : above k t = true) (ht : twf d t = true) : twf d (tcons d k v t) = true := by
  unfold tcons
  split
  · exact ht
  · exact (twf_cons _ _ _).2 ⟨ha, ‹_›, ht⟩

theorem above_tcons {j k : Nat} {v : α} {t : Tbl α} (h : j < k) (ht : above j t = true) : above j (tcons d k v t) = true := by
  unfold tcons
  split
  · exact ht
  · simp [h, ht]

theorem above_tput {j k : Nat} {v : α} {t : Tbl α} (h : j < k) (ht : above j t = true) : above j (tput d t k v) = true := by
  induction t with
  | nil => exact above_tcons h ht
  | cons e t ih =>
    obtain ⟨i, w⟩ := e
    rw [above_cons] at ht
    unfold tput
    split
    · exact above_tcons h ht.2
    · split
      · exact above_tcons h ((above_cons _ _ _ _).2 ht)
      · exact (above_cons _ _ _ _).2 ⟨ht.1, ih ht.2⟩

/-- Writing keeps the canonical form. -/
@[simp] theorem twf_tput {t : Tbl α} (h : twf d t = true) (k : Nat) (v : α) : twf d (tput d t k v) = true := by
  induction t with
  | nil => exact twf_tcons rfl rfl
  | cons e t ih =>
    obtain ⟨j, w⟩ := e
    obtain ⟨ha, hv, ht⟩ := (twf_cons _ _ _).1 h
    unfold tput
    split
    · rename_i e; subst e; exact twf_tcons ha ht
    · split
      · rename_i hk
        exact twf_tcons ((above_cons _ _ _ _).2 ⟨hk, above_trans hk ha⟩) h
      · exact (twf_cons _ _ _).2 ⟨above_tput (by omega) ha, hv, ih ht⟩

@[simp] theorem twf_tputs {t : Tbl α} (h : twf d t = true) (k : Nat) (vs : List α) : twf d (tputs d t k vs) = true := by
  induction vs generalizing t k with
  | nil => exact h
  | cons v vs ih => exact ih (twf_tput h k v) (k + 1)

theorem above_filter {k : Nat} {t : Tbl α} (p : Nat × α → Bool) (h : above k t = true) : above k (t.filter p) = true := by
  simp only [above, List.all_eq_true] at *
  exact fun e he => h e (List.mem_filter.1 he).1

theorem twf_filter {t : Tbl α} (p : Nat × α → Bool) (h : twf d t = true) : twf d (t.filter p) = true := by
  induction t with
  | nil => rfl
  | cons e t ih =>
    obtain ⟨j, w⟩ := e
    obtain ⟨ha, hv, ht⟩ := (twf_cons _ _ _).1 h
    rw [List.filter_cons]
    split
    · exact (twf_cons _ _ _).2 ⟨above_filter p ha, hv, ih ht⟩
    · exact ih ht

/-- Clearing a range keeps the canonical form. -/
@[simp] theorem twf_tclear {t : Tbl α} (lo hi : Nat) (h : twf d t = true) : twf d (tclear lo hi t) = true := twf_filter _ h

theorem tget_above {k : Nat} {t : Tbl α} (h : above k t = true) : tget d t k = d k := by
  cases t with
  | nil => rfl
  | cons e t =>
    obtain ⟨j, w⟩ := e
    rw [above_cons] at h
    unfold tget
    rw [if_neg (by omega), if_pos h.1]

theorem tget_tcons {k : Nat} {v : α} {t : Tbl α} (h : above k t = true) (i : Nat) :
    tget d (tcons d k v t) i = if i = k then v else tget d t i := by
  unfold tcons
  split
  · rename_i e
    split
    · rename_i e'; subst e'; rw [tget_above h, e]
    · rfl
  · rw [tget]
    split
    · rfl
    · split
      · rename_i hi; rw [tget_above (above_trans hi h)]
      · rfl

/-- Reading after a write: the value written at its key, the old value elsewhere. -/
theorem tget_tput {t : Tbl α} (h : twf d t = true) (k : Nat) (v : α) (i : Nat) :
    tget d (tput d t k v) i = if i = k then v else tget d t i := by
  induction t with
  | nil => exact tget_tcons rfl i
  | cons e t ih =>
    obtain ⟨j, w⟩ := e
    obtain ⟨ha, hv, ht⟩ := (twf_cons _ _ _).1 h
    unfold tput
    split
    · rename_i e; subst e
      rw [tget_tcons ha]
      split
      · rfl
      · rename_i hne
        conv => rhs; rw [tget]
        rw [if_neg hne]
        split
        · rename_i hi; rw [tget_above (above_trans hi ha)]
        · rfl
    · split
      · rename_i hk
        exact tget_tcons ((above_cons _ _ _ _).2 ⟨hk, above_trans hk ha⟩) i
      · rename_i hne hlt
        rw [tget, tget, ih ht]
        split
        · rename_i e; subst e; rw [if_neg (by omega)]
        · split
          · rename_i hi
            rw [if_neg (by omega)]
          · rfl

theorem tget_tput_same {t : Tbl α} (h : twf d t = true) (k : Nat) (v : α) : tget d (tput d t k v) k = v := by
  rw [tget_tput h]; simp
theorem tget_tput_other {t : Tbl α} (h : twf d t = true) {k i : Nat} (v : α) (hi : i ≠ k) : tget d (tput d t k v) i = tget d t i := by
  rw [tget_tput h]; simp [hi]

/-- Two canonical tables that read the same at every key are equal. -/
theorem twf_ext {t u : Tbl α} (ht : twf d t = true) (hu : twf d u = true) (h : ∀ k, tget d t k = tget d u k) : t = u := by
  induction t generalizing u with
  | nil =>
    cases u with
    | nil => rfl
    | cons e u =>
      obtain ⟨j, w⟩ := e
      obtain ⟨_, hv, _⟩ := (twf_cons _ _ _).1 hu
      have := h j
      simp [tget] at this
      exact absurd this.symm hv
  | cons e t ih =>
    obtain ⟨j, v⟩ := e
    obtain ⟨ha, hv, ht'⟩ := (twf_cons _ _ _).1 ht
    cases u with
    | nil =>
      have := h j
      simp [tget] at this
      exact absurd this hv
    | cons e u =>
      obtain ⟨k, w⟩ := e
      obtain ⟨hb, hw, hu'⟩ := (twf_cons _ _ _).1 hu
      have hj := h j
      have hk := h k
      have e : j = k := by
        rcases Nat.lt_trichotomy j k with l | l | l
        · rw [tget, if_pos rfl, tget, if_neg (by omega), if_pos l] at hj; exact absurd hj hv
        · exact l
        · rw [tget, if_neg (by omega), if_pos l, tget, if_pos rfl] at hk; exact absurd hk.symm hw
      subst e
      rw [tget, if_pos rfl, tget, if_pos rfl] at hj
      subst hj
      rw [ih ht' hu' fun i => ?_]
      have := h i
      rw [tget, tget] at this
      by_cases e : i = j
      · subst e; rw [tget_above ha, tget_above hb]
      · rw [if_neg e, if_neg e] at this
        by_cases l : i < j
        · rw [tget_above (above_trans l ha), tget_above (above_trans l hb)]
        · rwa [if_neg l, if_neg l] at this
end Sys2Proof.Machine
end

