-- ==== Sys2Proof/Laws/Cells.lean ====
section
/-!
SUPPORT. Every operation of the memory keeps its canonical form.
-/
namespace Sys2Proof.Machine
theorem mem_of_only {ps : List Piece} {s t : State} (h : OnlyChanges ps s t) (hp : Piece.mem ∉ ps) : t.mem = s.mem := h .mem hp

theorem foldl_wf {α β : Type} [DecidableEq β] {d : Nat → β} {g : Tbl β → α → Tbl β} (hg : ∀ t a, twf d t = true → twf d (g t a) = true)
    (l : List α) {t : Tbl β} (h : twf d t = true) : twf d (l.foldl g t) = true := by
  induction l generalizing t with
  | nil => exact h
  | cons a l ih => exact ih (hg t a h)
/-- the cells are canonical -/
@[simp] theorem foldl_cells {α : Type} {g : State → α → State} (hg : ∀ s a, twf zeroB s.mem.cells = true → twf zeroB (g s a).mem.cells = true)
    (l : List α) (s : State) (h : twf zeroB s.mem.cells = true) : twf zeroB (l.foldl g s).mem.cells = true := by
  induction l generalizing s with
  | nil => exact h
  | cons a l ih => exact ih _ (hg s a h)
@[simp] theorem foldl_cells_snd {α β : Type} {g : β × State → α → β × State} (hg : ∀ x a, twf zeroB x.2.mem.cells = true → twf zeroB (g x a).2.mem.cells = true)
    (l : List α) (x : β × State) (h : twf zeroB x.2.mem.cells = true) : twf zeroB (l.foldl g x).2.mem.cells = true := by
  induction l generalizing x with
  | nil => exact h
  | cons a l ih => exact ih _ (hg x a h)
@[simp] theorem foldl_mem {α : Type} {g : Mem → α → Mem} (hg : ∀ s a, twf zeroB s.cells = true → twf zeroB (g s a).cells = true)
    (l : List α) (s : Mem) (h : twf zeroB s.cells = true) : twf zeroB (l.foldl g s).cells = true := by
  induction l generalizing s with
  | nil => exact h
  | cons a l ih => exact ih _ (hg s a h)
@[simp] theorem cells_ite (c : Prop) [Decidable c] (a b : State) :
    (twf zeroB (if c then a else b).mem.cells = true) ↔ (c → twf zeroB a.mem.cells = true) ∧ (¬ c → twf zeroB b.mem.cells = true) := by
  by_cases h : c <;> simp [h]
@[simp] theorem Mem.touch_cells (m : Mem) (a n) : (m.touch a n).cells = m.cells := by unfold Mem.touch; (repeat' split) <;> simp
@[simp] theorem Mem.firstClear_cells (m : Mem) (x) (h : twf zeroB m.cells = true) : twf zeroB (m.firstClear x).cells = true := by
  unfold Mem.firstClear; split <;> simp [h]
@[simp] theorem Mem.tamper_cells (m : Mem) (a n) : (m.tamper a n).cells = m.cells := rfl
@[simp] theorem Mem.poison_cells (m : Mem) (a n) : (m.poison a n).cells = m.cells := by
  unfold Mem.poison
  generalize m.words a n = l
  induction l generalizing m with
  | nil => rfl
  | cons w l ih => rw [List.foldl_cons, ih]
@[simp] theorem Mem.swapFrames_cells (m : Mem) (x v) : (m.swapFrames x v).cells = m.cells := rfl
@[simp] theorem Mem.applyPat_cells (m : Mem) (w p k) (h : twf zeroB m.cells = true) : twf zeroB (m.applyPat w p k).cells = true :=
  foldl_wf (fun t a ht => twf_tput ht _ _) _ h
@[simp] theorem Mem.putBlock_cells (x : Nat) (m : Mem) (p) (h : twf zeroB m.cells = true) : twf zeroB (Mem.putBlock x m p).cells = true := by
  unfold Mem.putBlock
  split
  · exact twf_tputs h _ _
  · simp [h]
@[simp] theorem Mem.plainPage_cells (m : Mem) (r x l) (h : twf zeroB m.cells = true) : twf zeroB (m.plainPage r x l).cells = true :=
  foldl_mem (fun m p hm => Mem.putBlock_cells x m p hm) l _ (twf_tclear _ _ (twf_tclear _ _ h))
@[simp] theorem Mem.settle_cells (m : Mem) (w k) (h : twf zeroB m.cells = true) : twf zeroB (m.settle w k).cells = true :=
  Mem.applyPat_cells m w _ k h
@[simp] theorem Mem.putErrs_cells (m : Mem) (x l) : (m.putErrs x l).cells = m.cells := rfl
@[simp] theorem Mem.dropMoves_cells (m : Mem) (p) : (m.dropMoves p).cells = m.cells := rfl
@[simp] theorem Mem.clearLayers_cells (m : Mem) (x n) : (m.clearLayers x n).cells = m.cells := rfl
@[simp] theorem Mem.dropPages_cells (m : Mem) (x n) (h : twf zeroB m.cells = true) : twf zeroB (m.dropPages x n).cells = true := twf_tclear _ _ h
end Sys2Proof.Machine
end

