-- ==== Sys2Proof/Laws/State.lean ====
section
/-!
SUPPORT. What each small update of the state leaves as it was, one lemma per field.
-/
namespace Sys2Proof.Machine

@[simp] theorem State.bump_regs (s : State) (off n) : (s.bump off n).regs = s.regs := rfl
@[simp] theorem State.bump_regs1 (s : State) (off n) : (s.bump off n).regs1 = s.regs1 := rfl
@[simp] theorem State.bump_regs2 (s : State) (off n) : (s.bump off n).regs2 = s.regs2 := rfl
@[simp] theorem State.bump_stats (s : State) (off n) : (s.bump off n).stats = s.stats := rfl
@[simp] theorem State.bump_cqf (s : State) (off n) : (s.bump off n).cqf = s.cqf := rfl
@[simp] theorem State.bump_mem (s : State) (off n) : (s.bump off n).mem = s.mem := rfl
@[simp] theorem State.bump_hif (s : State) (off n) : (s.bump off n).hif = s.hif := rfl
@[simp] theorem State.bump_mgt (s : State) (off n) : (s.bump off n).mgt = s.mgt := rfl
@[simp] theorem State.bump_sec (s : State) (off n) : (s.bump off n).sec = s.sec := rfl
@[simp] theorem State.bump_err (s : State) (off n) : (s.bump off n).err = s.err := rfl
@[simp] theorem State.bump_flash (s : State) (off n) : (s.bump off n).flash = s.flash := rfl
@[simp] theorem State.bump_cfg (s : State) (off n) : (s.bump off n).cfg = s.cfg := rfl
@[simp] theorem State.bump_pwr (s : State) (off n) : (s.bump off n).pwr = s.pwr := rfl
@[simp] theorem State.bump_mat (s : State) (off n) : (s.bump off n).mat = s.mat := rfl
@[simp] theorem State.bump_vec (s : State) (off n) : (s.bump off n).vec = s.vec := rfl
@[simp] theorem State.bump_nbu (s : State) (off n) : (s.bump off n).nbu = s.nbu := rfl
@[simp] theorem State.bump_xch (s : State) (off n) : (s.bump off n).xch = s.xch := rfl
@[simp] theorem State.bump_fab (s : State) (off n) : (s.bump off n).fab = s.fab := rfl
@[simp] theorem State.bump_itk (s : State) (off n) : (s.bump off n).itk = s.itk := rfl
@[simp] theorem State.bump_draws (s : State) (off n) : (s.bump off n).draws = s.draws := rfl
@[simp] theorem State.bump_pending (s : State) (off n) : (s.bump off n).pending = s.pending := rfl

@[simp] theorem State.bump64_regs (s : State) (off n) : (s.bump64 off n).regs = s.regs := rfl
@[simp] theorem State.bump64_regs1 (s : State) (off n) : (s.bump64 off n).regs1 = s.regs1 := rfl
@[simp] theorem State.bump64_regs2 (s : State) (off n) : (s.bump64 off n).regs2 = s.regs2 := rfl
@[simp] theorem State.bump64_stats (s : State) (off n) : (s.bump64 off n).stats = s.stats := rfl
@[simp] theorem State.bump64_cqf (s : State) (off n) : (s.bump64 off n).cqf = s.cqf := rfl
@[simp] theorem State.bump64_mem (s : State) (off n) : (s.bump64 off n).mem = s.mem := rfl
@[simp] theorem State.bump64_hif (s : State) (off n) : (s.bump64 off n).hif = s.hif := rfl
@[simp] theorem State.bump64_mgt (s : State) (off n) : (s.bump64 off n).mgt = s.mgt := rfl
@[simp] theorem State.bump64_sec (s : State) (off n) : (s.bump64 off n).sec = s.sec := rfl
@[simp] theorem State.bump64_err (s : State) (off n) : (s.bump64 off n).err = s.err := rfl
@[simp] theorem State.bump64_flash (s : State) (off n) : (s.bump64 off n).flash = s.flash := rfl
@[simp] theorem State.bump64_cfg (s : State) (off n) : (s.bump64 off n).cfg = s.cfg := rfl
@[simp] theorem State.bump64_pwr (s : State) (off n) : (s.bump64 off n).pwr = s.pwr := rfl
@[simp] theorem State.bump64_mat (s : State) (off n) : (s.bump64 off n).mat = s.mat := rfl
@[simp] theorem State.bump64_vec (s : State) (off n) : (s.bump64 off n).vec = s.vec := rfl
@[simp] theorem State.bump64_nbu (s : State) (off n) : (s.bump64 off n).nbu = s.nbu := rfl
@[simp] theorem State.bump64_xch (s : State) (off n) : (s.bump64 off n).xch = s.xch := rfl
@[simp] theorem State.bump64_fab (s : State) (off n) : (s.bump64 off n).fab = s.fab := rfl
@[simp] theorem State.bump64_itk (s : State) (off n) : (s.bump64 off n).itk = s.itk := rfl
@[simp] theorem State.bump64_draws (s : State) (off n) : (s.bump64 off n).draws = s.draws := rfl
@[simp] theorem State.bump64_pending (s : State) (off n) : (s.bump64 off n).pending = s.pending := rfl

@[simp] theorem State.bumpWrap_regs (s : State) (off) : (s.bumpWrap off).regs = s.regs := rfl
@[simp] theorem State.bumpWrap_regs1 (s : State) (off) : (s.bumpWrap off).regs1 = s.regs1 := rfl
@[simp] theorem State.bumpWrap_regs2 (s : State) (off) : (s.bumpWrap off).regs2 = s.regs2 := rfl
@[simp] theorem State.bumpWrap_stats (s : State) (off) : (s.bumpWrap off).stats = s.stats := rfl
@[simp] theorem State.bumpWrap_cqf (s : State) (off) : (s.bumpWrap off).cqf = s.cqf := rfl
@[simp] theorem State.bumpWrap_mem (s : State) (off) : (s.bumpWrap off).mem = s.mem := rfl
@[simp] theorem State.bumpWrap_hif (s : State) (off) : (s.bumpWrap off).hif = s.hif := rfl
@[simp] theorem State.bumpWrap_mgt (s : State) (off) : (s.bumpWrap off).mgt = s.mgt := rfl
@[simp] theorem State.bumpWrap_sec (s : State) (off) : (s.bumpWrap off).sec = s.sec := rfl
@[simp] theorem State.bumpWrap_err (s : State) (off) : (s.bumpWrap off).err = s.err := rfl
@[simp] theorem State.bumpWrap_flash (s : State) (off) : (s.bumpWrap off).flash = s.flash := rfl
@[simp] theorem State.bumpWrap_cfg (s : State) (off) : (s.bumpWrap off).cfg = s.cfg := rfl
@[simp] theorem State.bumpWrap_pwr (s : State) (off) : (s.bumpWrap off).pwr = s.pwr := rfl
@[simp] theorem State.bumpWrap_mat (s : State) (off) : (s.bumpWrap off).mat = s.mat := rfl
@[simp] theorem State.bumpWrap_vec (s : State) (off) : (s.bumpWrap off).vec = s.vec := rfl
@[simp] theorem State.bumpWrap_nbu (s : State) (off) : (s.bumpWrap off).nbu = s.nbu := rfl
@[simp] theorem State.bumpWrap_xch (s : State) (off) : (s.bumpWrap off).xch = s.xch := rfl
@[simp] theorem State.bumpWrap_fab (s : State) (off) : (s.bumpWrap off).fab = s.fab := rfl
@[simp] theorem State.bumpWrap_itk (s : State) (off) : (s.bumpWrap off).itk = s.itk := rfl
@[simp] theorem State.bumpWrap_draws (s : State) (off) : (s.bumpWrap off).draws = s.draws := rfl
@[simp] theorem State.bumpWrap_pending (s : State) (off) : (s.bumpWrap off).pending = s.pending := rfl

@[simp] theorem State.setCtr_regs (s : State) (off v) : (s.setCtr off v).regs = s.regs := rfl
@[simp] theorem State.setCtr_regs1 (s : State) (off v) : (s.setCtr off v).regs1 = s.regs1 := rfl
@[simp] theorem State.setCtr_regs2 (s : State) (off v) : (s.setCtr off v).regs2 = s.regs2 := rfl
@[simp] theorem State.setCtr_stats (s : State) (off v) : (s.setCtr off v).stats = s.stats := rfl
@[simp] theorem State.setCtr_cqf (s : State) (off v) : (s.setCtr off v).cqf = s.cqf := rfl
@[simp] theorem State.setCtr_mem (s : State) (off v) : (s.setCtr off v).mem = s.mem := rfl
@[simp] theorem State.setCtr_hif (s : State) (off v) : (s.setCtr off v).hif = s.hif := rfl
@[simp] theorem State.setCtr_mgt (s : State) (off v) : (s.setCtr off v).mgt = s.mgt := rfl
@[simp] theorem State.setCtr_sec (s : State) (off v) : (s.setCtr off v).sec = s.sec := rfl
@[simp] theorem State.setCtr_err (s : State) (off v) : (s.setCtr off v).err = s.err := rfl
@[simp] theorem State.setCtr_flash (s : State) (off v) : (s.setCtr off v).flash = s.flash := rfl
@[simp] theorem State.setCtr_cfg (s : State) (off v) : (s.setCtr off v).cfg = s.cfg := rfl
@[simp] theorem State.setCtr_pwr (s : State) (off v) : (s.setCtr off v).pwr = s.pwr := rfl
@[simp] theorem State.setCtr_mat (s : State) (off v) : (s.setCtr off v).mat = s.mat := rfl
@[simp] theorem State.setCtr_vec (s : State) (off v) : (s.setCtr off v).vec = s.vec := rfl
@[simp] theorem State.setCtr_nbu (s : State) (off v) : (s.setCtr off v).nbu = s.nbu := rfl
@[simp] theorem State.setCtr_xch (s : State) (off v) : (s.setCtr off v).xch = s.xch := rfl
@[simp] theorem State.setCtr_fab (s : State) (off v) : (s.setCtr off v).fab = s.fab := rfl
@[simp] theorem State.setCtr_itk (s : State) (off v) : (s.setCtr off v).itk = s.itk := rfl
@[simp] theorem State.setCtr_draws (s : State) (off v) : (s.setCtr off v).draws = s.draws := rfl
@[simp] theorem State.setCtr_pending (s : State) (off v) : (s.setCtr off v).pending = s.pending := rfl

@[simp] theorem State.event_regs (s : State) (off bit) : (s.event off bit).regs = s.regs := rfl
@[simp] theorem State.event_regs1 (s : State) (off bit) : (s.event off bit).regs1 = s.regs1 := rfl
@[simp] theorem State.event_regs2 (s : State) (off bit) : (s.event off bit).regs2 = s.regs2 := rfl
@[simp] theorem State.event_ctrs (s : State) (off bit) : (s.event off bit).ctrs = s.ctrs := rfl
@[simp] theorem State.event_cqf (s : State) (off bit) : (s.event off bit).cqf = s.cqf := rfl
@[simp] theorem State.event_mem (s : State) (off bit) : (s.event off bit).mem = s.mem := rfl
@[simp] theorem State.event_hif (s : State) (off bit) : (s.event off bit).hif = s.hif := rfl
@[simp] theorem State.event_mgt (s : State) (off bit) : (s.event off bit).mgt = s.mgt := rfl
@[simp] theorem State.event_sec (s : State) (off bit) : (s.event off bit).sec = s.sec := rfl
@[simp] theorem State.event_err (s : State) (off bit) : (s.event off bit).err = s.err := rfl
@[simp] theorem State.event_flash (s : State) (off bit) : (s.event off bit).flash = s.flash := rfl
@[simp] theorem State.event_cfg (s : State) (off bit) : (s.event off bit).cfg = s.cfg := rfl
@[simp] theorem State.event_pwr (s : State) (off bit) : (s.event off bit).pwr = s.pwr := rfl
@[simp] theorem State.event_mat (s : State) (off bit) : (s.event off bit).mat = s.mat := rfl
@[simp] theorem State.event_vec (s : State) (off bit) : (s.event off bit).vec = s.vec := rfl
@[simp] theorem State.event_nbu (s : State) (off bit) : (s.event off bit).nbu = s.nbu := rfl
@[simp] theorem State.event_xch (s : State) (off bit) : (s.event off bit).xch = s.xch := rfl
@[simp] theorem State.event_fab (s : State) (off bit) : (s.event off bit).fab = s.fab := rfl
@[simp] theorem State.event_itk (s : State) (off bit) : (s.event off bit).itk = s.itk := rfl
@[simp] theorem State.event_draws (s : State) (off bit) : (s.event off bit).draws = s.draws := rfl
@[simp] theorem State.event_pending (s : State) (off bit) : (s.event off bit).pending = s.pending := rfl

@[simp] theorem State.draw_regs (s : State) : (s.draw).regs = s.regs := rfl
@[simp] theorem State.draw_regs1 (s : State) : (s.draw).regs1 = s.regs1 := rfl
@[simp] theorem State.draw_regs2 (s : State) : (s.draw).regs2 = s.regs2 := rfl
@[simp] theorem State.draw_stats (s : State) : (s.draw).stats = s.stats := rfl
@[simp] theorem State.draw_ctrs (s : State) : (s.draw).ctrs = s.ctrs := rfl
@[simp] theorem State.draw_cqf (s : State) : (s.draw).cqf = s.cqf := rfl
@[simp] theorem State.draw_mem (s : State) : (s.draw).mem = s.mem := rfl
@[simp] theorem State.draw_hif (s : State) : (s.draw).hif = s.hif := rfl
@[simp] theorem State.draw_mgt (s : State) : (s.draw).mgt = s.mgt := rfl
@[simp] theorem State.draw_sec (s : State) : (s.draw).sec = s.sec := rfl
@[simp] theorem State.draw_err (s : State) : (s.draw).err = s.err := rfl
@[simp] theorem State.draw_flash (s : State) : (s.draw).flash = s.flash := rfl
@[simp] theorem State.draw_cfg (s : State) : (s.draw).cfg = s.cfg := rfl
@[simp] theorem State.draw_pwr (s : State) : (s.draw).pwr = s.pwr := rfl
@[simp] theorem State.draw_mat (s : State) : (s.draw).mat = s.mat := rfl
@[simp] theorem State.draw_vec (s : State) : (s.draw).vec = s.vec := rfl
@[simp] theorem State.draw_nbu (s : State) : (s.draw).nbu = s.nbu := rfl
@[simp] theorem State.draw_xch (s : State) : (s.draw).xch = s.xch := rfl
@[simp] theorem State.draw_fab (s : State) : (s.draw).fab = s.fab := rfl
@[simp] theorem State.draw_itk (s : State) : (s.draw).itk = s.itk := rfl
@[simp] theorem State.draw_pending (s : State) : (s.draw).pending = s.pending := rfl

@[simp] theorem State.setQ_regs (s : State) (n v) : (s.setQ n v).regs = s.regs := rfl
@[simp] theorem State.setQ_regs1 (s : State) (n v) : (s.setQ n v).regs1 = s.regs1 := rfl
@[simp] theorem State.setQ_regs2 (s : State) (n v) : (s.setQ n v).regs2 = s.regs2 := rfl
@[simp] theorem State.setQ_stats (s : State) (n v) : (s.setQ n v).stats = s.stats := rfl
@[simp] theorem State.setQ_ctrs (s : State) (n v) : (s.setQ n v).ctrs = s.ctrs := rfl
@[simp] theorem State.setQ_mem (s : State) (n v) : (s.setQ n v).mem = s.mem := rfl
@[simp] theorem State.setQ_hif (s : State) (n v) : (s.setQ n v).hif = s.hif := rfl
@[simp] theorem State.setQ_mgt (s : State) (n v) : (s.setQ n v).mgt = s.mgt := rfl
@[simp] theorem State.setQ_sec (s : State) (n v) : (s.setQ n v).sec = s.sec := rfl
@[simp] theorem State.setQ_err (s : State) (n v) : (s.setQ n v).err = s.err := rfl
@[simp] theorem State.setQ_flash (s : State) (n v) : (s.setQ n v).flash = s.flash := rfl
@[simp] theorem State.setQ_cfg (s : State) (n v) : (s.setQ n v).cfg = s.cfg := rfl
@[simp] theorem State.setQ_pwr (s : State) (n v) : (s.setQ n v).pwr = s.pwr := rfl
@[simp] theorem State.setQ_mat (s : State) (n v) : (s.setQ n v).mat = s.mat := rfl
@[simp] theorem State.setQ_vec (s : State) (n v) : (s.setQ n v).vec = s.vec := rfl
@[simp] theorem State.setQ_nbu (s : State) (n v) : (s.setQ n v).nbu = s.nbu := rfl
@[simp] theorem State.setQ_xch (s : State) (n v) : (s.setQ n v).xch = s.xch := rfl
@[simp] theorem State.setQ_fab (s : State) (n v) : (s.setQ n v).fab = s.fab := rfl
@[simp] theorem State.setQ_itk (s : State) (n v) : (s.setQ n v).itk = s.itk := rfl
@[simp] theorem State.setQ_draws (s : State) (n v) : (s.setQ n v).draws = s.draws := rfl
@[simp] theorem State.setQ_pending (s : State) (n v) : (s.setQ n v).pending = s.pending := rfl

@[simp] theorem State.setTok_regs (s : State) (t v) : (s.setTok t v).regs = s.regs := rfl
@[simp] theorem State.setTok_regs1 (s : State) (t v) : (s.setTok t v).regs1 = s.regs1 := rfl
@[simp] theorem State.setTok_regs2 (s : State) (t v) : (s.setTok t v).regs2 = s.regs2 := rfl
@[simp] theorem State.setTok_stats (s : State) (t v) : (s.setTok t v).stats = s.stats := rfl
@[simp] theorem State.setTok_ctrs (s : State) (t v) : (s.setTok t v).ctrs = s.ctrs := rfl
@[simp] theorem State.setTok_mem (s : State) (t v) : (s.setTok t v).mem = s.mem := rfl
@[simp] theorem State.setTok_hif (s : State) (t v) : (s.setTok t v).hif = s.hif := rfl
@[simp] theorem State.setTok_mgt (s : State) (t v) : (s.setTok t v).mgt = s.mgt := rfl
@[simp] theorem State.setTok_sec (s : State) (t v) : (s.setTok t v).sec = s.sec := rfl
@[simp] theorem State.setTok_err (s : State) (t v) : (s.setTok t v).err = s.err := rfl
@[simp] theorem State.setTok_flash (s : State) (t v) : (s.setTok t v).flash = s.flash := rfl
@[simp] theorem State.setTok_cfg (s : State) (t v) : (s.setTok t v).cfg = s.cfg := rfl
@[simp] theorem State.setTok_pwr (s : State) (t v) : (s.setTok t v).pwr = s.pwr := rfl
@[simp] theorem State.setTok_mat (s : State) (t v) : (s.setTok t v).mat = s.mat := rfl
@[simp] theorem State.setTok_vec (s : State) (t v) : (s.setTok t v).vec = s.vec := rfl
@[simp] theorem State.setTok_nbu (s : State) (t v) : (s.setTok t v).nbu = s.nbu := rfl
@[simp] theorem State.setTok_xch (s : State) (t v) : (s.setTok t v).xch = s.xch := rfl
@[simp] theorem State.setTok_fab (s : State) (t v) : (s.setTok t v).fab = s.fab := rfl
@[simp] theorem State.setTok_itk (s : State) (t v) : (s.setTok t v).itk = s.itk := rfl
@[simp] theorem State.setTok_draws (s : State) (t v) : (s.setTok t v).draws = s.draws := rfl
@[simp] theorem State.setTok_pending (s : State) (t v) : (s.setTok t v).pending = s.pending := rfl

@[simp] theorem State.setBerth_regs (s : State) (n v) : (s.setBerth n v).regs = s.regs := rfl
@[simp] theorem State.setBerth_regs1 (s : State) (n v) : (s.setBerth n v).regs1 = s.regs1 := rfl
@[simp] theorem State.setBerth_regs2 (s : State) (n v) : (s.setBerth n v).regs2 = s.regs2 := rfl
@[simp] theorem State.setBerth_stats (s : State) (n v) : (s.setBerth n v).stats = s.stats := rfl
@[simp] theorem State.setBerth_ctrs (s : State) (n v) : (s.setBerth n v).ctrs = s.ctrs := rfl
@[simp] theorem State.setBerth_mem (s : State) (n v) : (s.setBerth n v).mem = s.mem := rfl
@[simp] theorem State.setBerth_hif (s : State) (n v) : (s.setBerth n v).hif = s.hif := rfl
@[simp] theorem State.setBerth_mgt (s : State) (n v) : (s.setBerth n v).mgt = s.mgt := rfl
@[simp] theorem State.setBerth_sec (s : State) (n v) : (s.setBerth n v).sec = s.sec := rfl
@[simp] theorem State.setBerth_err (s : State) (n v) : (s.setBerth n v).err = s.err := rfl
@[simp] theorem State.setBerth_flash (s : State) (n v) : (s.setBerth n v).flash = s.flash := rfl
@[simp] theorem State.setBerth_cfg (s : State) (n v) : (s.setBerth n v).cfg = s.cfg := rfl
@[simp] theorem State.setBerth_pwr (s : State) (n v) : (s.setBerth n v).pwr = s.pwr := rfl
@[simp] theorem State.setBerth_mat (s : State) (n v) : (s.setBerth n v).mat = s.mat := rfl
@[simp] theorem State.setBerth_vec (s : State) (n v) : (s.setBerth n v).vec = s.vec := rfl
@[simp] theorem State.setBerth_nbu (s : State) (n v) : (s.setBerth n v).nbu = s.nbu := rfl
@[simp] theorem State.setBerth_xch (s : State) (n v) : (s.setBerth n v).xch = s.xch := rfl
@[simp] theorem State.setBerth_fab (s : State) (n v) : (s.setBerth n v).fab = s.fab := rfl
@[simp] theorem State.setBerth_itk (s : State) (n v) : (s.setBerth n v).itk = s.itk := rfl
@[simp] theorem State.setBerth_draws (s : State) (n v) : (s.setBerth n v).draws = s.draws := rfl
@[simp] theorem State.setBerth_pending (s : State) (n v) : (s.setBerth n v).pending = s.pending := rfl

@[simp] theorem State.setSlip_regs (s : State) (n v) : (s.setSlip n v).regs = s.regs := rfl
@[simp] theorem State.setSlip_regs1 (s : State) (n v) : (s.setSlip n v).regs1 = s.regs1 := rfl
@[simp] theorem State.setSlip_regs2 (s : State) (n v) : (s.setSlip n v).regs2 = s.regs2 := rfl
@[simp] theorem State.setSlip_stats (s : State) (n v) : (s.setSlip n v).stats = s.stats := rfl
@[simp] theorem State.setSlip_ctrs (s : State) (n v) : (s.setSlip n v).ctrs = s.ctrs := rfl
@[simp] theorem State.setSlip_mem (s : State) (n v) : (s.setSlip n v).mem = s.mem := rfl
@[simp] theorem State.setSlip_hif (s : State) (n v) : (s.setSlip n v).hif = s.hif := rfl
@[simp] theorem State.setSlip_mgt (s : State) (n v) : (s.setSlip n v).mgt = s.mgt := rfl
@[simp] theorem State.setSlip_sec (s : State) (n v) : (s.setSlip n v).sec = s.sec := rfl
@[simp] theorem State.setSlip_err (s : State) (n v) : (s.setSlip n v).err = s.err := rfl
@[simp] theorem State.setSlip_flash (s : State) (n v) : (s.setSlip n v).flash = s.flash := rfl
@[simp] theorem State.setSlip_cfg (s : State) (n v) : (s.setSlip n v).cfg = s.cfg := rfl
@[simp] theorem State.setSlip_pwr (s : State) (n v) : (s.setSlip n v).pwr = s.pwr := rfl
@[simp] theorem State.setSlip_mat (s : State) (n v) : (s.setSlip n v).mat = s.mat := rfl
@[simp] theorem State.setSlip_vec (s : State) (n v) : (s.setSlip n v).vec = s.vec := rfl
@[simp] theorem State.setSlip_nbu (s : State) (n v) : (s.setSlip n v).nbu = s.nbu := rfl
@[simp] theorem State.setSlip_xch (s : State) (n v) : (s.setSlip n v).xch = s.xch := rfl
@[simp] theorem State.setSlip_fab (s : State) (n v) : (s.setSlip n v).fab = s.fab := rfl
@[simp] theorem State.setSlip_itk (s : State) (n v) : (s.setSlip n v).itk = s.itk := rfl
@[simp] theorem State.setSlip_draws (s : State) (n v) : (s.setSlip n v).draws = s.draws := rfl
@[simp] theorem State.setSlip_pending (s : State) (n v) : (s.setSlip n v).pending = s.pending := rfl

@[simp] theorem State.setPool_regs (s : State) (i v) : (s.setPool i v).regs = s.regs := rfl
@[simp] theorem State.setPool_regs1 (s : State) (i v) : (s.setPool i v).regs1 = s.regs1 := rfl
@[simp] theorem State.setPool_regs2 (s : State) (i v) : (s.setPool i v).regs2 = s.regs2 := rfl
@[simp] theorem State.setPool_stats (s : State) (i v) : (s.setPool i v).stats = s.stats := rfl
@[simp] theorem State.setPool_ctrs (s : State) (i v) : (s.setPool i v).ctrs = s.ctrs := rfl
@[simp] theorem State.setPool_mem (s : State) (i v) : (s.setPool i v).mem = s.mem := rfl
@[simp] theorem State.setPool_hif (s : State) (i v) : (s.setPool i v).hif = s.hif := rfl
@[simp] theorem State.setPool_mgt (s : State) (i v) : (s.setPool i v).mgt = s.mgt := rfl
@[simp] theorem State.setPool_sec (s : State) (i v) : (s.setPool i v).sec = s.sec := rfl
@[simp] theorem State.setPool_err (s : State) (i v) : (s.setPool i v).err = s.err := rfl
@[simp] theorem State.setPool_flash (s : State) (i v) : (s.setPool i v).flash = s.flash := rfl
@[simp] theorem State.setPool_cfg (s : State) (i v) : (s.setPool i v).cfg = s.cfg := rfl
@[simp] theorem State.setPool_pwr (s : State) (i v) : (s.setPool i v).pwr = s.pwr := rfl
@[simp] theorem State.setPool_mat (s : State) (i v) : (s.setPool i v).mat = s.mat := rfl
@[simp] theorem State.setPool_vec (s : State) (i v) : (s.setPool i v).vec = s.vec := rfl
@[simp] theorem State.setPool_nbu (s : State) (i v) : (s.setPool i v).nbu = s.nbu := rfl
@[simp] theorem State.setPool_xch (s : State) (i v) : (s.setPool i v).xch = s.xch := rfl
@[simp] theorem State.setPool_fab (s : State) (i v) : (s.setPool i v).fab = s.fab := rfl
@[simp] theorem State.setPool_itk (s : State) (i v) : (s.setPool i v).itk = s.itk := rfl
@[simp] theorem State.setPool_draws (s : State) (i v) : (s.setPool i v).draws = s.draws := rfl
@[simp] theorem State.setPool_pending (s : State) (i v) : (s.setPool i v).pending = s.pending := rfl

@[simp] theorem State.setPort_regs (s : State) (p v) : (s.setPort p v).regs = s.regs := rfl
@[simp] theorem State.setPort_regs1 (s : State) (p v) : (s.setPort p v).regs1 = s.regs1 := rfl
@[simp] theorem State.setPort_regs2 (s : State) (p v) : (s.setPort p v).regs2 = s.regs2 := rfl
@[simp] theorem State.setPort_stats (s : State) (p v) : (s.setPort p v).stats = s.stats := rfl
@[simp] theorem State.setPort_ctrs (s : State) (p v) : (s.setPort p v).ctrs = s.ctrs := rfl
@[simp] theorem State.setPort_cqf (s : State) (p v) : (s.setPort p v).cqf = s.cqf := rfl
@[simp] theorem State.setPort_mem (s : State) (p v) : (s.setPort p v).mem = s.mem := rfl
@[simp] theorem State.setPort_hif (s : State) (p v) : (s.setPort p v).hif = s.hif := rfl
@[simp] theorem State.setPort_mgt (s : State) (p v) : (s.setPort p v).mgt = s.mgt := rfl
@[simp] theorem State.setPort_sec (s : State) (p v) : (s.setPort p v).sec = s.sec := rfl
@[simp] theorem State.setPort_err (s : State) (p v) : (s.setPort p v).err = s.err := rfl
@[simp] theorem State.setPort_flash (s : State) (p v) : (s.setPort p v).flash = s.flash := rfl
@[simp] theorem State.setPort_cfg (s : State) (p v) : (s.setPort p v).cfg = s.cfg := rfl
@[simp] theorem State.setPort_pwr (s : State) (p v) : (s.setPort p v).pwr = s.pwr := rfl
@[simp] theorem State.setPort_mat (s : State) (p v) : (s.setPort p v).mat = s.mat := rfl
@[simp] theorem State.setPort_vec (s : State) (p v) : (s.setPort p v).vec = s.vec := rfl
@[simp] theorem State.setPort_nbu (s : State) (p v) : (s.setPort p v).nbu = s.nbu := rfl
@[simp] theorem State.setPort_xch (s : State) (p v) : (s.setPort p v).xch = s.xch := rfl
@[simp] theorem State.setPort_itk (s : State) (p v) : (s.setPort p v).itk = s.itk := rfl
@[simp] theorem State.setPort_draws (s : State) (p v) : (s.setPort p v).draws = s.draws := rfl
@[simp] theorem State.setPort_pending (s : State) (p v) : (s.setPort p v).pending = s.pending := rfl

@[simp] theorem State.setPeerTag_regs (s : State) (t v) : (s.setPeerTag t v).regs = s.regs := rfl
@[simp] theorem State.setPeerTag_regs1 (s : State) (t v) : (s.setPeerTag t v).regs1 = s.regs1 := rfl
@[simp] theorem State.setPeerTag_regs2 (s : State) (t v) : (s.setPeerTag t v).regs2 = s.regs2 := rfl
@[simp] theorem State.setPeerTag_stats (s : State) (t v) : (s.setPeerTag t v).stats = s.stats := rfl
@[simp] theorem State.setPeerTag_ctrs (s : State) (t v) : (s.setPeerTag t v).ctrs = s.ctrs := rfl
@[simp] theorem State.setPeerTag_cqf (s : State) (t v) : (s.setPeerTag t v).cqf = s.cqf := rfl
@[simp] theorem State.setPeerTag_mem (s : State) (t v) : (s.setPeerTag t v).mem = s.mem := rfl
@[simp] theorem State.setPeerTag_hif (s : State) (t v) : (s.setPeerTag t v).hif = s.hif := rfl
@[simp] theorem State.setPeerTag_mgt (s : State) (t v) : (s.setPeerTag t v).mgt = s.mgt := rfl
@[simp] theorem State.setPeerTag_sec (s : State) (t v) : (s.setPeerTag t v).sec = s.sec := rfl
@[simp] theorem State.setPeerTag_err (s : State) (t v) : (s.setPeerTag t v).err = s.err := rfl
@[simp] theorem State.setPeerTag_flash (s : State) (t v) : (s.setPeerTag t v).flash = s.flash := rfl
@[simp] theorem State.setPeerTag_cfg (s : State) (t v) : (s.setPeerTag t v).cfg = s.cfg := rfl
@[simp] theorem State.setPeerTag_pwr (s : State) (t v) : (s.setPeerTag t v).pwr = s.pwr := rfl
@[simp] theorem State.setPeerTag_mat (s : State) (t v) : (s.setPeerTag t v).mat = s.mat := rfl
@[simp] theorem State.setPeerTag_vec (s : State) (t v) : (s.setPeerTag t v).vec = s.vec := rfl
@[simp] theorem State.setPeerTag_nbu (s : State) (t v) : (s.setPeerTag t v).nbu = s.nbu := rfl
@[simp] theorem State.setPeerTag_xch (s : State) (t v) : (s.setPeerTag t v).xch = s.xch := rfl
@[simp] theorem State.setPeerTag_itk (s : State) (t v) : (s.setPeerTag t v).itk = s.itk := rfl
@[simp] theorem State.setPeerTag_draws (s : State) (t v) : (s.setPeerTag t v).draws = s.draws := rfl
@[simp] theorem State.setPeerTag_pending (s : State) (t v) : (s.setPeerTag t v).pending = s.pending := rfl

@[simp] theorem State.setGroup_regs (s : State) (g v) : (s.setGroup g v).regs = s.regs := rfl
@[simp] theorem State.setGroup_regs1 (s : State) (g v) : (s.setGroup g v).regs1 = s.regs1 := rfl
@[simp] theorem State.setGroup_regs2 (s : State) (g v) : (s.setGroup g v).regs2 = s.regs2 := rfl
@[simp] theorem State.setGroup_stats (s : State) (g v) : (s.setGroup g v).stats = s.stats := rfl
@[simp] theorem State.setGroup_ctrs (s : State) (g v) : (s.setGroup g v).ctrs = s.ctrs := rfl
@[simp] theorem State.setGroup_cqf (s : State) (g v) : (s.setGroup g v).cqf = s.cqf := rfl
@[simp] theorem State.setGroup_mem (s : State) (g v) : (s.setGroup g v).mem = s.mem := rfl
@[simp] theorem State.setGroup_hif (s : State) (g v) : (s.setGroup g v).hif = s.hif := rfl
@[simp] theorem State.setGroup_mgt (s : State) (g v) : (s.setGroup g v).mgt = s.mgt := rfl
@[simp] theorem State.setGroup_sec (s : State) (g v) : (s.setGroup g v).sec = s.sec := rfl
@[simp] theorem State.setGroup_err (s : State) (g v) : (s.setGroup g v).err = s.err := rfl
@[simp] theorem State.setGroup_flash (s : State) (g v) : (s.setGroup g v).flash = s.flash := rfl
@[simp] theorem State.setGroup_cfg (s : State) (g v) : (s.setGroup g v).cfg = s.cfg := rfl
@[simp] theorem State.setGroup_pwr (s : State) (g v) : (s.setGroup g v).pwr = s.pwr := rfl
@[simp] theorem State.setGroup_mat (s : State) (g v) : (s.setGroup g v).mat = s.mat := rfl
@[simp] theorem State.setGroup_vec (s : State) (g v) : (s.setGroup g v).vec = s.vec := rfl
@[simp] theorem State.setGroup_nbu (s : State) (g v) : (s.setGroup g v).nbu = s.nbu := rfl
@[simp] theorem State.setGroup_fab (s : State) (g v) : (s.setGroup g v).fab = s.fab := rfl
@[simp] theorem State.setGroup_itk (s : State) (g v) : (s.setGroup g v).itk = s.itk := rfl
@[simp] theorem State.setGroup_draws (s : State) (g v) : (s.setGroup g v).draws = s.draws := rfl
@[simp] theorem State.setGroup_pending (s : State) (g v) : (s.setGroup g v).pending = s.pending := rfl

@[simp] theorem State.setHandle_regs (s : State) (h v) : (s.setHandle h v).regs = s.regs := rfl
@[simp] theorem State.setHandle_regs1 (s : State) (h v) : (s.setHandle h v).regs1 = s.regs1 := rfl
@[simp] theorem State.setHandle_regs2 (s : State) (h v) : (s.setHandle h v).regs2 = s.regs2 := rfl
@[simp] theorem State.setHandle_stats (s : State) (h v) : (s.setHandle h v).stats = s.stats := rfl
@[simp] theorem State.setHandle_ctrs (s : State) (h v) : (s.setHandle h v).ctrs = s.ctrs := rfl
@[simp] theorem State.setHandle_cqf (s : State) (h v) : (s.setHandle h v).cqf = s.cqf := rfl
@[simp] theorem State.setHandle_mem (s : State) (h v) : (s.setHandle h v).mem = s.mem := rfl
@[simp] theorem State.setHandle_hif (s : State) (h v) : (s.setHandle h v).hif = s.hif := rfl
@[simp] theorem State.setHandle_mgt (s : State) (h v) : (s.setHandle h v).mgt = s.mgt := rfl
@[simp] theorem State.setHandle_sec (s : State) (h v) : (s.setHandle h v).sec = s.sec := rfl
@[simp] theorem State.setHandle_err (s : State) (h v) : (s.setHandle h v).err = s.err := rfl
@[simp] theorem State.setHandle_flash (s : State) (h v) : (s.setHandle h v).flash = s.flash := rfl
@[simp] theorem State.setHandle_cfg (s : State) (h v) : (s.setHandle h v).cfg = s.cfg := rfl
@[simp] theorem State.setHandle_pwr (s : State) (h v) : (s.setHandle h v).pwr = s.pwr := rfl
@[simp] theorem State.setHandle_vec (s : State) (h v) : (s.setHandle h v).vec = s.vec := rfl
@[simp] theorem State.setHandle_nbu (s : State) (h v) : (s.setHandle h v).nbu = s.nbu := rfl
@[simp] theorem State.setHandle_xch (s : State) (h v) : (s.setHandle h v).xch = s.xch := rfl
@[simp] theorem State.setHandle_fab (s : State) (h v) : (s.setHandle h v).fab = s.fab := rfl
@[simp] theorem State.setHandle_itk (s : State) (h v) : (s.setHandle h v).itk = s.itk := rfl
@[simp] theorem State.setHandle_draws (s : State) (h v) : (s.setHandle h v).draws = s.draws := rfl
@[simp] theorem State.setHandle_pending (s : State) (h v) : (s.setHandle h v).pending = s.pending := rfl

@[simp] theorem State.setFord_regs (s : State) (f v) : (s.setFord f v).regs = s.regs := rfl
@[simp] theorem State.setFord_regs1 (s : State) (f v) : (s.setFord f v).regs1 = s.regs1 := rfl
@[simp] theorem State.setFord_regs2 (s : State) (f v) : (s.setFord f v).regs2 = s.regs2 := rfl
@[simp] theorem State.setFord_stats (s : State) (f v) : (s.setFord f v).stats = s.stats := rfl
@[simp] theorem State.setFord_ctrs (s : State) (f v) : (s.setFord f v).ctrs = s.ctrs := rfl
@[simp] theorem State.setFord_cqf (s : State) (f v) : (s.setFord f v).cqf = s.cqf := rfl
@[simp] theorem State.setFord_hif (s : State) (f v) : (s.setFord f v).hif = s.hif := rfl
@[simp] theorem State.setFord_mgt (s : State) (f v) : (s.setFord f v).mgt = s.mgt := rfl
@[simp] theorem State.setFord_sec (s : State) (f v) : (s.setFord f v).sec = s.sec := rfl
@[simp] theorem State.setFord_err (s : State) (f v) : (s.setFord f v).err = s.err := rfl
@[simp] theorem State.setFord_flash (s : State) (f v) : (s.setFord f v).flash = s.flash := rfl
@[simp] theorem State.setFord_cfg (s : State) (f v) : (s.setFord f v).cfg = s.cfg := rfl
@[simp] theorem State.setFord_pwr (s : State) (f v) : (s.setFord f v).pwr = s.pwr := rfl
@[simp] theorem State.setFord_mat (s : State) (f v) : (s.setFord f v).mat = s.mat := rfl
@[simp] theorem State.setFord_vec (s : State) (f v) : (s.setFord f v).vec = s.vec := rfl
@[simp] theorem State.setFord_nbu (s : State) (f v) : (s.setFord f v).nbu = s.nbu := rfl
@[simp] theorem State.setFord_xch (s : State) (f v) : (s.setFord f v).xch = s.xch := rfl
@[simp] theorem State.setFord_fab (s : State) (f v) : (s.setFord f v).fab = s.fab := rfl
@[simp] theorem State.setFord_itk (s : State) (f v) : (s.setFord f v).itk = s.itk := rfl
@[simp] theorem State.setFord_draws (s : State) (f v) : (s.setFord f v).draws = s.draws := rfl
@[simp] theorem State.setFord_pending (s : State) (f v) : (s.setFord f v).pending = s.pending := rfl

@[simp] theorem State.setProg_regs (s : State) (q p) : (s.setProg q p).regs = s.regs := rfl
@[simp] theorem State.setProg_regs1 (s : State) (q p) : (s.setProg q p).regs1 = s.regs1 := rfl
@[simp] theorem State.setProg_regs2 (s : State) (q p) : (s.setProg q p).regs2 = s.regs2 := rfl
@[simp] theorem State.setProg_stats (s : State) (q p) : (s.setProg q p).stats = s.stats := rfl
@[simp] theorem State.setProg_ctrs (s : State) (q p) : (s.setProg q p).ctrs = s.ctrs := rfl
@[simp] theorem State.setProg_cqf (s : State) (q p) : (s.setProg q p).cqf = s.cqf := rfl
@[simp] theorem State.setProg_hif (s : State) (q p) : (s.setProg q p).hif = s.hif := rfl
@[simp] theorem State.setProg_mgt (s : State) (q p) : (s.setProg q p).mgt = s.mgt := rfl
@[simp] theorem State.setProg_sec (s : State) (q p) : (s.setProg q p).sec = s.sec := rfl
@[simp] theorem State.setProg_err (s : State) (q p) : (s.setProg q p).err = s.err := rfl
@[simp] theorem State.setProg_flash (s : State) (q p) : (s.setProg q p).flash = s.flash := rfl
@[simp] theorem State.setProg_cfg (s : State) (q p) : (s.setProg q p).cfg = s.cfg := rfl
@[simp] theorem State.setProg_pwr (s : State) (q p) : (s.setProg q p).pwr = s.pwr := rfl
@[simp] theorem State.setProg_mat (s : State) (q p) : (s.setProg q p).mat = s.mat := rfl
@[simp] theorem State.setProg_vec (s : State) (q p) : (s.setProg q p).vec = s.vec := rfl
@[simp] theorem State.setProg_nbu (s : State) (q p) : (s.setProg q p).nbu = s.nbu := rfl
@[simp] theorem State.setProg_xch (s : State) (q p) : (s.setProg q p).xch = s.xch := rfl
@[simp] theorem State.setProg_fab (s : State) (q p) : (s.setProg q p).fab = s.fab := rfl
@[simp] theorem State.setProg_itk (s : State) (q p) : (s.setProg q p).itk = s.itk := rfl
@[simp] theorem State.setProg_draws (s : State) (q p) : (s.setProg q p).draws = s.draws := rfl
@[simp] theorem State.setProg_pending (s : State) (q p) : (s.setProg q p).pending = s.pending := rfl

end Sys2Proof.Machine
end

