-- ==== Sys2Proof/Laws/CellsShared.lean ====
section
/-!
SUPPORT. The operations of registers, records, memory, queues, links and operands leave the memory alone or keep its canonical form.
-/
set_option maxRecDepth 4000
namespace Sys2Proof.Machine
@[simp] theorem State.setReg_mem (s a1 a2) : (State.setReg s a1 a2).mem = s.mem :=
  mem_of_only (State.setReg_only s a1 a2) (by decide)
@[simp] theorem State.tlpOut_mem (s a1 a2 a3) : (State.tlpOut s a1 a2 a3).mem = s.mem :=
  mem_of_only (State.tlpOut_only s a1 a2 a3) (by decide)
@[simp] theorem State.hostSend_mem (s a1 a2 a3) : (State.hostSend s a1 a2 a3).mem = s.mem :=
  mem_of_only (State.hostSend_only s a1 a2 a3) (by decide)
@[simp] theorem State.hostWrite_mem (s a1 a2 a3) : (State.hostWrite s a1 a2 a3).mem = s.mem :=
  mem_of_only (State.hostWrite_only s a1 a2 a3) (by decide)
@[simp] theorem State.sendMsix_mem (s a1) : (State.sendMsix s a1).mem = s.mem :=
  mem_of_only (State.sendMsix_only s a1) (by decide)
@[simp] theorem State.raiseVector_mem (s a1) : (State.raiseVector s a1).mem = s.mem :=
  mem_of_only (State.raiseVector_only s a1) (by decide)
@[simp] theorem State.irq_mem (s a1) : (State.irq s a1).mem = s.mem :=
  mem_of_only (State.irq_only s a1) (by decide)
@[simp] theorem State.raiseIf_mem (s a1 a2 a3 a4) : (State.raiseIf s a1 a2 a3 a4).mem = s.mem :=
  mem_of_only (State.raiseIf_only s a1 a2 a3 a4) (by decide)
@[simp] theorem State.evGlb_mem (s a1) : (State.evGlb s a1).mem = s.mem :=
  mem_of_only (State.evGlb_only s a1) (by decide)
@[simp] theorem State.evPwr_mem (s a1) : (State.evPwr s a1).mem = s.mem :=
  mem_of_only (State.evPwr_only s a1) (by decide)
@[simp] theorem State.evTim_mem (s a1) : (State.evTim s a1).mem = s.mem :=
  mem_of_only (State.evTim_only s a1) (by decide)
@[simp] theorem State.evHif_mem (s a1) : (State.evHif s a1).mem = s.mem :=
  mem_of_only (State.evHif_only s a1) (by decide)
@[simp] theorem State.evCqf_mem (s a1) : (State.evCqf s a1).mem = s.mem :=
  mem_of_only (State.evCqf_only s a1) (by decide)
@[simp] theorem State.evMat_mem (s a1) : (State.evMat s a1).mem = s.mem :=
  mem_of_only (State.evMat_only s a1) (by decide)
@[simp] theorem State.evVec_mem (s a1) : (State.evVec s a1).mem = s.mem :=
  mem_of_only (State.evVec_only s a1) (by decide)
@[simp] theorem State.evTir_mem (s a1) : (State.evTir s a1).mem = s.mem :=
  mem_of_only (State.evTir_only s a1) (by decide)
@[simp] theorem State.evNbu_mem (s a1) : (State.evNbu s a1).mem = s.mem :=
  mem_of_only (State.evNbu_only s a1) (by decide)
@[simp] theorem State.evXch_mem (s a1) : (State.evXch s a1).mem = s.mem :=
  mem_of_only (State.evXch_only s a1) (by decide)
@[simp] theorem State.evFab_mem (s a1) : (State.evFab s a1).mem = s.mem :=
  mem_of_only (State.evFab_only s a1) (by decide)
@[simp] theorem State.evItk_mem (s a1) : (State.evItk s a1).mem = s.mem :=
  mem_of_only (State.evItk_only s a1) (by decide)
@[simp] theorem State.evMgt_mem (s a1) : (State.evMgt s a1).mem = s.mem :=
  mem_of_only (State.evMgt_only s a1) (by decide)
@[simp] theorem State.evSec_mem (s a1) : (State.evSec s a1).mem = s.mem :=
  mem_of_only (State.evSec_only s a1) (by decide)
@[simp] theorem State.evErr_mem (s a1) : (State.evErr s a1).mem = s.mem :=
  mem_of_only (State.evErr_only s a1) (by decide)
@[simp] theorem State.aerEvent_mem (s a1) : (State.aerEvent s a1).mem = s.mem :=
  mem_of_only (State.aerEvent_only s a1) (by decide)
@[simp] theorem State.histAdd_mem (a0 a1 a2 s) : (State.histAdd a0 a1 a2 s).mem = s.mem :=
  mem_of_only (State.histAdd_only a0 a1 a2 s) (by decide)
@[simp] theorem State.recHist_mem (a0 a1 a2 a3 s) : (State.recHist a0 a1 a2 a3 s).mem = s.mem :=
  mem_of_only (State.recHist_only a0 a1 a2 a3 s) (by decide)
@[simp] theorem State.recWrite_mem (a0 a1 a2 a3 a4 a5 s) : (State.recWrite a0 a1 a2 a3 a4 a5 s).mem = s.mem :=
  mem_of_only (State.recWrite_only a0 a1 a2 a3 a4 a5 s) (by decide)
@[simp] theorem State.errRec_mem (a0 a1 a2 a3 a4 a5 s) : (State.errRec a0 a1 a2 a3 a4 a5 s).mem = s.mem :=
  mem_of_only (State.errRec_only a0 a1 a2 a3 a4 a5 s) (by decide)
@[simp] theorem State.voteReg_mem (s a1 a2) : (State.voteReg s a1 a2).mem = s.mem :=
  mem_of_only (State.voteReg_only s a1 a2) (by decide)
@[simp] theorem State.useT_mem (s a1) : (State.useT s a1).mem = s.mem :=
  mem_of_only (State.useT_only s a1) (by decide)
@[simp] theorem State.logPut_mem (a0 a1 a2 a3 s) : (State.logPut a0 a1 a2 a3 s).mem = s.mem :=
  mem_of_only (State.logPut_only a0 a1 a2 a3 s) (by decide)
@[simp] theorem State.logWrite_mem (a0 a1 a2 s) : (State.logWrite a0 a1 a2 s).mem = s.mem :=
  mem_of_only (State.logWrite_only a0 a1 a2 s) (by decide)
@[simp] theorem State.tracePoint_mem (s a1) : (State.tracePoint s a1).mem = s.mem :=
  mem_of_only (State.tracePoint_only s a1) (by decide)
@[simp] theorem State.trace_mem (s a1 a2) : (State.trace s a1 a2).mem = s.mem :=
  mem_of_only (State.trace_only s a1 a2) (by decide)
@[simp] theorem State.holdWrite_cells (a0 a1 a2 s) (h : twf zeroB s.mem.cells = true) :
    twf zeroB (State.holdWrite a0 a1 a2 s).mem.cells = true := by
  unfold State.holdWrite
  simp (maxDischargeDepth := 80) [h]
@[simp] theorem State.foundUe_cells (a0 a1 a2 a3 s) (h : twf zeroB s.mem.cells = true) :
    twf zeroB (State.foundUe a0 a1 a2 a3 s).mem.cells = true := by
  unfold State.foundUe
  simp (maxDischargeDepth := 80) [h]
@[simp] theorem State.readWord_cells (a0 a1 a2 a3 a4 a5 a6 s) (h : twf zeroB s.mem.cells = true) :
    twf zeroB (State.readWord a0 a1 a2 a3 a4 a5 a6 s).2.mem.cells = true := by
  unfold State.readWord
  (repeat' split) <;> simp (maxDischargeDepth := 80) [h]
@[simp] theorem State.readWords_cells (a0 a1 a2 a3 a4 a5 s) (h : twf zeroB s.mem.cells = true) :
    twf zeroB (State.readWords a0 a1 a2 a3 a4 a5 s).2.mem.cells = true := by
  fun_induction State.readWords <;> simp_all (maxDischargeDepth := 80) +zetaDelta
@[simp] theorem State.undefBytes_mem (a0 a1 s) : (State.undefBytes a0 a1 s).2.mem = s.mem :=
  mem_of_only (State.undefBytes_only a0 a1 s) (by decide)
@[simp] theorem State.readPacked_cells (a0 a1 a2 a3 a4 a5 s) (h : twf zeroB s.mem.cells = true) :
    twf zeroB (State.readPacked a0 a1 a2 a3 a4 a5 s).2.mem.cells = true := by
  unfold State.readPacked
  rw [ReadEnd.also_snd]
  exact State.readWords_cells _ _ _ _ _ _ _ (State.readWords_cells _ _ _ _ _ _ _ h)
@[simp] theorem State.gotOf_mem (e bs s) : (State.gotOf e bs s).2.mem = s.mem :=
  mem_of_only (State.gotOf_only e bs s) (by decide)
@[simp] theorem State.readBlock_cells (a0 a1 a2 a3 a4 s) (h : twf zeroB s.mem.cells = true) :
    twf zeroB (State.readBlock a0 a1 a2 a3 a4 s).2.mem.cells = true := by
  unfold State.readBlock
  (repeat' (first | split | dsimp only)) <;> simp (maxDischargeDepth := 80) [h]
@[simp] theorem State.readF_cells (a0 a1 a2 a3 a4 a5 s) (h : twf zeroB s.mem.cells = true) :
    twf zeroB (State.readF a0 a1 a2 a3 a4 a5 s).2.mem.cells = true := by
  fun_induction State.readF <;> simp_all (maxDischargeDepth := 80) +zetaDelta
@[simp] theorem State.memRead_cells (a0 a1 a2 s) (h : twf zeroB s.mem.cells = true) :
    twf zeroB (State.memRead a0 a1 a2 s).2.mem.cells = true := by
  unfold State.memRead
  simp (maxDischargeDepth := 80) [h]
@[simp] theorem State.expandBlock_cells (a0 a1 a2 s) (h : twf zeroB s.mem.cells = true) :
    twf zeroB (State.expandBlock a0 a1 a2 s).2.mem.cells = true := by
  unfold State.expandBlock
  (repeat' (first | split | dsimp only)) <;> simp (maxDischargeDepth := 80) [h]
@[simp] theorem State.expandBlocks_cells (a0 a1 a2 s) (h : twf zeroB s.mem.cells = true) :
    twf zeroB (State.expandBlocks a0 a1 a2 s).2.mem.cells = true := by
  fun_induction State.expandBlocks <;> simp_all (maxDischargeDepth := 80) +zetaDelta
@[simp] theorem State.expand_cells (a0 s) (h : twf zeroB s.mem.cells = true) :
    twf zeroB (State.expand a0 s).mem.cells = true := by
  unfold State.expand
  (repeat' split) <;> simp (maxDischargeDepth := 80) [h]
@[simp] theorem State.readyPage_cells (s a1) (h : twf zeroB s.mem.cells = true) :
    twf zeroB (State.readyPage s a1).mem.cells = true := by
  unfold State.readyPage
  simp (maxDischargeDepth := 80) [h]
@[simp] theorem State.mergeRead_cells (a0 a1 a2 s) (h : twf zeroB s.mem.cells = true) :
    twf zeroB (State.mergeRead a0 a1 a2 s).mem.cells = true := by
  unfold State.mergeRead
  (repeat' (first | split | dsimp only)) <;> simp (maxDischargeDepth := 80) [h]
@[simp] theorem State.dropWrite_mem (a0 a1 s) : (State.dropWrite a0 a1 s).mem = s.mem :=
  mem_of_only (State.dropWrite_only a0 a1 s) (by decide)
@[simp] theorem State.writeWord_cells (a0 a1 a2 a3 s) (h : twf zeroB s.mem.cells = true) :
    twf zeroB (State.writeWord a0 a1 a2 a3 s).mem.cells = true := by
  unfold State.writeWord
  simp (maxDischargeDepth := 80) [h]
@[simp] theorem State.storeBytes_cells (a0 a1 s) (h : twf zeroB s.mem.cells = true) :
    twf zeroB (State.storeBytes a0 a1 s).mem.cells = true := by
  unfold State.storeBytes
  split
  · exact h
  · dsimp only
    refine foldl_wf (fun t p ht => twf_tput ht _ _) _ ?_
    refine foldl_cells (fun t w ht => by simp [ht]) _ _ ?_
    exact foldl_cells (fun t x ht => by simp [ht]) _ _ h
@[simp] theorem State.memWrite_cells (a0 a1 s) (h : twf zeroB s.mem.cells = true) :
    twf zeroB (State.memWrite a0 a1 s).mem.cells = true := by
  unfold State.memWrite
  simp (maxDischargeDepth := 80) [h]
@[simp] theorem State.signal_mem (s a1) : (State.signal s a1).mem = s.mem :=
  mem_of_only (State.signal_only s a1) (by decide)
@[simp] theorem State.weirCheck_mem (s a1) : (State.weirCheck s a1).mem = s.mem :=
  mem_of_only (State.weirCheck_only s a1) (by decide)
@[simp] theorem State.takeBufs_mem (s a1 a2) : (State.takeBufs s a1 a2).mem = s.mem :=
  mem_of_only (State.takeBufs_only s a1 a2) (by decide)
@[simp] theorem State.freeBufs_mem (s a1 a2) : (State.freeBufs s a1 a2).mem = s.mem :=
  mem_of_only (State.freeBufs_only s a1 a2) (by decide)
@[simp] theorem State.askBufs_mem (s a1 a2 a3) : (State.askBufs s a1 a2 a3).2.mem = s.mem :=
  mem_of_only (State.askBufs_only s a1 a2 a3) (by decide)
@[simp] theorem State.disableQ_mem (s a1 a2) : (State.disableQ s a1 a2).mem = s.mem :=
  mem_of_only (State.disableQ_only s a1 a2) (by decide)
@[simp] theorem State.stopQ_mem (s a1 a2 a3 a4) : (State.stopQ s a1 a2 a3 a4).mem = s.mem :=
  mem_of_only (State.stopQ_only s a1 a2 a3 a4) (by decide)
@[simp] theorem State.bmeLost_mem (s a1) : (State.bmeLost s a1).mem = s.mem :=
  mem_of_only (State.bmeLost_only s a1) (by decide)
@[simp] theorem State.frontHost_mem (s a1 a2 a3) : (State.frontHost s a1 a2 a3).mem = s.mem :=
  mem_of_only (State.frontHost_only s a1 a2 a3) (by decide)
@[simp] theorem State.frontWrite_cells (s a1 a2 a3) (h : twf zeroB s.mem.cells = true) :
    twf zeroB (State.frontWrite s a1 a2 a3).mem.cells = true := by
  unfold State.frontWrite
  simp (maxDischargeDepth := 80) [h]
@[simp] theorem State.reply_cells (s a1 a2 a3 a4) (h : twf zeroB s.mem.cells = true) :
    twf zeroB (State.reply s a1 a2 a3 a4).mem.cells = true := by
  unfold State.reply
  simp (maxDischargeDepth := 80) [h]
@[simp] theorem State.frontFail_cells (s a1 a2 a3 a4) (h : twf zeroB s.mem.cells = true) :
    twf zeroB (State.frontFail s a1 a2 a3 a4).mem.cells = true := by
  unfold State.frontFail
  simp (maxDischargeDepth := 80) [h]
@[simp] theorem State.setCmd_mem (s a1 a2) : (State.setCmd s a1 a2).mem = s.mem :=
  mem_of_only (State.setCmd_only s a1 a2) (by decide)
@[simp] theorem State.endCmd_mem (s a1 a2 a3) : (State.endCmd s a1 a2 a3).mem = s.mem :=
  mem_of_only (State.endCmd_only s a1 a2 a3) (by decide)
@[simp] theorem State.failCmd_mem (s a1 a2) : (State.failCmd s a1 a2).mem = s.mem :=
  mem_of_only (State.failCmd_only s a1 a2) (by decide)
@[simp] theorem State.takeTag_mem (s a1) : (State.takeTag s a1).mem = s.mem :=
  mem_of_only (State.takeTag_only s a1) (by decide)
@[simp] theorem State.freeTag_mem (s a1) : (State.freeTag s a1).mem = s.mem :=
  mem_of_only (State.freeTag_only s a1) (by decide)
@[simp] theorem State.sendHostRead_mem (s a1 a2) : (State.sendHostRead s a1 a2).mem = s.mem :=
  mem_of_only (State.sendHostRead_only s a1 a2) (by decide)
@[simp] theorem State.request_mem (s a1 a2 a3 a4) : (State.request s a1 a2 a3 a4).mem = s.mem :=
  mem_of_only (State.request_only s a1 a2 a3 a4) (by decide)
@[simp] theorem State.opRead_cells (s a1 a2 a3 a4) (h : twf zeroB s.mem.cells = true) :
    twf zeroB (State.opRead s a1 a2 a3 a4).2.mem.cells = true := by
  unfold State.opRead
  simp (maxDischargeDepth := 80) [h]
@[simp] theorem State.opWrite_cells (s a1 a2 a3 a4) (h : twf zeroB s.mem.cells = true) :
    twf zeroB (State.opWrite s a1 a2 a3 a4).mem.cells = true := by
  unfold State.opWrite
  (repeat' split) <;> simp (maxDischargeDepth := 80) [h]
@[simp] theorem State.onPort_mem (s a1 a2) : (State.onPort s a1 a2).mem = s.mem :=
  mem_of_only (State.onPort_only s a1 a2) (by decide)
@[simp] theorem State.opReads_cells (s a1 a2) (h : twf zeroB s.mem.cells = true) :
    twf zeroB (State.opReads s a1 a2).2.mem.cells = true := by
  fun_induction State.opReads <;> simp_all (maxDischargeDepth := 80) +zetaDelta
@[simp] theorem State.noteBme_mem (s a1) : (State.noteBme s a1).mem = s.mem :=
  mem_of_only (State.noteBme_only s a1) (by decide)
@[simp] theorem State.setShadow_mem (s a1) : (State.setShadow s a1).mem = s.mem :=
  mem_of_only (State.setShadow_only s a1) (by decide)
@[simp] theorem State.pushOut_mem (s a1 a2) : (State.pushOut s a1 a2).mem = s.mem :=
  mem_of_only (State.pushOut_only s a1 a2) (by decide)
@[simp] theorem State.pushIn_mem (s a1 a2 a3) : (State.pushIn s a1 a2 a3).mem = s.mem :=
  mem_of_only (State.pushIn_only s a1 a2 a3) (by decide)
@[simp] theorem State.returnUnits_mem (s a1 a2) : (State.returnUnits s a1 a2).mem = s.mem :=
  mem_of_only (State.returnUnits_only s a1 a2) (by decide)
@[simp] theorem State.sendOr_mem (s k i t) (f : State → State) (hf : ∀ t, (f t).mem = t.mem) : (State.sendOr s k i t f).mem = s.mem := by
  unfold State.sendOr
  (repeat' split) <;> simp [hf]
@[simp] theorem State.sendReply_mem (s a1) : (State.sendReply s a1).mem = s.mem :=
  mem_of_only (State.sendReply_only s a1) (by decide)
@[simp] theorem State.refuse_mem (s a1 a2 a3) : (State.refuse s a1 a2 a3).mem = s.mem :=
  mem_of_only (State.refuse_only s a1 a2 a3) (by decide)
@[simp] theorem State.forward_mem (s a1 a2) : (State.forward s a1 a2).mem = s.mem :=
  mem_of_only (State.forward_only s a1 a2) (by decide)
@[simp] theorem State.arrive_mem (s a1 a2) : (State.arrive s a1 a2).mem = s.mem :=
  mem_of_only (State.arrive_only s a1 a2) (by decide)
@[simp] theorem State.parse_mem (a0 a1 a2 s) : (State.parse a0 a1 a2 s).mem = s.mem :=
  mem_of_only (State.parse_only a0 a1 a2 s) (by decide)
@[simp] theorem State.portState_mem (s a1 a2) : (State.portState s a1 a2).mem = s.mem :=
  mem_of_only (State.portState_only s a1 a2) (by decide)
@[simp] theorem State.lost_mem (s a1 a2) : (State.lost s a1 a2).mem = s.mem :=
  mem_of_only (State.lost_only s a1 a2) (by decide)
@[simp] theorem State.dropQueue_mem (s a1) : (State.dropQueue s a1).mem = s.mem :=
  mem_of_only (State.dropQueue_only s a1) (by decide)
@[simp] theorem State.loseReplay_mem (s a1 a2) : (State.loseReplay s a1 a2).mem = s.mem :=
  mem_of_only (State.loseReplay_only s a1 a2) (by decide)
@[simp] theorem State.train_mem (s a1) : (State.train s a1).mem = s.mem :=
  mem_of_only (State.train_only s a1) (by decide)
@[simp] theorem State.portFail_mem (s a1) : (State.portFail s a1).mem = s.mem :=
  mem_of_only (State.portFail_only s a1) (by decide)
@[simp] theorem State.retrain_mem (s a1) : (State.retrain s a1).mem = s.mem :=
  mem_of_only (State.retrain_only s a1) (by decide)
@[simp] theorem State.drainEnd_mem (s a1) : (State.drainEnd s a1).mem = s.mem :=
  mem_of_only (State.drainEnd_only s a1) (by decide)
@[simp] theorem State.drainBegin_mem (s a1) : (State.drainBegin s a1).mem = s.mem :=
  mem_of_only (State.drainBegin_only s a1) (by decide)
@[simp] theorem State.drain_mem (s a1 a2) : (State.drain s a1 a2).mem = s.mem :=
  mem_of_only (State.drain_only s a1 a2) (by decide)
@[simp] theorem State.begun_mem (s a1 a2 a3) : (State.begun s a1 a2 a3).mem = s.mem :=
  mem_of_only (State.begun_only s a1 a2 a3) (by decide)
@[simp] theorem State.fill_mem (a0 a1 a2 a3 s) : (State.fill a0 a1 a2 a3 s).2.2.mem = s.mem :=
  mem_of_only (State.fill_only a0 a1 a2 a3 s) (by decide)
theorem State.nextData_cells (s) (p) (r) (hr : State.nextData s p = some r) (h : twf zeroB s.mem.cells = true) : twf zeroB r.2.mem.cells = true := by
  unfold State.nextData at hr
  simp only [] at hr
  repeat' split at hr
  all_goals simp_all (maxDischargeDepth := 80)
  all_goals subst hr
  all_goals simp (maxDischargeDepth := 80) [h]
@[simp] theorem State.sendLast_mem (s a1 a2) : (State.sendLast s a1 a2).mem = s.mem :=
  mem_of_only (State.sendLast_only s a1 a2) (by decide)
@[simp] theorem State.emit_mem (s a1 a2 a3 a4) : (State.emit s a1 a2 a3 a4).mem = s.mem :=
  mem_of_only (State.emit_only s a1 a2 a3 a4) (by decide)
@[simp] theorem State.sendFrame_mem (s a1) : (State.sendFrame s a1).mem = s.mem :=
  mem_of_only (State.sendFrame_only s a1) (by decide)
@[simp] theorem State.startReplay_mem (s a1) : (State.startReplay s a1).mem = s.mem :=
  mem_of_only (State.startReplay_only s a1) (by decide)
@[simp] theorem State.ackTo_mem (s a1 a2) : (State.ackTo s a1 a2).mem = s.mem :=
  mem_of_only (State.ackTo_only s a1 a2) (by decide)
@[simp] theorem State.takeCredits_mem (s a1 a2) : (State.takeCredits s a1 a2).mem = s.mem :=
  mem_of_only (State.takeCredits_only s a1 a2) (by decide)
@[simp] theorem State.askReplay_mem (s a1) : (State.askReplay s a1).mem = s.mem :=
  mem_of_only (State.askReplay_only s a1) (by decide)
@[simp] theorem State.takeData_mem (s a1 a2 a3) : (State.takeData s a1 a2 a3).mem = s.mem :=
  mem_of_only (State.takeData_only s a1 a2 a3) (by decide)
@[simp] theorem State.takeFrame_mem (s a1 a2) : (State.takeFrame s a1 a2).mem = s.mem :=
  mem_of_only (State.takeFrame_only s a1 a2) (by decide)
@[simp] theorem State.frameReceive_mem (s a1 a2) : (State.frameReceive s a1 a2).mem = s.mem :=
  mem_of_only (State.frameReceive_only s a1 a2) (by decide)
@[simp] theorem State.replayTimeout_mem (s a1) : (State.replayTimeout s a1).mem = s.mem :=
  mem_of_only (State.replayTimeout_only s a1) (by decide)
@[simp] theorem State.nakRepeat_mem (s a1) : (State.nakRepeat s a1).mem = s.mem :=
  mem_of_only (State.nakRepeat_only s a1) (by decide)
@[simp] theorem State.readRows_cells (s a1 a2 a3 a4 a5 a6) (h : twf zeroB s.mem.cells = true) :
    twf zeroB (State.readRows s a1 a2 a3 a4 a5 a6).2.mem.cells = true := by
  unfold State.readRows
  (repeat' (first | split | dsimp only)) <;> simp (maxDischargeDepth := 80) [h]
@[simp] theorem State.freeBytes_mem (s a1 a2) : (State.freeBytes s a1 a2).2.mem = s.mem :=
  mem_of_only (State.freeBytes_only s a1 a2) (by decide)
@[simp] theorem State.holdRows_cells (s a1 a2 a3 a4 a5) (h : twf zeroB s.mem.cells = true) :
    twf zeroB (State.holdRows s a1 a2 a3 a4 a5).mem.cells = true := by
  unfold State.holdRows
  (repeat' split) <;> simp_all (maxDischargeDepth := 80)
@[simp] theorem State.writeRow_cells (s a1 a2 a3 a4 a5 a6) (h : twf zeroB s.mem.cells = true) :
    twf zeroB (State.writeRow s a1 a2 a3 a4 a5 a6).mem.cells = true := by
  unfold State.writeRow
  simp (maxDischargeDepth := 80) [h]
@[simp] theorem State.writeRows_cells (s a1 a2 a3 a4 a5) (h : twf zeroB s.mem.cells = true) :
    twf zeroB (State.writeRows s a1 a2 a3 a4 a5).mem.cells = true := by
  fun_induction State.writeRows <;> simp_all (maxDischargeDepth := 80)
@[simp] theorem State.takeSnap_cells (s a1 a2) (h : twf zeroB s.mem.cells = true) :
    twf zeroB (State.takeSnap s a1 a2).2.mem.cells = true := by
  unfold State.takeSnap
  (repeat' (first | split | dsimp only)) <;> simp (maxDischargeDepth := 80) [h]
@[simp] theorem State.tideAdd_cells (s a1 a2) (h : twf zeroB s.mem.cells = true) :
    twf zeroB (State.tideAdd s a1 a2).mem.cells = true := by
  unfold State.tideAdd
  (repeat' (first | split | dsimp only)) <;> simp (maxDischargeDepth := 80) [h]
@[simp] theorem State.storeRows_cells (s a1 a2 a3 a4 a5) (h : twf zeroB s.mem.cells = true) :
    twf zeroB (State.storeRows s a1 a2 a3 a4 a5).mem.cells = true := by
  unfold State.storeRows
  simp (maxDischargeDepth := 80) [h]
@[simp] theorem State.svcRecord_mem (s a1 a2 a3 a4 a5 a6) : (State.svcRecord s a1 a2 a3 a4 a5 a6).mem = s.mem :=
  mem_of_only (State.svcRecord_only s a1 a2 a3 a4 a5 a6) (by decide)
@[simp] theorem State.clSet_mem (s a1 a2 a3 a4) : (State.clSet s a1 a2 a3 a4).mem = s.mem :=
  mem_of_only (State.clSet_only s a1 a2 a3 a4) (by decide)
@[simp] theorem State.loseHandles_mem (s a1) : (State.loseHandles s a1).mem = s.mem :=
  mem_of_only (State.loseHandles_only s a1) (by decide)
@[simp] theorem State.clOut_mem (s a1 a2) : (State.clOut s a1 a2).mem = s.mem :=
  mem_of_only (State.clOut_only s a1 a2) (by decide)
@[simp] theorem State.clRemove_mem (s a1) : (State.clRemove s a1).mem = s.mem :=
  mem_of_only (State.clRemove_only s a1) (by decide)
@[simp] theorem State.clLeaves_mem (s a1) : (State.clLeaves s a1).mem = s.mem :=
  mem_of_only (State.clLeaves_only s a1) (by decide)
@[simp] theorem State.clAuto_mem (s a1) : (State.clAuto s a1).mem = s.mem :=
  mem_of_only (State.clAuto_only s a1) (by decide)
@[simp] theorem State.clResidue_mem (s a1 a2) : (State.clResidue s a1 a2).mem = s.mem :=
  mem_of_only (State.clResidue_only s a1 a2) (by decide)
@[simp] theorem State.sramUe_mem (s a1 a2 a3 a4) : (State.sramUe s a1 a2 a3 a4).2.mem = s.mem :=
  mem_of_only (State.sramUe_only s a1 a2 a3 a4) (by decide)
@[simp] theorem State.persistent_mem (s a1 a2 a3) : (State.persistent s a1 a2 a3).mem = s.mem :=
  mem_of_only (State.persistent_only s a1 a2 a3) (by decide)
end Sys2Proof.Machine
end

