-- ==== Sys2Proof/Laws/CellsCompute.lean ====
section
/-!
SUPPORT. The operations of the matrix array and the vector engine leave the memory alone or keep its canonical form.
-/
set_option maxRecDepth 4000
namespace Sys2Proof.Machine
@[simp] theorem State.setRun_mem (s a1) : (State.setRun s a1).mem = s.mem :=
  mem_of_only (State.setRun_only s a1) (by decide)
@[simp] theorem State.dropRun_mem (s a1) : (State.dropRun s a1).mem = s.mem :=
  mem_of_only (State.dropRun_only s a1) (by decide)
@[simp] theorem State.matNf_mem (s a1 a2) : (State.matNf s a1 a2).mem = s.mem :=
  mem_of_only (State.matNf_only s a1 a2) (by decide)
@[simp] theorem State.noteLost_mem (s a1) : (State.noteLost s a1).mem = s.mem :=
  mem_of_only (State.noteLost_only s a1) (by decide)
@[simp] theorem State.matFail_mem (s a1 a2) : (State.matFail s a1 a2).mem = s.mem :=
  mem_of_only (State.matFail_only s a1 a2) (by decide)
@[simp] theorem State.startWithSnap_cells (s a1 a2) (h : twf zeroB s.mem.cells = true) :
    twf zeroB (State.startWithSnap s a1 a2).mem.cells = true := by
  unfold State.startWithSnap
  (repeat' (first | split | dsimp only)) <;> simp (maxDischargeDepth := 80) [h]
@[simp] theorem State.mmProduct_cells (s a1) (h : twf zeroB s.mem.cells = true) :
    twf zeroB (State.mmProduct s a1).mem.cells = true := by
  unfold State.mmProduct
  (repeat' (first | split | dsimp only)) <;> simp (maxDischargeDepth := 80) [h]
@[simp] theorem State.mmCombine_cells (s a1) (h : twf zeroB s.mem.cells = true) :
    twf zeroB (State.mmCombine s a1).mem.cells = true := by
  unfold State.mmCombine
  (repeat' (first | split | dsimp only)) <;> simp (maxDischargeDepth := 80) [h]
@[simp] theorem State.itemIssue_mem (s a1) : (State.itemIssue s a1).mem = s.mem :=
  mem_of_only (State.itemIssue_only s a1) (by decide)
@[simp] theorem State.clusterWake_mem (s a1) : (State.clusterWake s a1).mem = s.mem :=
  mem_of_only (State.clusterWake_only s a1) (by decide)
@[simp] theorem State.readSide_cells (s a1 a2 a3 a4 a5 a6 a7) (h : twf zeroB s.mem.cells = true) :
    twf zeroB (State.readSide s a1 a2 a3 a4 a5 a6 a7).2.mem.cells = true := by
  unfold State.readSide
  (repeat' split) <;> simp (maxDischargeDepth := 80) [h]
@[simp] theorem State.itemInit_cells (s a1 a2 a3 a4) (h : twf zeroB s.mem.cells = true) :
    twf zeroB (State.itemInit s a1 a2 a3 a4).2.mem.cells = true := by
  unfold State.itemInit
  simp (maxDischargeDepth := 80) [h]
@[simp] theorem State.productItem_cells (s a1 a2 a3 a4) (h : twf zeroB s.mem.cells = true) :
    twf zeroB (State.productItem s a1 a2 a3 a4).2.mem.cells = true := by
  unfold State.productItem
  (repeat' (first | split | dsimp only)) <;> simp (maxDischargeDepth := 80) [h]
@[simp] theorem State.readParts_cells (s a1 a2 a3 a4 a5) (h : twf zeroB s.mem.cells = true) :
    twf zeroB (State.readParts s a1 a2 a3 a4 a5).2.mem.cells = true := by
  fun_induction State.readParts <;> simp_all (maxDischargeDepth := 80) +zetaDelta
@[simp] theorem State.combineItem_cells (s a1 a2 a3 a4) (h : twf zeroB s.mem.cells = true) :
    twf zeroB (State.combineItem s a1 a2 a3 a4).2.mem.cells = true := by
  unfold State.combineItem
  simp (maxDischargeDepth := 80) [h]
@[simp] theorem State.clDone_mem (s a1) : (State.clDone s a1).mem = s.mem :=
  mem_of_only (State.clDone_only s a1) (by decide)
@[simp] theorem State.runEnd_mem (s a1) : (State.runEnd s a1).mem = s.mem :=
  mem_of_only (State.runEnd_only s a1) (by decide)
@[simp] theorem State.itemFail_mem (s a1 a2 a3) : (State.itemFail s a1 a2 a3).mem = s.mem :=
  mem_of_only (State.itemFail_only s a1 a2 a3) (by decide)
@[simp] theorem State.matReadFail_mem (s a1 a2) : (State.matReadFail s a1 a2).mem = s.mem :=
  mem_of_only (State.matReadFail_only s a1 a2) (by decide)
@[simp] theorem State.itemWaits_mem (s t a2 a3 a4) : (State.itemWaits s t a2 a3 a4).mem = t.mem :=
  mem_of_only (State.itemWaits_only s t a2 a3 a4) (by decide)
@[simp] theorem State.tileStore_cells (s a1 a2 a3 a4 a5) (h : twf zeroB s.mem.cells = true) :
    twf zeroB (State.tileStore s a1 a2 a3 a4 a5).mem.cells = true := by
  unfold State.tileStore
  simp (maxDischargeDepth := 80) [h]
@[simp] theorem State.deliver_cells (s a1 a2 a3 a4 a5 a6) (h : twf zeroB s.mem.cells = true) :
    twf zeroB (State.deliver s a1 a2 a3 a4 a5 a6).mem.cells = true := by
  unfold State.deliver
  (repeat' split) <;> simp (maxDischargeDepth := 80) [h]
@[simp] theorem State.deliverHold_cells (s a1 a2 a3 a4) (h : twf zeroB s.mem.cells = true) :
    twf zeroB (State.deliverHold s a1 a2 a3 a4).mem.cells = true := by
  unfold State.deliverHold
  simp (maxDischargeDepth := 80) [h]
@[simp] theorem State.itemResidue_cells (s a1 a2 a3 a4 a5 a6 a7) (h : twf zeroB s.mem.cells = true) :
    twf zeroB (State.itemResidue s a1 a2 a3 a4 a5 a6 a7).mem.cells = true := by
  unfold State.itemResidue
  simp (maxDischargeDepth := 80) [h]
@[simp] theorem State.itemSram_mem (s a1 a2 a3 a4) : (State.itemSram s a1 a2 a3 a4).mem = s.mem :=
  mem_of_only (State.itemSram_only s a1 a2 a3 a4) (by decide)
@[simp] theorem State.itemComplete_cells (s a1 a2) (h : twf zeroB s.mem.cells = true) :
    twf zeroB (State.itemComplete s a1 a2).mem.cells = true := by
  unfold State.itemComplete
  (repeat' (first | split | dsimp only)) <;> simp (maxDischargeDepth := 80) [h]
@[simp] theorem State.openBind_mem (s a1 a2 a3 a4 a5 a6) : (State.openBind s a1 a2 a3 a4 a5 a6).mem = s.mem :=
  mem_of_only (State.openBind_only s a1 a2 a3 a4 a5 a6) (by decide)
@[simp] theorem State.accOpen_cells (s a1) (h : twf zeroB s.mem.cells = true) :
    twf zeroB (State.accOpen s a1).mem.cells = true := by
  unfold State.accOpen
  (repeat' (first | split | dsimp only)) <;> simp (maxDischargeDepth := 80) [h]
@[simp] theorem State.flushVals_cells (s a1 a2 a3 a4) (h : twf zeroB s.mem.cells = true) :
    twf zeroB (State.flushVals s a1 a2 a3 a4).2.mem.cells = true := by
  unfold State.flushVals
  simp (maxDischargeDepth := 80) [h]
@[simp] theorem State.flushStore_cells (s a1 a2 a3 a4 a5 a6 a7) (h : twf zeroB s.mem.cells = true) :
    twf zeroB (State.flushStore s a1 a2 a3 a4 a5 a6 a7).mem.cells = true := by
  unfold State.flushStore
  simp (maxDischargeDepth := 80) [h]
@[simp] theorem State.flushResidue_cells (s a1 a2 a3 a4 a5) (h : twf zeroB s.mem.cells = true) :
    twf zeroB (State.flushResidue s a1 a2 a3 a4 a5).mem.cells = true := by
  unfold State.flushResidue
  simp (maxDischargeDepth := 80) [h]
@[simp] theorem State.accFlush_cells (s a1 a2) (h : twf zeroB s.mem.cells = true) :
    twf zeroB (State.accFlush s a1 a2).mem.cells = true := by
  unfold State.accFlush
  (repeat' (first | split | dsimp only)) <;> simp (maxDischargeDepth := 80) [h]
@[simp] theorem State.matStop_mem (s a1) : (State.matStop s a1).mem = s.mem :=
  mem_of_only (State.matStop_only s a1) (by decide)
@[simp] theorem State.matNfClr_mem (s) : (State.matNfClr s).mem = s.mem :=
  mem_of_only (State.matNfClr_only s) (by decide)
@[simp] theorem State.setQd_mem (s a1 a2) : (State.setQd s a1 a2).mem = s.mem :=
  mem_of_only (State.setQd_only s a1 a2) (by decide)
@[simp] theorem State.setVRun_mem (s a1) : (State.setVRun s a1).mem = s.mem :=
  mem_of_only (State.setVRun_only s a1) (by decide)
@[simp] theorem State.dropVRun_mem (s a1) : (State.dropVRun s a1).mem = s.mem :=
  mem_of_only (State.dropVRun_only s a1) (by decide)
@[simp] theorem State.vecNf_mem (s a1 a2) : (State.vecNf s a1 a2).mem = s.mem :=
  mem_of_only (State.vecNf_only s a1 a2) (by decide)
@[simp] theorem State.snapAll_cells (s a1 a2) (h : twf zeroB s.mem.cells = true) :
    twf zeroB (State.snapAll s a1 a2).2.mem.cells = true := by
  fun_induction State.snapAll <;> simp_all (maxDischargeDepth := 80) +zetaDelta
@[simp] theorem State.vStart_cells (s a1 a2) (h : twf zeroB s.mem.cells = true) :
    twf zeroB (State.vStart s a1 a2).mem.cells = true := by
  unfold State.vStart
  (repeat' (first | split | dsimp only)) <;> simp (maxDischargeDepth := 80) [h]
@[simp] theorem State.vIssue_mem (s a1) : (State.vIssue s a1).mem = s.mem :=
  mem_of_only (State.vIssue_only s a1) (by decide)
@[simp] theorem State.qdWake_mem (s a1) : (State.qdWake s a1).mem = s.mem :=
  mem_of_only (State.qdWake_only s a1) (by decide)
@[simp] theorem State.qdDone_mem (s a1) : (State.qdDone s a1).mem = s.mem :=
  mem_of_only (State.qdDone_only s a1) (by decide)
@[simp] theorem State.vEnd_mem (s a1) : (State.vEnd s a1).mem = s.mem :=
  mem_of_only (State.vEnd_only s a1) (by decide)
@[simp] theorem State.vFail_mem (s a1 a2 a3) : (State.vFail s a1 a2 a3).mem = s.mem :=
  mem_of_only (State.vFail_only s a1 a2 a3) (by decide)
@[simp] theorem State.vecReadFail_mem (s a1 a2) : (State.vecReadFail s a1 a2).mem = s.mem :=
  mem_of_only (State.vecReadFail_only s a1 a2) (by decide)
@[simp] theorem State.vWaiting_mem (s t a2 a3) : (State.vWaiting s t a2 a3).mem = t.mem :=
  mem_of_only (State.vWaiting_only s t a2 a3) (by decide)
@[simp] theorem State.vDone_mem (s a1 a2) : (State.vDone s a1 a2).mem = s.mem :=
  mem_of_only (State.vDone_only s a1 a2) (by decide)
@[simp] theorem State.vResidue_mem (s a1 a2 a3) : (State.vResidue s a1 a2 a3).2.mem = s.mem :=
  mem_of_only (State.vResidue_only s a1 a2 a3) (by decide)
@[simp] theorem State.vRow_cells (s a1 a2 a3 a4) (h : twf zeroB s.mem.cells = true) :
    twf zeroB (State.vRow s a1 a2 a3 a4).2.mem.cells = true := by
  unfold State.vRow
  simp (maxDischargeDepth := 80) [h]
@[simp] theorem State.vRowsOf_cells (s a1 a2 a3) (h : twf zeroB s.mem.cells = true) :
    twf zeroB (State.vRowsOf s a1 a2 a3).2.mem.cells = true := by
  fun_induction State.vRowsOf <;> simp_all (maxDischargeDepth := 80) +zetaDelta
@[simp] theorem State.vCol_cells (s a1 a2 a3) (h : twf zeroB s.mem.cells = true) :
    twf zeroB (State.vCol s a1 a2 a3).2.mem.cells = true := by
  unfold State.vCol
  simp (maxDischargeDepth := 80) [h]
@[simp] theorem State.vHold_cells (s a1 a2) (h : twf zeroB s.mem.cells = true) :
    twf zeroB (State.vHold s a1 a2).mem.cells = true := by
  unfold State.vHold
  (repeat' split) <;> simp_all (maxDischargeDepth := 80)
@[simp] theorem State.vStore_cells (s a1 a2 a3) (h : twf zeroB s.mem.cells = true) :
    twf zeroB (State.vStore s a1 a2 a3).mem.cells = true := by
  unfold State.vStore
  simp (maxDischargeDepth := 80) [h]
@[simp] theorem State.vRowEnd_cells (s a1 a2 a3 a4 a5) (h : twf zeroB s.mem.cells = true) :
    twf zeroB (State.vRowEnd s a1 a2 a3 a4 a5).mem.cells = true := by
  unfold State.vRowEnd
  (repeat' (first | split | dsimp only)) <;> simp_all (maxDischargeDepth := 80)
@[simp] theorem State.vColEnd_cells (s a1 a2 a3 a4 a5) (h : twf zeroB s.mem.cells = true) :
    twf zeroB (State.vColEnd s a1 a2 a3 a4 a5).mem.cells = true := by
  unfold State.vColEnd
  (repeat' (first | split | dsimp only)) <;> simp (maxDischargeDepth := 80) [h]
@[simp] theorem State.orUndef_mem (s a1 a2 a3) : (State.orUndef s a1 a2 a3).2.mem = s.mem :=
  mem_of_only (State.orUndef_only s a1 a2 a3) (by decide)
@[simp] theorem State.chunkCommit_cells (s a1 a2 a3 a4 a5) (h : twf zeroB s.mem.cells = true) :
    twf zeroB (State.chunkCommit s a1 a2 a3 a4 a5).mem.cells = true := by
  unfold State.chunkCommit
  simp (maxDischargeDepth := 80) [h]
@[simp] theorem State.chunkWrite_cells (s a1 a2 a3 a4 a5 a6 a7) (h : twf zeroB s.mem.cells = true) :
    twf zeroB (State.chunkWrite s a1 a2 a3 a4 a5 a6 a7).mem.cells = true := by
  unfold State.chunkWrite
  simp (maxDischargeDepth := 80) [h]
@[simp] theorem State.chunkHold_cells (s a1 a2 a3 a4) (h : twf zeroB s.mem.cells = true) :
    twf zeroB (State.chunkHold s a1 a2 a3 a4).mem.cells = true := by
  unfold State.chunkHold
  simp (maxDischargeDepth := 80) [h]
@[simp] theorem State.chunkUpdate_cells (s a1 a2 a3 a4 a5 a6) (h : twf zeroB s.mem.cells = true) :
    twf zeroB (State.chunkUpdate s a1 a2 a3 a4 a5 a6).mem.cells = true := by
  unfold State.chunkUpdate
  (repeat' (first | split | dsimp only)) <;> simp (maxDischargeDepth := 80) [h]
@[simp] theorem State.vChunkEnd_cells (s a1 a2 a3 a4 a5) (h : twf zeroB s.mem.cells = true) :
    twf zeroB (State.vChunkEnd s a1 a2 a3 a4 a5).mem.cells = true := by
  unfold State.vChunkEnd
  (repeat' (first | split | dsimp only)) <;> simp (maxDischargeDepth := 80) [h]
@[simp] theorem State.vSram_mem (s a1 a2 a3) : (State.vSram s a1 a2 a3).mem = s.mem :=
  mem_of_only (State.vSram_only s a1 a2 a3) (by decide)
@[simp] theorem State.vItemEnd_cells (s a1 a2) (h : twf zeroB s.mem.cells = true) :
    twf zeroB (State.vItemEnd s a1 a2).mem.cells = true := by
  unfold State.vItemEnd
  (repeat' split) <;> simp (maxDischargeDepth := 80) [h]
@[simp] theorem State.vecNfClr_mem (s) : (State.vecNfClr s).mem = s.mem :=
  mem_of_only (State.vecNfClr_only s) (by decide)
end Sys2Proof.Machine
end

