-- ==== Sys2Proof/Laws/CellsTiers.lean ====
section
/-!
SUPPORT. The operations of the tier manager, tides and the near-bank engine leave the memory alone or keep its canonical form.
-/
set_option maxRecDepth 4000
namespace Sys2Proof.Machine
@[simp] theorem State.copyWord_cells (a0 a1 s) (h : twf zeroB s.mem.cells = true) :
    twf zeroB (State.copyWord a0 a1 s).2.mem.cells = true := by
  unfold State.copyWord
  (repeat' (first | split | dsimp only)) <;> simp (maxDischargeDepth := 80) [h]
@[simp] theorem State.copyErrs_cells (a0 a1 s) (h : twf zeroB s.mem.cells = true) :
    twf zeroB (State.copyErrs a0 a1 s).2.mem.cells = true := by
  unfold State.copyErrs
  (repeat' split) <;> simp_all (maxDischargeDepth := 80)
@[simp] theorem State.poisonUnits_cells (a0 s) (h : twf zeroB s.mem.cells = true) :
    twf zeroB (State.poisonUnits a0 s).mem.cells = true := by
  unfold State.poisonUnits
  simp (maxDischargeDepth := 80) [h]
@[simp] theorem State.copyPage_cells (a0 s) (h : twf zeroB s.mem.cells = true) :
    twf zeroB (State.copyPage a0 s).2.mem.cells = true := by
  unfold State.copyPage
  simp (maxDischargeDepth := 80) [h]
@[simp] theorem State.arriveAt_cells (a0 a1 s) (h : twf zeroB s.mem.cells = true) :
    twf zeroB (State.arriveAt a0 a1 s).mem.cells = true := by
  unfold State.arriveAt
  simp (maxDischargeDepth := 80) [h]
@[simp] theorem State.exchange_cells (a0 a1 a2 a3 s) (h : twf zeroB s.mem.cells = true) :
    twf zeroB (State.exchange a0 a1 a2 a3 s).mem.cells = true := by
  unfold State.exchange
  (repeat' split) <;> simp (maxDischargeDepth := 80) [h]
@[simp] theorem State.swapPages_cells (a0 a1 s) (h : twf zeroB s.mem.cells = true) :
    twf zeroB (State.swapPages a0 a1 s).mem.cells = true := by
  unfold State.swapPages
  simp (maxDischargeDepth := 80) [h]
@[simp] theorem State.bringIn_cells (a0 a1 a2 s) (h : twf zeroB s.mem.cells = true) :
    twf zeroB (State.bringIn a0 a1 a2 s).2.mem.cells = true := by
  fun_induction State.bringIn <;> simp_all (maxDischargeDepth := 80)
@[simp] theorem State.takeRow_cells (s a1 a2) (h : twf zeroB s.mem.cells = true) :
    twf zeroB (State.takeRow s a1 a2).mem.cells = true := by
  unfold State.takeRow
  (repeat' split) <;> simp_all (maxDischargeDepth := 80)
@[simp] theorem State.giveRows_cells (s a1 a2 a3) (h : twf zeroB s.mem.cells = true) :
    twf zeroB (State.giveRows s a1 a2 a3).2.2.mem.cells = true := by
  fun_induction State.giveRows <;> simp_all (maxDischargeDepth := 80) +zetaDelta
@[simp] theorem State.placeRegion_cells (s a1 a2 a3 a4 a5 a6) (h : twf zeroB s.mem.cells = true) :
    twf zeroB (State.placeRegion s a1 a2 a3 a4 a5 a6).2.mem.cells = true := by
  unfold State.placeRegion
  (repeat' (first | split | dsimp only)) <;> simp (maxDischargeDepth := 80) [h]
@[simp] theorem State.enterRegion_cells (s a1 a2) (h : twf zeroB s.mem.cells = true) :
    twf zeroB (State.enterRegion s a1 a2).mem.cells = true := by
  unfold State.enterRegion
  simp (maxDischargeDepth := 80) [h]
@[simp] theorem State.regionEnd_cells (q c x r) (h : twf zeroB (Prod.snd r).mem.cells = true) : twf zeroB (State.regionEnd q c x r).mem.cells = true := by
  unfold State.regionEnd
  split <;> simp [h]
@[simp] theorem State.regionPlace_cells (s a1 a2) (h : twf zeroB s.mem.cells = true) :
    twf zeroB (State.regionPlace s a1 a2).mem.cells = true := by
  unfold State.regionPlace
  simp (maxDischargeDepth := 80) [h]
theorem regionSet_cells_step {s : State} (o : Option Cmd) (F A : Cmd → Except Fail Unit) (fl : Fail → State) (ok : Cmd → State)
    (h : twf zeroB s.mem.cells = true) (hf : ∀ f, twf zeroB (fl f).mem.cells = true) (hk : ∀ c, twf zeroB (ok c).mem.cells = true) :
    twf zeroB (match o with
      | none => s
      | some c =>
        match F c with
        | .error f => fl f
        | .ok () => match A c with
          | .error f => fl f
          | .ok () => ok c).mem.cells = true := by
  cases o with
  | none => exact h
  | some c =>
    show twf zeroB (match F c with
        | .error f => fl f
        | .ok () => match A c with
          | .error f => fl f
          | .ok () => ok c).mem.cells = true
    cases F c with
    | error f => exact hf f
    | ok u =>
      show twf zeroB (match A c with
          | .error f => fl f
          | .ok () => ok c).mem.cells = true
      cases A c with
      | error f => exact hf f
      | ok u => exact hk c
@[simp] theorem State.regionSet_cells (s a1) (h : twf zeroB s.mem.cells = true) :
    twf zeroB (State.regionSet s a1).mem.cells = true := by
  have hf : ∀ f, twf zeroB (State.failCmd s a1 f).mem.cells = true := fun f => by simp [h]
  have hk : ∀ c, twf zeroB (State.regionPlace s a1 c).mem.cells = true := fun c => by simp [h]
  unfold State.regionSet
  generalize State.running s a1 0x4010 = o
  generalize State.regionFields s a1 = F
  generalize State.regionAddrs s a1 = A
  generalize State.failCmd s a1 = fl at hf ⊢
  generalize State.regionPlace s a1 = ok at hk ⊢
  exact regionSet_cells_step o F A fl ok h hf hk
@[simp] theorem State.regionClear_cells (s a1) (h : twf zeroB s.mem.cells = true) :
    twf zeroB (State.regionClear s a1).mem.cells = true := by
  unfold State.regionClear
  (repeat' split) <;> simp (maxDischargeDepth := 80) [h]
@[simp] theorem State.regionHint_cells (s a1) (h : twf zeroB s.mem.cells = true) :
    twf zeroB (State.regionHint s a1).mem.cells = true := by
  unfold State.regionHint
  (repeat' (first | split | dsimp only)) <;> simp (maxDischargeDepth := 80) [h]
@[simp] theorem State.tollSet_cells (s a1) (h : twf zeroB s.mem.cells = true) :
    twf zeroB (State.tollSet s a1).mem.cells = true := by
  unfold State.tollSet
  (repeat' (first | split | dsimp only)) <;> simp (maxDischargeDepth := 80) [h]
@[simp] theorem State.tollClose_cells (s a1) (h : twf zeroB s.mem.cells = true) :
    twf zeroB (State.tollClose s a1).mem.cells = true := by
  unfold State.tollClose
  (repeat' split) <;> simp (maxDischargeDepth := 80) [h]
@[simp] theorem State.setProg_cells (s a1 a2) (h : twf zeroB s.mem.cells = true) :
    twf zeroB (State.setProg s a1 a2).mem.cells = true := by
  unfold State.setProg
  simp (maxDischargeDepth := 80) [h]
@[simp] theorem State.copyBlocks_cells (a0 a1 a2 a3 s) (h : twf zeroB s.mem.cells = true) :
    twf zeroB (State.copyBlocks a0 a1 a2 a3 s).mem.cells = true := by
  fun_induction State.copyBlocks <;> simp_all (maxDischargeDepth := 80) +zetaDelta
@[simp] theorem State.ttCopy_cells (s a1) (h : twf zeroB s.mem.cells = true) :
    twf zeroB (State.ttCopy s a1).mem.cells = true := by
  unfold State.ttCopy
  (repeat' split) <;> simp (maxDischargeDepth := 80) [h]
@[simp] theorem State.fillBlocks_cells (a0 a1 a2 s) (h : twf zeroB s.mem.cells = true) :
    twf zeroB (State.fillBlocks a0 a1 a2 s).mem.cells = true := by
  fun_induction State.fillBlocks <;> simp_all (maxDischargeDepth := 80)
@[simp] theorem State.ttFill_cells (s a1) (h : twf zeroB s.mem.cells = true) :
    twf zeroB (State.ttFill s a1).mem.cells = true := by
  unfold State.ttFill
  (repeat' split) <;> simp (maxDischargeDepth := 80) [h]
@[simp] theorem State.placeOne_cells (s a1 a2) (h : twf zeroB s.mem.cells = true) :
    twf zeroB (State.placeOne s a1 a2).2.mem.cells = true := by
  unfold State.placeOne
  (repeat' split) <;> simp (maxDischargeDepth := 80) [h]
@[simp] theorem State.placePages_cells (a0 a1 a2 a3 a4 s) (h : twf zeroB s.mem.cells = true) :
    twf zeroB (State.placePages a0 a1 a2 a3 a4 s).mem.cells = true := by
  fun_induction State.placePages <;> simp_all (maxDischargeDepth := 80) +zetaDelta
@[simp] theorem State.ttPlace_cells (s a1) (h : twf zeroB s.mem.cells = true) :
    twf zeroB (State.ttPlace s a1).mem.cells = true := by
  unfold State.ttPlace
  (repeat' (first | split | dsimp only)) <;> simp_all (maxDischargeDepth := 80)
@[simp] theorem State.bgStart_cells (s a1) (h : twf zeroB s.mem.cells = true) :
    twf zeroB (State.bgStart s a1).mem.cells = true := by
  unfold State.bgStart
  (repeat' split) <;> simp (maxDischargeDepth := 80) [h]
@[simp] theorem State.halve_cells (s) (h : twf zeroB s.mem.cells = true) :
    twf zeroB (State.halve s).mem.cells = true := by
  unfold State.halve
  simp (maxDischargeDepth := 80) [h]
@[simp] theorem State.setFord_cells (s a1 a2) (h : twf zeroB s.mem.cells = true) :
    twf zeroB (State.setFord s a1 a2).mem.cells = true := by
  unfold State.setFord
  simp (maxDischargeDepth := 80) [h]
@[simp] theorem State.readTable_cells (s a1 a2 a3 a4 a5 a6) (h : twf zeroB s.mem.cells = true) :
    twf zeroB (State.readTable s a1 a2 a3 a4 a5 a6).2.mem.cells = true := by
  induction a4 generalizing s a5 a6 with
  | zero => exact h
  | succ f ih =>
    unfold State.readTable
    (repeat' (first | split | dsimp only)) <;> simp [h, ih]
@[simp] theorem State.fordSet_cells (s a1) (h : twf zeroB s.mem.cells = true) :
    twf zeroB (State.fordSet s a1).mem.cells = true := by
  unfold State.fordSet
  (repeat' (first | split | dsimp only)) <;> simp (maxDischargeDepth := 80) [h]
@[simp] theorem State.fordReturn_cells (s a1) (h : twf zeroB s.mem.cells = true) :
    twf zeroB (State.fordReturn s a1).mem.cells = true := by
  unfold State.fordReturn
  (repeat' split) <;> simp (maxDischargeDepth := 80) [h]
theorem State.fordMove_cells (s f x r) (hr : State.fordMove s f x = .ok r) (h : twf zeroB s.mem.cells = true) : twf zeroB r.mem.cells = true := by
  unfold State.fordMove at hr
  split at hr
  · simp at hr
  · split at hr
    · simp at hr
    · split at hr
      · simp at hr
      · simp only [Except.ok.injEq] at hr
        subst hr
        simpa using h
@[simp] theorem State.fordRefuse_cells (s a1 a2) (h : twf zeroB s.mem.cells = true) :
    twf zeroB (State.fordRefuse s a1 a2).mem.cells = true := by
  unfold State.fordRefuse
  simp (maxDischargeDepth := 80) [h]
@[simp] theorem State.fordDone_cells (s a1) (h : twf zeroB s.mem.cells = true) :
    twf zeroB (State.fordDone s a1).mem.cells = true := by
  unfold State.fordDone
  simp (maxDischargeDepth := 80) [h]
@[simp] theorem State.fordAdvance_cells (s a1) (h : twf zeroB s.mem.cells = true) :
    twf zeroB (State.fordAdvance s a1).mem.cells = true := by
  unfold State.fordAdvance
  extract_lets t f
  have ht : twf zeroB t.mem.cells = true := by simp only [t]; simp [h]
  clear_value t
  split
  · exact ht
  · split
    · simp [ht]
    · split
      · rename_i h
        exact State.fordMove_cells _ _ _ _ h ht
      · simp [ht]
@[simp] theorem State.fordStep_cells (s a1) (h : twf zeroB s.mem.cells = true) :
    twf zeroB (State.fordStep s a1).mem.cells = true := by
  unfold State.fordStep
  (repeat' (first | split | dsimp only)) <;> simp_all (maxDischargeDepth := 80)
@[simp] theorem State.fordEnd_cells (s a1) (h : twf zeroB s.mem.cells = true) :
    twf zeroB (State.fordEnd s a1).mem.cells = true := by
  unfold State.fordEnd
  (repeat' (first | split | dsimp only)) <;> simp (maxDischargeDepth := 80) [h]
@[simp] theorem State.moveEnd_cells (s a1) (h : twf zeroB s.mem.cells = true) :
    twf zeroB (State.moveEnd s a1).mem.cells = true := by
  unfold State.moveEnd
  (repeat' split) <;> simp (maxDischargeDepth := 80) [h]
@[simp] theorem State.moveSwitch_cells (s a1) (h : twf zeroB s.mem.cells = true) :
    twf zeroB (State.moveSwitch s a1).mem.cells = true := by
  unfold State.moveSwitch
  (repeat' split) <;> simp (maxDischargeDepth := 80) [h]
@[simp] theorem State.packPage_cells (s a1 a2 a3) (h : twf zeroB s.mem.cells = true) :
    twf zeroB (State.packPage s a1 a2 a3).mem.cells = true := by
  unfold State.packPage
  generalize List.replicate 2048 (0 : Byte) = z
  dsimp only
  split <;> simp (maxDischargeDepth := 80) [h]
@[simp] theorem State.tirResidue_mem (s a1) : (State.tirResidue s a1).mem = s.mem :=
  mem_of_only (State.tirResidue_only s a1) (by decide)
@[simp] theorem State.readBlocks_cells (a0 a1 a2 a3 s) (h : twf zeroB s.mem.cells = true) :
    twf zeroB (State.readBlocks a0 a1 a2 a3 s).2.mem.cells = true := by
  fun_induction State.readBlocks <;> simp_all (maxDischargeDepth := 80) +zetaDelta
@[simp] theorem State.packRead_cells (q r x p flt g) (h : twf zeroB (Prod.snd g).mem.cells = true) : twf zeroB (State.packRead q r x p flt g).2.mem.cells = true := by
  unfold State.packRead
  repeat' split
  all_goals simp [h]
@[simp] theorem State.packOne_cells (a0 a1 a2 a3 a4 s) (h : twf zeroB s.mem.cells = true) :
    twf zeroB (State.packOne a0 a1 a2 a3 a4 s).2.mem.cells = true := by
  unfold State.packOne
  simp (maxDischargeDepth := 80) [h]
@[simp] theorem State.compressPages_cells (a0 a1 a2 a3 a4 a5 s) (h : twf zeroB s.mem.cells = true) :
    twf zeroB (State.compressPages a0 a1 a2 a3 a4 a5 s).mem.cells = true := by
  fun_induction State.compressPages <;> simp_all (maxDischargeDepth := 80) +zetaDelta
@[simp] theorem State.ttCompress_cells (s a1 a2) (h : twf zeroB s.mem.cells = true) :
    twf zeroB (State.ttCompress s a1 a2).mem.cells = true := by
  unfold State.ttCompress
  (repeat' (first | split | dsimp only)) <;> simp (maxDischargeDepth := 80) [h]
@[simp] theorem State.ttRetire_cells (s a1) (h : twf zeroB s.mem.cells = true) :
    twf zeroB (State.ttRetire s a1).mem.cells = true := by
  unfold State.ttRetire
  (repeat' (first | split | dsimp only)) <;> simp (maxDischargeDepth := 80) [h]
@[simp] theorem State.tirStop_cells (s a1) (h : twf zeroB s.mem.cells = true) :
    twf zeroB (State.tirStop s a1).mem.cells = true := by
  unfold State.tirStop
  simp (maxDischargeDepth := 80) [h]
@[simp] theorem State.writeSites_cells (a0 a1 a2 s) (h : twf zeroB s.mem.cells = true) :
    twf zeroB (State.writeSites a0 a1 a2 s).mem.cells = true := by
  fun_induction State.writeSites <;> simp_all (maxDischargeDepth := 80)
@[simp] theorem State.tideUpdate_cells (a0 a1 a2 s) (h : twf zeroB s.mem.cells = true) :
    twf zeroB (State.tideUpdate a0 a1 a2 s).mem.cells = true := by
  unfold State.tideUpdate
  simp (maxDischargeDepth := 80) [h]
@[simp] theorem State.tideEntries_cells (a0 a1 a2 a3 a4 a5 s) (h : twf zeroB s.mem.cells = true) :
    twf zeroB (State.tideEntries a0 a1 a2 a3 a4 a5 s).mem.cells = true := by
  fun_induction State.tideEntries <;> simp_all (maxDischargeDepth := 80) +zetaDelta
@[simp] theorem State.ttTide_cells (s a1 a2) (h : twf zeroB s.mem.cells = true) :
    twf zeroB (State.ttTide s a1 a2).mem.cells = true := by
  unfold State.ttTide
  (repeat' (first | split | dsimp only)) <;> simp (maxDischargeDepth := 80) [h]
@[simp] theorem State.nbSet_mem (s a1 a2 a3 a4) : (State.nbSet s a1 a2 a3 a4).mem = s.mem :=
  mem_of_only (State.nbSet_only s a1 a2 a3 a4) (by decide)
@[simp] theorem State.nbResidue_mem (s a1 a2) : (State.nbResidue s a1 a2).mem = s.mem :=
  mem_of_only (State.nbResidue_only s a1 a2) (by decide)
@[simp] theorem State.nbNf_mem (s a1 a2) : (State.nbNf s a1 a2).mem = s.mem :=
  mem_of_only (State.nbNf_only s a1 a2) (by decide)
@[simp] theorem State.nbPoisoned_mem (s a1) : (State.nbPoisoned s a1).mem = s.mem :=
  mem_of_only (State.nbPoisoned_only s a1) (by decide)
@[simp] theorem State.setNRun_mem (s a1) : (State.setNRun s a1).mem = s.mem :=
  mem_of_only (State.setNRun_only s a1) (by decide)
@[simp] theorem State.dropNRun_mem (s a1) : (State.dropNRun s a1).mem = s.mem :=
  mem_of_only (State.dropNRun_only s a1) (by decide)
@[simp] theorem State.setHold_mem (s a1 a2 a3) : (State.setHold s a1 a2 a3).mem = s.mem :=
  mem_of_only (State.setHold_only s a1 a2 a3) (by decide)
@[simp] theorem State.nbFail_mem (s a1 a2) : (State.nbFail s a1 a2).mem = s.mem :=
  mem_of_only (State.nbFail_only s a1 a2) (by decide)
@[simp] theorem State.setProgRow_mem (s a1 a2) : (State.setProgRow s a1 a2).mem = s.mem :=
  mem_of_only (State.setProgRow_only s a1 a2) (by decide)
@[simp] theorem State.setProgStep_mem (s a1 a2) : (State.setProgStep s a1 a2).mem = s.mem :=
  mem_of_only (State.setProgStep_only s a1 a2) (by decide)
@[simp] theorem State.startProg_mem (s a1 a2 a3) : (State.startProg s a1 a2 a3).mem = s.mem :=
  mem_of_only (State.startProg_only s a1 a2 a3) (by decide)
@[simp] theorem State.nbWord_cells (s a1 a2 a3) (h : twf zeroB s.mem.cells = true) :
    twf zeroB (State.nbWord s a1 a2 a3).2.mem.cells = true := by
  unfold State.nbWord
  (repeat' (first | split | dsimp only)) <;> simp (maxDischargeDepth := 80) [h]
@[simp] theorem State.nbWords_cells (s a1 a2 a3 a4) (h : twf zeroB s.mem.cells = true) :
    twf zeroB (State.nbWords s a1 a2 a3 a4).2.mem.cells = true := by
  fun_induction State.nbWords <;> simp_all (maxDischargeDepth := 80) +zetaDelta
@[simp] theorem State.nbProgram_cells (s a1 a2 a3 a4 a5 a6 a7) (h : twf zeroB s.mem.cells = true) :
    twf zeroB (State.nbProgram s a1 a2 a3 a4 a5 a6 a7).2.mem.cells = true := by
  induction a6 generalizing s a7 with
  | nil => simpa [State.nbProgram] using h
  | cons w ws ih =>
    have hl : ∀ (a : Nat) (k : Option (List Byte)) (f : List Byte → RowRun) (g : Byte → RowRun × RowEnd),
        twf zeroB (match k with
          | some v => s.nbProgram a1 a2 a3 a4 a5 ws (f v)
          | none => match (s.nbWord a1 a2 a).1 with
            | .bytes bs => (s.nbWord a1 a2 a).2.nbProgram a1 a2 a3 a4 a5 ws (f bs)
            | .fault e => (g e, (s.nbWord a1 a2 a).2)).2.mem.cells = true := by
      intro a k f g
      split
      · exact ih _ _ h
      · split
        · exact ih _ _ (State.nbWord_cells _ _ _ _ h)
        · exact State.nbWord_cells _ _ _ _ h
    unfold State.nbProgram
    dsimp only
    split
    · exact ih _ _ h
    · exact hl _ _ _ _
    · exact hl _ _ _ _
    · exact ih _ _ h
    · exact ih _ _ h
    · exact ih _ _ h
@[simp] theorem State.poisonRow_cells (s a1 a2) (h : twf zeroB s.mem.cells = true) :
    twf zeroB (State.poisonRow s a1 a2).mem.cells = true := by
  unfold State.poisonRow
  simp (maxDischargeDepth := 80) [h]
@[simp] theorem State.ferryRow_cells (s a1 a2 a3 a4 a5) (h : twf zeroB s.mem.cells = true) :
    twf zeroB (State.ferryRow s a1 a2 a3 a4 a5).2.2.mem.cells = true := by
  unfold State.ferryRow
  dsimp only
  split
  · split <;> split <;> simp (maxDischargeDepth := 80) [h]
  · simp only [State.nbNf_mem]
    exact foldl_cells (fun t w ht => by simp [ht]) _ _ (by simp [h])
@[simp] theorem State.optApply_cells (s a1 a2 a3 a4 a5 a6) (h : twf zeroB s.mem.cells = true) :
    twf zeroB (State.optApply s a1 a2 a3 a4 a5 a6).2.2.mem.cells = true := by
  unfold State.optApply
  (repeat' (first | split | dsimp only)) <;> simp (maxDischargeDepth := 80) [h]
@[simp] theorem State.optUpdate_cells (s a1 a2 a3 a4 a5 a6) (h : twf zeroB s.mem.cells = true) :
    twf zeroB (State.optUpdate s a1 a2 a3 a4 a5 a6).2.2.mem.cells = true := by
  unfold State.optUpdate
  (repeat' (first | split | dsimp only)) <;> simp (maxDischargeDepth := 80) [h]
@[simp] theorem State.optimizeRow_cells (s a1 a2 a3 a4 a5) (h : twf zeroB s.mem.cells = true) :
    twf zeroB (State.optimizeRow s a1 a2 a3 a4 a5).2.2.mem.cells = true := by
  unfold State.optimizeRow
  dsimp only
  (repeat' split) <;> simp (maxDischargeDepth := 80) [h]
@[simp] theorem State.attendRow_cells (s a1 a2 a3 a4 a5) (h : twf zeroB s.mem.cells = true) :
    twf zeroB (State.attendRow s a1 a2 a3 a4 a5).2.2.mem.cells = true := by
  unfold State.attendRow
  dsimp only
  (repeat' split) <;> simp (maxDischargeDepth := 80) [h]
@[simp] theorem State.ferryStart_cells (s a1 a2) (h : twf zeroB s.mem.cells = true) :
    twf zeroB (State.ferryStart s a1 a2).mem.cells = true := by
  unfold State.ferryStart
  (repeat' (first | split | dsimp only)) <;> simp (maxDischargeDepth := 80) [h]
@[simp] theorem State.optStart_cells (s a1 a2) (h : twf zeroB s.mem.cells = true) :
    twf zeroB (State.optStart s a1 a2).mem.cells = true := by
  unfold State.optStart
  (repeat' (first | split | dsimp only)) <;> simp (maxDischargeDepth := 80) [h]
@[simp] theorem State.attLoad_cells (s a1 a2 a3) (h : twf zeroB s.mem.cells = true) :
    twf zeroB (State.attLoad s a1 a2 a3).mem.cells = true := by
  unfold State.attLoad
  (repeat' (first | split | dsimp only)) <;> simp (maxDischargeDepth := 80) [h]
@[simp] theorem State.nbLeave_mem (s) : (State.nbLeave s).mem = s.mem :=
  mem_of_only (State.nbLeave_only s) (by decide)
@[simp] theorem State.nbEnd_mem (s a1 a2 a3) : (State.nbEnd s a1 a2 a3).mem = s.mem :=
  mem_of_only (State.nbEnd_only s a1 a2 a3) (by decide)
@[simp] theorem State.nbEndFail_mem (s a1 a2 a3) : (State.nbEndFail s a1 a2 a3).mem = s.mem :=
  mem_of_only (State.nbEndFail_only s a1 a2 a3) (by decide)
@[simp] theorem State.ferryOut_cells (s a1 a2 a3) (h : twf zeroB s.mem.cells = true) :
    twf zeroB (State.ferryOut s a1 a2 a3).mem.cells = true := by
  unfold State.ferryOut
  (repeat' split) <;> simp_all (maxDischargeDepth := 80)
@[simp] theorem State.attNext_cells (s a1 a2 a3) (h : twf zeroB s.mem.cells = true) :
    twf zeroB (State.attNext s a1 a2 a3).mem.cells = true := by
  unfold State.attNext
  simp (maxDischargeDepth := 80) [h]
@[simp] theorem State.nbAdvance_cells (s a1) (h : twf zeroB s.mem.cells = true) :
    twf zeroB (State.nbAdvance s a1).mem.cells = true := by
  unfold State.nbAdvance
  (repeat' split) <;> simp_all (maxDischargeDepth := 80)
@[simp] theorem State.nbFerry_cells (s a1) (h : twf zeroB s.mem.cells = true) :
    twf zeroB (State.nbFerry s a1).mem.cells = true := by
  unfold State.nbFerry
  (repeat' split) <;> simp (maxDischargeDepth := 80) [h]
@[simp] theorem State.nbOptimize_cells (s a1) (h : twf zeroB s.mem.cells = true) :
    twf zeroB (State.nbOptimize s a1).mem.cells = true := by
  unfold State.nbOptimize
  (repeat' split) <;> simp (maxDischargeDepth := 80) [h]
@[simp] theorem State.nbAttend_cells (s a1) (h : twf zeroB s.mem.cells = true) :
    twf zeroB (State.nbAttend s a1).mem.cells = true := by
  unfold State.nbAttend
  (repeat' split) <;> simp (maxDischargeDepth := 80) [h]
@[simp] theorem State.rowDone_mem (s a1 a2) : (State.rowDone s a1 a2).mem = s.mem :=
  mem_of_only (State.rowDone_only s a1 a2) (by decide)
@[simp] theorem State.setCapHeld_mem (s a1 a2) : (State.setCapHeld s a1 a2).mem = s.mem :=
  mem_of_only (State.setCapHeld_only s a1 a2) (by decide)
@[simp] theorem State.addCols_mem (s a1 a2) : (State.addCols s a1 a2).mem = s.mem :=
  mem_of_only (State.addCols_only s a1 a2) (by decide)
@[simp] theorem State.rowStart_cells (s a1 a2 a3 a4) (h : twf zeroB s.mem.cells = true) :
    twf zeroB (State.rowStart s a1 a2 a3 a4).mem.cells = true := by
  unfold State.rowStart
  (repeat' split) <;> simp (maxDischargeDepth := 80) [h]
@[simp] theorem State.rowIssue_cells (s a1) (h : twf zeroB s.mem.cells = true) :
    twf zeroB (State.rowIssue s a1).mem.cells = true := by
  unfold State.rowIssue
  (repeat' split) <;> simp (maxDischargeDepth := 80) [h]
@[simp] theorem State.rowEnd_cells (s a1 a2) (h : twf zeroB s.mem.cells = true) :
    twf zeroB (State.rowEnd s a1 a2).mem.cells = true := by
  unfold State.rowEnd
  split
  · exact h
  · split
    · dsimp only
      split <;> split <;> simp (maxDischargeDepth := 80) [h]
    · exact h
@[simp] theorem State.repairWord_cells (q pg) (x : Nat × State) (w) (h : twf zeroB x.2.mem.cells = true) : twf zeroB (State.repairWord q pg x w).2.mem.cells = true := by
  unfold State.repairWord
  dsimp only
  split <;> simp [h]
@[simp] theorem State.repairBank_cells (s a1 a2 a3) (h : twf zeroB s.mem.cells = true) :
    twf zeroB (State.repairBank s a1 a2 a3).2.mem.cells = true := by
  unfold State.repairBank
  (repeat' split) <;> simp_all (maxDischargeDepth := 80)
@[simp] theorem State.repairNext_cells (s a1 a2) (h : twf zeroB s.mem.cells = true) :
    twf zeroB (State.repairNext s a1 a2).mem.cells = true := by
  unfold State.repairNext
  simp (maxDischargeDepth := 80) [h]
@[simp] theorem State.nbRepair_cells (s a1) (h : twf zeroB s.mem.cells = true) :
    twf zeroB (State.nbRepair s a1).mem.cells = true := by
  unfold State.nbRepair
  (repeat' split) <;> simp (maxDischargeDepth := 80) [h]
@[simp] theorem State.arriveWord_cells (s a1) (h : twf zeroB s.mem.cells = true) :
    twf zeroB (State.arriveWord s a1).mem.cells = true := by
  unfold State.arriveWord
  (repeat' (first | split | dsimp only)) <;> simp (maxDischargeDepth := 80) [h]
@[simp] theorem State.repairSwitch_cells (s a1) (h : twf zeroB s.mem.cells = true) :
    twf zeroB (State.repairSwitch s a1).mem.cells = true := by
  unfold State.repairSwitch
  (repeat' split) <;> simp_all (maxDischargeDepth := 80)
@[simp] theorem State.repairLet_mem (s a1) : (State.repairLet s a1).mem = s.mem :=
  mem_of_only (State.repairLet_only s a1) (by decide)
@[simp] theorem State.nbStop_mem (s a1) : (State.nbStop s a1).mem = s.mem :=
  mem_of_only (State.nbStop_only s a1) (by decide)
@[simp] theorem State.nbuNfClr_mem (s) : (State.nbuNfClr s).mem = s.mem :=
  mem_of_only (State.nbuNfClr_only s) (by decide)
end Sys2Proof.Machine
end

