-- ==== Sys2Proof/Laws/CellsExchange.lean ====
section
/-!
SUPPORT. The operations of the exchange and intake engines leave the memory alone or keep its canonical form.
-/
set_option maxRecDepth 4000
namespace Sys2Proof.Machine
@[simp] theorem State.setXRun_mem (s a1) : (State.setXRun s a1).mem = s.mem :=
  mem_of_only (State.setXRun_only s a1) (by decide)
@[simp] theorem State.dropXRun_mem (s a1) : (State.dropXRun s a1).mem = s.mem :=
  mem_of_only (State.dropXRun_only s a1) (by decide)
@[simp] theorem State.xNf_mem (s a1) : (State.xNf s a1).mem = s.mem :=
  mem_of_only (State.xNf_only s a1) (by decide)
@[simp] theorem State.xSend_mem (s a1 a2 a3 a4 a5 a6) : (State.xSend s a1 a2 a3 a4 a5 a6).mem = s.mem :=
  mem_of_only (State.xSend_only s a1 a2 a3 a4 a5 a6) (by decide)
@[simp] theorem State.xSendAll_mem (s a1 a2 a3 a4 a5) : (State.xSendAll s a1 a2 a3 a4 a5).mem = s.mem :=
  mem_of_only (State.xSendAll_only s a1 a2 a3 a4 a5) (by decide)
@[simp] theorem State.xBreak_mem (s a1 a2 a3) : (State.xBreak s a1 a2 a3).mem = s.mem :=
  mem_of_only (State.xBreak_only s a1 a2 a3) (by decide)
@[simp] theorem State.xAbort_mem (s a1 a2 a3) : (State.xAbort s a1 a2 a3).mem = s.mem :=
  mem_of_only (State.xAbort_only s a1 a2 a3) (by decide)
@[simp] theorem State.xFail_mem (s a1 a2 a3 a4) : (State.xFail s a1 a2 a3 a4).mem = s.mem :=
  mem_of_only (State.xFail_only s a1 a2 a3 a4) (by decide)
@[simp] theorem State.xAborted_mem (s a1 a2 a3) : (State.xAborted s a1 a2 a3).mem = s.mem :=
  mem_of_only (State.xAborted_only s a1 a2 a3) (by decide)
@[simp] theorem State.xResidue_mem (s a1 a2) : (State.xResidue s a1 a2).mem = s.mem :=
  mem_of_only (State.xResidue_only s a1 a2) (by decide)
@[simp] theorem State.xStop_mem (s a1) : (State.xStop s a1).mem = s.mem :=
  mem_of_only (State.xStop_only s a1) (by decide)
@[simp] theorem State.xRead_cells (s a1 a2 a3 a4 a5) (h : twf zeroB s.mem.cells = true) :
    twf zeroB (State.xRead s a1 a2 a3 a4 a5).2.mem.cells = true := by
  unfold State.xRead
  (repeat' (first | split | dsimp only)) <;> simp (maxDischargeDepth := 80) [h]
@[simp] theorem State.xWrite_cells (s a1 a2 a3 a4 a5 a6) (h : twf zeroB s.mem.cells = true) :
    twf zeroB (State.xWrite s a1 a2 a3 a4 a5 a6).2.mem.cells = true := by
  unfold State.xWrite
  (repeat' split) <;> simp (maxDischargeDepth := 80) [h]
@[simp] theorem State.xPut_cells (s a1 a2 a3 a4 a5) (h : twf zeroB s.mem.cells = true) :
    twf zeroB (State.xPut s a1 a2 a3 a4 a5).2.mem.cells = true := by
  unfold State.xPut
  simp (maxDischargeDepth := 80) [h]
@[simp] theorem State.xContrib_cells (s a1 a2 a3) (h : twf zeroB s.mem.cells = true) :
    twf zeroB (State.xContrib s a1 a2 a3).2.mem.cells = true := by
  unfold State.xContrib
  (repeat' (first | split | dsimp only)) <;> simp (maxDischargeDepth := 80) [h]
@[simp] theorem State.xStore_cells (s a1 a2 a3 a4) (h : twf zeroB s.mem.cells = true) :
    twf zeroB (State.xStore s a1 a2 a3 a4).2.mem.cells = true := by
  unfold State.xStore
  (repeat' split) <;> simp (maxDischargeDepth := 80) [h]
@[simp] theorem State.xSource_cells (s a1 a2) (h : twf zeroB s.mem.cells = true) :
    twf zeroB (State.xSource s a1 a2).2.mem.cells = true := by
  unfold State.xSource
  (repeat' (first | split | dsimp only)) <;> simp (maxDischargeDepth := 80) [h]
@[simp] theorem State.xEntry_cells (s a1) (h : twf zeroB s.mem.cells = true) :
    twf zeroB (State.xEntry s a1).mem.cells = true := by
  unfold State.xEntry
  simp (maxDischargeDepth := 80) [h]
@[simp] theorem State.xAdd_mem (s a1 a2 a3) : (State.xAdd s a1 a2 a3).mem = s.mem :=
  mem_of_only (State.xAdd_only s a1 a2 a3) (by decide)
@[simp] theorem State.xOwner_cells (s a1 a2 a3) (h : twf zeroB s.mem.cells = true) :
    twf zeroB (State.xOwner s a1 a2 a3).mem.cells = true := by
  unfold State.xOwner
  (repeat' (first | split | dsimp only)) <;> simp (maxDischargeDepth := 80) [h]
@[simp] theorem State.xGive_cells (s a1 a2 a3) (h : twf zeroB s.mem.cells = true) :
    twf zeroB (State.xGive s a1 a2 a3).mem.cells = true := by
  unfold State.xGive
  (repeat' (first | split | dsimp only)) <;> simp (maxDischargeDepth := 80) [h]
@[simp] theorem State.xSpread_cells (s a1 a2) (h : twf zeroB s.mem.cells = true) :
    twf zeroB (State.xSpread s a1 a2).mem.cells = true := by
  unfold State.xSpread
  (repeat' (first | split | dsimp only)) <;> simp (maxDischargeDepth := 80) [h]
@[simp] theorem State.xStats_mem (s a1 a2) : (State.xStats s a1 a2).mem = s.mem :=
  mem_of_only (State.xStats_only s a1 a2) (by decide)
@[simp] theorem State.xFinish_cells (s a1) (h : twf zeroB s.mem.cells = true) :
    twf zeroB (State.xFinish s a1).mem.cells = true := by
  unfold State.xFinish
  simp (maxDischargeDepth := 80) [h]
@[simp] theorem State.xMore_cells (s a1 a2 a3) (h : twf zeroB s.mem.cells = true) :
    twf zeroB (State.xMore s a1 a2 a3).mem.cells = true := by
  unfold State.xMore
  (repeat' split) <;> simp (maxDischargeDepth := 80) [h]
@[simp] theorem State.xStep_cells (s a1 a2) (h : twf zeroB s.mem.cells = true) :
    twf zeroB (State.xStep s a1 a2).mem.cells = true := by
  unfold State.xStep
  (repeat' split) <;> simp (maxDischargeDepth := 80) [h]
@[simp] theorem State.xTake_mem (s a1 a2) : (State.xTake s a1 a2).mem = s.mem :=
  mem_of_only (State.xTake_only s a1 a2) (by decide)
@[simp] theorem State.dropHeld_mem (s a1) : (State.dropHeld s a1).mem = s.mem :=
  mem_of_only (State.dropHeld_only s a1) (by decide)
@[simp] theorem State.takeHeld_mem (s a1) : (State.takeHeld s a1).mem = s.mem :=
  mem_of_only (State.takeHeld_only s a1) (by decide)
@[simp] theorem State.xDispatch_mem (s a1 a2) : (State.xDispatch s a1 a2).mem = s.mem :=
  mem_of_only (State.xDispatch_only s a1 a2) (by decide)
@[simp] theorem State.xStart_mem (s a1 a2 a3) : (State.xStart s a1 a2 a3).mem = s.mem :=
  mem_of_only (State.xStart_only s a1 a2 a3) (by decide)
@[simp] theorem State.collective_cells (s a1 a2 a3) (h : twf zeroB s.mem.cells = true) :
    twf zeroB (State.collective s a1 a2 a3).mem.cells = true := by
  unfold State.collective
  (repeat' split) <;> simp (maxDischargeDepth := 80) [h]
@[simp] theorem State.rankSet_cells (s a1) (h : twf zeroB s.mem.cells = true) :
    twf zeroB (State.rankSet s a1).mem.cells = true := by
  unfold State.rankSet
  (repeat' (first | split | dsimp only)) <;> simp (maxDischargeDepth := 80) [h]
@[simp] theorem State.peerTimeout_mem (s a1) : (State.peerTimeout s a1).mem = s.mem :=
  mem_of_only (State.peerTimeout_only s a1) (by decide)
@[simp] theorem State.xchNfClr_mem (s) : (State.xchNfClr s).mem = s.mem :=
  mem_of_only (State.xchNfClr_only s) (by decide)
@[simp] theorem State.blockWrite_cells (s a1 a2 a3) (h : twf zeroB s.mem.cells = true) :
    twf zeroB (State.blockWrite s a1 a2 a3).mem.cells = true := by
  unfold State.blockWrite
  (repeat' split) <;> simp_all (maxDischargeDepth := 80)
@[simp] theorem State.blockHold_cells (s a1 a2 a3) (h : twf zeroB s.mem.cells = true) :
    twf zeroB (State.blockHold s a1 a2 a3).mem.cells = true := by
  unfold State.blockHold
  (repeat' split) <;> simp_all (maxDischargeDepth := 80)
@[simp] theorem State.blockRead_cells (a0 a1 a2 a3 s) (h : twf zeroB s.mem.cells = true) :
    twf zeroB (State.blockRead a0 a1 a2 a3 s).2.mem.cells = true := by
  fun_induction State.blockRead <;> simp_all (maxDischargeDepth := 80) +zetaDelta
@[simp] theorem State.setBatch_mem (s a1) : (State.setBatch s a1).mem = s.mem :=
  mem_of_only (State.setBatch_only s a1) (by decide)
@[simp] theorem State.setSample_mem (s a1 a2) : (State.setSample s a1 a2).mem = s.mem :=
  mem_of_only (State.setSample_only s a1 a2) (by decide)
@[simp] theorem State.dropBatch_mem (s a1) : (State.dropBatch s a1).mem = s.mem :=
  mem_of_only (State.dropBatch_only s a1) (by decide)
@[simp] theorem State.itkFail_mem (s a1 a2) : (State.itkFail s a1 a2).mem = s.mem :=
  mem_of_only (State.itkFail_only s a1 a2) (by decide)
@[simp] theorem State.itkStop_mem (s a1) : (State.itkStop s a1).mem = s.mem :=
  mem_of_only (State.itkStop_only s a1) (by decide)
@[simp] theorem State.itkWake_mem (s) : (State.itkWake s).mem = s.mem :=
  mem_of_only (State.itkWake_only s) (by decide)
@[simp] theorem State.ikRecs_cells (a0 a1 a2 a3 s) (h : twf zeroB s.mem.cells = true) :
    twf zeroB (State.ikRecs a0 a1 a2 a3 s).2.mem.cells = true := by
  fun_induction State.ikRecs <;> simp_all (maxDischargeDepth := 80) +zetaDelta
@[simp] theorem State.ikSchema_cells (s a1 a2 a3) (h : twf zeroB s.mem.cells = true) :
    twf zeroB (State.ikSchema s a1 a2 a3).2.mem.cells = true := by
  unfold State.ikSchema
  (repeat' (first | split | dsimp only)) <;> simp (maxDischargeDepth := 80) [h]
@[simp] theorem State.ikEnter_mem (s a1 a2 a3 a4 a5) : (State.ikEnter s a1 a2 a3 a4 a5).mem = s.mem :=
  mem_of_only (State.ikEnter_only s a1 a2 a3 a4 a5) (by decide)
@[simp] theorem State.ikStart_cells (s a1 a2) (h : twf zeroB s.mem.cells = true) :
    twf zeroB (State.ikStart s a1 a2).mem.cells = true := by
  unfold State.ikStart
  (repeat' (first | split | dsimp only)) <;> simp (maxDischargeDepth := 80) [h]
@[simp] theorem State.itkNf_mem (s a1) : (State.itkNf s a1).mem = s.mem :=
  mem_of_only (State.itkNf_only s a1) (by decide)
@[simp] theorem State.slotHold_cells (s a1 a2) (h : twf zeroB s.mem.cells = true) :
    twf zeroB (State.slotHold s a1 a2).mem.cells = true := by
  unfold State.slotHold
  (repeat' split) <;> simp (maxDischargeDepth := 80) [h]
@[simp] theorem State.slotRows_cells (s a1 a2 a3) (h : twf zeroB s.mem.cells = true) :
    twf zeroB (State.slotRows s a1 a2 a3).mem.cells = true := by
  unfold State.slotRows
  simp (maxDischargeDepth := 80) [h]
@[simp] theorem State.slotPad_cells (s a1 a2) (h : twf zeroB s.mem.cells = true) :
    twf zeroB (State.slotPad s a1 a2).mem.cells = true := by
  unfold State.slotPad
  (repeat' split) <;> simp (maxDischargeDepth := 80) [h]
@[simp] theorem State.slotCount_mem (s a1) : (State.slotCount s a1).mem = s.mem :=
  mem_of_only (State.slotCount_only s a1) (by decide)
@[simp] theorem State.slotDone_mem (s a1 a2 a3 a4 a5 a6) : (State.slotDone s a1 a2 a3 a4 a5 a6).mem = s.mem :=
  mem_of_only (State.slotDone_only s a1 a2 a3 a4 a5 a6) (by decide)
@[simp] theorem State.padHead_cells (s a1 a2 a3 a4 a5) (h : twf zeroB s.mem.cells = true) :
    twf zeroB (State.padHead s a1 a2 a3 a4 a5).mem.cells = true := by
  unfold State.padHead
  simp (maxDischargeDepth := 80) [h]
@[simp] theorem State.ikManifest_cells (s a1 a2) (h : twf zeroB s.mem.cells = true) :
    twf zeroB (State.ikManifest s a1 a2).mem.cells = true := by
  unfold State.ikManifest
  simp (maxDischargeDepth := 80) [h]
@[simp] theorem State.ikFinish_cells (s a1 a2) (h : twf zeroB s.mem.cells = true) :
    twf zeroB (State.ikFinish s a1 a2).mem.cells = true := by
  unfold State.ikFinish
  (repeat' split) <;> simp_all (maxDischargeDepth := 80)
@[simp] theorem State.ikBatch_cells (s a1) (h : twf zeroB s.mem.cells = true) :
    twf zeroB (State.ikBatch s a1).mem.cells = true := by
  unfold State.ikBatch
  (repeat' split) <;> simp (maxDischargeDepth := 80) [h]
@[simp] theorem State.vocabFail_mem (s a1 a2) : (State.vocabFail s a1 a2).mem = s.mem :=
  mem_of_only (State.vocabFail_only s a1 a2) (by decide)
@[simp] theorem State.vocabLoad_cells (s a1) (h : twf zeroB s.mem.cells = true) :
    twf zeroB (State.vocabLoad s a1).mem.cells = true := by
  unfold State.vocabLoad
  (repeat' (first | split | dsimp only)) <;> simp (maxDischargeDepth := 80) [h]
@[simp] theorem State.cacheEmpty_mem (s) : (State.cacheEmpty s).mem = s.mem :=
  mem_of_only (State.cacheEmpty_only s) (by decide)
@[simp] theorem State.cacheFlush_mem (s a1) : (State.cacheFlush s a1).mem = s.mem :=
  mem_of_only (State.cacheFlush_only s a1) (by decide)
@[simp] theorem State.cacheSync_mem (s a1) : (State.cacheSync s a1).mem = s.mem :=
  mem_of_only (State.cacheSync_only s a1) (by decide)
@[simp] theorem State.cachePut_cells (s a1 a2 a3 a4) (h : twf zeroB s.mem.cells = true) :
    twf zeroB (State.cachePut s a1 a2 a3 a4).mem.cells = true := by
  unfold State.cachePut
  (repeat' (first | split | dsimp only)) <;> simp (maxDischargeDepth := 80) [h]
@[simp] theorem State.decodeStart_mem (s a1) : (State.decodeStart s a1).mem = s.mem :=
  mem_of_only (State.decodeStart_only s a1) (by decide)
@[simp] theorem State.endDecode_mem (s a1 a2 a3) : (State.endDecode s a1 a2 a3).mem = s.mem :=
  mem_of_only (State.endDecode_only s a1 a2 a3) (by decide)
@[simp] theorem State.grant_mem (s a1 a2 a3 a4 a5 a6 a7 a8) : (State.grant s a1 a2 a3 a4 a5 a6 a7 a8).mem = s.mem :=
  mem_of_only (State.grant_only s a1 a2 a3 a4 a5 a6 a7 a8) (by decide)
@[simp] theorem State.reserveFresh_cells (s a1 a2 a3) (h : twf zeroB s.mem.cells = true) :
    twf zeroB (State.reserveFresh s a1 a2 a3).mem.cells = true := by
  unfold State.reserveFresh
  (repeat' (first | split | dsimp only)) <;> simp (maxDischargeDepth := 80) [h]
@[simp] theorem State.reserveHit_cells (s a1 a2 a3 a4 a5) (h : twf zeroB s.mem.cells = true) :
    twf zeroB (State.reserveHit s a1 a2 a3 a4 a5).mem.cells = true := by
  unfold State.reserveHit
  (repeat' (first | split | dsimp only)) <;> simp (maxDischargeDepth := 80) [h]
@[simp] theorem State.stagingReserve_cells (s a1) (h : twf zeroB s.mem.cells = true) :
    twf zeroB (State.stagingReserve s a1).mem.cells = true := by
  unfold State.stagingReserve
  (repeat' (first | split | dsimp only)) <;> simp (maxDischargeDepth := 80) [h]
@[simp] theorem State.decodeEnd_cells (s a1) (h : twf zeroB s.mem.cells = true) :
    twf zeroB (State.decodeEnd s a1).mem.cells = true := by
  unfold State.decodeEnd
  (repeat' (first | split | dsimp only)) <;> simp (maxDischargeDepth := 80) [h]
@[simp] theorem State.roiTry_cells (s a1 a2) (h : twf zeroB s.mem.cells = true) :
    twf zeroB (State.roiTry s a1 a2).mem.cells = true := by
  unfold State.roiTry
  (repeat' (first | split | dsimp only)) <;> simp (maxDischargeDepth := 80) [h]
@[simp] theorem State.roiPoll_cells (s) (h : twf zeroB s.mem.cells = true) :
    twf zeroB (State.roiPoll s).mem.cells = true := by
  unfold State.roiPoll
  (repeat' split) <;> simp (maxDischargeDepth := 80) [h]
@[simp] theorem State.itkResidue_mem (s a1) : (State.itkResidue s a1).mem = s.mem :=
  mem_of_only (State.itkResidue_only s a1) (by decide)
@[simp] theorem State.writeHead_cells (s a1 a2 a3 a4 a5 a6 a7 a8 a9 a10) (h : twf zeroB s.mem.cells = true) :
    twf zeroB (State.writeHead s a1 a2 a3 a4 a5 a6 a7 a8 a9 a10).mem.cells = true := by
  unfold State.writeHead
  (repeat' (first | split | dsimp only)) <;> simp (maxDischargeDepth := 80) [h]
@[simp] theorem State.transformSample_cells (s a1) (h : twf zeroB s.mem.cells = true) :
    twf zeroB (State.transformSample s a1).mem.cells = true := by
  unfold State.transformSample
  (repeat' split) <;> simp (maxDischargeDepth := 80) [h]
@[simp] theorem State.itkNfClr_mem (s) : (State.itkNfClr s).mem = s.mem :=
  mem_of_only (State.itkNfClr_only s) (by decide)
@[simp] theorem State.itkPeakClr_mem (s) : (State.itkPeakClr s).mem = s.mem :=
  mem_of_only (State.itkPeakClr_only s) (by decide)
end Sys2Proof.Machine
end

