-- ==== Sys2Proof/Laws/CellsFront.lean ====
section
/-!
SUPPORT. The operations of the front end, the dispatcher and the fabric leave the memory alone or keep its canonical form.
-/
set_option maxRecDepth 4000
namespace Sys2Proof.Machine
@[simp] theorem State.endStopped_mem (s a1 a2) : (State.endStopped s a1 a2).mem = s.mem :=
  mem_of_only (State.endStopped_only s a1 a2) (by decide)
@[simp] theorem State.matLeave_mem (s) : (State.matLeave s).mem = s.mem :=
  mem_of_only (State.matLeave_only s) (by decide)
@[simp] theorem State.engineDone_cells (s a1 a2 a3) (h : twf zeroB s.mem.cells = true) :
    twf zeroB (State.engineDone s a1 a2 a3).mem.cells = true := by
  unfold State.engineDone
  (repeat' split) <;> simp (maxDischargeDepth := 80) [h]
@[simp] theorem State.nbHalt_mem (s a1) : (State.nbHalt s a1).mem = s.mem :=
  mem_of_only (State.nbHalt_only s a1) (by decide)
@[simp] theorem State.engineStop_cells (s a1) (h : twf zeroB s.mem.cells = true) :
    twf zeroB (State.engineStop s a1).mem.cells = true := by
  unfold State.engineStop
  (repeat' split) <;> simp (maxDischargeDepth := 80) [h]
@[simp] theorem State.engineReadFail_cells (s a1 a2) (h : twf zeroB s.mem.cells = true) :
    twf zeroB (State.engineReadFail s a1 a2).mem.cells = true := by
  unfold State.engineReadFail
  (repeat' split) <;> simp (maxDischargeDepth := 80) [h]
@[simp] theorem State.makeCurrent_mem (s a1 a2 a3 a4 a5) : (State.makeCurrent s a1 a2 a3 a4 a5).mem = s.mem :=
  mem_of_only (State.makeCurrent_only s a1 a2 a3 a4 a5) (by decide)
@[simp] theorem State.endList_mem (s a1) : (State.endList s a1).mem = s.mem :=
  mem_of_only (State.endList_only s a1) (by decide)
@[simp] theorem State.fetchParams_cells (s a1 a2 a3) (h : twf zeroB s.mem.cells = true) :
    twf zeroB (State.fetchParams s a1 a2 a3).mem.cells = true := by
  unfold State.fetchParams
  (repeat' (first | split | dsimp only)) <;> simp (maxDischargeDepth := 80) [h]
@[simp] theorem State.fetchNext_cells (s a1) (h : twf zeroB s.mem.cells = true) :
    twf zeroB (State.fetchNext s a1).mem.cells = true := by
  unfold State.fetchNext
  (repeat' (first | split | dsimp only)) <;> simp (maxDischargeDepth := 80) [h]
@[simp] theorem State.takeEntry_cells (s a1 a2) (h : twf zeroB s.mem.cells = true) :
    twf zeroB (State.takeEntry s a1 a2).mem.cells = true := by
  unfold State.takeEntry
  (repeat' (first | split | dsimp only)) <;> simp (maxDischargeDepth := 80) [h]
@[simp] theorem State.overrun_cells (s a1 a2) (h : twf zeroB s.mem.cells = true) :
    twf zeroB (State.overrun s a1 a2).mem.cells = true := by
  unfold State.overrun
  simp (maxDischargeDepth := 80) [h]
@[simp] theorem State.seeSlot_cells (s a1 a2) (h : twf zeroB s.mem.cells = true) :
    twf zeroB (State.seeSlot s a1 a2).mem.cells = true := by
  unfold State.seeSlot
  (repeat' (first | split | dsimp only)) <;> simp (maxDischargeDepth := 80) [h]
@[simp] theorem State.entryTake_cells (s a1) (h : twf zeroB s.mem.cells = true) :
    twf zeroB (State.entryTake s a1).mem.cells = true := by
  unfold State.entryTake
  (repeat' (first | split | dsimp only)) <;> simp (maxDischargeDepth := 80) [h]
@[simp] theorem State.hostPoll_cells (s a1) (h : twf zeroB s.mem.cells = true) :
    twf zeroB (State.hostPoll s a1).mem.cells = true := by
  unfold State.hostPoll
  (repeat' (first | split | dsimp only)) <;> simp (maxDischargeDepth := 80) [h]
@[simp] theorem State.listFetch_cells (s a1) (h : twf zeroB s.mem.cells = true) :
    twf zeroB (State.listFetch s a1).mem.cells = true := by
  unfold State.listFetch
  (repeat' (first | split | dsimp only)) <;> simp (maxDischargeDepth := 80) [h]
@[simp] theorem State.dispatch_mem (s a1) : (State.dispatch s a1).mem = s.mem :=
  mem_of_only (State.dispatch_only s a1) (by decide)
@[simp] theorem State.drained_mem (s a1) : (State.drained s a1).mem = s.mem :=
  mem_of_only (State.drained_only s a1) (by decide)
@[simp] theorem State.dropReads_mem (s a1) : (State.dropReads s a1).mem = s.mem :=
  mem_of_only (State.dropReads_only s a1) (by decide)
@[simp] theorem State.release_mem (s a1) : (State.release s a1).mem = s.mem :=
  mem_of_only (State.release_only s a1) (by decide)
@[simp] theorem State.replyCmd_cells (s a1 a2 a3 a4) (h : twf zeroB s.mem.cells = true) :
    twf zeroB (State.replyCmd s a1 a2 a3 a4).mem.cells = true := by
  unfold State.replyCmd
  simp (maxDischargeDepth := 80) [h]
@[simp] theorem State.muteList_mem (s a1) : (State.muteList s a1).mem = s.mem :=
  mem_of_only (State.muteList_only s a1) (by decide)
@[simp] theorem State.complete_cells (s a1) (h : twf zeroB s.mem.cells = true) :
    twf zeroB (State.complete s a1).mem.cells = true := by
  unfold State.complete
  (repeat' split) <;> simp (maxDischargeDepth := 80) [h]
@[simp] theorem State.requestStop_cells (s a1 a2 a3) (h : twf zeroB s.mem.cells = true) :
    twf zeroB (State.requestStop s a1 a2 a3).mem.cells = true := by
  unfold State.requestStop
  (repeat' split) <;> simp (maxDischargeDepth := 80) [h]
@[simp] theorem State.timeout_cells (s a1) (h : twf zeroB s.mem.cells = true) :
    twf zeroB (State.timeout s a1).mem.cells = true := by
  unfold State.timeout
  (repeat' (first | split | dsimp only)) <;> simp (maxDischargeDepth := 80) [h]
@[simp] theorem State.resumeNext_cells (s a1) (h : twf zeroB s.mem.cells = true) :
    twf zeroB (State.resumeNext s a1).mem.cells = true := by
  unfold State.resumeNext
  (repeat' (first | split | dsimp only)) <;> simp (maxDischargeDepth := 80) [h]
@[simp] theorem State.dropList_mem (s a1) : (State.dropList s a1).mem = s.mem :=
  mem_of_only (State.dropList_only s a1) (by decide)
@[simp] theorem State.clearEnable_mem (s a1) : (State.clearEnable s a1).mem = s.mem :=
  mem_of_only (State.clearEnable_only s a1) (by decide)
@[simp] theorem State.abandonQ_cells (s a1 a2) (h : twf zeroB s.mem.cells = true) :
    twf zeroB (State.abandonQ s a1 a2).mem.cells = true := by
  unfold State.abandonQ
  (repeat' (first | split | dsimp only)) <;> simp (maxDischargeDepth := 80) [h]
@[simp] theorem State.resetQ_cells (s a1) (h : twf zeroB s.mem.cells = true) :
    twf zeroB (State.resetQ s a1).mem.cells = true := by
  unfold State.resetQ
  simp (maxDischargeDepth := 80) [h]
@[simp] theorem State.disable_cells (s a1) (h : twf zeroB s.mem.cells = true) :
    twf zeroB (State.disable s a1).mem.cells = true := by
  unfold State.disable
  (repeat' (first | split | dsimp only)) <;> simp (maxDischargeDepth := 80) [h]
@[simp] theorem State.refuseQ_mem (s a1) : (State.refuseQ s a1).mem = s.mem :=
  mem_of_only (State.refuseQ_only s a1) (by decide)
@[simp] theorem State.enable_cells (s a1) (h : twf zeroB s.mem.cells = true) :
    twf zeroB (State.enable s a1).mem.cells = true := by
  unfold State.enable
  simp (maxDischargeDepth := 80) [h]
@[simp] theorem State.frontReadFail_cells (s a1 a2 a3 a4) (h : twf zeroB s.mem.cells = true) :
    twf zeroB (State.frontReadFail s a1 a2 a3 a4).mem.cells = true := by
  unfold State.frontReadFail
  (repeat' (first | split | dsimp only)) <;> simp (maxDischargeDepth := 80) [h]
@[simp] theorem State.hostReadFail_cells (s a1 a2 a3 a4) (h : twf zeroB s.mem.cells = true) :
    twf zeroB (State.hostReadFail s a1 a2 a3 a4).mem.cells = true := by
  unfold State.hostReadFail
  (repeat' (first | split | dsimp only)) <;> simp (maxDischargeDepth := 80) [h]
@[simp] theorem State.hostComplete_cells (s a1 a2) (h : twf zeroB s.mem.cells = true) :
    twf zeroB (State.hostComplete s a1 a2).mem.cells = true := by
  unfold State.hostComplete
  dsimp only
  split
  · exact h
  · split
    · split
      · rename_i r rest _ _ bs _
        generalize ht : (if r.word = 0xFF then _ else _ : State) = t
        have k : twf zeroB t.mem.cells = true := by
          rw [← ht]; split <;> simp (maxDischargeDepth := 80) [h]
        clear ht
        split
        · split
          · exact State.overrun_cells _ _ _ k
          · simp [k]
          · exact k
        · exact k
      · exact h
    · simp (maxDischargeDepth := 80) [h]
    · simp (maxDischargeDepth := 80) [h]
    · simp (maxDischargeDepth := 80) [h]
@[simp] theorem State.hostTimeout_cells (s a1) (h : twf zeroB s.mem.cells = true) :
    twf zeroB (State.hostTimeout s a1).mem.cells = true := by
  unfold State.hostTimeout
  (repeat' split) <;> simp (maxDischargeDepth := 80) [h]
@[simp] theorem State.peerEnd_cells (s a1 a2 a3 a4) (h : twf zeroB s.mem.cells = true) :
    twf zeroB (State.peerEnd s a1 a2 a3 a4).mem.cells = true := by
  unfold State.peerEnd
  (repeat' split) <;> simp (maxDischargeDepth := 80) [h]
@[simp] theorem State.peerLost_cells (s a1 a2 a3) (h : twf zeroB s.mem.cells = true) :
    twf zeroB (State.peerLost s a1 a2 a3).mem.cells = true := by
  unfold State.peerLost
  simp (maxDischargeDepth := 80) [h]
@[simp] theorem State.peerSend_mem (s a1 a2) : (State.peerSend s a1 a2).mem = s.mem :=
  mem_of_only (State.peerSend_only s a1 a2) (by decide)
@[simp] theorem State.peerTake_mem (s a1 a2) : (State.peerTake s a1 a2).mem = s.mem :=
  mem_of_only (State.peerTake_only s a1 a2) (by decide)
@[simp] theorem State.issueReqs_cells (a0 a1 a2 s) (h : twf zeroB s.mem.cells = true) :
    twf zeroB (State.issueReqs a0 a1 a2 s).mem.cells = true := by
  fun_induction State.issueReqs <;> simp_all (maxDischargeDepth := 80) +zetaDelta
@[simp] theorem State.rankLost_mem (s a1 a2 a3) : (State.rankLost s a1 a2 a3).mem = s.mem :=
  mem_of_only (State.rankLost_only s a1 a2 a3) (by decide)
@[simp] theorem State.segTake_mem (s a1 a2) : (State.segTake s a1 a2).mem = s.mem :=
  mem_of_only (State.segTake_only s a1 a2) (by decide)
@[simp] theorem State.issueSegs_mem (a0 a1 a2 a3 s) : (State.issueSegs a0 a1 a2 a3 s).mem = s.mem :=
  mem_of_only (State.issueSegs_only a0 a1 a2 a3 s) (by decide)
@[simp] theorem State.pump_cells (s a1) (h : twf zeroB s.mem.cells = true) :
    twf zeroB (State.pump s a1).mem.cells = true := by
  unfold State.pump
  simp (maxDischargeDepth := 80) [h]
@[simp] theorem State.tagTo_cells (s a1 a2) (h : twf zeroB s.mem.cells = true) :
    twf zeroB (State.tagTo s a1 a2).mem.cells = true := by
  unfold State.tagTo
  (repeat' split) <;> simp (maxDischargeDepth := 80) [h]
@[simp] theorem State.tagGrant_cells (s a1) (h : twf zeroB s.mem.cells = true) :
    twf zeroB (State.tagGrant s a1).mem.cells = true := by
  unfold State.tagGrant
  (repeat' split) <;> simp (maxDischargeDepth := 80) [h]
@[simp] theorem State.dbChanged_mem (s) : (State.dbChanged s).mem = s.mem :=
  mem_of_only (State.dbChanged_only s) (by decide)
@[simp] theorem State.dbPut_mem (s a1) : (State.dbPut s a1).mem = s.mem :=
  mem_of_only (State.dbPut_only s a1) (by decide)
@[simp] theorem State.flood_mem (s a1 a2) : (State.flood s a1 a2).mem = s.mem :=
  mem_of_only (State.flood_only s a1 a2) (by decide)
@[simp] theorem State.advertise_mem (s) : (State.advertise s).mem = s.mem :=
  mem_of_only (State.advertise_only s) (by decide)
@[simp] theorem State.portsChange_mem (s) (f : State → State) (hf : ∀ t, (f t).mem = t.mem) : (State.portsChange s f).mem = s.mem := by
  unfold State.portsChange
  dsimp only
  split <;> simp [hf]
@[simp] theorem State.lsaRefresh_mem (s) : (State.lsaRefresh s).mem = s.mem :=
  mem_of_only (State.lsaRefresh_only s) (by decide)
@[simp] theorem State.lsaExpiry_mem (s a1) : (State.lsaExpiry s a1).mem = s.mem :=
  mem_of_only (State.lsaExpiry_only s a1) (by decide)
@[simp] theorem State.conflict_mem (s) : (State.conflict s).mem = s.mem :=
  mem_of_only (State.conflict_only s) (by decide)
@[simp] theorem State.idConfig_mem (s) : (State.idConfig s).mem = s.mem :=
  mem_of_only (State.idConfig_only s) (by decide)
@[simp] theorem State.takeId_mem (s a1) : (State.takeId s a1).mem = s.mem :=
  mem_of_only (State.takeId_only s a1) (by decide)
@[simp] theorem State.grantAll_mem (a0 a1 s) : (State.grantAll a0 a1 s).mem = s.mem :=
  mem_of_only (State.grantAll_only a0 a1 s) (by decide)
@[simp] theorem State.doSwap_mem (s) : (State.doSwap s).mem = s.mem :=
  mem_of_only (State.doSwap_only s) (by decide)
@[simp] theorem State.swap_mem (s) : (State.swap s).mem = s.mem :=
  mem_of_only (State.swap_only s) (by decide)
@[simp] theorem State.copyStart_mem (s) : (State.copyStart s).mem = s.mem :=
  mem_of_only (State.copyStart_only s) (by decide)
@[simp] theorem State.copyDone_mem (s) : (State.copyDone s).mem = s.mem :=
  mem_of_only (State.copyDone_only s) (by decide)
@[simp] theorem State.shadowWrite_mem (s a1) : (State.shadowWrite s a1).mem = s.mem :=
  mem_of_only (State.shadowWrite_only s a1) (by decide)
@[simp] theorem State.settle_mem (s) : (State.settle s).mem = s.mem :=
  mem_of_only (State.settle_only s) (by decide)
@[simp] theorem State.negotiate_mem (s a1) : (State.negotiate s a1).mem = s.mem :=
  mem_of_only (State.negotiate_only s a1) (by decide)
@[simp] theorem State.portLock_mem (s a1) : (State.portLock s a1).mem = s.mem :=
  mem_of_only (State.portLock_only s a1) (by decide)
@[simp] theorem State.fabReady_mem (s) : (State.fabReady s).mem = s.mem :=
  mem_of_only (State.fabReady_only s) (by decide)
@[simp] theorem State.trainTimeout_mem (s a1) : (State.trainTimeout s a1).mem = s.mem :=
  mem_of_only (State.trainTimeout_only s a1) (by decide)
@[simp] theorem State.failedRetry_mem (s a1) : (State.failedRetry s a1).mem = s.mem :=
  mem_of_only (State.failedRetry_only s a1) (by decide)
theorem State.takeCtl_cells (s) (p) (t) (r) (hr : State.takeCtl s p t = some r) (h : twf zeroB s.mem.cells = true) : twf zeroB r.2.mem.cells = true := by
  unfold State.takeCtl at hr
  simp only [] at hr
  repeat' split at hr
  all_goals simp_all (maxDischargeDepth := 80)
  all_goals subst hr
  all_goals simp (maxDischargeDepth := 80) [h]
@[simp] theorem State.agree_mem (s a1) : (State.agree s a1).mem = s.mem :=
  mem_of_only (State.agree_only s a1) (by decide)
@[simp] theorem State.versionOffer_mem (s a1) : (State.versionOffer s a1).mem = s.mem :=
  mem_of_only (State.versionOffer_only s a1) (by decide)
@[simp] theorem State.versionAccept_mem (s a1) : (State.versionAccept s a1).mem = s.mem :=
  mem_of_only (State.versionAccept_only s a1) (by decide)
@[simp] theorem State.versionRetry_mem (s a1) : (State.versionRetry s a1).mem = s.mem :=
  mem_of_only (State.versionRetry_only s a1) (by decide)
@[simp] theorem State.linkNotice_mem (s a1) : (State.linkNotice s a1).mem = s.mem :=
  mem_of_only (State.linkNotice_only s a1) (by decide)
@[simp] theorem State.drainTimeout_mem (s a1) : (State.drainTimeout s a1).mem = s.mem :=
  mem_of_only (State.drainTimeout_only s a1) (by decide)
@[simp] theorem State.lockLoss_mem (s a1) : (State.lockLoss s a1).mem = s.mem :=
  mem_of_only (State.lockLoss_only s a1) (by decide)
@[simp] theorem State.retrainDone_mem (s a1 a2) : (State.retrainDone s a1 a2).mem = s.mem :=
  mem_of_only (State.retrainDone_only s a1 a2) (by decide)
@[simp] theorem State.retrainTimeout_mem (s a1) : (State.retrainTimeout s a1).mem = s.mem :=
  mem_of_only (State.retrainTimeout_only s a1) (by decide)
@[simp] theorem State.portReset_mem (s a1) : (State.portReset s a1).mem = s.mem :=
  mem_of_only (State.portReset_only s a1) (by decide)
@[simp] theorem State.portEnable_mem (s a1 a2) : (State.portEnable s a1 a2).mem = s.mem :=
  mem_of_only (State.portEnable_only s a1 a2) (by decide)
@[simp] theorem State.frameTransmit_cells (s a1) (h : twf zeroB s.mem.cells = true) :
    twf zeroB (State.frameTransmit s a1).mem.cells = true := by
  unfold State.frameTransmit
  simp (maxDischargeDepth := 80) [h]
@[simp] theorem State.routeLast_mem (s a1) : (State.routeLast s a1).mem = s.mem :=
  mem_of_only (State.routeLast_only s a1) (by decide)
@[simp] theorem State.fabNotice_mem (s a1) : (State.fabNotice s a1).mem = s.mem :=
  mem_of_only (State.fabNotice_only s a1) (by decide)
@[simp] theorem State.leave_mem (s a1 a2) : (State.leave s a1 a2).mem = s.mem :=
  mem_of_only (State.leave_only s a1 a2) (by decide)
@[simp] theorem State.markGranted_mem (s a1 a2) : (State.markGranted s a1 a2).mem = s.mem :=
  mem_of_only (State.markGranted_only s a1 a2) (by decide)
@[simp] theorem State.pktWrite_cells (s a1) (h : twf zeroB s.mem.cells = true) :
    twf zeroB (State.pktWrite s a1).mem.cells = true := by
  unfold State.pktWrite
  (repeat' (first | split | dsimp only)) <;> simp (maxDischargeDepth := 80) [h]
@[simp] theorem State.pktRead_cells (s a1) (h : twf zeroB s.mem.cells = true) :
    twf zeroB (State.pktRead s a1).mem.cells = true := by
  unfold State.pktRead
  (repeat' (first | split | dsimp only)) <;> simp (maxDischargeDepth := 80) [h]
@[simp] theorem State.tagBack_mem (s a1 a2) : (State.tagBack s a1 a2).mem = s.mem :=
  mem_of_only (State.tagBack_only s a1 a2) (by decide)
@[simp] theorem State.tagLate_mem (s a1) : (State.tagLate s a1).mem = s.mem :=
  mem_of_only (State.tagLate_only s a1) (by decide)
@[simp] theorem State.pktCompletion_mem (s a1) : (State.pktCompletion s a1).mem = s.mem :=
  mem_of_only (State.pktCompletion_only s a1) (by decide)
@[simp] theorem State.pktRefusal_cells (s a1) (h : twf zeroB s.mem.cells = true) :
    twf zeroB (State.pktRefusal s a1).mem.cells = true := by
  unfold State.pktRefusal
  (repeat' (first | split | dsimp only)) <;> simp (maxDischargeDepth := 80) [h]
@[simp] theorem State.cplTimeout_cells (s a1) (h : twf zeroB s.mem.cells = true) :
    twf zeroB (State.cplTimeout s a1).mem.cells = true := by
  unfold State.cplTimeout
  (repeat' split) <;> simp (maxDischargeDepth := 80) [h]
@[simp] theorem State.segLand_cells (s a1 a2 a3 a4) (h : twf zeroB s.mem.cells = true) :
    twf zeroB (State.segLand s a1 a2 a3 a4).mem.cells = true := by
  unfold State.segLand
  (repeat' (first | split | dsimp only)) <;> simp (maxDischargeDepth := 80) [h]
@[simp] theorem State.segIn_cells (s a1 a2 a3 a4) (h : twf zeroB s.mem.cells = true) :
    twf zeroB (State.segIn s a1 a2 a3 a4).mem.cells = true := by
  unfold State.segIn
  (repeat' split) <;> simp (maxDischargeDepth := 80) [h]
@[simp] theorem State.pktSegment_cells (s a1 a2 a3) (h : twf zeroB s.mem.cells = true) :
    twf zeroB (State.pktSegment s a1 a2 a3).mem.cells = true := by
  unfold State.pktSegment
  (repeat' split) <;> simp (maxDischargeDepth := 80) [h]
@[simp] theorem State.pktNotice_mem (s a1) : (State.pktNotice s a1).mem = s.mem :=
  mem_of_only (State.pktNotice_only s a1) (by decide)
@[simp] theorem State.pktLsa_mem (s a1) : (State.pktLsa s a1).mem = s.mem :=
  mem_of_only (State.pktLsa_only s a1) (by decide)
@[simp] theorem State.pktGrant_mem (s a1) : (State.pktGrant s a1).mem = s.mem :=
  mem_of_only (State.pktGrant_only s a1) (by decide)
@[simp] theorem State.byWrite_cells (s) (f : State → State) (hf : ∀ t, twf zeroB t.mem.cells = true → twf zeroB (f t).mem.cells = true) (h : twf zeroB s.mem.cells = true) : twf zeroB (State.byWrite s f).mem.cells = true := by
  unfold State.byWrite
  dsimp only
  split <;> simp [hf, h]
@[simp] theorem State.nop_mem (s a1) : (State.nop s a1).mem = s.mem :=
  mem_of_only (State.nop_only s a1) (by decide)
@[simp] theorem State.writeImm_cells (s a1) (h : twf zeroB s.mem.cells = true) :
    twf zeroB (State.writeImm s a1).mem.cells = true := by
  unfold State.writeImm
  (repeat' split) <;> simp (maxDischargeDepth := 80) [h]
@[simp] theorem State.tokenSet_mem (s a1) : (State.tokenSet s a1).mem = s.mem :=
  mem_of_only (State.tokenSet_only s a1) (by decide)
@[simp] theorem State.slipEffect_mem (s a1 a2 a3) : (State.slipEffect s a1 a2 a3).mem = s.mem :=
  mem_of_only (State.slipEffect_only s a1 a2 a3) (by decide)
@[simp] theorem State.slipCmd_mem (s a1 a2) : (State.slipCmd s a1 a2).mem = s.mem :=
  mem_of_only (State.slipCmd_only s a1 a2) (by decide)
@[simp] theorem State.refuseSl_mem (s a1) : (State.refuseSl s a1).mem = s.mem :=
  mem_of_only (State.refuseSl_only s a1) (by decide)
@[simp] theorem State.slipEnable_mem (s a1 a2) : (State.slipEnable s a1 a2).mem = s.mem :=
  mem_of_only (State.slipEnable_only s a1 a2) (by decide)
@[simp] theorem State.refuseB_mem (s a1 a2) : (State.refuseB s a1 a2).mem = s.mem :=
  mem_of_only (State.refuseB_only s a1 a2) (by decide)
@[simp] theorem State.berthOpen_mem (s a1) : (State.berthOpen s a1).mem = s.mem :=
  mem_of_only (State.berthOpen_only s a1) (by decide)
@[simp] theorem State.emptyBerth_mem (s a1) : (State.emptyBerth s a1).mem = s.mem :=
  mem_of_only (State.emptyBerth_only s a1) (by decide)
@[simp] theorem State.berthClose_mem (s a1) : (State.berthClose s a1).mem = s.mem :=
  mem_of_only (State.berthClose_only s a1) (by decide)
@[simp] theorem State.landingGrant_mem (s) : (State.landingGrant s).mem = s.mem :=
  mem_of_only (State.landingGrant_only s) (by decide)
@[simp] theorem State.weirWrite_mem (s a1 a2) : (State.weirWrite s a1 a2).mem = s.mem :=
  mem_of_only (State.weirWrite_only s a1 a2) (by decide)
@[simp] theorem State.cqfPeakClr_mem (s) : (State.cqfPeakClr s).mem = s.mem :=
  mem_of_only (State.cqfPeakClr_only s) (by decide)
@[simp] theorem State.dispatchHold_mem (s a1) : (State.dispatchHold s a1).mem = s.mem :=
  mem_of_only (State.dispatchHold_only s a1) (by decide)
end Sys2Proof.Machine
end

