-- ==== Sys2Proof/Laws/CellsSystem.lean ====
section
/-!
SUPPORT. The operations of the security block, the configuration store, errors, resets, power, firmware and the host interface leave the memory alone or keep its canonical form.
-/
set_option maxRecDepth 4000
namespace Sys2Proof.Machine
@[simp] theorem State.fwLocal_cells (a0 a1 a2 a3 s) (h : twf zeroB s.mem.cells = true) :
    twf zeroB (State.fwLocal a0 a1 a2 a3 s).2.mem.cells = true := by
  fun_induction State.fwLocal <;> simp_all (maxDischargeDepth := 80) +zetaDelta
@[simp] theorem State.fwHost_mem (s a1 a2) : (State.fwHost s a1 a2).2.mem = s.mem :=
  mem_of_only (State.fwHost_only s a1 a2) (by decide)
@[simp] theorem State.fwPeer_mem (s a1 a2) : (State.fwPeer s a1 a2).2.mem = s.mem :=
  mem_of_only (State.fwPeer_only s a1 a2) (by decide)
@[simp] theorem State.fwRead_cells (s a1 a2 a3) (h : twf zeroB s.mem.cells = true) :
    twf zeroB (State.fwRead s a1 a2 a3).2.mem.cells = true := by
  unfold State.fwRead
  simp (maxDischargeDepth := 80) [h]
@[simp] theorem State.verifyFailed_mem (s) : (State.verifyFailed s).mem = s.mem :=
  mem_of_only (State.verifyFailed_only s) (by decide)
@[simp] theorem State.verify_mem (s a1 a2 a3 a4) : (State.verify s a1 a2 a3 a4).2.mem = s.mem :=
  mem_of_only (State.verify_only s a1 a2 a3 a4) (by decide)
@[simp] theorem State.identify_mem (s a1 a2) : (State.identify s a1 a2).mem = s.mem :=
  mem_of_only (State.identify_only s a1 a2) (by decide)
@[simp] theorem State.checkDevCert_mem (s) : (State.checkDevCert s).mem = s.mem :=
  mem_of_only (State.checkDevCert_only s) (by decide)
@[simp] theorem State.extendProg_mem (s a1) : (State.extendProg s a1).mem = s.mem :=
  mem_of_only (State.extendProg_only s a1) (by decide)
@[simp] theorem State.clearProg_mem (s) : (State.clearProg s).mem = s.mem :=
  mem_of_only (State.clearProg_only s) (by decide)
@[simp] theorem State.report_mem (s a1 a2) : (State.report s a1 a2).2.mem = s.mem :=
  mem_of_only (State.report_only s a1 a2) (by decide)
@[simp] theorem recordVerdict_mem (v : Bool × State) : (recordVerdict v).2.mem = v.2.mem :=
  mem_of_only (recordVerdict_only v) (by decide)
@[simp] theorem State.verifyRecord_mem (s a1 a2) : (State.verifyRecord s a1 a2).2.mem = s.mem :=
  mem_of_only (State.verifyRecord_only s a1 a2) (by decide)
@[simp] theorem State.applyValues_mem (s a1 a2 a3 a4 a5 a6 a7) : (State.applyValues s a1 a2 a3 a4 a5 a6 a7).mem = s.mem :=
  mem_of_only (State.applyValues_only s a1 a2 a3 a4 a5 a6 a7) (by decide)
@[simp] theorem State.applyRecord_mem (s a1 a2) : (State.applyRecord s a1 a2).mem = s.mem :=
  mem_of_only (State.applyRecord_only s a1 a2) (by decide)
@[simp] theorem State.recover_mem (s) : (State.recover s).mem = s.mem :=
  mem_of_only (State.recover_only s) (by decide)
@[simp] theorem State.adopt_mem (s) : (State.adopt s).mem = s.mem :=
  mem_of_only (State.adopt_only s) (by decide)
@[simp] theorem State.adoptSelf_mem (s) : (State.adoptSelf s).mem = s.mem :=
  mem_of_only (State.adoptSelf_only s) (by decide)
@[simp] theorem State.setRef_mem (s a1) : (State.setRef s a1).mem = s.mem :=
  mem_of_only (State.setRef_only s a1) (by decide)
@[simp] theorem State.refHiWrite_mem (s a1) : (State.refHiWrite s a1).mem = s.mem :=
  mem_of_only (State.refHiWrite_only s a1) (by decide)
@[simp] theorem State.scan_mem (s) : (State.scan s).2.mem = s.mem :=
  mem_of_only (State.scan_only s) (by decide)
@[simp] theorem State.crcReact_mem (s) : (State.crcReact s).mem = s.mem :=
  mem_of_only (State.crcReact_only s) (by decide)
@[simp] theorem State.regUpset_mem (s a1 a2 a3) : (State.regUpset s a1 a2 a3).mem = s.mem :=
  mem_of_only (State.regUpset_only s a1 a2 a3) (by decide)
@[simp] theorem State.regUpsets_mem (s a1) : (State.regUpsets s a1).mem = s.mem :=
  mem_of_only (State.regUpsets_only s a1) (by decide)
@[simp] theorem State.voteAll_mem (s) : (State.voteAll s).mem = s.mem :=
  mem_of_only (State.voteAll_only s) (by decide)
@[simp] theorem State.voteScan_mem (s) : (State.voteScan s).mem = s.mem :=
  mem_of_only (State.voteScan_only s) (by decide)
@[simp] theorem State.writeSlot_mem (s a1) : (State.writeSlot s a1).mem = s.mem :=
  mem_of_only (State.writeSlot_only s a1) (by decide)
@[simp] theorem State.commitRecord_mem (s) : (State.commitRecord s).mem = s.mem :=
  mem_of_only (State.commitRecord_only s) (by decide)
@[simp] theorem State.setScrub_cells (s a1 a2) (h : twf zeroB s.mem.cells = true) :
    twf zeroB (State.setScrub s a1 a2).mem.cells = true := by
  unfold State.setScrub
  simp (maxDischargeDepth := 80) [h]
@[simp] theorem State.strike_cells (s a1) (h : twf zeroB s.mem.cells = true) :
    twf zeroB (State.strike s a1).mem.cells = true := by
  have e : ∀ (l : List (Nat × Nat × Byte)) (t : State), (State.strike t l).mem.cells = t.mem.cells := by
    intro l
    induction l with
    | nil => intro t; rfl
    | cons x l ih => intro t; exact ih _
  rw [e]; exact h
@[simp] theorem State.scrubNext_cells (s a1) (h : twf zeroB s.mem.cells = true) :
    twf zeroB (State.scrubNext s a1).mem.cells = true := by
  unfold State.scrubNext
  simp (maxDischargeDepth := 80) [h]
@[simp] theorem State.scrubCount_cells (s a1 a2) (h : twf zeroB s.mem.cells = true) :
    twf zeroB (State.scrubCount s a1 a2).mem.cells = true := by
  unfold State.scrubCount
  simp (maxDischargeDepth := 80) [h]
@[simp] theorem State.scrubWord_cells (s a1 a2) (h : twf zeroB s.mem.cells = true) :
    twf zeroB (State.scrubWord s a1 a2).mem.cells = true := by
  unfold State.scrubWord
  (repeat' (first | split | dsimp only)) <;> simp (maxDischargeDepth := 80) [h]
@[simp] theorem State.scrubRead_cells (s a1 a2) (h : twf zeroB s.mem.cells = true) :
    twf zeroB (State.scrubRead s a1 a2).mem.cells = true := by
  unfold State.scrubRead
  (repeat' split) <;> simp (maxDischargeDepth := 80) [h]
@[simp] theorem State.qualWrite_mem (s a1) : (State.qualWrite s a1).mem = s.mem :=
  mem_of_only (State.qualWrite_only s a1) (by decide)
@[simp] theorem State.pcSet_mem (s a1 a2 a3 a4) : (State.pcSet s a1 a2 a3 a4).mem = s.mem :=
  mem_of_only (State.pcSet_only s a1 a2 a3 a4) (by decide)
@[simp] theorem State.unitSet_mem (s a1 a2 a3 a4) : (State.unitSet s a1 a2 a3 a4).mem = s.mem :=
  mem_of_only (State.unitSet_only s a1 a2 a3 a4) (by decide)
@[simp] theorem State.unitLeave_mem (s a1) : (State.unitLeave s a1).mem = s.mem :=
  mem_of_only (State.unitLeave_only s a1) (by decide)
@[simp] theorem State.svcOut_mem (s a1) : (State.svcOut s a1).mem = s.mem :=
  mem_of_only (State.svcOut_only s a1) (by decide)
@[simp] theorem State.requalify_mem (s a1) : (State.requalify s a1).mem = s.mem :=
  mem_of_only (State.requalify_only s a1) (by decide)
@[simp] theorem State.admitSvc_mem (s a1) : (State.admitSvc s a1).mem = s.mem :=
  mem_of_only (State.admitSvc_only s a1) (by decide)
@[simp] theorem State.trainingRecord_mem (s a1 a2 a3 a4) : (State.trainingRecord s a1 a2 a3 a4).mem = s.mem :=
  mem_of_only (State.trainingRecord_only s a1 a2 a3 a4) (by decide)
@[simp] theorem State.pcTrained_mem (s a1 a2) : (State.pcTrained s a1 a2).mem = s.mem :=
  mem_of_only (State.pcTrained_only s a1 a2) (by decide)
@[simp] theorem State.requalEnd_mem (s a1 a2) : (State.requalEnd s a1 a2).mem = s.mem :=
  mem_of_only (State.requalEnd_only s a1 a2) (by decide)
@[simp] theorem State.pcLockLoss_mem (s a1) : (State.pcLockLoss s a1).mem = s.mem :=
  mem_of_only (State.pcLockLoss_only s a1) (by decide)
@[simp] theorem State.resetRegs_mem (s a1) : (State.resetRegs s a1).mem = s.mem :=
  mem_of_only (State.resetRegs_only s a1) (by decide)
@[simp] theorem State.nbDrain_cells (s) (h : twf zeroB s.mem.cells = true) :
    twf zeroB (State.nbDrain s).mem.cells = true := by
  unfold State.nbDrain
  (repeat' split) <;> simp_all (maxDischargeDepth := 80)
@[simp] theorem State.breakGroups_mem (s) : (State.breakGroups s).mem = s.mem :=
  mem_of_only (State.breakGroups_only s) (by decide)
@[simp] theorem State.xchReset_mem (s) : (State.xchReset s).mem = s.mem :=
  mem_of_only (State.xchReset_only s) (by decide)
@[simp] theorem State.endFords_cells (s) (h : twf zeroB s.mem.cells = true) :
    twf zeroB (State.endFords s).mem.cells = true := by
  unfold State.endFords
  simp (maxDischargeDepth := 80) [h]
@[simp] theorem State.itkReset_mem (s) : (State.itkReset s).mem = s.mem :=
  mem_of_only (State.itkReset_only s) (by decide)
@[simp] theorem State.peaksReset_mem (s) : (State.peaksReset s).mem = s.mem :=
  mem_of_only (State.peaksReset_only s) (by decide)
@[simp] theorem State.stopEngines_cells (s) (h : twf zeroB s.mem.cells = true) :
    twf zeroB (State.stopEngines s).mem.cells = true := by
  unfold State.stopEngines
  simp (maxDischargeDepth := 80) [h]
@[simp] theorem State.leaveNow_mem (s) : (State.leaveNow s).mem = s.mem :=
  mem_of_only (State.leaveNow_only s) (by decide)
@[simp] theorem State.portGiveUp_mem (s a1) : (State.portGiveUp s a1).mem = s.mem :=
  mem_of_only (State.portGiveUp_only s a1) (by decide)
@[simp] theorem State.fabReset_mem (s) : (State.fabReset s).mem = s.mem :=
  mem_of_only (State.fabReset_only s) (by decide)
@[simp] theorem State.selfReset_cells (s a1) (h : twf zeroB s.mem.cells = true) :
    twf zeroB (State.selfReset s a1).mem.cells = true := by
  unfold State.selfReset
  simp (maxDischargeDepth := 80) [h]
@[simp] theorem State.flrQueue_mem (s a1) : (State.flrQueue s a1).mem = s.mem :=
  mem_of_only (State.flrQueue_only s a1) (by decide)
@[simp] theorem State.flrBerths_mem (s) : (State.flrBerths s).mem = s.mem :=
  mem_of_only (State.flrBerths_only s) (by decide)
@[simp] theorem State.flrApply_cells (s) (h : twf zeroB s.mem.cells = true) :
    twf zeroB (State.flrApply s).mem.cells = true := by
  unfold State.flrApply
  simp (maxDischargeDepth := 80) [h]
@[simp] theorem State.functionReset_cells (s) (h : twf zeroB s.mem.cells = true) :
    twf zeroB (State.functionReset s).mem.cells = true := by
  unfold State.functionReset
  simp (maxDischargeDepth := 80) [h]
@[simp] theorem State.flrDue_cells (s) (h : twf zeroB s.mem.cells = true) :
    twf zeroB (State.flrDue s).mem.cells = true := by
  unfold State.flrDue
  simp (maxDischargeDepth := 80) [h]
@[simp] theorem State.slipResets_mem (s a1) : (State.slipResets s a1).mem = s.mem :=
  mem_of_only (State.slipResets_only s a1) (by decide)
@[simp] theorem State.resetEngine_cells (s a1) (h : twf zeroB s.mem.cells = true) :
    twf zeroB (State.resetEngine s a1).mem.cells = true := by
  have e : ∀ (u : State) (k : Nat), twf zeroB u.mem.cells = true →
      twf zeroB ((List.range 64).foldl (fun s i => if (s.q (k + i)).state = .disabled then s else s.abandonQ (k + i) 1) u).mem.cells = true :=
    fun u k hu => foldl_cells (fun v i hv => by split <;> simp [hv]) _ _ hu
  unfold State.resetEngine
  rw [State.slipResets_mem]
  generalize hw : (List.range 64).foldl _ _ = w
  have h' : twf zeroB w.mem.cells = true := hw ▸ e _ _ h
  clear hw
  dsimp only
  split <;> simp [h']
@[simp] theorem State.engineReset_cells (s a1) (h : twf zeroB s.mem.cells = true) :
    twf zeroB (State.engineReset s a1).mem.cells = true := by
  unfold State.engineReset
  (repeat' split) <;> simp_all (maxDischargeDepth := 80)
@[simp] theorem State.engineResetDone_cells (s a1) (h : twf zeroB s.mem.cells = true) :
    twf zeroB (State.engineResetDone s a1).mem.cells = true := by
  unfold State.engineResetDone
  simp (maxDischargeDepth := 80) [h]
@[simp] theorem State.afresh_cells (s) (h : twf zeroB s.mem.cells = true) :
    twf zeroB (State.afresh s).mem.cells = true := by
  rfl
@[simp] theorem State.powerOff_cells (s a1) (h : twf zeroB s.mem.cells = true) :
    twf zeroB (State.powerOff s a1).mem.cells = true := by
  unfold State.powerOff
  simp (maxDischargeDepth := 80) [h]
@[simp] theorem State.postWrite_mem (s a1 a2 a3) : (State.postWrite s a1 a2 a3).mem = s.mem :=
  mem_of_only (State.postWrite_only s a1 a2 a3) (by decide)
@[simp] theorem State.postApply_mem (s a1) : (State.postApply s a1).mem = s.mem :=
  mem_of_only (State.postApply_only s a1) (by decide)
@[simp] theorem State.setTemp_mem (s a1 a2) : (State.setTemp s a1 a2).mem = s.mem :=
  mem_of_only (State.setTemp_only s a1 a2) (by decide)
@[simp] theorem State.reduce_mem (s a1 a2) : (State.reduce s a1 a2).mem = s.mem :=
  mem_of_only (State.reduce_only s a1 a2) (by decide)
@[simp] theorem State.relax_mem (s) : (State.relax s).mem = s.mem :=
  mem_of_only (State.relax_only s) (by decide)
@[simp] theorem State.measure_mem (s a1) : (State.measure s a1).mem = s.mem :=
  mem_of_only (State.measure_only s a1) (by decide)
@[simp] theorem State.arbiterWindow_mem (s a1) : (State.arbiterWindow s a1).mem = s.mem :=
  mem_of_only (State.arbiterWindow_only s a1) (by decide)
@[simp] theorem State.inputLow_mem (s) : (State.inputLow s).mem = s.mem :=
  mem_of_only (State.inputLow_only s) (by decide)
@[simp] theorem State.inputHigh_mem (s) : (State.inputHigh s).mem = s.mem :=
  mem_of_only (State.inputHigh_only s) (by decide)
@[simp] theorem State.inputRestored_mem (s) : (State.inputRestored s).mem = s.mem :=
  mem_of_only (State.inputRestored_only s) (by decide)
@[simp] theorem State.shutdown_cells (s a1) (h : twf zeroB s.mem.cells = true) :
    twf zeroB (State.shutdown s a1).mem.cells = true := by
  unfold State.shutdown
  simp (maxDischargeDepth := 80) [h]
@[simp] theorem State.thermalTrip_cells (s a1 a2) (h : twf zeroB s.mem.cells = true) :
    twf zeroB (State.thermalTrip s a1 a2).mem.cells = true := by
  unfold State.thermalTrip
  simp (maxDischargeDepth := 80) [h]
@[simp] theorem State.hotReached_mem (s a1 a2) : (State.hotReached s a1 a2).mem = s.mem :=
  mem_of_only (State.hotReached_only s a1 a2) (by decide)
@[simp] theorem State.oscillatorFail_mem (s) : (State.oscillatorFail s).mem = s.mem :=
  mem_of_only (State.oscillatorFail_only s) (by decide)
@[simp] theorem State.portsProbation_mem (s a1) : (State.portsProbation s a1).mem = s.mem :=
  mem_of_only (State.portsProbation_only s a1) (by decide)
@[simp] theorem State.slackEnter_cells (s a1) (h : twf zeroB s.mem.cells = true) :
    twf zeroB (State.slackEnter s a1).mem.cells = true := by
  unfold State.slackEnter
  simp (maxDischargeDepth := 80) [h]
@[simp] theorem State.slackExit_cells (s) (h : twf zeroB s.mem.cells = true) :
    twf zeroB (State.slackExit s).mem.cells = true := by
  unfold State.slackExit
  simp (maxDischargeDepth := 80) [h]
@[simp] theorem State.d3Settle_cells (s) (h : twf zeroB s.mem.cells = true) :
    twf zeroB (State.d3Settle s).mem.cells = true := by
  unfold State.d3Settle
  simp (maxDischargeDepth := 80) [h]
@[simp] theorem State.d3hotEntry_cells (s) (h : twf zeroB s.mem.cells = true) :
    twf zeroB (State.d3hotEntry s).mem.cells = true := by
  unfold State.d3hotEntry
  (repeat' split) <;> simp (maxDischargeDepth := 80) [h]
@[simp] theorem State.d3hotExit_cells (s) (h : twf zeroB s.mem.cells = true) :
    twf zeroB (State.d3hotExit s).mem.cells = true := by
  unfold State.d3hotExit
  simp (maxDischargeDepth := 80) [h]
@[simp] theorem State.deepOffEnd_cells (s a1) (h : twf zeroB s.mem.cells = true) :
    twf zeroB (State.deepOffEnd s a1).mem.cells = true := by
  unfold State.deepOffEnd
  simp (maxDischargeDepth := 80) [h]
@[simp] theorem State.deepOffBegin_cells (s) (h : twf zeroB s.mem.cells = true) :
    twf zeroB (State.deepOffBegin s).mem.cells = true := by
  unfold State.deepOffBegin
  (repeat' split) <;> simp (maxDischargeDepth := 80) [h]
@[simp] theorem State.deepOffTick_cells (s) (h : twf zeroB s.mem.cells = true) :
    twf zeroB (State.deepOffTick s).mem.cells = true := by
  unfold State.deepOffTick
  simp (maxDischargeDepth := 80) [h]
@[simp] theorem State.tierReturn_cells (s a1) (h : twf zeroB s.mem.cells = true) :
    twf zeroB (State.tierReturn s a1).mem.cells = true := by
  unfold State.tierReturn
  simp (maxDischargeDepth := 80) [h]
@[simp] theorem State.stepReached_mem (s a1) : (State.stepReached s a1).mem = s.mem :=
  mem_of_only (State.stepReached_only s a1) (by decide)
@[simp] theorem State.wdtArm_mem (s) : (State.wdtArm s).mem = s.mem :=
  mem_of_only (State.wdtArm_only s) (by decide)
@[simp] theorem State.bootRecord_mem (s a1) : (State.bootRecord s a1).mem = s.mem :=
  mem_of_only (State.bootRecord_only s a1) (by decide)
@[simp] theorem State.bootFactory_mem (s a1) : (State.bootFactory s a1).mem = s.mem :=
  mem_of_only (State.bootFactory_only s a1) (by decide)
@[simp] theorem State.powerAfresh_cells (s a1) (h : twf zeroB s.mem.cells = true) :
    twf zeroB (State.powerAfresh s a1).mem.cells = true := by
  unfold State.powerAfresh
  simp (maxDischargeDepth := 80) [h]
@[simp] theorem State.powerBoot_mem (s) : (State.powerBoot s).mem = s.mem :=
  mem_of_only (State.powerBoot_only s) (by decide)
@[simp] theorem State.readFactory_mem (s a1) : (State.readFactory s a1).mem = s.mem :=
  mem_of_only (State.readFactory_only s a1) (by decide)
@[simp] theorem State.powerOn_cells (s a1) (h : twf zeroB s.mem.cells = true) :
    twf zeroB (State.powerOn s a1).mem.cells = true := by
  unfold State.powerOn
  simp (maxDischargeDepth := 80) [h]
@[simp] theorem State.startFail_mem (s a1) : (State.startFail s a1).mem = s.mem :=
  mem_of_only (State.startFail_only s a1) (by decide)
@[simp] theorem State.trained_mem (s a1) : (State.trained s a1).mem = s.mem :=
  mem_of_only (State.trained_only s a1) (by decide)
@[simp] theorem State.softRepair_mem (s) : (State.softRepair s).mem = s.mem :=
  mem_of_only (State.softRepair_only s) (by decide)
@[simp] theorem State.portsTrain_mem (s) : (State.portsTrain s).mem = s.mem :=
  mem_of_only (State.portsTrain_only s) (by decide)
@[simp] theorem State.startTrain_mem (s a1) : (State.startTrain s a1).mem = s.mem :=
  mem_of_only (State.startTrain_only s a1) (by decide)
@[simp] theorem State.startOpen_cells (s) (h : twf zeroB s.mem.cells = true) :
    twf zeroB (State.startOpen s).mem.cells = true := by
  unfold State.startOpen
  simp (maxDischargeDepth := 80) [h]
@[simp] theorem State.startRecord_mem (s a1) : (State.startRecord s a1).mem = s.mem :=
  mem_of_only (State.startRecord_only s a1) (by decide)
@[simp] theorem State.startLog_mem (s) : (State.startLog s).mem = s.mem :=
  mem_of_only (State.startLog_only s) (by decide)
@[simp] theorem State.coreRuns_mem (s) : (State.coreRuns s).mem = s.mem :=
  mem_of_only (State.coreRuns_only s) (by decide)
@[simp] theorem State.startUpEnd_cells (s a1) (h : twf zeroB s.mem.cells = true) :
    twf zeroB (State.startUpEnd s a1).mem.cells = true := by
  unfold State.startUpEnd
  simp (maxDischargeDepth := 80) [h]
@[simp] theorem State.becomeReady_mem (s) : (State.becomeReady s).mem = s.mem :=
  mem_of_only (State.becomeReady_only s) (by decide)
@[simp] theorem State.reqWrite_mem (s a1 a2) : (State.reqWrite s a1 a2).mem = s.mem :=
  mem_of_only (State.reqWrite_only s a1 a2) (by decide)
@[simp] theorem State.msgReply_mem (s a1 a2 a3 a4) : (State.msgReply s a1 a2 a3 a4).mem = s.mem :=
  mem_of_only (State.msgReply_only s a1 a2 a3 a4) (by decide)
@[simp] theorem State.takeMsg_mem (s a1 a2) : (State.takeMsg s a1 a2).mem = s.mem :=
  mem_of_only (State.takeMsg_only s a1 a2) (by decide)
@[simp] theorem State.takeTow_mem (a0 s) : (State.takeTow a0 s).mem = s.mem :=
  mem_of_only (State.takeTow_only a0 s) (by decide)
@[simp] theorem State.nextMsg_mem (s) : (State.nextMsg s).mem = s.mem :=
  mem_of_only (State.nextMsg_only s) (by decide)
@[simp] theorem State.finish_mem (s a1 a2 a3 a4) : (State.finish s a1 a2 a3 a4).mem = s.mem :=
  mem_of_only (State.finish_only s a1 a2 a3 a4) (by decide)
@[simp] theorem State.finishFail_mem (s a1 a2) : (State.finishFail s a1 a2).mem = s.mem :=
  mem_of_only (State.finishFail_only s a1 a2) (by decide)
@[simp] theorem State.mailboxTake_mem (s) : (State.mailboxTake s).mem = s.mem :=
  mem_of_only (State.mailboxTake_only s) (by decide)
@[simp] theorem State.towpathRequest_mem (s a1) : (State.towpathRequest s a1).mem = s.mem :=
  mem_of_only (State.towpathRequest_only s a1) (by decide)
@[simp] theorem State.suppDiscard_mem (s) : (State.suppDiscard s).mem = s.mem :=
  mem_of_only (State.suppDiscard_only s) (by decide)
@[simp] theorem State.fwRestartBy_mem (s a1 a2) : (State.fwRestartBy s a1 a2).mem = s.mem :=
  mem_of_only (State.fwRestartBy_only s a1 a2) (by decide)
@[simp] theorem State.watchdogExpiry_mem (s) : (State.watchdogExpiry s).mem = s.mem :=
  mem_of_only (State.watchdogExpiry_only s) (by decide)
@[simp] theorem State.coreFault_mem (s a1) : (State.coreFault s a1).mem = s.mem :=
  mem_of_only (State.coreFault_only s a1) (by decide)
@[simp] theorem State.suppIntact_mem (s) : (State.suppIntact s).2.mem = s.mem :=
  mem_of_only (State.suppIntact_only s) (by decide)
@[simp] theorem State.restartDone_mem (s) : (State.restartDone s).mem = s.mem :=
  mem_of_only (State.restartDone_only s) (by decide)
@[simp] theorem State.wdtKick_mem (s) : (State.wdtKick s).mem = s.mem :=
  mem_of_only (State.wdtKick_only s) (by decide)
@[simp] theorem State.mctpReply_mem (s a1) : (State.mctpReply s a1).mem = s.mem :=
  mem_of_only (State.mctpReply_only s a1) (by decide)
@[simp] theorem State.entdaa_mem (s a1) : (State.entdaa s a1).mem = s.mem :=
  mem_of_only (State.entdaa_only s a1) (by decide)
@[simp] theorem State.setEid_mem (s a1) : (State.setEid s a1).mem = s.mem :=
  mem_of_only (State.setEid_only s a1) (by decide)
@[simp] theorem State.getEid_mem (s) : (State.getEid s).mem = s.mem :=
  mem_of_only (State.getEid_only s) (by decide)
@[simp] theorem State.getMctpVersion_mem (s a1) : (State.getMctpVersion s a1).mem = s.mem :=
  mem_of_only (State.getMctpVersion_only s a1) (by decide)
@[simp] theorem State.getMsgTypes_mem (s) : (State.getMsgTypes s).mem = s.mem :=
  mem_of_only (State.getMsgTypes_only s) (by decide)
@[simp] theorem State.getVendorMsgs_mem (s a1) : (State.getVendorMsgs s a1).mem = s.mem :=
  mem_of_only (State.getVendorMsgs_only s a1) (by decide)
@[simp] theorem State.msgEcho_mem (s) : (State.msgEcho s).mem = s.mem :=
  mem_of_only (State.msgEcho_only s) (by decide)
@[simp] theorem State.msgGetInfo_mem (s) : (State.msgGetInfo s).mem = s.mem :=
  mem_of_only (State.msgGetInfo_only s) (by decide)
@[simp] theorem State.msgSuppStatus_mem (s) : (State.msgSuppStatus s).mem = s.mem :=
  mem_of_only (State.msgSuppStatus_only s) (by decide)
@[simp] theorem State.msgLogRead_mem (s) : (State.msgLogRead s).mem = s.mem :=
  mem_of_only (State.msgLogRead_only s) (by decide)
@[simp] theorem State.msgTelemetry_mem (s) : (State.msgTelemetry s).mem = s.mem :=
  mem_of_only (State.msgTelemetry_only s) (by decide)
@[simp] theorem State.msgAttach_mem (s) : (State.msgAttach s).mem = s.mem :=
  mem_of_only (State.msgAttach_only s) (by decide)
@[simp] theorem State.suppSections_cells (a0 a1 a2 s) (h : twf zeroB s.mem.cells = true) :
    twf zeroB (State.suppSections a0 a1 a2 s).2.mem.cells = true := by
  fun_induction State.suppSections <;> simp_all (maxDischargeDepth := 80) +zetaDelta
@[simp] theorem State.suppVerified_cells (base) (n) (h0) (cert) (v : Bool × State) (h : twf zeroB v.2.mem.cells = true) : twf zeroB (State.suppVerified base n h0 cert v).2.mem.cells = true := by
  unfold State.suppVerified
  (repeat' (first | split | dsimp only)) <;> simp [h]
@[simp] theorem State.suppLoadBody_cells (s a1 a2 a3 a4) (h : twf zeroB s.mem.cells = true) :
    twf zeroB (State.suppLoadBody s a1 a2 a3 a4).2.mem.cells = true := by
  unfold State.suppLoadBody
  (repeat' (first | split | dsimp only)) <;> simp (maxDischargeDepth := 80) [h]
@[simp] theorem State.suppLoadTry_cells (s a1 a2) (h : twf zeroB s.mem.cells = true) :
    twf zeroB (State.suppLoadTry s a1 a2).2.mem.cells = true := by
  unfold State.suppLoadTry
  (repeat' (first | split | dsimp only)) <;> simp (maxDischargeDepth := 80) [h]
@[simp] theorem State.suppCommit_mem (s a1) : (State.suppCommit s a1).mem = s.mem :=
  mem_of_only (State.suppCommit_only s a1) (by decide)
@[simp] theorem State.msgSuppLoad_cells (s) (h : twf zeroB s.mem.cells = true) :
    twf zeroB (State.msgSuppLoad s).mem.cells = true := by
  unfold State.msgSuppLoad
  (repeat' (first | split | dsimp only)) <;> simp (maxDischargeDepth := 80) [h]
@[simp] theorem State.msgFwRestart_mem (s) : (State.msgFwRestart s).mem = s.mem :=
  mem_of_only (State.msgFwRestart_only s) (by decide)
@[simp] theorem State.msgReport_mem (s) : (State.msgReport s).mem = s.mem :=
  mem_of_only (State.msgReport_only s) (by decide)
@[simp] theorem State.msgExtend_cells (s) (h : twf zeroB s.mem.cells = true) :
    twf zeroB (State.msgExtend s).mem.cells = true := by
  unfold State.msgExtend
  (repeat' (first | split | dsimp only)) <;> simp (maxDischargeDepth := 80) [h]
@[simp] theorem State.msgClear_mem (s) : (State.msgClear s).mem = s.mem :=
  mem_of_only (State.msgClear_only s) (by decide)
@[simp] theorem State.msgCertRead_mem (s) : (State.msgCertRead s).mem = s.mem :=
  mem_of_only (State.msgCertRead_only s) (by decide)
@[simp] theorem State.powerReply_mem (s a1) : (State.powerReply s a1).mem = s.mem :=
  mem_of_only (State.powerReply_only s a1) (by decide)
@[simp] theorem State.msgPowerRun_cells (s) (h : twf zeroB s.mem.cells = true) :
    twf zeroB (State.msgPowerRun s).mem.cells = true := by
  unfold State.msgPowerRun
  (repeat' split) <;> simp (maxDischargeDepth := 80) [h]
@[simp] theorem State.msgSlack_cells (s) (h : twf zeroB s.mem.cells = true) :
    twf zeroB (State.msgSlack s).mem.cells = true := by
  unfold State.msgSlack
  (repeat' split) <;> simp (maxDischargeDepth := 80) [h]
@[simp] theorem State.msgDeepOff_mem (s) : (State.msgDeepOff s).mem = s.mem :=
  mem_of_only (State.msgDeepOff_only s) (by decide)
@[simp] theorem State.msgPowerLimit_mem (s) : (State.msgPowerLimit s).mem = s.mem :=
  mem_of_only (State.msgPowerLimit_only s) (by decide)
@[simp] theorem State.msgHistRead_mem (s) : (State.msgHistRead s).mem = s.mem :=
  mem_of_only (State.msgHistRead_only s) (by decide)
@[simp] theorem State.msgHistAdd_mem (s) : (State.msgHistAdd s).mem = s.mem :=
  mem_of_only (State.msgHistAdd_only s) (by decide)
@[simp] theorem State.histWritten_mem (s) : (State.histWritten s).mem = s.mem :=
  mem_of_only (State.histWritten_only s) (by decide)
@[simp] theorem State.msgMargin_mem (s a1 a2) : (State.msgMargin s a1 a2).mem = s.mem :=
  mem_of_only (State.msgMargin_only s a1 a2) (by decide)
@[simp] theorem State.cfgVerdict_mem (s) (r) (v : Bool × State) : (State.cfgVerdict s r v).2.mem = v.2.mem :=
  mem_of_only (State.cfgVerdict_only s r v) (by decide)
@[simp] theorem State.cfgCheck_mem (s a1 a2) : (State.cfgCheck s a1 a2).2.mem = s.mem :=
  mem_of_only (State.cfgCheck_only s a1 a2) (by decide)
@[simp] theorem State.msgConfigUpdate_cells (s) (h : twf zeroB s.mem.cells = true) :
    twf zeroB (State.msgConfigUpdate s).mem.cells = true := by
  unfold State.msgConfigUpdate
  (repeat' (first | split | dsimp only)) <;> simp (maxDischargeDepth := 80) [h]
@[simp] theorem State.barRefuse_mem (s) : (State.barRefuse s).mem = s.mem :=
  mem_of_only (State.barRefuse_only s) (by decide)
@[simp] theorem State.gwWake_cells (s a1 a2) (h : twf zeroB s.mem.cells = true) :
    twf zeroB (State.gwWake s a1 a2).mem.cells = true := by
  unfold State.gwWake
  (repeat' split) <;> simp_all (maxDischargeDepth := 80)
theorem State.gwRead_cells (s a n t) (hr : State.gwRead s a n = some t) (h : twf zeroB s.mem.cells = true) : twf zeroB t.mem.cells = true := by
  unfold State.gwRead at hr
  dsimp only at hr
  repeat' split at hr
  all_goals simp only [Option.some.injEq, reduceCtorEq] at hr
  all_goals subst hr
  all_goals simp (maxDischargeDepth := 80) [h]
theorem State.gwWrite_cells (s a bs t) (hr : State.gwWrite s a bs = some t) (h : twf zeroB s.mem.cells = true) : twf zeroB t.mem.cells = true := by
  unfold State.gwWrite at hr
  dsimp only at hr
  split at hr
  · simp at hr
  · simp only [Option.some.injEq] at hr
    subst hr
    simp (maxDischargeDepth := 80) [h]
theorem State.gwTry_cells (s r t) (hr : State.gwTry s r = some t) (h : twf zeroB s.mem.cells = true) : twf zeroB t.mem.cells = true := by
  cases r with
  | read a n => exact State.gwRead_cells s a n t hr h
  | write a bs => exact State.gwWrite_cells s a bs t hr h
@[simp] theorem State.gwHold_cells (s a1) (h : twf zeroB s.mem.cells = true) :
    twf zeroB (State.gwHold s a1).mem.cells = true := by
  unfold State.gwHold
  (repeat' split) <;> simp (maxDischargeDepth := 80) [h]
@[simp] theorem State.gwStep_cells (s) (h : twf zeroB s.mem.cells = true) :
    twf zeroB (State.gwStep s).mem.cells = true := by
  unfold State.gwStep
  split
  · exact h
  · split
    · rename_i t k
      have ht : twf zeroB t.mem.cells = true := State.gwTry_cells _ _ _ k h
      exact ht
    · simp [h]
@[simp] theorem State.gwArrive_cells (s a1) (h : twf zeroB s.mem.cells = true) :
    twf zeroB (State.gwArrive s a1).mem.cells = true := by
  unfold State.gwArrive
  simp (maxDischargeDepth := 80) [h]
@[simp] theorem State.gangwayRead_cells (s a1 a2) (h : twf zeroB s.mem.cells = true) :
    twf zeroB (State.gangwayRead s a1 a2).mem.cells = true := by
  unfold State.gangwayRead
  (repeat' (first | split | dsimp only)) <;> simp (maxDischargeDepth := 80) [h]
@[simp] theorem State.gangwayWrite_cells (s a1 a2) (h : twf zeroB s.mem.cells = true) :
    twf zeroB (State.gangwayWrite s a1 a2).mem.cells = true := by
  unfold State.gangwayWrite
  simp (maxDischargeDepth := 80) [h]
@[simp] theorem State.gwCommit_mem (s a1) : (State.gwCommit s a1).mem = s.mem :=
  mem_of_only (State.gwCommit_only s a1) (by decide)
@[simp] theorem State.msixDeliver_mem (s a1) : (State.msixDeliver s a1).mem = s.mem :=
  mem_of_only (State.msixDeliver_only s a1) (by decide)
@[simp] theorem State.deliverAll_mem (s) : (State.deliverAll s).mem = s.mem :=
  mem_of_only (State.deliverAll_only s) (by decide)
@[simp] theorem State.msixSet_mem (s a1 a2) : (State.msixSet s a1 a2).mem = s.mem :=
  mem_of_only (State.msixSet_only s a1 a2) (by decide)
@[simp] theorem State.msixEnable_mem (s) : (State.msixEnable s).mem = s.mem :=
  mem_of_only (State.msixEnable_only s) (by decide)
@[simp] theorem State.msixControl_mem (s a1 a2) : (State.msixControl s a1 a2).mem = s.mem :=
  mem_of_only (State.msixControl_only s a1 a2) (by decide)
@[simp] theorem State.msixWord_mem (s a1 a2) : (State.msixWord s a1 a2).mem = s.mem :=
  mem_of_only (State.msixWord_only s a1 a2) (by decide)
@[simp] theorem State.msixUnmask_mem (s a1) : (State.msixUnmask s a1).mem = s.mem :=
  mem_of_only (State.msixUnmask_only s a1) (by decide)
@[simp] theorem State.tlpUndo_mem (s a1) : (State.tlpUndo s a1).mem = s.mem :=
  mem_of_only (State.tlpUndo_only s a1) (by decide)
@[simp] theorem State.tlpLost_cells (s a1) (h : twf zeroB s.mem.cells = true) :
    twf zeroB (State.tlpLost s a1).mem.cells = true := by
  unfold State.tlpLost
  (repeat' split) <;> simp (maxDischargeDepth := 80) [h]
@[simp] theorem State.loseTlps_cells (s a1) (h : twf zeroB s.mem.cells = true) :
    twf zeroB (State.loseTlps s a1).mem.cells = true := by
  unfold State.loseTlps
  refine foldl_cells (fun t x ht => ?_) _ _ (foldl_cells (fun t x ht => ?_) _ _ h)
  · simp [ht]
  · simp [ht]
@[simp] theorem State.loseUnacked_cells (s) (h : twf zeroB s.mem.cells = true) :
    twf zeroB (State.loseUnacked s).mem.cells = true := by
  unfold State.loseUnacked
  split
  · exact h
  · exact State.loseTlps_cells _ _ (by simpa using h)
@[simp] theorem State.dlDown_cells (s) (h : twf zeroB s.mem.cells = true) :
    twf zeroB (State.dlDown s).mem.cells = true := by
  unfold State.dlDown
  split
  · exact h
  · refine foldl_cells (fun t e ht => ?_) _ _ (by simp [h])
    split <;> simp [ht]
@[simp] theorem State.flushOut_mem (a0 s) : (State.flushOut a0 s).mem = s.mem :=
  mem_of_only (State.flushOut_only a0 s) (by decide)
@[simp] theorem State.outFlow_mem (s) : (State.outFlow s).mem = s.mem :=
  mem_of_only (State.outFlow_only s) (by decide)
@[simp] theorem State.confSet_mem (s a1 a2) : (State.confSet s a1 a2).mem = s.mem :=
  mem_of_only (State.confSet_only s a1 a2) (by decide)
@[simp] theorem State.dlUp_mem (s a1) : (State.dlUp s a1).mem = s.mem :=
  mem_of_only (State.dlUp_only s a1) (by decide)
@[simp] theorem State.confWrite_mem (s a1 a2 a3) : (State.confWrite s a1 a2 a3).mem = s.mem :=
  mem_of_only (State.confWrite_only s a1 a2 a3) (by decide)
@[simp] theorem State.confRead_mem (s a1) : (State.confRead s a1).mem = s.mem :=
  mem_of_only (State.confRead_only s a1) (by decide)
@[simp] theorem State.linkLoss_cells (s) (h : twf zeroB s.mem.cells = true) :
    twf zeroB (State.linkLoss s).mem.cells = true := by
  unfold State.linkLoss
  (repeat' split) <;> simp (maxDischargeDepth := 80) [h]
@[simp] theorem State.perstAssert_cells (s) (h : twf zeroB s.mem.cells = true) :
    twf zeroB (State.perstAssert s).mem.cells = true := by
  unfold State.perstAssert
  simp (maxDischargeDepth := 80) [h]
@[simp] theorem State.perstDeassert_mem (s) : (State.perstDeassert s).mem = s.mem :=
  mem_of_only (State.perstDeassert_only s) (by decide)
@[simp] theorem State.crcScan_cells (s) (h : twf zeroB s.mem.cells = true) :
    twf zeroB (State.crcScan s).mem.cells = true := by
  unfold State.crcScan
  (repeat' (first | split | dsimp only)) <;> simp (maxDischargeDepth := 80) [h]
@[simp] theorem State.plainRead_mem (s a1 a2 a3) : (State.plainRead s a1 a2 a3).2.mem = s.mem :=
  mem_of_only (State.plainRead_only s a1 a2 a3) (by decide)
@[simp] theorem State.barRead_mem (s a1 a2) : (State.barRead s a1 a2).2.mem = s.mem :=
  mem_of_only (State.barRead_only s a1 a2) (by decide)
@[simp] theorem State.writeLow_cells (s a1 a2 a3 a4) (h : twf zeroB s.mem.cells = true) :
    twf zeroB (State.writeLow s a1 a2 a3 a4).mem.cells = true := by
  unfold State.writeLow
  (repeat' split) <;> simp (maxDischargeDepth := 80) [h]
@[simp] theorem State.writeQueue_cells (s a1 a2 a3 a4 a5 a6) (h : twf zeroB s.mem.cells = true) :
    twf zeroB (State.writeQueue s a1 a2 a3 a4 a5 a6).mem.cells = true := by
  unfold State.writeQueue
  (repeat' split) <;> simp (maxDischargeDepth := 80) [h]
@[simp] theorem State.writeSlip_mem (s a1 a2 a3 a4 a5) : (State.writeSlip s a1 a2 a3 a4 a5).mem = s.mem :=
  mem_of_only (State.writeSlip_only s a1 a2 a3 a4 a5) (by decide)
@[simp] theorem State.writeBerth_mem (s a1 a2 a3 a4 a5 a6) : (State.writeBerth s a1 a2 a3 a4 a5 a6).mem = s.mem :=
  mem_of_only (State.writeBerth_only s a1 a2 a3 a4 a5 a6) (by decide)
@[simp] theorem State.writeCqf_cells (s a1 a2 a3 a4 a5 a6) (h : twf zeroB s.mem.cells = true) :
    twf zeroB (State.writeCqf s a1 a2 a3 a4 a5 a6).mem.cells = true := by
  unfold State.writeCqf
  simp (maxDischargeDepth := 80) [h]
@[simp] theorem State.capWrite_mem (s a1) : (State.capWrite s a1).mem = s.mem :=
  mem_of_only (State.capWrite_only s a1) (by decide)
@[simp] theorem State.writeEngines_mem (s a1 a2 a3) : (State.writeEngines s a1 a2 a3).mem = s.mem :=
  mem_of_only (State.writeEngines_only s a1 a2 a3) (by decide)
@[simp] theorem State.writeFab_mem (s a1 a2 a3 a4 a5) : (State.writeFab s a1 a2 a3 a4 a5).mem = s.mem :=
  mem_of_only (State.writeFab_only s a1 a2 a3 a4 a5) (by decide)
@[simp] theorem State.writeItk_mem (s a1 a2 a3) : (State.writeItk s a1 a2 a3).mem = s.mem :=
  mem_of_only (State.writeItk_only s a1 a2 a3) (by decide)
@[simp] theorem State.writeHigh_mem (s a1 a2 a3 a4) : (State.writeHigh s a1 a2 a3 a4).mem = s.mem :=
  mem_of_only (State.writeHigh_only s a1 a2 a3 a4) (by decide)
@[simp] theorem State.ctlWrite_cells (s a1 a2 a3) (h : twf zeroB s.mem.cells = true) :
    twf zeroB (State.ctlWrite s a1 a2 a3).mem.cells = true := by
  unfold State.ctlWrite
  simp (maxDischargeDepth := 80) [h]
@[simp] theorem State.barWordWrite_cells (s a1 a2) (h : twf zeroB s.mem.cells = true) :
    twf zeroB (State.barWordWrite s a1 a2).mem.cells = true := by
  unfold State.barWordWrite
  (repeat' split) <;> simp (maxDischargeDepth := 80) [h]
@[simp] theorem State.regWrite_cells (s a1 a2 a3) (h : twf zeroB s.mem.cells = true) :
    twf zeroB (State.regWrite s a1 a2 a3).mem.cells = true := by
  unfold State.regWrite
  (repeat' split) <;> simp_all (maxDischargeDepth := 80)
@[simp] theorem State.barDo_cells (s) (f : State → State) (hf : ∀ t, twf zeroB t.mem.cells = true → twf zeroB (f t).mem.cells = true)
    (h : twf zeroB s.mem.cells = true) : twf zeroB (State.barDo s f).mem.cells = true := by
  unfold State.barDo
  split
  · exact State.byWrite_cells _ _ hf h
  · simp [h]
@[simp] theorem State.regRead_mem (s a1 a2) : (State.regRead s a1 a2).mem = s.mem :=
  mem_of_only (State.regRead_only s a1 a2) (by decide)
@[simp] theorem State.hostAccess_cells (s a1 a2 a3) (h : twf zeroB s.mem.cells = true) :
    twf zeroB (State.hostAccess s a1 a2 a3).mem.cells = true := by
  unfold State.hostAccess
  (repeat' split) <;> simp (maxDischargeDepth := 80) [h]
@[simp] theorem State.byCore_cells (s) (f : State → State) (hf : ∀ t, twf zeroB t.mem.cells = true → twf zeroB (f t).mem.cells = true) (h : twf zeroB s.mem.cells = true) : twf zeroB (State.byCore s f).mem.cells = true := by
  unfold State.byCore
  split
  · exact hf s h
  · exact h
@[simp] theorem State.databaseSettled_mem (s) : (State.databaseSettled s).mem = s.mem :=
  mem_of_only (State.databaseSettled_only s) (by decide)
@[simp] theorem State.seqWrite_cells (s a1 a2) (h : twf zeroB s.mem.cells = true) :
    twf zeroB (State.seqWrite s a1 a2).mem.cells = true := by
  unfold State.seqWrite
  simp (maxDischargeDepth := 80) [h]
@[simp] theorem State.countWrite_cells (s a1 a2) (h : twf zeroB s.mem.cells = true) :
    twf zeroB (State.countWrite s a1 a2).mem.cells = true := by
  unfold State.countWrite
  simp (maxDischargeDepth := 80) [h]
@[simp] theorem State.cqfWrite_cells (s a1 a2) (h : twf zeroB s.mem.cells = true) :
    twf zeroB (State.cqfWrite s a1 a2).mem.cells = true := by
  unfold State.cqfWrite
  simp (maxDischargeDepth := 80) [h]
@[simp] theorem State.tickBerth_mem (s a1) : (State.tickBerth s a1).mem = s.mem :=
  mem_of_only (State.tickBerth_only s a1) (by decide)
@[simp] theorem State.tickRail_mem (s) : (State.tickRail s).mem = s.mem :=
  mem_of_only (State.tickRail_only s) (by decide)
@[simp] theorem State.tickHeld_mem (s) : (State.tickHeld s).mem = s.mem :=
  mem_of_only (State.tickHeld_only s) (by decide)
@[simp] theorem State.tick_cells (s) (h : twf zeroB s.mem.cells = true) :
    twf zeroB (State.tick s).mem.cells = true := by
  unfold State.tick
  simp (maxDischargeDepth := 80) [h]
end Sys2Proof.Machine
end

