-- ==== Sys2Proof/Laws/Common.lean ====
section
/-!
SUPPORT. What the statements' proofs share: a running command's opcode, writes through BAR0 that leave the control registers
alone, and the arms of a match whose scrutinee is known.
-/
namespace Sys2Proof.Machine

theorem match_some {β : Type} {o : Option Cmd} {c : Cmd} {a : β} {b : Cmd → β} :
    o = some c → (match o with | none => a | some c => b c) = b c := by
  intro h; subst h; rfl
theorem match_ok {β : Type} {x : Except Fail Unit} {g : Fail → β} {b : β} :
    x = .ok () → (match x with | .error f => g f | .ok () => b) = b := by
  intro h; subst h; rfl
theorem match_error {β : Type} {x : Except Fail Unit} {f : Fail} {g : Fail → β} {b : β} :
    x = .error f → (match x with | .error f => g f | .ok () => b) = g f := by
  intro h; subst h; rfl

/-- A running command has the opcode it runs under. -/
theorem State.op_of_running {s : State} {q op : Nat} {c : Cmd} (h : s.running q op = some c) : c.op = op := by
  unfold State.running at h
  split at h
  · split at h
    · simp at h; subst h; simp_all
    · simp at h
  · simp at h
/-- A write that leaves the control registers alone sets no DIRTY. -/
theorem State.byWrite_of_regs {s : State} {f : State → State} (h : Piece.regs.same s (f s)) : s.byWrite f = f s := by
  have d (a : Tbl W16) : diffKeys a a = [] := by simp [diffKeys]
  have : s.cDiffers (f s) = false := by
    simp only [Piece.same] at h
    simp [State.cDiffers, h.1, h.2.1, h.2.2, d]
  simp [State.byWrite, this]
theorem State.byWrite_congr {s : State} {f g : State → State} (h : f s = g s) : s.byWrite f = s.byWrite g := by
  unfold State.byWrite; rw [h]
theorem State.barDo_of_regs {s : State} {f : State → State} (hb : s.barOpen = true) (h : Piece.regs.same s (f s)) : s.barDo f = f s := by
  rw [State.barDo, if_pos hb, State.byWrite_of_regs h]
theorem State.barDo_open {s : State} {f : State → State} (hb : s.barOpen = true) : s.barDo f = s.byWrite f := by
  rw [State.barDo, if_pos hb]
@[simp] theorem State.setReg_cqf (s : State) (o v : Nat) : (s.setReg o v).cqf = s.cqf := State.setReg_only s o v .cqf (by decide)
@[simp] theorem State.q_setReg (s : State) (o v n : Nat) : (s.setReg o v).q n = s.q n := by simp [State.q]

/-- A 4-byte write at a 4-byte boundary outside the mailbox request area is the write of one word (R310, R417). -/
theorem State.regWrite_word {s : State} {off data : Nat} (hb : s.barOpen = true) (h4 : off % 4 = 0) (hx : ¬ (0xF10000 ≤ off ∧ off < 0xF11000)) :
    s.regWrite off 4 data = s.byWrite fun t => t.barWordWrite off (data % 4294967296) := by
  have hx' (k : Nat) : ¬ (0xF10000 ≤ off ∧ off + 4 ≤ 0xF11000 ∧ 4 ≤ k) := by omega
  simp only [State.regWrite, hb, Bool.not_true, Bool.false_eq_true, if_false, if_neg (hx' _), h4, and_self, if_true]

/-- What a commanded action changes, it changes through BAR0 too; a refused access is reported in AER (R315). -/
theorem only_barDo {s : State} {f : State → State} {ps} (h : OnlyChanges ps s (f s)) (hr : Piece.regs ∉ ps) (hh : [.hif, .draws] ⊆ ps) :
    OnlyChanges ps s (s.barDo f) := by
  unfold State.barDo; split
  · rw [State.byWrite_of_regs (h .regs hr)]; exact h
  · exact (State.barRefuse_only_iff _ hh).2 (onlyChanges_refl _ _)

/-! Log and trace entries change the management state in the log, and a firmware act in its count (R348, R350). -/
theorem State.logPut_mgt (e v r : Nat) (a : List W32) (s : State) : ∃ l, (s.logPut e v r a).mgt = { s.mgt with log := l } := by
  unfold State.logPut; split
  · exact ⟨_, rfl⟩
  · exact ⟨_, rfl⟩
theorem State.tracePoints_mgt (ps : List Nat) (s : State) : ∃ l, (ps.foldl State.tracePoint s).mgt = { s.mgt with log := l } := by
  induction ps generalizing s with
  | nil => exact ⟨s.mgt.log, rfl⟩
  | cons p ps ih =>
    obtain ⟨l, hl⟩ := ih (s.tracePoint p)
    simp only [List.foldl_cons, hl]
    unfold State.tracePoint
    split
    · obtain ⟨k, hk⟩ := State.logPut_mgt p _ 2 _ s
      rw [hk]; exact ⟨l, rfl⟩
    · exact ⟨l, rfl⟩
theorem State.trace_mgt (k n : Nat) (s : State) : ∃ l a, (s.trace k n).mgt = { s.mgt with log := l, acts := a } := by
  unfold State.trace
  obtain ⟨l, hl⟩ := State.tracePoints_mgt (s.traceOn k n ++ (if s.mgt.supp.isSome then s.traceOn 16 16 else [])) s
  exact ⟨l, s.mgt.acts + 1, by simp only [hl]⟩
theorem State.trace_cause (k n : Nat) (s : State) : (s.trace k n).mgt.cause = s.mgt.cause := by
  obtain ⟨l, a, h⟩ := State.trace_mgt k n s; rw [h]
theorem State.logWrite_cause (e sev : Nat) (a : List Nat) (s : State) : (s.logWrite e sev a).mgt.cause = s.mgt.cause := by
  obtain ⟨l, h⟩ := State.logPut_mgt e sev 0 (a.map fun a => BitVec.ofNat 32 a) s
  unfold State.logWrite; rw [h]
end Sys2Proof.Machine
end

