-- ==== Sys2Proof/Laws/PerInstr.lean ====
section
/-!
SUPPORT. Per command: the queue of waiting commands is in no command's frame.
-/
namespace Sys2Proof.Laws.KeepsQueue
set_option Elab.async false
open Sys2Proof Sys2Proof.Machine

/-- The queue of waiting commands is not among the blocks the command may change. -/
def Statement (i : Instr) : Prop := Piece.pending ∉ touches i

theorem nop q : Statement (.nop q) := by simp [Statement, touches]
theorem writeImm q : Statement (.writeImm q) := by simp [Statement, touches]
theorem tokenSet q : Statement (.tokenSet q) := by simp [Statement, touches]
theorem slipAcquire q : Statement (.slipAcquire q) := by simp [Statement, touches]
theorem slipPublish q : Statement (.slipPublish q) := by simp [Statement, touches]
theorem slipWait q : Statement (.slipWait q) := by simp [Statement, touches]
theorem slipRelease q : Statement (.slipRelease q) := by simp [Statement, touches]
theorem mmProduct q : Statement (.mmProduct q) := by simp [Statement, touches]
theorem mmCombine q : Statement (.mmCombine q) := by simp [Statement, touches]
theorem mmAccOpen q : Statement (.mmAccOpen q) := by simp [Statement, touches]
theorem mmAccFlush q : Statement (.mmAccFlush q) := by simp [Statement, touches]
theorem vxConvert q : Statement (.vxConvert q) := by simp [Statement, touches]
theorem vxEltwise q : Statement (.vxEltwise q) := by simp [Statement, touches]
theorem vxReduce q : Statement (.vxReduce q) := by simp [Statement, touches]
theorem vxNorm q : Statement (.vxNorm q) := by simp [Statement, touches]
theorem vxSoftmax q : Statement (.vxSoftmax q) := by simp [Statement, touches]
theorem vxOptDelayed q : Statement (.vxOptDelayed q) := by simp [Statement, touches]
theorem vecRowIssue d : Statement (.vecRowIssue d) := by simp [Statement, touches]
theorem vecRowEnd d flt : Statement (.vecRowEnd d flt) := by simp [Statement, touches]
theorem quadrantWake d : Statement (.quadrantWake d) := by simp [Statement, touches]
theorem nbFerry q : Statement (.nbFerry q) := by simp [Statement, touches]
theorem nbOptimize q : Statement (.nbOptimize q) := by simp [Statement, touches]
theorem nbAttend q : Statement (.nbAttend q) := by simp [Statement, touches]
theorem nbRepair q : Statement (.nbRepair q) := by simp [Statement, touches]
theorem rowIndexIssue st : Statement (.rowIndexIssue st) := by simp [Statement, touches]
theorem rowOperationEnd u flt : Statement (.rowOperationEnd u flt) := by simp [Statement, touches]
theorem repairMapSwitch st : Statement (.repairMapSwitch st) := by simp [Statement, touches]
theorem ttCopy q : Statement (.ttCopy q) := by simp [Statement, touches]
theorem ttFill q : Statement (.ttFill q) := by simp [Statement, touches]
theorem ttRegionSet q : Statement (.ttRegionSet q) := by simp [Statement, touches]
theorem ttRegionClear q : Statement (.ttRegionClear q) := by simp [Statement, touches]
theorem ttRegionHint q : Statement (.ttRegionHint q) := by simp [Statement, touches]
theorem ttPlace q : Statement (.ttPlace q) := by simp [Statement, touches]
theorem ttTollSet q : Statement (.ttTollSet q) := by simp [Statement, touches]
theorem ttTollClose q : Statement (.ttTollClose q) := by simp [Statement, touches]
theorem ttFordSet q : Statement (.ttFordSet q) := by simp [Statement, touches]
theorem ttFordStep q : Statement (.ttFordStep q) := by simp [Statement, touches]
theorem ttFordEnd q : Statement (.ttFordEnd q) := by simp [Statement, touches]
theorem ttCompress q flt : Statement (.ttCompress q flt) := by simp [Statement, touches]
theorem ttRetire q : Statement (.ttRetire q) := by simp [Statement, touches]
theorem ttTide q flt : Statement (.ttTide q flt) := by simp [Statement, touches]
theorem backgroundMoveStart page : Statement (.backgroundMoveStart page) := by simp [Statement, touches]
theorem pageMoveSwitch page : Statement (.pageMoveSwitch page) := by simp [Statement, touches]
theorem accessCounterHalving : Statement (.accessCounterHalving) := by simp [Statement, touches]
theorem xcReduce q flt : Statement (.xcReduce q flt) := by simp [Statement, touches]
theorem xcReduceComp q flt : Statement (.xcReduceComp q flt) := by simp [Statement, touches]
theorem xcGather q : Statement (.xcGather q) := by simp [Statement, touches]
theorem xcBroadcast q : Statement (.xcBroadcast q) := by simp [Statement, touches]
theorem xcAttnCombine q flt : Statement (.xcAttnCombine q flt) := by simp [Statement, touches]
theorem xcRankSet q : Statement (.xcRankSet q) := by simp [Statement, touches]
theorem peerTimeout g : Statement (.peerTimeout g) := by simp [Statement, touches]
theorem ikBatch q : Statement (.ikBatch q) := by simp [Statement, touches]
theorem ikVocabLoad q : Statement (.ikVocabLoad q) := by simp [Statement, touches]
theorem ikCacheFlush q : Statement (.ikCacheFlush q) := by simp [Statement, touches]
theorem decodeStart lane : Statement (.decodeStart lane) := by simp [Statement, touches]
theorem decodeEnd lane : Statement (.decodeEnd lane) := by simp [Statement, touches]
theorem stagingReserve lane : Statement (.stagingReserve lane) := by simp [Statement, touches]
theorem transformSample flt : Statement (.transformSample flt) := by simp [Statement, touches]
theorem roiPoll : Statement (.roiPoll) := by simp [Statement, touches]
theorem entryTake q : Statement (.entryTake q) := by simp [Statement, touches]
theorem hostRingPoll q : Statement (.hostRingPoll q) := by simp [Statement, touches]
theorem listFetch q : Statement (.listFetch q) := by simp [Statement, touches]
theorem commandDispatch q : Statement (.commandDispatch q) := by simp [Statement, touches]
theorem commandComplete q : Statement (.commandComplete q) := by simp [Statement, touches]
theorem queueTimeout q : Statement (.queueTimeout q) := by simp [Statement, touches]
theorem resumeNext q : Statement (.resumeNext q) := by simp [Statement, touches]
theorem dropList q : Statement (.dropList q) := by simp [Statement, touches]
theorem queueReset q : Statement (.queueReset q) := by simp [Statement, touches]
theorem queueEnable q : Statement (.queueEnable q) := by simp [Statement, touches]
theorem queueDisable q : Statement (.queueDisable q) := by simp [Statement, touches]
theorem dispatchHold en : Statement (.dispatchHold en) := by simp [Statement, touches]
theorem cqfPeakClr : Statement (.cqfPeakClr) := by simp [Statement, touches]
theorem slipwayEnable sl en : Statement (.slipwayEnable sl en) := by simp [Statement, touches]
theorem berthOpen b : Statement (.berthOpen b) := by simp [Statement, touches]
theorem berthClose b : Statement (.berthClose b) := by simp [Statement, touches]
theorem landingBufferGrant : Statement (.landingBufferGrant) := by simp [Statement, touches]
theorem transferTagGrant pool : Statement (.transferTagGrant pool) := by simp [Statement, touches]
theorem workItemIssue c : Statement (.workItemIssue c) := by simp [Statement, touches]
theorem workItemComplete c flt : Statement (.workItemComplete c flt) := by simp [Statement, touches]
theorem clusterWake c : Statement (.clusterWake c) := by simp [Statement, touches]
theorem matNfClr : Statement (.matNfClr) := by simp [Statement, touches]
theorem vecNfClr : Statement (.vecNfClr) := by simp [Statement, touches]
theorem nbuNfClr : Statement (.nbuNfClr) := by simp [Statement, touches]
theorem xchNfClr : Statement (.xchNfClr) := by simp [Statement, touches]
theorem itkNfClr : Statement (.itkNfClr) := by simp [Statement, touches]
theorem itkPeakClr : Statement (.itkPeakClr) := by simp [Statement, touches]
theorem itkCacheRegionWrite data : Statement (.itkCacheRegionWrite data) := by simp [Statement, touches]
theorem frameTransmit p : Statement (.frameTransmit p) := by simp [Statement, touches]
theorem frameReceive p bytes : Statement (.frameReceive p bytes) := by simp [Statement, touches]
theorem replayTimeout p : Statement (.replayTimeout p) := by simp [Statement, touches]
theorem nakRepeat p : Statement (.nakRepeat p) := by simp [Statement, touches]
theorem lockLoss p : Statement (.lockLoss p) := by simp [Statement, touches]
theorem retrainDone p ok : Statement (.retrainDone p ok) := by simp [Statement, touches]
theorem retrainTimeout p : Statement (.retrainTimeout p) := by simp [Statement, touches]
theorem portLock p : Statement (.portLock p) := by simp [Statement, touches]
theorem trainingTimeout p : Statement (.trainingTimeout p) := by simp [Statement, touches]
theorem failedRetry p : Statement (.failedRetry p) := by simp [Statement, touches]
theorem versionRetry p : Statement (.versionRetry p) := by simp [Statement, touches]
theorem versionOffer p : Statement (.versionOffer p) := by simp [Statement, touches]
theorem versionAccept p : Statement (.versionAccept p) := by simp [Statement, touches]
theorem linkNotice p : Statement (.linkNotice p) := by simp [Statement, touches]
theorem drainTimeout p : Statement (.drainTimeout p) := by simp [Statement, touches]
theorem write p : Statement (.write p) := by simp [Statement, touches]
theorem read p : Statement (.read p) := by simp [Statement, touches]
theorem completion p : Statement (.completion p) := by simp [Statement, touches]
theorem refusal p : Statement (.refusal p) := by simp [Statement, touches]
theorem segment p flt : Statement (.segment p flt) := by simp [Statement, touches]
theorem abortSegment p : Statement (.abortSegment p) := by simp [Statement, touches]
theorem notice p : Statement (.notice p) := by simp [Statement, touches]
theorem lsa p : Statement (.lsa p) := by simp [Statement, touches]
theorem idGrant p : Statement (.idGrant p) := by simp [Statement, touches]
theorem cplTimeout tag : Statement (.cplTimeout tag) := by simp [Statement, touches]
theorem lsaRefresh : Statement (.lsaRefresh) := by simp [Statement, touches]
theorem lsaExpiry serial : Statement (.lsaExpiry serial) := by simp [Statement, touches]
theorem databaseSettled : Statement (.databaseSettled) := by simp [Statement, touches]
theorem fabRtShadowWrite data : Statement (.fabRtShadowWrite data) := by simp [Statement, touches]
theorem swap : Statement (.swap) := by simp [Statement, touches]
theorem copy : Statement (.copy) := by simp [Statement, touches]
theorem copyDone : Statement (.copyDone) := by simp [Statement, touches]
theorem portReset p : Statement (.portReset p) := by simp [Statement, touches]
theorem fabIdCfgWrite data : Statement (.fabIdCfgWrite data) := by simp [Statement, touches]
theorem gangwayRead off len : Statement (.gangwayRead off len) := by simp [Statement, touches]
theorem gangwayWrite off bytes : Statement (.gangwayWrite off bytes) := by simp [Statement, touches]
theorem hifGwBaseHiWrite data : Statement (.hifGwBaseHiWrite data) := by simp [Statement, touches]
theorem hifLlTimeoutWrite data : Statement (.hifLlTimeoutWrite data) := by simp [Statement, touches]
theorem hostCompletion q res : Statement (.hostCompletion q res) := by simp [Statement, touches]
theorem hostCompletionTimeout q : Statement (.hostCompletionTimeout q) := by simp [Statement, touches]
theorem msixEnable : Statement .msixEnable := by simp [Statement, touches]
theorem dlDown : Statement .dlDown := by simp [Statement, touches]
theorem dlUp link : Statement (.dlUp link) := by simp [Statement, touches]
theorem linkLossTimeout : Statement (.linkLossTimeout) := by simp [Statement, touches]
theorem perstAssert : Statement (.perstAssert) := by simp [Statement, touches]
theorem perstDeassert : Statement (.perstDeassert) := by simp [Statement, touches]
theorem hotReset : Statement (.hotReset) := by simp [Statement, touches]
theorem linkDisable : Statement (.linkDisable) := by simp [Statement, touches]
theorem functionLevelReset : Statement (.functionLevelReset) := by simp [Statement, touches]
theorem d3hotEntry : Statement (.d3hotEntry) := by simp [Statement, touches]
theorem d3hotExit : Statement (.d3hotExit) := by simp [Statement, touches]
theorem mailboxTake : Statement (.mailboxTake) := by simp [Statement, touches]
theorem towpathRequest bytes : Statement (.towpathRequest bytes) := by simp [Statement, touches]
theorem entdaa addr : Statement (.entdaa addr) := by simp [Statement, touches]
theorem setEndpointId eid : Statement (.setEndpointId eid) := by simp [Statement, touches]
theorem getEndpointId : Statement (.getEndpointId) := by simp [Statement, touches]
theorem getMctpVersionSupport type : Statement (.getMctpVersionSupport type) := by simp [Statement, touches]
theorem getMessageTypeSupport : Statement (.getMessageTypeSupport) := by simp [Statement, touches]
theorem getVendorDefinedMsgSupport sel : Statement (.getVendorDefinedMsgSupport sel) := by simp [Statement, touches]
theorem echo : Statement (.echo) := by simp [Statement, touches]
theorem attach : Statement (.attach) := by simp [Statement, touches]
theorem getInfo : Statement (.getInfo) := by simp [Statement, touches]
theorem supplementLoad : Statement (.supplementLoad) := by simp [Statement, touches]
theorem supplementStatus : Statement (.supplementStatus) := by simp [Statement, touches]
theorem fwRestart : Statement (.fwRestart) := by simp [Statement, touches]
theorem logRead : Statement (.logRead) := by simp [Statement, touches]
theorem telemetry : Statement (.telemetry) := by simp [Statement, touches]
theorem attestReport : Statement (.attestReport) := by simp [Statement, touches]
theorem attestExtend : Statement (.attestExtend) := by simp [Statement, touches]
theorem attestClear : Statement (.attestClear) := by simp [Statement, touches]
theorem certRead : Statement (.certRead) := by simp [Statement, touches]
theorem powerStateRun : Statement (.powerStateRun) := by simp [Statement, touches]
theorem powerStateSlackWater : Statement (.powerStateSlackWater) := by simp [Statement, touches]
theorem powerStateDeepOff : Statement (.powerStateDeepOff) := by simp [Statement, touches]
theorem deepOffBegin : Statement (.deepOffBegin) := by simp [Statement, touches]
theorem powerLimit : Statement (.powerLimit) := by simp [Statement, touches]
theorem errHistoryRead : Statement (.errHistoryRead) := by simp [Statement, touches]
theorem errHistoryAdd : Statement (.errHistoryAdd) := by simp [Statement, touches]
theorem historyWriteDone : Statement (.historyWriteDone) := by simp [Statement, touches]
theorem margin lo hi : Statement (.margin lo hi) := by simp [Statement, touches]
theorem configUpdate : Statement (.configUpdate) := by simp [Statement, touches]
theorem watchdogExpiry : Statement (.watchdogExpiry) := by simp [Statement, touches]
theorem mgtRestart discard : Statement (.mgtRestart discard) := by simp [Statement, touches]
theorem coreFault kind : Statement (.coreFault kind) := by simp [Statement, touches]
theorem firmwareRestartDone : Statement (.firmwareRestartDone) := by simp [Statement, touches]
theorem wdtKick : Statement (.wdtKick) := by simp [Statement, touches]
theorem scrubRead cap upset elsewhere : Statement (.scrubRead cap upset elsewhere) := by simp [Statement, touches]
theorem crcScan : Statement (.crcScan) := by simp [Statement, touches]
theorem cfgCrcRefHiWrite data : Statement (.cfgCrcRefHiWrite data) := by simp [Statement, touches]
theorem adopt : Statement (.adopt) := by simp [Statement, touches]
theorem voteScan upset : Statement (.voteScan upset) := by simp [Statement, touches]
theorem qualWrite on : Statement (.qualWrite on) := by simp [Statement, touches]
theorem out unit : Statement (.out unit) := by simp [Statement, touches]
theorem requalify unit : Statement (.requalify unit) := by simp [Statement, touches]
theorem admitUnit unit : Statement (.admitUnit unit) := by simp [Statement, touches]
theorem requalificationEnd unit res : Statement (.requalificationEnd unit res) := by simp [Statement, touches]
theorem pseudoChannelLockLoss n : Statement (.pseudoChannelLockLoss n) := by simp [Statement, touches]
theorem powerOn puf : Statement (.powerOn puf) := by simp [Statement, touches]
theorem brownOut : Statement (.brownOut) := by simp [Statement, touches]
theorem overVoltage : Statement (.overVoltage) := by simp [Statement, touches]
theorem inputLow : Statement (.inputLow) := by simp [Statement, touches]
theorem inputHigh : Statement (.inputHigh) := by simp [Statement, touches]
theorem thermalTrip sensor temp : Statement (.thermalTrip sensor temp) := by simp [Statement, touches]
theorem arbiterWindow m : Statement (.arbiterWindow m) := by simp [Statement, touches]
theorem pwrSetpointWrite data : Statement (.pwrSetpointWrite data) := by simp [Statement, touches]
theorem pwrLimitWrite data : Statement (.pwrLimitWrite data) := by simp [Statement, touches]
theorem postedWriteApply blk : Statement (.postedWriteApply blk) := by simp [Statement, touches]
theorem engineReset mask : Statement (.engineReset mask) := by simp [Statement, touches]
theorem engineResetDone e : Statement (.engineResetDone e) := by simp [Statement, touches]
theorem ready : Statement (.ready) := by simp [Statement, touches]
theorem tierSelfRefreshReturn cap : Statement (.tierSelfRefreshReturn cap) := by simp [Statement, touches]
theorem oscillatorFail : Statement (.oscillatorFail) := by simp [Statement, touches]
theorem statusSeqClear off data : Statement (.statusSeqClear off data) := by simp [Statement, touches]
theorem countSeqClear off data : Statement (.countSeqClear off data) := by simp [Statement, touches]
theorem registerWrite off size acc : Statement (.registerWrite off size acc) := by simp [Statement, touches]
theorem portEnableWrite p en : Statement (.portEnableWrite p en) := by simp [Statement, touches]
theorem msixUnmask vec : Statement (.msixUnmask vec) := by simp [Statement, touches]
theorem startUpEnd res : Statement (.startUpEnd res) := by simp [Statement, touches]
theorem inputRestored : Statement (.inputRestored) := by simp [Statement, touches]
theorem hotCReached sensor temp : Statement (.hotCReached sensor temp) := by simp [Statement, touches]
theorem weirWrite b data : Statement (.weirWrite b data) := by simp [Statement, touches]
theorem cqfConfigWrite off data : Statement (.cqfConfigWrite off data) := by simp [Statement, touches]
theorem intakeDomainWake : Statement (.intakeDomainWake) := by simp [Statement, touches]

end Sys2Proof.Laws.KeepsQueue
end

