-- ==== Sys2Proof/Tests/Slice0.lean ====
section
/-!
SUPPORT. Tests: every check of WellFormed refuses an ill-formed command, and for every statement with hypotheses a concrete state and
operands that meet them, clause by clause. The states are small variations of a running module. Expected values come from the spec's
tables, never from a run of the model.
-/
set_option linter.all false
set_option Elab.async false
set_option maxRecDepth 10000
namespace Sys2Proof.Tests
open Sys2Proof Sys2Proof.Machine

/-! Helpers. -/

/-- A module in use: powered, READY, the link up, the core running, one untyped region of 16 pages at 0. -/
def on : State := { State.reset with
  hif := { Hif.reset with up := true, bme := true, rrs := false, conf := { PciConf.reset with memSpace := true } }, mgt := { Mgt.reset with core := 1 },
  pwr := { Pwr.reset with step := 9, ready := true },
  mem := { Mem.reset with regions := [(0, some ⟨0, 16, 0, 0, 0, [], false⟩)] } }
/-- The same after t ns. -/
def late (t : Nat) (s : State := on) : State := { s with pwr := { s.pwr with time := t } }
/-- A command of an opcode with its parameter words, dispatched. -/
def cmdOf (op : Nat) (ps : List Nat) : Cmd :=
  { op := op, tag := 7, fence := false, notify := false, ordered := false, waitTok := none, sigTok := none,
    params := ps.map (BitVec.ofNat 64), since := 0, phase := .running, stop := none }
/-- A state in which a queue runs it. -/
def runs (q op : Nat) (ps : List Nat) (s : State := on) : State :=
  s.setQ q { Queue.reset with state := .active, cmd := some (cmdOf op ps) }
/-- A check passes; it fails. -/
def ok {α : Type} (x : Except Fail α) : Bool := match x with
  | .ok _ => true
  | .error _ => false
def bad {α : Type} (x : Except Fail α) : Bool := !ok x
/-- Bytes have been read. -/
def got (x : Opd × State) : Bool := match x.1 with
  | .bytes _ => true
  | _ => false
/-- An outcome is a next state. -/
def next (o : Out) : Bool := match o with
  | .next _ => true
  | _ => false

/-! WellFormed refuses. -/

theorem wf_frame : (Instr.frameReceive 0 [0]).wf = false := by decide
theorem wf_gangwayRead_empty : (Instr.gangwayRead 0 0).wf = false := by decide
theorem wf_gangwayRead_beyond : (Instr.gangwayRead 268435455 2).wf = false := by decide
theorem wf_gangwayWrite_empty : (Instr.gangwayWrite 0 []).wf = false := by decide
theorem wf_gangwayWrite_beyond : (Instr.gangwayWrite 268435455 [0, 0]).wf = false := by decide
theorem wf_towpath_short : (Instr.towpathRequest [0]).wf = false := by decide
theorem wf_towpath_length : (Instr.towpathRequest (List.replicate 64 1)).wf = true := by decide +kernel
theorem wf_towpath_mismatch : (Instr.towpathRequest (List.replicate 65 0)).wf = false := by decide +kernel
theorem wf_register_none : (Instr.registerWrite 0 0 (.write 0)).wf = false ∧ (Instr.registerWrite 0 0 .read).wf = false := by decide
theorem wf_register_large : (Instr.registerWrite 0 4097 .read).wf = false ∧
    (Instr.registerWrite 0 513 (.write 0)).wf = false := by decide
theorem wf_register_beyond : (Instr.registerWrite 33554429 4 (.write 0)).wf = false ∧
    (Instr.registerWrite 33554429 4 .read).wf = false := by decide
/-- A configuration: Max Payload Size, Completion Timeout Value. -/
def conf (mps range : Nat) : PciConf := { PciConf.reset with memSpace := true, mps := mps, cplRange := range }
theorem wf_configuration : (Instr.registerWrite 4 4 (.configWrite true (conf 128 0) 0)).wf = true ∧
    (Instr.registerWrite 4 4 (.configWrite true (conf 64 0) 0)).wf = false ∧
    (Instr.registerWrite 4 4 (.configWrite true (conf 128 3) 0)).wf = false ∧
    (Instr.registerWrite 4096 4 .configRead).wf = false := by decide
theorem wf_link : (Instr.dlUp ⟨0, 16, true, true, conf 128 0⟩).wf = false ∧ (Instr.dlUp ⟨8, 16, true, true, conf 128 0⟩).wf = false ∧
    (Instr.dlUp ⟨7, 2, true, true, conf 128 0⟩).wf = false ∧ (Instr.dlUp ⟨7, 16, false, true, conf 128 0⟩).wf = false ∧
    (Instr.dlUp ⟨7, 16, true, true, conf 64 0⟩).wf = false := by decide
theorem wf_puf : (Instr.powerOn [0]).wf = false := by decide
theorem wf_upset : (Instr.scrubRead false [(36, 1)] []).wf = false ∧ (Instr.scrubRead true [(72, 1)] []).wf = false ∧
    (Instr.scrubRead true [] [(0, 72, 1)]).wf = false ∧ (Instr.scrubRead true [] [(2 ^ 41, 0, 1)]).wf = false := by decide

/-! Witnesses: registers and the front end. -/

theorem w_StepTakesTheFront : ({ on with pending := [.nop 0] } : State).pending = .nop 0 :: [] ∧ on.pending = [] := by decide +kernel
theorem w_InvariantKept : Inv on = true ∧ next (step { on with pending := [.nop 0, .swap] }) = true := by decide +kernel
theorem test_commands_complete : next (exec (.nop 0) on) = true ∧ next (exec (.frameReceive 0 []) on) = true ∧
    next (exec (.towpathRequest []) on) = true := by decide +kernel
theorem w_ReservedLocations : reservedAt 0x120000 = true ∧ reservedAt 0x1FFFFF8 = true ∧ reservedAt 0x1FFFFFC = true ∧
    0x1FFFFF8 % 8 = 0 ∧ 0x1FFFFF8 + 8 ≤ 2 ^ 25 ∧ on.barOpen = true ∧ on.hif.latch = none := by decide +kernel
theorem test_reserved_not : reservedAt 0x20000C = false ∧ reservedAt 0xF10000 = false ∧ reservedAt 0x447FFC = false := by decide +kernel
theorem w_StatusSequenceClear : isStat 0x34 = true ∧ isStat 0x200000 = true ∧ on.barOpen = true ∧ bitAt (0x12000001#32).toNat 0 = true ∧
    bitAt (0x12000001#32).toNat 1 = false ∧ (0x12000001#32).toNat / 16777216 ≠ (0x13000003#32).toNat / 16777216 := by decide +kernel
/-- Table 17.1: the refused clear and its retry. -/
theorem test_table_17_1 : seqClear 0xFFFFFF 0x13000003 0x12000001 = 0x14800003 ∧ seqClear 0xFFFFFF 0x14800003 0x14800003 = 0x14000000 := by
  decide +kernel
theorem w_CountSequenceClear : isRc 0x38 = true ∧ on.barOpen = true ∧ (0x00FFFFFF#32).toNat % 16777216 = 0xFFFFFF ∧
    countClear 0x02000005 0x02000000 = 0x02000000 ∧ countClear 0x02000005 0x03000000 = 0x02000005 := by decide +kernel
/-- The BARs closed: the function in D3hot. -/
def shut : State := { on with pwr := { on.pwr with state := 2 } }
theorem w_RegisterWrites : barFormed 0x30 4 = true ∧ barFormed 0x30 0 = false ∧ barFormed 0x1FFFFFC 8 = false ∧ barFormed 0x30 8 = true ∧
    barFormed 0xF10000 128 = true ∧ barFormed 0x30 3 = true ∧ on.barOpen = true ∧ shut.barOpen = false ∧ on.hif.conf.mps = 128 ∧
    ((regAt 0x500000).any fun a => decide (a.reg.kind = .ctl false ∧ 5 / 65536 &&& (a.reg.storeMask ||| a.reg.actMask) = 0)) = true ∧
    on.confOpen = true ∧ State.reset.confOpen = false ∧ confFormed (conf 512 14) = true ∧ confFormed (conf 64 0) = false := by decide +kernel
/-- A masked write of a value to 16 payload bits. -/
def wr (mask v : Nat) : W32 := BitVec.ofNat 32 (65536 * mask + v)
/-- A posted write waits in a slow domain. -/
def posted (blk : Nat) : State := { on with pwr := { on.pwr with posted := tput noneD on.pwr.posted blk (some (0x20000C, 700)) } }
theorem w_PostedWrites : on.barOpen = true ∧ shut.barOpen = false ∧ (wr 0 750).toNat / 65536 = 0 ∧ (wr 0x3FF 750).toNat / 65536 ≠ 0 ∧
    maskedWrite (on.rd 0x20000C) (wr 0x3FF 750).toNat 1023 = 750 ∧ postPayload 0x20000C (on.rd 0x20000C) 750 = some 750 ∧
    maskedWrite (on.rd 0x20000C) (wr 0x3FF 1000).toNat 1023 = 1000 ∧ postPayload 0x20000C (on.rd 0x20000C) 1000 = none ∧
    maskedWrite (on.rd 0x200010) (wr 0x7FF 1200).toNat 2047 = 1200 ∧ postPayload 0x200010 (on.rd 0x200010) 1200 = some 1200 ∧
    maskedWrite (on.rd 0x200010) (wr 0x7FF 0).toNat 2047 = 0 ∧ postPayload 0x200010 (on.rd 0x200010) 0 = none ∧
    tget noneD on.pwr.posted 0 = none ∧ (tget noneD (posted 0).pwr.posted 0).isSome = true ∧
    tget noneD (posted 2).pwr.posted 2 = some (0x20000C, 700) ∧ tget noneD on.pwr.posted 2 = none := by decide +kernel
theorem w_HostRegistersCommit : on.barOpen = true ∧ shut.barOpen = false ∧ (wr 0 5).toNat / 65536 = 0 ∧ (wr 0xFFE0 5).toNat / 65536 &&& 0x1F = 0 ∧
    maskedWrite (on.rdT 0x400014) (wr 0xFFFF 10).toNat 0xFFFF = 10 ∧ maskedWrite (on.rdT 0x400014) (wr 0xFFFF 10000).toNat 0xFFFF = 10000 ∧
    maskedWrite (on.rdT 0x400014) (wr 0xFFFF 9).toNat 0xFFFF = 9 ∧ maskedWrite (on.rdT 0x400014) (wr 0xFFFF 10001).toNat 0xFFFF = 10001 ∧
    (wr 0x1F 31).toNat / 65536 &&& 0x1F ≠ 0 ∧ maskedWrite (on.rd 0x400010) (wr 0x1F 31).toNat 0x1F = 31 ∧
    (on.setReg 0x40000C 0xFF00).rd 0x40000C + 65536 * 31 = 0x1FFF00 ∧ 0x1FFF00 < (on.setReg 0x40000C 0xFF01).rd 0x40000C + 65536 * 31 ∧
    (wr 0xFFFF 1).toNat / 65536 ≠ 0 := by decide +kernel
theorem w_FabricAndIntakeRegisters : on.barOpen = true ∧ shut.barOpen = false ∧ (wr 0 5).toNat / 65536 = 0 ∧ (wr 0x4000 5).toNat / 65536 &&& 49151 = 0 ∧
    (wr 0x7000 5).toNat / 65536 ≠ 0 ∧ (wr 0x7000 5).toNat / 65536 &&& 36863 = 0 ∧ on.fab.copying = false ∧
    ({ on with fab := { on.fab with copying := true } } : State).fab.copying = true ∧ (wr 0xBFFF 0x8005).toNat / 65536 &&& 49151 ≠ 0 ∧
    maskedWrite (on.rdT 0xD00008) (wr 0xBFFF 0x8005).toNat 49151 ≠ on.rdT 0xD00008 ∧ maskedWrite (on.rdT 0xD00008) (wr 1 0).toNat 49151 = on.rdT 0xD00008 ∧
    (wr 0x8FFF 0x8005).toNat / 65536 &&& 36863 ≠ 0 ∧ maskedWrite (on.rd 0xE0000C) (wr 0x8FFF 0x8005).toNat 36863 ≠ on.rd 0xE0000C ∧
    maskedWrite (on.rd 0xE0000C) (wr 1 0).toNat 36863 = on.rd 0xE0000C ∧ on.pipeEmpty = true := by decide +kernel
theorem w_ConfigurationWrites : isCqfConfig 0x510004 = true ∧ isCqfConfig 0x500000 = false ∧ isCqfConfig 0x520000 = true ∧
    isCqfConfig 0x540004 = true ∧ on.barOpen = true ∧ (on.q 0).state = .disabled ∧ ((runs 0 0 []).q 0).state ≠ .disabled ∧
    on.slipOn 0 = false ∧ (on.setReg (slo 0 0x1C) 1).slipOn 0 = true ∧ on.chanOpen 5 = false ∧
    (on.setReg (bo 5 0) 1).chanOpen 5 = true ∧
    [0x510004, 0x520000, 0x540004].all (fun o => (regAt o).any fun a => decide (a.reg.kind = .ctl false ∧ a.n = 0)) = true := by decide +kernel
theorem w_CommonCommandsAct : (runs 0 0 []).running 0 0 = some (cmdOf 0 []) ∧ (runs 0 1 [64, 5]).running 0 1 = some (cmdOf 1 [64, 5]) ∧
    ok ((runs 0 1 [64, 5]).checkAddr 0 64 8 0 8) = true ∧ (runs 0 1 [64, 5]).opWaits 64 8 = false ∧
    bad ((runs 0 1 [1, 5]).checkAddr 0 1 8 0 8) = true ∧
    (runs 0 2 [9]).running 0 2 = some (cmdOf 2 [9]) ∧ lowBit ((cmdOf 2 [9]).p 0) (bmask 63 44) = none ∧
    fld ((cmdOf 2 [9]).p 0) 43 32 < ((runs 0 2 [9]).setReg (bo 0 0x1C) 1).tokCnt 0 := by decide +kernel
/-- A slipway of three slots whose producer is queue 0 and whose consumer is queue 1. -/
def slip3 : State := ((((on.setReg (slo 0 0) 3).setReg (slo 0 4) 1).setReg (slo 0 0x14) 0).setReg (slo 0 0x18) 1).setReg (slo 0 0x1C) 1
theorem w_CommonCommandsAct_acquire : ok ((runs 0 3 [0] slip3).slipCheck 0 (cmdOf 3 [0])) = true ∧ (runs 0 3 [0] slip3).running 0 3 = some (cmdOf 3 [0]) ∧
    sdiff 0 ((runs 0 3 [0] slip3).slip 0).head < ((runs 0 3 [0] slip3).slipSlots 0 : Int) := by decide +kernel
theorem w_CommonCommandsAct_publish : ok ((runs 0 4 [0] slip3).slipCheck 0 (cmdOf 4 [0])) = true := by decide +kernel
theorem w_CommonCommandsAct_wait : ok ((runs 1 5 [0] (slip3.setSlip 0 ⟨1, 0⟩)).slipCheck 1 (cmdOf 5 [0])) = true ∧
    1 ≤ sdiff ((slip3.setSlip 0 ⟨1, 0⟩).slip 0).tail 0 := by decide +kernel
theorem w_CommonCommandsAct_release : ok ((runs 1 6 [0] (slip3.setSlip 0 ⟨1, 0⟩)).slipCheck 1 (cmdOf 6 [0])) = true := by decide +kernel
/-- A queue that watches a local ring of two slots at 4096, its slot 0 stamped `n`. -/
def ring (n : Nat) : State :=
  let s := (on.setReg (qo 0 4) 1).setReg (qo 0 8) 4096
  let s := s.memWrite 4096 (leBytes 8 64 ++ leBytes 8 0 ++ leBytes 8 0 ++ leBytes 8 n)
  s.setQ 0 { Queue.reset with state := .idle }
/-- Its state after the slot has been read, HEAD advanced and written back. -/
def entered (n : Nat) : State :=
  let u := ((ring n).opRead 0 ((ring n).slotAddr 0) 32 0xFF).2
  (u.setQ 0 { u.q 0 with head := (u.q 0).head + 1, have_ := [] }).frontWrite 0 (u.headArea 0)
    (leBytes 4 ((u.q 0).head + 1).toNat ++ List.replicate 60 0)
theorem w_EntriesFetchedAndTaken_slot : (ring 0).watching 0 = true ∧ isHost ((ring 0).slotAddr 0) = false ∧
    got ((ring 0).opRead 0 ((ring 0).slotAddr 0) 32 0xFF) = true ∧ stampOf 0 ((ring 0).q 0).head = .posted ∧ stampOf 1 ((ring 1).q 0).head = .overrun ∧
    stampOf 0xFFFFFFFF ((ring 0).q 0).head = .notYet ∧ ((entered 0).q 0).state ≠ .stopped ∧ ok (entryCheck 0 [64, 0, 0, 0]) = true ∧
    (((ring 1).reply 0 0xFFFFFFFF stOverrun 1).q 0).state ≠ .stopped := by decide +kernel
/-- A queue with an idle host ring. -/
def hostRing : State := late 2000 (((on.setReg (qo 0 4) 1).setReg (qo 0 0x10) 0x8000).setQ 0 { Queue.reset with state := .idle })
theorem w_EntriesFetchedAndTaken_poll : hostRing.watching 0 = true ∧ isHost (hostRing.slotAddr 0) = true ∧ (hostRing.q 0).has (hostRing.slotAddr 0) 32 = false ∧
    (hostRing.q 0).reads = [] ∧ (hostRing.q 0).polled + hostRing.rd 0x500004 * 100 ≤ hostRing.pwr.time ∧ hostRing.hif.bme = true ∧
    ({ hostRing with hif := { hostRing.hif with bme := false } } : State).hif.bme = false := by decide +kernel
/-- A list of `n` words at 64 that queue 0 has taken, its first word a header. -/
def listed (n h : Nat) : State := (on.memWrite 64 (leBytes 8 h)).setQ 0
  { Queue.reset with state := .active, lst := some ⟨64, n, 0, none, none, 0, false⟩ }
/-- The same list in host memory, and Bus Master Enable cleared. -/
def barredList : State := { on with hif := { on.hif with bme := false } }.setQ 0
  { Queue.reset with state := .active, lst := some ⟨2 ^ 63 + 64, 1, 0, none, none, 0, false⟩ }
theorem w_EntriesFetchedAndTaken_list : (listed 1 0).tokMet none = true ∧ (listed 1 0).pwr.state = 0 ∧ ((listed 1 0).q 0).cmd = none ∧
    ((listed 1 0).q 0).state = .active ∧ got ((listed 1 0).opRead 0 64 8 0xFF) = true ∧ (listed 1 0).barred 0 64 8 = false ∧
    ok (headerCheck 0 ⟨64, 1, 0, none, none, 0, false⟩ 0) = true ∧ bad (headerCheck 0 ⟨64, 1, 0, none, none, 0, false⟩ 0x0FFF) = true ∧
    (listed 1 0).barred 0 72 0 = false ∧ got ((listed 1 0).opRead 0 72 0 0xFF) = true ∧ barredList.barred 0 (2 ^ 63 + 64) 8 = true := by decide +kernel
theorem w_EntriesFetchedAndTaken_end : ((listed 0 0).q 0).lst = some ⟨64, 0, 0, none, none, 0, false⟩ := by decide +kernel
/-- Queue 0's NOP in a phase. -/
def nopIn (p : Phase) : State := on.setQ 0 { Queue.reset with state := .active, cmd := some { cmdOf 0 [] with phase := p } }
/-- A collective of the group of its queue, and a vector command, before their dispatch. -/
def waitsIn (q op : Nat) (ps : List Nat) (s : State) : State :=
  s.setQ q { Queue.reset with state := .active, cmd := some { cmdOf op ps with phase := .waiting } }
def grouped (s : State := on) : State := s.setGroup 0 ⟨1, 2, 0, 1, 1, 256, 0, [2, 5], 0, 0⟩
theorem w_CommandDispatchedAndCompleted_dispatch : (nopIn .waiting).ready 0 = true ∧
    ((nopIn .waiting).q 0).cmd = some { cmdOf 0 [] with phase := .waiting } ∧ (waitsIn 64 0x2001 [] on).ready 64 = true ∧
    (waitsIn 256 0x5001 [0] grouped).ready 256 = true ∧ (runs 256 0x5001 [0] grouped).xAccepts 256 (cmdOf 0x5001 [0]) = true ∧
    (runs 256 0x5001 [0]).xAccepts 256 (cmdOf 0x5001 [0]) = false := by decide +kernel
theorem w_CommandDispatchedAndCompleted_end : ((nopIn (.ended stOK 0)).q 0).cmd = some { cmdOf 0 [] with phase := .ended stOK 0 } ∧ isSuccess stOK = true ∧
    isSuccess stTimeout = false ∧ (nopIn (.ended stOK 0)).visible 0 = true ∧ ((nopIn (.ended stOK 0)).q 0).draining = false ∧
    (((((nopIn (.ended stOK 0)).engineDone 0 (cmdOf 0 []) stOK).release 0).replyCmd 0 (cmdOf 0 []) stOK 0).q 0).state ≠ .stopped ∧
    (((((nopIn (.ended stTimeout 0)).engineDone 0 (cmdOf 0 []) stTimeout).release 0).replyCmd 0 (cmdOf 0 []) stTimeout 0).q 0).state ≠ .stopped := by
  decide +kernel
theorem w_QueueStopsAndGoesOn_times : (late 5000000 ((nopIn .running).setReg (qo 0 0x18) 1)).rd (qo 0 0x18) = 1 ∧ (late 5000000 (nopIn .running)).due 0 1 = true ∧
    (late 5000000 (nopIn .waiting)).due 0 1 = true ∧ (listed 1 0).tokMet (some (0, 1)) = false := by decide +kernel
/-- Queue 0 stopped at a step. -/
def stoppedAt (f : FailStep) : State := on.setQ 0 { Queue.reset with state := .stopped, failed := f, lst := some ⟨64, 1, 0, none, none, 0, true⟩ }
theorem w_QueueStopsAndGoesOn_goes : ((stoppedAt .entry).q 0).state = .stopped ∧ ((stoppedAt .slot).q 0).failed = .slot ∧
    ((stoppedAt .command).q 0).lst.isSome = true ∧ ((stoppedAt .command).q 0).draining = false ∧ (on.q 0).state ≠ .stopped := by decide +kernel
/-- Queue 0 with a ring of two slots and a reply ring of two, its channel open. -/
def readyQ : State := (((on.setReg (qo 0 4) 1).setReg (qo 0 0x1C) 1).setReg (bo 0 0) 1)
theorem w_QueueEnabledDisabledReset : readyQ.rbit (qo 0 0) 0 = false ∧ readyQ.enableValid 0 = true ∧ on.enableValid 0 = false ∧
    (readyQ.setReg (qo 0 0) 1).rbit (qo 0 0) 0 = true ∧ ((ring 0).q 0).state ≠ .disabled ∧ ((ring 0).q 0).cmd = none ∧ ((ring 0).q 0).draining = false := by decide +kernel
theorem w_TokensMoveForward : 0 ≤ ((5 : W32) - 3).toInt ∧ ((5 : W32) - 3).toInt + ((9 : W32) - 5).toInt < 2 ^ 31 := by decide +kernel
theorem w_FrontEndRegistersAct : on.barOpen = true ∧ slip3.slipOn 0 = true ∧ on.slipValid 0 = false ∧
    (((slip3.setReg (slo 0 0x1C) 0).setReg (qo 0 0) 1).setReg (qo 1 0) 1).slipValid 0 = true := by decide +kernel
/-- One landing-buffer request of queue 0 waits. -/
def landing (n : Nat) : State := { on with cqf := { on.cqf with landing := [⟨0, n, .queue 0⟩] } }
/-- A host read, a peer read and a segment wait for a transfer tag; the first pool's tags are all in use. -/
def hostWaits : State := { on with cqf := { on.cqf with tagWait := [⟨21, 0, ⟨2 ^ 63 + 64, 8, 1, 0, 0⟩⟩] } }
def peerRead : PeerReq := ⟨3, 2 ^ 62 + 5 * 2 ^ 41 + 64, 8, none, 1, 0, 3, 0, 0⟩
def desc : XDesc := ⟨0x5001, 8, 8, 0, 0, 0, false, false, false, 0, 0, false, 320, 2⟩
def seg (kind : Nat) : Seg := ⟨0, kind, 1, 0, 0, 1, 1, desc, 0, 8, [1, 2, 3, 4, 5, 6, 7, 8]⟩
def portWaits (w : TagFor) (s : State := on) : State := { s with fab := { s.fab with id := 2, idSrc := 1, tagWait := [⟨w, 0⟩] } }
def portOpen (n : Nat) (s : State := on) : State := s.setPort 0 { Port.reset with state := n }
theorem w_FrontEndRegistersAct_buffers : (on.setReg (bo 5 0x10) 4).openValid 5 = true ∧ on.openValid 5 = false ∧ on.chanOpen 5 = false ∧
    (on.setReg (bo 5 0) 1).chanOpen 5 = true ∧ (on.setReg (bo 5 0) 1).bound 5 = false ∧ ((ring 0).setReg (qo 0 0x14) 5).bound 5 = true ∧
    (landing 1).canGrant 0 1 = true ∧ (landing 100000).canGrant 0 100000 = false := by decide +kernel
theorem w_FrontEndRegistersAct_tags : (hostWaits.pool 21).inUse < 2048 ∧ (hostWaits.cqf.tagWait.find? fun w => w.pool == 21).isSome = true ∧
    ((portWaits (.access peerRead)).pool 9).inUse < 1024 ∧ ((portWaits (.access peerRead)).fab.tagWait.find? fun w => 9 + w.port == 9) = some ⟨.access peerRead, 0⟩ ∧
    (portWaits (.access peerRead)).hasId = true ∧ ({ on with fab := { on.fab with tagWait := [⟨.access peerRead, 0⟩] } } : State).hasId = false ∧
    ((portWaits (.segment ⟨seg 2, 1, 5⟩) (portOpen 4)).fab.tagWait.find? fun w => 9 + w.port == 9) = some ⟨.segment ⟨seg 2, 1, 5⟩, 0⟩ ∧
    ((portWaits (.segment ⟨seg 2, 1, 5⟩) (portOpen 4)).port 0).state = 4 ∧
    poolSize 0 ≤ ((on.setPool 0 ⟨4096, 4096⟩).pool 0).inUse := by decide +kernel

/-! Witnesses: resets, power, the management core. -/

/-- The link went down at 0 and the link-loss time has passed. -/
def lost : State := late 300000000 { on with hif := { on.hif with up := false, downAt := some 0 } }
theorem w_ModuleSelfReset : on.pwr.off = 0 ∧ lost.hif.downAt = some 0 ∧ lost.due 0 (lost.rdT 0x400014) = true ∧
    next (exec .hotReset on) = true := by decide +kernel
/-- Deep off is due; its notices have gone out at 1 ms, with a port that drains or without. -/
def deep (n : Option Nat := none) (t : Nat := 1000000) : State :=
  late t { on with pwr := { on.pwr with deepAt := some 1000000, deepNoticed := n } }
theorem w_RailsSwitchOff : on.pwr.off ≤ 1 ∧ 1 < (on.powerOff 2).pwr.off ∧ on.pwr.off = 0 ∧ tripAt .compute < 111 ∧ tripAt .compute ≤ 110 ∧
    deep.pwr.deepAt = some 1000000 ∧ deep.pwr.deepNoticed = none ∧ 1000000 ≤ deep.pwr.time ∧ on.pwr.deepAt = none ∧
    (deep (some 1000000)).pwr.deepNoticed = some 1000000 ∧ (∀ p ∈ portList, ((deep (some 1000000)).port p).state ≠ 5) ∧
    1000000 + 100000 ≤ (deep (some 1000000) 1100000).pwr.time ∧ (0 : Nat) ∈ portList ∧
    (((deep (some 1000000)).setPort 0 { Port.reset with state := 5 }).port 0).state = 5 ∧ (deep (some 1000000)).pwr.time < 1000000 + 100000 := by
  decide +kernel
theorem w_PinsAndSensors : on.pwr.off = 0 ∧ (on.rf 0x900004 15 8 : Int) ≤ 200 ∧ (on.rf 0xB00004 15 8 : Int) ≤ 200 ∧
    on.pwr.oscInt = false := by decide +kernel
/-- Slack water, and D3hot. -/
def slack (n : Nat) (s : State := on) : State := { s with pwr := { s.pwr with state := n } }
theorem w_PowerStatesChange : on.pwr.state = 0 ∧ on.cqf.heldD3 = false ∧ on.slackRefuse = none ∧ (slack 1).pwr.state = 1 ∧
    (nopIn .running).slackRefuse = some 1 ∧ (nopIn .running).quiet = false ∧ (slack 2).pwr.state = 2 ∧
    (slack 1 (late 1000000)).mem.wokeCap + 1000000 ≤ (slack 1 (late 1000000)).pwr.time ∧
    (slack 1 (late 1000000)).mem.wokeFast + 1000000 ≤ (slack 1 (late 1000000)).pwr.time := by decide +kernel
theorem w_StartUpProceeds : State.reset.pwr.step < 2 ∧ (if State.reset.flash.active then State.reset.flash.slot1 else State.reset.flash.slot0) = none ∧
    State.reset.flash.factory = none ∧ (on.powerOff 2).pwr.off ≠ 0 ∧ State.reset.hif.rrs = true ∧ State.reset.pwr.off = 0 ∧ on.hif.rrs = false ∧
    2 ≤ on.pwr.step ∧ on.pwr.off = 0 ∧ on.barOpen = true ∧ ({ on with pwr := { on.pwr with ready := false } } : State).pwr.ready = false ∧
    ({ on with pwr := { on.pwr with ready := false } } : State).barOpen = true ∧ on.cfg.recovery = false := by decide +kernel
theorem w_StartUpProceeds_record (r : List Byte) : ({ State.reset with flash := { State.reset.flash with slot0 := some r } } : State).flash.slot0 ≠ none := by
  simp only [ne_eq, reduceCtorEq, not_false_eq_true]
/-- A window's measurement. -/
def watts (mw : Nat) : PowerSample := { mw := mw, mv := 50000, mj := 0, temps := [] }
def windowOf (m : PowerSample) (calm : Nat) : State :=
  let t := (late 10000 { on with pwr := { on.pwr with calm := calm } }).measure m
  { t with pwr := { t.pwr with windowAt := t.pwr.time / 10000 } }
theorem w_ArbiterWindowActs : (late 10000).pwr.windowAt < (late 10000).pwr.time / 10000 ∧
    (windowOf (watts 1300000) 0).limitW * 1000 < 1300000 ∧ (windowOf (watts 0) 0).tooHot = false ∧
    (windowOf (watts 1200000) 0).limitW * 1000 - (windowOf (watts 1200000) 0).rf 0x200018 7 0 * 1000 ≤ 1200000 ∧ 1200000 ≤ (windowOf (watts 1200000) 0).limitW * 1000 ∧
    0 < (windowOf (watts 0) 0).limitW * 1000 - (windowOf (watts 0) 0).rf 0x200018 7 0 * 1000 ∧ (windowOf (watts 0) 0).pwr.calm < 9 ∧
    9 ≤ (windowOf (watts 0) 9).pwr.calm := by decide +kernel
/-- A message of a type is in progress. -/
def msg (type : Nat) (pl : List Byte) (s : State := on) : State := { s with mgt := { s.mgt with
  msg := some ⟨false, type, 1, false, 0, pl.length, pl, 1, 0, false, false⟩ } }
theorem w_MessagesAnswered : [0x7000, 0x7002, 0x7011, 0x7021, 0x7030, 0x7041, 0x7060].all (fun n => ((msg n []).msgIn n).isSome) = true ∧
    ((msg 0x7001 (List.replicate 100 0)).choose (List.replicate 100 2) 0).isSome = true ∧
    ((msg 0x7001 (List.replicate 100 0)).choose (List.replicate 100 0) 0).isNone = true ∧ ((msg 0x7040 [0, 0, 0, 0]).attestIn 0).isSome = true ∧
    ((msg 0x7040 [2, 0, 0, 0]).attestIn 2).isSome = true ∧ on.sec.id ≠ 1 ∧
    ((msg 0x7040 [0, 0, 0, 0] { on with sec := { on.sec with id := 1 } }).attestIn 0).isSome = true := by decide +kernel
theorem w_MessagesAnswered_extend : ((msg 0x7040 ([1, 0, 0, 0] ++ leBytes 8 64 ++ leBytes 8 8)).attestIn 1).isSome = true ∧
    numAt ([1, 0, 0, 0] ++ leBytes 8 64 ++ leBytes 8 8) 12 8 ≠ 0 ∧
    (match (on.fwRead 64 64 8).1 with
      | .bytes _ => true
      | _ => false) = true := by decide +kernel
theorem w_MessagesAnswered_margin : ((msg 0x7070 [0, 0, 0, 0]).msgIn 0x7070).isSome = true ∧ on.marginable 0 0 = true ∧ on.marginable 2 0 = false := by decide +kernel
theorem w_PowerAndCommitMessages_power : ((msg 0x7050 [0]).powerIn 0).isSome = true ∧ ((msg 0x7050 [1]).powerIn 1).isSome = true ∧
    ((msg 0x7050 [3]).powerIn 3).isSome = true ∧ ((msg 0x7051 (leBytes 2 900)).msgIn 0x7051).isSome = true ∧ on.slackRefuse = none ∧
    (nopIn .running).slackRefuse = some 1 ∧ (slack 1).pwr.state = 1 ∧ (slack 1).cqf.heldD3 = false ∧ (slack 2).pwr.state = 2 ∧
    on.pwr.state = 0 ∧ on.pwr.state ≠ 1 := by decide +kernel
/-- A history entry of an error, or of the platform driver. -/
def entry (driver : Bool) : HistEntry := ⟨if driver then 1 else 3, 0, 0, 0, 0⟩
def pendingEntry (driver : Bool) (s : State := on) : State := { s with err := { s.err with histPend := [entry driver] } }
/-- SUPPLEMENT_LOAD and CONFIG_UPDATE that succeed have no witness that Lean evaluates: ML-DSA verification is a free function. -/
theorem w_PowerAndCommitMessages_commit : ((msg 0x7010 (leBytes 8 64 ++ leBytes 4 63)).msgIn 0x7010).isSome = true ∧
    (match (on.suppLoadTry 64 63).1 with
      | .fail _ false => true
      | _ => false) = true ∧ ((msg 0x7020 [0]).msgIn 0x7020).isSome = true ∧ ((msg 0x7061 []).msgIn 0x7061).isSome = true ∧ on.histCount < 4096 ∧
    on.err.histPend.any HistEntry.byDriver = false ∧ (entry false).byDriver = false ∧ (entry true).byDriver = true ∧
    (pendingEntry true (msg 0x7061 [])).err.histPend = [entry true] ∧ ((pendingEntry true (msg 0x7061 [])).msgIn 0x7061).isSome = true ∧
    (pendingEntry false).err.histPend = [entry false] ∧ ((msg 0x7080 []).msgIn 0x7080).isSome = true := by decide +kernel
theorem w_PowerAndCommitMessages_full : ∃ n, 4096 ≤ ({ on with flash := { on.flash with hist := List.replicate n (entry false) } } : State).histCount :=
  ⟨4096, by simp only [State.histCount, List.length_replicate]; exact Nat.le_add_right _ _⟩
/-- A request area whose SEQ is n. -/
def req (n : Nat) : State := { on with mgt := { on.mgt with req := tputs zeroB [] 12 (leBytes 4 n) } }
theorem w_RequestsTaken : (req 0).reqSeq = (req 0).mgt.taken.toNat ∧ (req 1).posted = true ∧ (req 2).posted = false ∧ (req 1).towNext = false ∧
    bad ((req 1).msgCheck (msgOf false (tgets zeroB (req 1).mgt.req 0 4096)) (tgets zeroB (req 1).mgt.req 0 4096)) = true ∧
    (req 1).mgt.msg = none ∧ (req 1).mgt.core = 1 ∧ State.reset.mgt.core ≠ 1 ∧ (on.powerOff 2).pwr.off ≠ 0 := by decide +kernel
/-- An ECHO request (Tables 13.1 and 13.3) passes the checks. -/
def echoReq : List Byte := leBytes 4 0x584F424D ++ [1, 0, 0x00, 0x70] ++ leBytes 4 0 ++ leBytes 4 1 ++ List.replicate 48 0
theorem w_RequestsTaken_good : ok (on.msgCheck (msgOf false echoReq) echoReq) = true := by decide +kernel
theorem w_FirmwareRestarts : on.mgt.core ≠ 2 ∧ on.mgt.core ≠ 3 ∧
    (late 200000000 { on with mgt := { on.mgt with wdtOn := true, wdtTimes := [1, 0] } }).due 0 100 = true ∧ on.mgt.core = 1 ∧ on.mgt.wdtTimes.length < 2 ∧
    on.barOpen = true ∧ on.pwr.off = 0 ∧ ({ on with mgt := { on.mgt with core := 2 } } : State).mgt.interrupted = none ∧ on.mgt.cause ≠ 3 ∧
    ({ on with mgt := { on.mgt with core := 2, interrupted := (msg 0x7020 []).mgt.msg } } : State).mgt.interrupted.isSome = true := by decide +kernel
theorem w_SidebandEndpoint : on.pwr.off = 0 ∧ on.mgt.core = 1 := by decide +kernel

/-! Witnesses: the fabric and the exchange engine. -/

/-- Memory bytes have been read; a segment goes to a collective; it is discarded; it is held. -/
def read (x : Got × State) : Bool := match x.1 with
  | .bytes _ => true
  | _ => false
def taken (f : SegFate) : Bool := match f with
  | .take _ => true
  | _ => false
def dropped (f : SegFate) : Bool := match f with
  | .discard => true
  | _ => false
def held (f : SegFate) : Bool := match f with
  | .hold => true
  | _ => false
/-- A packet of a kind from module 5 on channel 5, and a module whose port 0 has received it. -/
def pkt (kind : Nat) (data : List Byte) : Packet := ⟨2, 5, (kindVc kind).getD 0, kind, data.length / 8, 5, 0, 64, 9, 15, data⟩
def inState (k : Packet) (granted : Bool) (s : State := on) : State := s.setPort 0 { Port.reset with state := 4, inq := [⟨3, k, granted, false⟩] }
theorem w_PacketHeaderRoundTrip : kindVc 0 = some (pkt 0 [1, 2, 3, 4, 5, 6, 7, 8]).vc ∧ (pkt 0 [1, 2, 3, 4, 5, 6, 7, 8]).words ≤ 32 ∧
    (pkt 0 []).chan < 2 ^ 12 ∧ (pkt 0 []).offset < 2 ^ 41 ∧ (pkt 0 []).hops < 2 ^ 4 := by decide +kernel
/-- Port 0 in a state that began at 0. -/
def portIn (n : Nat) (s : State := on) : State := s.setPort 0 { Port.reset with state := n }
theorem w_PortStatesChange : ((portIn 1).port 0).state = 1 ∧ on.pwr.ready = true ∧ State.reset.pwr.ready = false ∧
    ((portIn 1).port 0).locked = false ∧ (late 100000000).due 0 100 = true ∧ ((on.setReg (po 0 0) 1).portOn 0) = true ∧
    (portIn 6).pwr.time ≤ ((portIn 6).port 0).since + 1000000 ∧ ((portIn 6).port 0).since + 1000000 ≤ (late 1000000 (portIn 6)).pwr.time ∧
    ((on.setPort 0 { Port.reset with state := 3, replay := [⟨0, [], 0, false⟩], nak := true }).port 0).replay ≠ [] ∧
    ((on.setPort 0 { Port.reset with state := 3, nak := true }).port 0).nak = true ∧ 0 + 1000 ≤ (late 1000).pwr.time := by decide +kernel
/-- A control message of a type with its bytes, received on port 0. -/
def ctlState (n : Nat) (m : List Byte) : State := on.setPort 0 { Port.reset with state := n, ctlIn := [m] }
def offer (versions : Nat) : List Byte := [0] ++ leBytes 8 77 ++ [3] ++ leBytes 2 versions ++ [0, 2]
theorem w_FramesAndControlMessages_control : ((ctlState 2 (offer 2)).takeCtl 0 0).isSome = true ∧ bitAt (leNat (((offer 2).drop 10).take 2)) 1 = true ∧
    bitAt (leNat (((offer 4).drop 10).take 2)) 1 = false ∧ ((ctlState 2 [1, 1, 0]).takeCtl 0 1).isSome = true ∧
    ((ctlState 4 [2]).takeCtl 0 2).isSome = true ∧ ((ctlState 4 [2]).port 0).state = 4 ∧ ((ctlState 2 (offer 2)).port 0).state = 2 ∧
    [2, 3, 4, 5].all (fun n => decide (((ctlState n []).port 0).state = n)) = true ∧ (on.port 0).state = 0 ∧ ((ctlState 6 []).port 0).state = 6 ∧
    ([] : List Byte).length ≠ 896 := by decide +kernel
/-- Channel 5 open to module 5, in context 0. -/
def peered (s : State := on) : State := (s.setReg (bo 5 0) 3).setReg (bo 5 0x8) 5
theorem w_PeerPacketsArrive_access : ((inState (pkt 0 [1, 2, 3, 4, 5, 6, 7, 8]) true peered).inbound 0 0).isSome = true ∧
    ok (peered.peerCheck (pkt 0 []) 8) = true ∧ bad (on.peerCheck (pkt 0 []) 8) = true ∧ (on.writeWaits 64 8) = false ∧
    ((inState (pkt 1 []) false peered).inbound 0 1).isSome = true ∧ read (peered.memRead .other 64 0) = true ∧ peered.accessWaits 64 0 = false := by
  decide +kernel
/-- No landing buffer is free; page 0 is being moved; its pseudo-channel is out of service. -/
def pageMoves : State := { peered with mem := { peered.mem with moves := [⟨5, 0, .background⟩] } }
def pcOut : State := { peered with err := { peered.err with pcs := (List.range 512).map fun i => (i, ⟨⟨1, false⟩, false, 0⟩) } }
theorem w_PeerPacketsArrive_waits : ((landing 1).askBufs 5 100000 (.packet 3)).1 = false ∧
    pageMoves.writeWaits 64 8 = true ∧
    pcOut.accessWaits 64 8 = true := by decide +kernel
/-- Queue 3 reads 8 bytes from module 5 with TAG 9, or writes them, or a command that has ended wrote them. -/
def tagOf (q : Nat) (bytes : Option (List Byte)) : PeerTag := ⟨⟨q, 2 ^ 62 + 5 * 2 ^ 41 + 64, 8, bytes, 1, 0, 3, 0, 0⟩, 0, 0⟩
def tagged (q : Nat := 3) (bytes : Option (List Byte) := none) : State := on.setPeerTag 9 (some (tagOf q bytes))
theorem w_PeerPacketsArrive_answer : ((inState (pkt 2 [1, 2, 3, 4, 5, 6, 7, 8]) false tagged).inbound 0 2).isSome = true ∧
    tagged.peerTag 9 = some (tagOf 3 none) ∧ (tagged 3 (some [0])).peerTag 9 = some (tagOf 3 (some [0])) ∧ (tagged 387).peerTag 9 = some (tagOf 387 none) ∧
    on.peerTag 9 = none ∧ peerId (2 ^ 62 + 5 * 2 ^ 41 + 64) = 5 ∧ (pkt 2 []).src = 5 ∧ ({ pkt 2 [] with src := 6 } : Packet).src ≠ 5 ∧
    ((inState (pkt 3 []) false tagged).inbound 0 3).isSome = true ∧ ((inState { pkt 3 [] with tag := 0x8001 } false).inbound 0 3).isSome = true ∧
    on.due 0 (on.rd 0xD0002C) = false ∧ (late (100000000 * (on.rd 0xD0002C + 1)) tagged).due 0 ((late 0 tagged).rd 0xD0002C) = true ∧
    ((inState (pkt 5 []) false).inbound 0 5).isSome = true ∧ on.mgt.core = 1 ∧ [0, 1, 2, 3, 4, 5].all (fun n => (on.inbound 0 n).isNone) = true := by
  decide +kernel
/-- A contribution of group 0's rank 1, and an abort; group 0 with epoch 1, of two ranks, and its collective. -/
def xrun : XRun := ⟨256, 0, 7, 1, 1, desc, true, 8, 0, 0, 0, 0, 0, false, false, false, [0], [], [], 0, 1, false, [], [], [], 0, false, [], [], [], [], 0⟩
def inRun (s : State := on) : State := grouped { s with xch := { s.xch with runs := [xrun] } }
def segIn5 (kind : Nat) (granted : Bool) (s : State) : State := inState (pkt 4 (seg kind).payload) granted ((s.setReg (bo 5 0) 1).setReg (bo 5 0x10) 4)
theorem w_PeerPacketsArrive_segment : (Seg.of (seg 2).payload).map (·.kind) = some 2 ∧ (Seg.of (seg 4).payload).map (·.kind) = some 4 ∧
    held (on.segFate (seg 2)) = true ∧ taken (inRun.segFate (seg 2)) = true ∧
    dropped ((grouped.setGroup 0 ⟨1, 2, 0, 2, 1, 256, 0, [2, 5], 0, 0⟩).segFate (seg 4)) = true ∧
    ((segIn5 4 false on).inbound 0 4).isSome = true ∧ ((segIn5 2 true on).inbound 0 4).isSome = true ∧ on.chanOpen 5 = false ∧
    (segIn5 2 false on).chanOpen 5 = true ∧ ((segIn5 2 false on).askBufs 5 1 (.packet 3)).1 = true ∧
    ((landing 1).askBufs 5 100000 (.packet 3)).1 = false := by decide +kernel
theorem w_PeerPacketsArrive_taken : ((segIn5 2 true inRun).inbound 0 4).all (fun x => taken (((segIn5 2 true inRun).leave 0 x).segFate (seg 2))) = true ∧
    ((segIn5 2 true on).inbound 0 4).all (fun x => held (((segIn5 2 true on).leave 0 x).segFate (seg 2))) = true := by decide +kernel
/-- An LSA of serial 77. -/
def lsaData : List Byte := leBytes 8 77 ++ leBytes 4 0x80000005 ++ leBytes 4 2 ++ List.replicate 144 0
def disc (s : State := on) : State := { s.setReg 0xD00000 1 with fab := { s.fab with
  db := [⟨77, some 5, 1, [], 0⟩, ⟨88, some 6, 9, [], 0⟩] } }
theorem w_DiscoveryActs : ((inState (pkt 6 lsaData) false disc).inbound 0 6).isSome = true ∧ disc.discovering = true ∧ ({ disc with pwr := { disc.pwr with ready := false } } : State).discovering = false ∧
    (LsaEntry.of lsaData 0).serial = 77 ∧ disc.serialNo ≠ 77 ∧
    ((disc.fab.db.find? (fun y => y.serial == 77)).all fun y => gtMod (LsaEntry.of lsaData 0).seq y.seq) = true ∧
    gtMod 2 9 = false ∧ on.fab.db.find? (fun y => y.serial == 77) = none ∧ disc.due 0 (disc.rd 0xD00028) = false ∧
    (late (100000000 * (disc.rd 0xD00028 + 1)) disc).due 0 (disc.rd 0xD00028) = true ∧
    (late (300000000 * (disc.rd 0xD00028 + 1)) disc).due 0 (3 * disc.rd 0xD00028) = true ∧
    (late (10000 * disc.rd 0xD00024) disc).settle.fab.settled = true ∧ disc.fab.settled = false := by decide +kernel
theorem w_GrantedIdIsLowest : freeId [0, 1, 3] = some 2 ∧ ((inState (pkt 7 (leBytes 8 77)) false).inbound 0 7).isSome = true ∧
    leNat ((leBytes 8 on.serialNo).take 8) = on.serialNo ∧ on.hasId = false ∧ bitAt (on.rdT 0xD00008) 15 = false ∧ on.serialNo ≠ 77 ∧
    (77, 2) ∉ on.fab.grants ∧ ({ on with fab := { on.fab with id := 2, idSrc := 1 } } : State).hasId = true := by decide +kernel
theorem w_RoutesCommanded : on.barOpen = true ∧ shut.barOpen = false ∧ on.fab.copying = false ∧
    ({ on with fab := { on.fab with copying := true } } : State).fab.copying = true ∧
    ({ on with fab := { on.fab with copying := true } } : State).barOpen = true := by decide +kernel
theorem w_PortsCommanded : on.barOpen = true ∧ shut.barOpen = false ∧ (on.port 0).state = 0 ∧ ((portIn 5).port 0).state = 5 ∧
    ((portIn 4).port 0).state ≠ 0 ∧ ((portIn 4).port 0).state ≠ 5 ∧ (portIn 4).barOpen = true ∧ on.hif.rrs = false ∧ on.cfg.recovery = false ∧
    ({ on with hif := { on.hif with rrs := true } } : State).barOpen = true ∧ ({ on with cfg := { on.cfg with recovery := true } } : State).barOpen = true := by
  decide +kernel
/-- The collective of queue 256, dispatched or begun; its group broken. -/
def collective (begun : Bool) (ps : List Nat) (g : Group) : State :=
  (runs 256 0x5001 ps { on with xch := { on.xch with runs := [{ xrun with begun := begun }] } }).setGroup 0 g
def xcP : List Nat := [16 * 8, 0, 0, 64, 4096, 0, 64, 0]
def ready (n : Nat) : Group := ⟨n, 2, 0, 1, 1, 256, 0, [2, 5], 0, 0⟩
theorem w_CollectivesRun : ((runs 256 0x5001 [0]).running 256 0x5001) = some (cmdOf 0x5001 [0]) ∧ on.xRun 256 = none ∧
    (collective true [0] (ready 1)).xRun 256 = some xrun ∧ xrun.begun = true ∧ (collective false [0] (ready 1)).xRun 256 = some { xrun with begun := false } ∧
    ((collective false [0] (ready 3)).group 0).state = 3 ∧ ((collective false [0] (ready 1)).group 0).state ≠ 3 ∧
    bad (xFields (cmdOf 0x5001 [2 ^ 40]) 2) = true ∧ fld ((cmdOf 0x5001 [0]).p 0) 3 0 = 0 ∧ (grouped.group 0).state ≠ 0 ∧ (grouped.group 0).queue = 256 ∧
    (on.group 0).state = 0 := by decide +kernel
theorem w_CollectivesRun_timeout : ((collective true [0] (ready 1)).xch.runs.find? fun r => r.group == 0 && r.begun) = some xrun ∧ xrun.awaited 0 = some 1 ∧
    (late (1000000000 * (on.rd 0xC00008 + 1))).due 0 (on.rd 0xC00008) = true ∧ xrun.storing 0 = false := by decide +kernel
/-! A frame that decodes and one that does not. -/

/-- A frame of zero header and payload, its CRC-64 and its parity; the frame decodes. A frame of zeros has the wrong CRC. -/
def tailBytes : List Byte := [11, 113, 30, 216, 113, 111, 124, 3, 124, 172, 119, 107, 4, 224, 172, 135, 179, 138, 200, 37, 145, 233, 172, 0, 248,
  163, 180, 144, 9, 100, 38, 250, 132, 10, 5, 226, 251, 17, 65, 13, 203, 239, 83, 85, 129, 140, 23, 127, 113, 17, 122,
  163, 248, 113, 66, 224, 120, 78, 167, 68, 188, 89, 61, 118, 129, 49, 30, 210, 166, 148, 83, 206, 212, 3, 112, 198, 90, 95, 208, 22]
def quietFrame : List Byte := List.replicate 816 0 ++ tailBytes
theorem gfMul_zero (x : Byte) : gfMul 0 x = 0 := by
  have h : ∀ n b, gfMulF n 0 b = 0 := by
    intro n
    induction n with
    | zero => intro b; rfl
    | succ n ih =>
      intro b
      have : gfDouble 0 = 0 := by decide
      simp only [gfMulF, this, ih]; split <;> rfl
  exact h 8 x.toNat
theorem polyEval_zeros (x : Byte) (n : Nat) (l : List Byte) : polyEval x (List.replicate n 0 ++ l) = polyEval x l := by
  induction n with
  | zero => rfl
  | succ n ih => rw [← ih]; simp only [polyEval, List.replicate_succ, List.cons_append, List.foldl_cons, gfMul_zero]; rfl
theorem rsDecode_zeros (n : Nat) (l : List Byte) (h : (rsSyndromes l).all (· == 0) = true) :
    rsDecode (List.replicate n 0 ++ l) = some (List.replicate n 0 ++ l, 0) := by
  have e : rsSyndromes (List.replicate n 0 ++ l) = rsSyndromes l := by simp only [rsSyndromes, polyEval_zeros]
  simp only [rsDecode, e, h, if_true]
theorem crc_zeros : crc64xz (List.replicate 816 0) = 0x037c6f71d81e710b := by decide +kernel
def col (f : List Byte) (c n : Nat) (l : List Byte) : Bool :=
  decide (frameCodeword f c = List.replicate n 0 ++ l) && (rsSyndromes l).all (· == 0)
theorem col_decodes {f : List Byte} {c n : Nat} {l : List Byte} (h : col f c n l = true) :
    rsDecode (frameCodeword f c) = some (List.replicate n 0 ++ l, 0) := by
  simp only [col, Bool.and_eq_true, decide_eq_true_eq] at h
  rw [h.1, rsDecode_zeros n l h.2]
def rejoin (a b c d : List Byte) : List Byte := (a.zip (b.zip (c.zip d))).flatMap fun z => [z.1, z.2.1, z.2.2.1, z.2.2.2]
theorem frame_of {f a b c d : List Byte} (ha : rsDecode (frameCodeword f 0) = some (a, 0)) (hb : rsDecode (frameCodeword f 1) = some (b, 0))
    (hc : rsDecode (frameCodeword f 2) = some (c, 0)) (hd : rsDecode (frameCodeword f 3) = some (d, 0)) :
    frameDecode f = if leNat (((rejoin a b c d).drop 816).take 8) = (crc64xz ((rejoin a b c d).take 816)).toNat
      then some ((rejoin a b c d).take 816, 0) else none := by
  unfold frameDecode
  rw [ha, hb, hc, hd]
  rfl
/-- The symbols of codeword c in the last 80 bytes of the frame. -/
def ends (c : Nat) : List Byte := frameCodeword tailBytes c
theorem columns : col quietFrame 0 204 (ends 0) = true ∧ col quietFrame 1 204 (ends 1) = true ∧ col quietFrame 2 204 (ends 2) = true ∧
    col quietFrame 3 204 (ends 3) = true := by decide +kernel
theorem zero_columns : col (List.replicate 896 0) 0 224 [] = true ∧ col (List.replicate 896 0) 1 224 [] = true ∧
    col (List.replicate 896 0) 2 224 [] = true ∧ col (List.replicate 896 0) 3 224 [] = true := by decide +kernel
theorem rejoined : (rejoin (List.replicate 204 0 ++ ends 0) (List.replicate 204 0 ++ ends 1) (List.replicate 204 0 ++ ends 2)
    (List.replicate 204 0 ++ ends 3)) = quietFrame := by decide +kernel
theorem frame_sums : quietFrame.take 816 = List.replicate 816 0 ∧ leNat ((quietFrame.drop 816).take 8) = 0x037c6f71d81e710b ∧
    (List.replicate 896 (0 : Byte)).take 816 = List.replicate 816 0 ∧ leNat (((List.replicate 896 (0 : Byte)).drop 816).take 8) = 0 ∧
    rejoin (List.replicate 224 0 ++ []) (List.replicate 224 0 ++ []) (List.replicate 224 0 ++ []) (List.replicate 224 0 ++ []) =
      List.replicate 896 0 ∧ quietFrame.length = 896 ∧ (List.replicate 896 (0 : Byte)).length = 896 := by decide +kernel
theorem w_FramesAndControlMessages_good : quietFrame.length = 896 ∧ frameDecode quietFrame = some (List.replicate 816 0, 0) := by
  refine ⟨frame_sums.2.2.2.2.2.1, ?_⟩
  rw [frame_of (col_decodes columns.1) (col_decodes columns.2.1) (col_decodes columns.2.2.1) (col_decodes columns.2.2.2), rejoined,
    frame_sums.1, frame_sums.2.1, crc_zeros, if_pos (by decide)]
theorem w_FramesAndControlMessages_bad : (List.replicate 896 (0 : Byte)).length = 896 ∧ frameDecode (List.replicate 896 0) = none := by
  refine ⟨frame_sums.2.2.2.2.2.2, ?_⟩
  rw [frame_of (col_decodes zero_columns.1) (col_decodes zero_columns.2.1) (col_decodes zero_columns.2.2.1) (col_decodes zero_columns.2.2.2),
    frame_sums.2.2.2.2.1, frame_sums.2.2.1, frame_sums.2.2.2.1, crc_zeros, if_neg (by decide)]

/-! Witnesses: the engines that compute. -/

/-- The first part of a result with a state is a value; it fails; it waits. -/
def val {α : Type} (x : Except Bad α × State) : Bool := match x.1 with
  | .ok _ => true
  | .error _ => false
def failing {α : Type} (x : Except Bad α × State) : Bool := match x.1 with
  | .error (.fail _) => true
  | _ => false
def waiting {α : Type} (x : Except Bad α × State) : Bool := match x.1 with
  | .error .wait => true
  | _ => false
/-- What an operand check gives. -/
def accs (x : Except Fail (List Acc)) : List Acc := match x with
  | .ok as => as
  | .error _ => []
/-- The state with an uncorrectable codeword at byte 0, where A lies. -/
def broken (s : State) : State := { s with mem := { s.mem with errs := [(0, [(0, 1), (1, 2), (2, 3), (3, 5)])] } }
/-- A 1 × 1 product of FP32 with A at 0, B at 64, D at 4096. -/
def mmP : List Nat := [1 + 2 ^ 24, 1 + 2 ^ 32, 0, 0, 64, 64, 0, 64, 0, 0, 0, 4096, 0, 64]
def mm : State := runs 0 0x1001 mmP
def mmRun (s : State) : MatRun := mmPlan 0 (cmdOf 0x1001 mmP) (accs (s.access 0 (mmOperands (cmdOf 0x1001 mmP) 1)))
theorem w_MatrixCommandsStart_product : mm.running 0 0x1001 = some (cmdOf 0x1001 mmP) ∧ mm.matRun 0 = none ∧ ok (mm.mmFields (cmdOf 0x1001 mmP)) = true ∧
    bad (mm.mmFields (cmdOf 0x1001 (mmP.set 3 15))) = true ∧ ok (mm.mmFields (cmdOf 0x1001 (mmP.set 0 1))) = true ∧
    ok (mm.access 0 (mmOperands (cmdOf 0x1001 mmP) 1)) = true ∧ bad (mm.access 0 (mmOperands (cmdOf 0x1001 (mmP.set 2 1)) 1)) = true ∧
    val (mm.takeSnap 0 (mmRun mm).d) = true := by decide +kernel
/-- A combine of one segment. -/
def mcP : List Nat := [1 + 2 ^ 24, 1, 0, 64, 4096, 0, 64]
def mc : State := runs 0 0x1002 mcP
def mcOps (a : Nat) : List Opnd := [⟨a, 64, 1, 1, fp32Fmt, 2, 2, 3, false, false, false⟩, ⟨4096, 64, 1, 1, Fmt.of 0, 4, 5, 6, true, false, true⟩]
def mcRun (s : State) : MatRun := mcPlan 0 (cmdOf 0x1002 mcP) (accs (s.access 0 (mcOps 0)))
theorem w_MatrixCommandsStart_combine : mc.running 0 0x1002 = some (cmdOf 0x1002 mcP) ∧ ok (mcFields (cmdOf 0x1002 mcP)) = true ∧
    bad (mcFields (cmdOf 0x1002 (mcP.set 1 65))) = true ∧ ok (mcFields (cmdOf 0x1002 (mcP.set 1 0))) = true ∧
    ok (mc.access 0 (mcOps 0)) = true ∧ bad (mc.access 0 (mcOps 1)) = true ∧ val (mc.takeSnap 0 (mcRun mc).d) = true := by decide +kernel
/-- MM_ACC_OPEN of handle 3, one row by one, and the handle open; the slots of the only cluster in service taken. -/
def opn (p0 : Nat) : State := runs 0 0x1003 [p0, 0, 0, 64]
def handle3 : Handle := ⟨0, 0, 1, 1, false, [[f32one]]⟩
def opened (s : State := on) : State := s.setHandle 3 (some handle3)
def crowded : State := { on with mat := { on.mat with handles := (List.range 3).map (fun i => (i, some { handle3 with slot := i })), svc := (List.range 63).map fun i => (i + 1, ⟨1, false⟩) } }
theorem w_MatrixCommandsStart_open : ok ((opn 0x1010003).openFields (cmdOf 0x1003 [0x1010003, 0, 0, 64])) = true ∧ bitAt 0x1010003 8 = false ∧ on.openCluster = some 0 ∧
    bad ((opened).openFields (cmdOf 0x1003 [0x1010003, 0, 0, 64])) = true ∧ crowded.openCluster = none ∧ ok (crowded.openFields (cmdOf 0x1003 [0x1010003, 0, 0, 64])) = true ∧
    ok (on.openFields (cmdOf 0x1003 [0x1010103, 0, 0, 64])) = true ∧ bitAt 0x1010103 8 = true ∧
    ok (on.access 0 [opnd3 (cmdOf 0x1003 [0x1010103, 0, 0, 64]) 1 1 1 false false]) = true ∧
    val ((on.onPort 0 0).readRows 0 0 ((accs (on.access 0 [opnd3 (cmdOf 0x1003 [0x1010103, 0, 0, 64]) 1 1 1 false false])).getD 0 Acc.none) [0] 0 1) =
      true ∧
    ((on.onPort 0 0).readRows 0 0 ((accs (on.access 0 [opnd3 (cmdOf 0x1003 [0x1010103, 0, 0, 64]) 1 1 1 false false])).getD 0 Acc.none) [0] 0 1).2.openCluster =
      some 0 := by
  decide +kernel
def flushA (a : Nat) : Except Fail (List Acc) := opened.access 0 [opnd3 (cmdOf 0x1004 [3, a, 0, 64]) 1 1 1 true false]
theorem w_MatrixCommandsStart_flush : ok (opened.flushFields (cmdOf 0x1004 [3, 0, 0, 64])) = true ∧ bad (on.flushFields (cmdOf 0x1004 [3, 0, 0, 64])) = true ∧
    opened.handle 3 = some handle3 ∧ ok (opened.flushFields (cmdOf 0x1004 [3 + 2 ^ 11, 0, 0, 64])) = true ∧ bitAt (3 + 2 ^ 11) 11 = true ∧
    ok (flushA 0) = true ∧ bad (flushA 1) = true ∧ val (opened.takeSnap 0 ((accs (flushA 0)).getD 0 Acc.none)) = true ∧
    opened.rowsWait ((accs (flushA 0)).getD 0 Acc.none) [0] 0 1 = false ∧
    val ((opened.onPort 0 0).flushVals 0 false ((accs (flushA 0)).getD 0 Acc.none) handle3) = true ∧ (0 : Fin 8).val % 4 = 0 ∧ (1 : Fin 8).val % 4 = 1 ∧
    (6 : Fin 8).val % 4 = 2 := by decide +kernel
/-- The product's run started, and its item on cluster 0. -/
def started (s : State) (r : MatRun) : State := { s with mat := { s.mat with runs := [r] } }
def item (s : State) (r : MatRun) : State := { started s r with mat := { (started s r).mat with items := [(0, some (r.item 0))] } }
/-- The same product with A in the host's memory, which has to be read first; a page of D is being moved. -/
def mmHost : MatRun := mmPlan 0 (cmdOf 0x1001 (mmP.set 2 (2 ^ 63))) (accs (on.access 0 (mmOperands (cmdOf 0x1001 (mmP.set 2 (2 ^ 63))) 1)))
def onPort0 (s : State) : State := s.onPort 0 0
def dMoves : State := { item mm (mmRun mm) with mem := { mm.mem with moves := [⟨5, 0, .background⟩] } }
theorem w_WorkItemsRun_issue : on.issueAllowed = true ∧ (late 9999 { on with pwr := { on.pwr with matRatio := 1 } }).issueAllowed = false ∧
    ((started mm (mmRun mm)).mat.runs.findSome? fun r => ((started mm (mmRun mm)).orphan r).map fun f => (r.queue, f)) = none ∧
    (started mm (mmRun mm)).clFree 0 = true ∧ tget noFlag on.mat.gated 0 = false ∧
    ((started mm (mmRun mm)).mat.runs.find? ((started mm (mmRun mm)).clTakes 0)).isSome = true ∧ on.mat.runs.find? (on.clTakes 0) = none ∧
    ((started mm { mmRun mm with dest := 1 }).orphan { mmRun mm with dest := 1 }).isSome = true ∧
    tget noFlag ({ on with mat := { on.mat with gated := [(0, true)] } } : State).mat.gated 0 = true := by decide +kernel
theorem w_WorkItemsRun_complete : (item mm (mmRun mm)).clItem 0 = some ((mmRun mm).item 0) ∧ (item mm (mmRun mm)).matRun 0 = some (mmRun mm) ∧
    dMoves.deliverWaits (mmRun mm) ((mmRun mm).item 0) [0] [0] = true ∧
    (item mm (mmRun mm)).deliverWaits (mmRun mm) ((mmRun mm).item 0) [0] [0] = false ∧ tileRange (0 / tilesAcross 1) 1 = [0] ∧
    (mmRun mm).points ((mmRun mm).item 0) = [0, 1, 2] ∧ 6 % 4 ∈ (mmRun mm).points ((mmRun mm).item 0) ∧ 7 % 4 ∉ (mmRun mm).points ((mmRun mm).item 0) ∧
    val ((onPort0 (item mm (mmRun mm))).productItem (mmRun mm) ((mmRun mm).item 0) [0] [0]) = true ∧
    failing ((onPort0 (broken (item mm (mmRun mm)))).productItem (mmRun mm) ((mmRun mm).item 0) [0] [0]) = true ∧
    waiting ((onPort0 (item mm mmHost)).productItem mmHost (mmHost.item 0) [0] [0]) = true ∧
    val ((onPort0 (item mc (mcRun mc))).combineItem (mcRun mc) ((mcRun mc).item 0) [0] [0]) = true ∧
    failing ((onPort0 (broken (item mc (mcRun mc)))).combineItem (mcRun mc) ((mcRun mc).item 0) [0] [0]) = true := by decide +kernel

/-! Witnesses: the vector engine and the near-bank engine. -/

/-- A conversion of one FP32 value from 0 to 4096, an update of one chunk, a column reduction. -/
def vcP : List Nat := [1 + 2 ^ 24, 0, 0, 64, 4096, 0, 64]
def vc : State := runs 64 0x2001 vcP
def vcAccs : List Acc := accs (vc.vAccess 64 (cmdOf 0x2001 vcP))
def vcRun : VecRun := ⟨64, 0x2001, 1, 1, [0], vcAccs, [], 0, 0, 0, [], none, none⟩
theorem w_VectorCommandsStart : vc.running 64 0x2001 = some (cmdOf 0x2001 vcP) ∧ vc.vecRun 64 = none ∧ ok (vFields (cmdOf 0x2001 vcP)) = true ∧
    bad (vFields (cmdOf 0x2001 (vcP.set 3 (2 ^ 40)))) = true ∧ vNothing (cmdOf 0x2001 vcP) = false ∧ vNothing (cmdOf 0x2001 (vcP.set 0 0)) = true ∧
    ok (vFields (cmdOf 0x2001 (vcP.set 0 0))) = true ∧ ok (vc.vAccess 64 (cmdOf 0x2001 vcP)) = true ∧
    bad (vc.vAccess 64 (cmdOf 0x2001 (vcP.set 1 1))) = true ∧ val (vc.snapAll 64 (vTide (cmdOf 0x2001 vcP) vcAccs)) = true := by decide +kernel
/-- An operand with a tide entry: its STATE word lies in a pseudo-channel out of service, which waits, or is lost. -/
def tideAcc : Acc := ⟨0, 64, 1, 1, fp32Fmt, fp32Fmt, true, some 0, none, 4, 5⟩
def outOf (s : State) : State := { s with err := { s.err with pcs := (List.range 512).map fun i => (i, ⟨⟨1, false⟩, false, 0⟩) } }
theorem w_VectorCommandsStart_state : failing ((broken (vc.setReg 0x800024 0)).snapAll 64 [tideAcc]) = true ∧
    waiting ((outOf (vc.setReg 0x800024 0)).snapAll 64 [tideAcc]) = true := by decide +kernel
def vcItem (s : State) (op : Nat) (ps : List Nat) (r : VecRun) : State :=
  { runs 64 op ps s with vec := { s.vec with runs := [r], items := [(0, some ⟨64, 0, false⟩)] } }
theorem w_VectorRowsRun : on.qdItem 0 = none ∧ tget noFlag on.vec.gated 0 = false ∧ on.vec.runs.find? (VecRun.takes 0) = none ∧
    [vcRun].find? (VecRun.takes 0) = some vcRun ∧ tget noFlag ({ on with vec := { on.vec with gated := [(0, true)] } } : State).vec.gated 0 = true ∧
    (vcItem on 0x2001 vcP vcRun).qdItem 0 = some ⟨64, 0, false⟩ ∧ (vcItem on 0x2001 vcP vcRun).vecRun 64 = some vcRun ∧
    val (((vcItem on 0x2001 vcP vcRun).onPort 64 0).vRowsOf 64 0 (vReads (cmdOf 0x2001 vcP) vcRun 0)) = true ∧
    (lseOuts (cmdOf 0x2001 vcP) vcRun (vCompute (cmdOf 0x2001 vcP) 0 [[f32one]])).2.any ((vcItem on 0x2001 vcP vcRun).vWaits vcRun) = false ∧
    (lseOuts (cmdOf 0x2001 vcP) vcRun (vCompute (cmdOf 0x2001 vcP) 0 [[f32one]])).2.any ((outOf (vcItem on 0x2001 vcP vcRun)).vWaits vcRun) = true ∧
    failing (((broken (vcItem on 0x2001 vcP vcRun)).onPort 64 0).vRowsOf 64 0 (vReads (cmdOf 0x2001 vcP) vcRun 0)) = true ∧
    (((some (3 : Fin 9)).map Fin.val).filter fun p => (vPoints (cmdOf 0x2001 vcP)).contains (p % 3)) = some 3 ∧
    (((some (4 : Fin 9)).map Fin.val).filter fun p => (vPoints (cmdOf 0x2001 vcP)).contains (p % 3)) = none ∧
    ((vcItem on 0x2003 [0, 16] vcRun).q 64).cmd = some (cmdOf 0x2003 [0, 16]) ∧ bitAt ((cmdOf 0x2003 [0, 16]).p 1) 4 = true ∧
    ((vcItem on 0x2006 [0] vcRun).q 64).cmd = some (cmdOf 0x2006 [0]) := by decide +kernel
/-- A bank-aligned region of a tag of 64 MiB at 32 MiB. -/
def banked (tag : Nat) : State := { on with mem := { on.mem with
  regions := [(0, some ⟨0, 16, 0, 0, 0, [], false⟩), (1, some ⟨0x2000000, 32 + 2 ^ 21 + 2 * 2 ^ 23, tag, 0, 0, [0, 1], false⟩)] } }
/-- A command with the region tags of the state it was dispatched in, running in that state. -/
def cmdT (opc : Nat) (ps : List Nat) (s : State) : Cmd := { cmdOf opc ps with tags := s.tagMap }
def runT (q opc : Nat) (ps : List Nat) (s : State) : State := s.setQ q { Queue.reset with state := .active, cmd := some (cmdT opc ps s) }
/-- NB_FERRY of one instruction on stack 0, row index 0; NB_OPTIMIZE of one row; NB_ATTEND of one query. -/
def feP : List Nat := [1 + 1 * 2 ^ 8 + 1 * 2 ^ 48, 0, 0x2000000, 0x2000000, 0, 0]
def fe : State := runs 128 0x3001 feP (banked 0)
theorem w_NearBankCommandsRun_ferry : fe.running 128 0x3001 = some (cmdOf 0x3001 feP) ∧ fe.nbRun 128 = none ∧ ok (ferryFields (cmdOf 0x3001 feP)) = true ∧
    bad (ferryFields (cmdOf 0x3001 (feP.set 0 (2 ^ 22)))) = true ∧ ok (fe.ferryAddrs 128 (cmdOf 0x3001 feP)) = true ∧
    bad (fe.ferryAddrs 128 (cmdOf 0x3001 (feP.set 2 0))) = true ∧ ((fe.setNRun (newRun 128 0x3001 [])).nbRun 128) ≠ none := by decide +kernel
def opP : List Nat := [1, 8, 0x2000000, 0x2000000, 0, 0, 0, 0, 0, 0, 0, 0]
def op (ps : List Nat := opP) : State := runT 128 0x3002 ps (banked 256)
def opC (ps : List Nat := opP) : Cmd := cmdT 0x3002 ps (banked 256)
theorem w_NearBankCommandsRun_optimize : op.running 128 0x3002 = some opC ∧ op.nbRun 128 = none ∧ ok (optFields opC) = true ∧
    bad (optFields (opC (opP.set 1 (2 ^ 29 + 1)))) = true ∧ ok (optFields (opC (opP.set 1 (2 ^ 29)))) = true ∧ ok (optFields (opC (opP.set 1 0))) = true ∧
    bad ((runT 128 0x3002 opP on).optChecks 128 (cmdT 0x3002 opP on)) = true ∧ ok (op.optChecks 128 opC) = true := by decide +kernel
def atP : List Nat := [1 + 2 ^ 16, 0x2000000, 1, 0, 4096]
def att (ps : List Nat := atP) : State := runT 128 0x3003 ps (banked 257)
def attC (ps : List Nat := atP) : Cmd := cmdT 0x3003 ps (banked 257)
theorem w_NearBankCommandsRun_attend : att.running 128 0x3003 = some attC ∧ att.nbRun 128 = none ∧
    bad ((runT 128 0x3003 atP on).attChecks 128 (cmdT 0x3003 atP on)) = true ∧ ok (att.attChecks 128 attC) = true ∧
    ok ((att (atP.set 0 0)).attChecks 128 (attC (atP.set 0 0))) = true ∧ (newRun 128 0x3003 []).loaded = false := by decide +kernel
theorem w_NearBankCommandsRun_repair : (runs 128 0x3004 [5 + 1 * 2 ^ 16]).running 128 0x3004 = some (cmdOf 0x3004 [5 + 1 * 2 ^ 16]) ∧
    ok (on.repairCheck 128 (cmdOf 0x3004 [5 + 1 * 2 ^ 16])) = true ∧ bad (on.repairCheck 128 (cmdOf 0x3004 [5 + 9 * 2 ^ 16])) = true := by decide +kernel
/-- NB_OPTIMIZE in progress on stack 0 before its first row, and with pair 0 still to do; NB_REPAIR in progress. -/
def nst (todo : List Nat) : NbStack := ⟨0, 0, b2n (!todo.isEmpty), 1, todo, none⟩
def nbs (opc : Nat) (ps todo : List Nat) : State :=
  { runs 128 opc ps (banked 256) with nbu := { on.nbu with runs := [newRun 128 opc [nst todo]] } }
/-- The cap always applies, and stack 0 has moved 10 GB within the window. -/
def crammed : State := { (nbs 0x3002 opP []).setReg 0xA00008 0x140 with nbu := { (nbs 0x3002 opP []).nbu with cols := [(0, [(0, 10000000000)])] } }
theorem w_NearBankCommandsRun_rows : ((nbs 0x3002 opP []).nbu.runs.find? (fun r => !r.stopping && (r.op != 0x3003 || r.loaded) &&
      r.stackRuns.any fun x => x.stack == 0 && x.todo.isEmpty && decide (x.next < x.stop))).isSome = true ∧
    (nbWork (cmdOf 0x3002 opP) (newRun 128 0x3002 []) 0 0).isEmpty = false ∧ (nbs 0x3002 opP []).rbit 0xA00008 8 = false ∧
    ((nbs 0x3002 opP []).mat.items.any fun e => e.2.isSome) = false ∧ ((nbs 0x3002 opP []).setReg 0xA00008 0x140).rbit 0xA00008 8 = true ∧
    ((newRun 128 0x3002 [nst []]).stackRuns.find? (fun x => x.stack == 0)).isSome = true ∧
    ((nbs 0x3002 opP [0]).nbu.runs.find? (fun r => (r.stackFor 0).isSome)) = some (newRun 128 0x3002 [nst [0]]) ∧
    (newRun 128 0x3002 [nst [0]]).stackFor 0 = some (nst [0]) ∧ (nbWork (cmdOf 0x3002 (opP.set 1 0)) (newRun 128 0x3002 []) 0 0).isEmpty = true ∧
    crammed.colsNow 0 ≠ 0 ∧ crammed.rf 0xA00008 7 0 * 1250000 ≤ crammed.colsNow 0 ∧ crammed.rbit 0xA00008 8 = true ∧ ((nbs 0x3002 opP [0]).q 128).cmd = some (cmdOf 0x3002 opP) ∧
    ((nbs 0x3004 [5 + 1 * 2 ^ 16] []).nbu.runs.find? (fun r => r.op == 0x3004 && r.stackRuns.any fun x => x.stack == 0)).isSome = true := by
  decide +kernel

/-! Witnesses: the tier manager. -/

/-- A queue of the tier manager that runs a command. -/
def tir (opc : Nat) (ps : List Nat) (s : State := on) : State := runs 192 opc ps s
theorem w_TransfersRun : (tir 0x4001 [64, 0, 4096]).running 192 0x4001 = some (cmdOf 0x4001 [64, 0, 4096]) ∧
    ok (on.xferCheck 192 (cmdOf 0x4001 [64, 0, 4096]) [1, 2]) = true ∧ bad (on.xferCheck 192 (cmdOf 0x4001 [1, 0, 4096]) [1, 2]) = true ∧
    ok (on.xferCheck 192 (cmdOf 0x4002 [64, 0, 5]) [1]) = true ∧ bad (on.xferCheck 192 (cmdOf 0x4002 [64, 1, 5]) [1]) = true ∧
    ok (on.xferCheck 192 (cmdOf 0x4001 [0, 0, 4096]) [1, 2]) = true ∧ (on.prog 192).done = 0 ∧ on.opWaits 0 64 = false := by decide +kernel
/-- TT_REGION_SET of one page after the 16 of region 0; pinned to the fast tier; without room in its toll. -/
def rsP (pages hint : Nat) : List Nat := [1, 0x2000000, pages + hint * 2 ^ 23, 0, 0]
def placed (s : State) (hint pages : Nat) : (Except (Option Fail) (List Nat)) × State := s.placeRegion 0 16 pages 0 hint 4096
def done (x : (Except (Option Fail) (List Nat)) × State) : Bool := match x.1 with
  | .ok _ => true
  | .error _ => false
def refused (x : (Except (Option Fail) (List Nat)) × State) : Bool := match x.1 with
  | .error (some _) => true
  | _ => false
def delayed (x : (Except (Option Fail) (List Nat)) × State) : Bool := match x.1 with
  | .error none => true
  | _ => false
def noToll : State := { on with mem := { on.mem with grants := [(0, 0), (1, 0)] } }
/-- A region on the fast tier's highest row, and every pseudo-channel out of service. -/
def banksOut : State := outOf { on with mem := { on.mem with regions := [(1, some ⟨262128 * 2097152, 16, 0, 0, 0, [], false⟩)] } }
theorem w_RegionsAndTolls_set : (tir 0x4010 (rsP 1 0)).running 192 0x4010 = some (cmdOf 0x4010 (rsP 1 0)) ∧
    ok (on.regionFields 192 (cmdOf 0x4010 (rsP 1 0))) = true ∧ bad (on.regionFields 192 (cmdOf 0x4010 (rsP 0 0))) = true ∧
    ok (on.regionAddrs 192 (cmdOf 0x4010 (rsP 1 0))) = true ∧ bad (on.regionAddrs 192 (cmdOf 0x4010 ((rsP 1 0).set 1 0))) = true ∧
    done (placed on 0 1) = true ∧ refused (placed noToll 0 1) = true ∧ done (placed on 2 1) = true ∧
    delayed (banksOut.placeRegion 0 16 16 1 2 4096) = true := by decide +kernel
/-- A region of each kind and hint, of 16 pages at 32 MiB. -/
def region (kind hint : Nat) (more : Nat := 0) : Region := ⟨0x2000000, 16 + kind * 2 ^ 21 + hint * 2 ^ 23 + more, 0, 0, 0, [], false⟩
def withRegion (r : Region) : State := { on with mem := { on.mem with regions := [(0, some ⟨0, 16, 0, 0, 0, [], false⟩), (1, some r)] } }
theorem w_RegionsAndTolls_clear : lowBit ((cmdOf 0x4011 [4096]).p 0) (bmask 63 12) = some 12 ∧ on.namedRegion 192 1 = none ∧
    (withRegion (region 0 0)).namedRegion 192 1 = some (region 0 0) ∧ (region 1 2).kind ≠ 0 ∧ (region 0 0).kind = 0 ∧
    fld ((cmdOf 0x4012 [1, 7]).p 1) 2 0 = 7 ∧ done ((withRegion (region 0 0)).placeRegion 0 16 16 0 2 1) = true ∧ fld ((cmdOf 0x4012 [1, 2]).p 1) 2 0 ≤ 4 ∧
    refused ((withRegion (region 0 0)).placeRegion 0 16 262145 0 2 1) = true := by decide +kernel
theorem w_RegionsAndTolls_toll : on.chan 192 = 0 ∧ (on.setReg (qo 192 0x14) 5).chan 192 = 5 ∧ on.mem.charge 0 false = 16 ∧ on.mem.charge 1 false = 0 ∧
    fld ((cmdOf 0x4028 [0, 16]).p 1) 19 0 = 16 ∧ fld ((cmdOf 0x4028 [0, 15]).p 1) 19 0 < on.mem.charge 0 false := by decide +kernel
/-- A queue on channel 5, which lies in context 1. -/
def inCtx1 : State := (on.setReg (qo 192 0x14) 5).setReg (bo 5 4) 1
theorem w_PagesPlacedAndMoved_place : (tir 0x4020 [0, 2]).running 192 0x4020 = some (cmdOf 0x4020 [0, 2]) ∧ fld ((cmdOf 0x4020 [0, 0]).p 1) 20 0 = 0 ∧
    2 ^ 63 / 2 ^ 62 ≠ 0 ∧ 4096 % pageBytes ≠ 0 ∧ malformedAddr 0 = false ∧ inRange 0 (2 * pageBytes) = true ∧ on.mem.placeRange 0 0 2 = true ∧
    malformedAddr (rangeBytes - pageBytes) = false ∧ (rangeBytes - pageBytes) % pageBytes = 0 ∧ inRange (rangeBytes - pageBytes) (2 * pageBytes) = false ∧
    inCtx1.ctx 192 = 1 ∧ inCtx1.mem.placeRange 1 0 2 = false ∧ (on.prog 192).done = 0 ∧ (on.placeOne 0 false).1 = some false := by decide +kernel
/-- A page of the capacity tier in a region of context 0, its accesses counted. -/
def capPage : State := { on.setReg 0x800000 1 with mem := { on.mem with
  regions := [(0, some ⟨262144 * 2097152, 1, 0, 0, 0, [], false⟩)], access := [(262144, 60000)] } }
theorem capPage_reg : capPage.rbit 0x800000 0 = true ∧ capPage.pwr.state = 0 ∧ capPage.movesNow < capPage.rd 0x800008 ∧
    (capPage.mem.regionOf 262144).isSome = true ∧ capPage.mem.inCap 262144 = true ∧ capPage.mem.moving 262144 = false ∧
    capPage.mem.tollAllows 262144 false = true := by decide +kernel
theorem noToll_page : ({ capPage with mem := { capPage.mem with grants := [(0, 0)] } } : State).mem.tollAllows 262144 false = false := by decide +kernel
/-- Each kind of page move; one the rules no longer make, one a toll forbids, one that waits; the end of an epoch. -/
def moving (w : MoveWhy) (s : State) : State := { s with mem := { s.mem with moves := [⟨262144, 0, w⟩] } }
def forded1 (s : State) : State := { s with mem := { s.mem with regions := [(0, some ⟨262144 * 2097152, 1 + 4 * 2 ^ 23, 0, 0, 0, [], false⟩)] } }.setFord 1
  ⟨true, 0, 1, [(262144, 1)], false, 0, true, [], true, []⟩
theorem w_PagesPlacedAndMoved_move : (moving .background capPage).mem.moves.find? (fun v => v.page == 262144) = some ⟨262144, 0, .background⟩ ∧
    on.moveGood ⟨262144, 0, .background⟩ = false ∧ capPage.moveGood ⟨262144, 0, .background⟩ = true ∧
    (forded1 capPage).moveGood ⟨262144, 0, .ford 1⟩ = true ∧ (capPage.mem.tollAllows 262144 false && capPage.mem.tollAllows 0 true) = true ∧
    ((forded1 capPage).mem.tollAllows 262144 false && (forded1 capPage).mem.tollAllows 0 true) = true ∧ (forded1 capPage).moveWaits 262144 0 = false ∧
    capPage.moveWaits 262144 0 = false ∧ (outOf capPage).moveGood ⟨262144, 0, .background⟩ = true ∧
    on.mem.epochAt + on.rd 0x80000C * 10000 ≤ (late (on.rd 0x80000C * 10000)).pwr.time := by decide +kernel
theorem w_PagesPlacedAndMoved_waits : (outOf capPage).moveWaits 262144 0 = true := by
  have a : (outOf capPage).mem.copied 262144 = true := by decide +kernel
  have b : (outOf capPage).accessWaits (0 * pageBytes) pageBytes = true := by decide +kernel
  simp only [State.moveWaits, a, b, Bool.true_or, Bool.or_true, Bool.and_true]
/-- A stream region, the layer table of ford 1 at 64 (one layer: page 16, 4 pages), and the ford configured. -/
def streamed : State := (withRegion (region 0 4)).memWrite 64 (leBytes 8 (16 + 4 * 2 ^ 20))
def fsP (p1 : Nat) : List Nat := [1 + 2 ^ 8 + 2 ^ 16, p1]
def readOf (s : State) (a n w : Nat) : List Byte := match (s.opRead 192 a n w).1 with
  | .bytes bs => bs
  | _ => []
theorem w_FordsRun_set : (tir 0x4030 (fsP 64) streamed).running 192 0x4030 = some (cmdOf 0x4030 (fsP 64)) ∧ (streamed.mem.ford 1).active = false ∧
    lowBit ((cmdOf 0x4030 (fsP 64)).p 0) (bmask 7 3) = none ∧ ok (streamed.checkAddr 192 64 8 1 8) = true ∧ bad (streamed.checkAddr 192 65 8 1 8) = true ∧
    got ((streamed.readTable 192 64 1 5 0 8).1.1, (streamed.readTable 192 64 1 5 0 8).2) = true ∧
    (wordsOf 1 (readOf streamed 64 8 1)).map layerOf = [(16, 4)] ∧ layersMeet [(16, 4)] = false ∧
    (wordsOf 1 (readOf streamed 64 8 1)).any (fun x => fld x 63 41 != 0 || fld x 40 20 == 0) = false ∧
    streamed.layerOk 0 (16, 4) = true ∧ streamed.layerOk 0 (0, 4) = false := by decide +kernel
/-- The ford of two layers, and a step to a layer: without a layer whose region went, with one, its return copies waiting. -/
def forded (cleared : List Nat := []) : State := streamed.setFord 1 ⟨true, 0, 1, [(16, 2), (18, 2)], false, 0, false, [], false, cleared⟩
def stepped (cleared : List Nat := []) : Ford := { (forded cleared).mem.ford 1 with stepped := true, layer := 0, waiters := [(192, 0)], filling := true }
theorem w_FordsRun_step : (forded.mem.ford 1).active = true ∧ ((forded.mem.ford 1).waiters.any fun w => w.1 == 192) = false ∧
    (forded.mem.ford 1).layers.length = 2 ∧ 0 < (forded.mem.ford 1).layers.length ∧ (forded.mem.ford 1).layers.length ≤ 2 ∧
    (stepped.window.any fun i => !forded.layerKept (forded.mem.ford 1) i) = false ∧
    ((stepped [0]).window.any fun i => !(forded [0]).layerKept ((forded [0]).mem.ford 1) i) = true ∧
    ([18, 19].all fun x => !stepped.holds x && !forded.mem.inCap x) = true ∧ (forded.mem.cleanPage 18).isNone = true ∧
    forded.accessWaits (18 * pageBytes) pageBytes = false ∧ forded.accessWaits (19 * pageBytes) pageBytes = false ∧
    lowBit ((cmdOf 0x4031 [1]).p 0) (bmask 15 4) = none ∧ (on.mem.ford 1).active = false ∧ lowBit ((cmdOf 0x4032 [1]).p 0) (bmask 63 3) = none := by
  decide +kernel
theorem w_FordsRun_waits : ((outOf forded).mem.cleanPage 18).isNone = true ∧ (outOf forded).accessWaits (18 * pageBytes) pageBytes = true := by decide +kernel
/-- TT_COMPRESS of a compressed region; TT_RETIRE of fast frame 3 to a spare at 32 MiB; TT_TIDE. -/
theorem w_CompressRetireTide_compress : (withRegion (region 0 0 (2 ^ 28))).namedRegion 192 1 = some (region 0 0 (2 ^ 28)) ∧ (region 0 0 (2 ^ 28)).compress = true ∧
    (region 0 0).compress = false ∧ fld ((cmdOf 0x4038 [1, 2 * 2 ^ 32]).p 1) 52 32 = 2 ∧ (region 0 0 (2 ^ 28)).pages < 16 + 1 ∧
    (tir 0x4038 [1, 2 * 2 ^ 32]).running 192 0x4038 = some (cmdOf 0x4038 [1, 2 * 2 ^ 32]) := by decide +kernel
def spare (n : Nat) : State := { withRegion (region 2 2) with mem := { (withRegion (region 2 2)).mem with remap := List.replicate n ⟨true, 1, 0⟩ } }
theorem w_CompressRetireTide_retire : (tir 0x4039 [3, 0x2000000]).running 192 0x4039 = some (cmdOf 0x4039 [3, 0x2000000]) ∧ 3 < retireFrames false ∧
    ((spare 0).mem.regionOf ((spare 0).mem.offsetAt false (3 * 65536) / pageBytes)).all (fun r => r.2.kind == 0) = true ∧
    ((spare 1).mem.remap.any fun r => r.cap == true && r.frame == 1) = true ∧ ((spare 0).mem.remap.any fun r => r.cap == false && r.frame == 3) = false ∧
    inRange 0x2000000 65536 = true ∧ (spare 0).mem.regionOf (0x2000000 / pageBytes) = some (1, region 2 2) ∧ (region 2 2).kind = 2 ∧ (region 2 2).hint = 2 ∧
    (spare 0).accessWaits ((spare 0).mem.offsetAt false (3 * 65536)) 65536 = false ∧ (spare 0).mem.moving 0 = false := by decide +kernel
theorem spare_remap (n : Nat) : (spare n).mem.remap.length = n ∧ ((spare n).mem.remap.any fun r => r.cap == false && r.frame == 3) = false ∧
    ((spare n).mem.remap.any fun r => r.spare == 0x2000000) = false := by
  have h (f : Remap → Bool) (g : f ⟨true, 1, 0⟩ = false) : (List.replicate n (⟨true, 1, 0⟩ : Remap)).any f = false := by
    induction n with
    | zero => rfl
    | succ n ih => rw [List.replicate_succ, List.any_cons, g, ih]; rfl
  exact ⟨List.length_replicate, h _ (by decide), h _ (by decide)⟩
theorem w_CompressRetireTide_full : ∃ n, 8192 ≤ (spare n).mem.remap.length := ⟨8192, Nat.le_of_eq (spare_remap 8192).1.symm⟩
theorem w_CompressRetireTide_tide : lowBit ((cmdOf 0x4040 [0]).p 0) (bmask 63 25) = none ∧ fld ((cmdOf 0x4040 [4095 + 2 * 4096]).p 0) 11 0 +
    fld ((cmdOf 0x4040 [4095 + 2 * 4096]).p 0) 24 12 = 4097 := by decide +kernel
theorem foldl_isSome {α β : Type} (f : Option β → α → Option β) (h : ∀ b x, b.isSome = true → (f b x).isSome = true) (x : α)
    (hx : ∀ b, (f b x).isSome = true) : ∀ (l : List α) (b : Option β), (b.isSome = true ∨ x ∈ l) → (l.foldl f b).isSome = true := by
  intro l
  induction l with
  | nil => intro b k; simpa using k
  | cons y l ih =>
    intro b k
    refine ih _ ?_
    rcases k with k | k
    · exact .inl (h b y k)
    · rcases List.mem_cons.mp k with k | k
      · exact .inl (k ▸ hx b)
      · exact .inr k
theorem victim_isSome {m : Mem} {cap : Bool} {ok : Nat → Nat → Bool} {x c : Nat} (hx : x < allPages) (h1 : m.inCap x = cap)
    (h2 : m.victimClass x = some c) (h3 : ok c x = true) : (m.victim cap ok).isSome = true := by
  unfold Mem.victim
  rw [Option.isSome_map]
  refine foldl_isSome _ ?_ x ?_ _ none (.inr ?_)
  · intro b y k
    obtain ⟨b, rfl⟩ := Option.isSome_iff_exists.mp k
    dsimp only
    repeat (first | split | rfl)
  · intro b
    simp only [h2, h3]
    repeat (first | split | rfl | simp_all)
  · simp only [List.mem_filter, List.mem_range'_1, h1, beq_self_eq_true, and_true]
    omega
theorem capPage_class : capPage.mem.victimClass 0 = some 1 ∧ capPage.mem.inCap 0 = false ∧
    (capPage.mem.regionOf 262144).map (fun e => (e.2.kind, e.2.hint)) = some (0, 0) ∧ 0 < capPage.mem.room 0 true ∧
    capPage.mem.live.all (fun e => e.2.ctx == 0) = true := by decide +kernel
/-- A background move of that page has a victim, and its tolls allow it; without a fast grant they do not. -/
theorem w_PagesPlacedAndMoved_background : ∃ v, capPage.bgVictim 262144 = some v ∧ capPage.mem.tollAllows v true = true := by
  have h : (capPage.bgVictim 262144).isSome = true := by
    unfold State.bgVictim
    obtain ⟨e, he⟩ := Option.isSome_iff_exists.mp capPage_reg.2.2.2.1
    have hk := capPage_class.2.2.1
    rw [he] at hk
    simp only [Option.map_some, Option.some.injEq, Prod.mk.injEq] at hk
    rw [he]
    simp only [hk.1, hk.2, capPage_reg.2.2.2.2.1, capPage_reg.2.2.2.2.2.1, ne_eq, not_true_eq_false, Bool.not_true, Bool.false_eq_true, or_self,
      if_false, if_true]
    exact victim_isSome (x := 0) (by decide) capPage_class.2.1 capPage_class.1 (by decide)
  obtain ⟨v, hv⟩ := Option.isSome_iff_exists.mp h
  refine ⟨v, hv, ?_⟩
  unfold Mem.tollAllows
  split
  · rfl
  · next k r hr =>
    have hm := List.mem_of_find?_eq_some hr
    have hc := List.all_eq_true.mp capPage_class.2.2.2.2 _ hm
    rw [show r.ctx = 0 by simpa using hc]
    exact decide_eq_true capPage_class.2.2.2.1

/-! Witnesses: the intake engine. -/

/-- A record of 123 bytes at 0, not a region of interest, and a batch of one image of queue 320 in a phase. -/
def sub (format : Nat) : SubRec := ⟨0, 123, format, 0, 0, 77, 0, 0, 0, 0, 0, 1, 1, 1, 1, 0, 0, 0, [], [], 0, 0, 0⟩
def sample (r : SubRec) (p : Phase11) : Sample := ⟨0, r, p, [0]⟩
def batch (r : SubRec) (p : Phase11) (sch : Option Schema) : Batch :=
  ⟨320, 7, 1, 1, 1, 1, 1, 1000, ⟨4096, 4, 1, 1, fp32Fmt, fp32Fmt, true, none, none, 2, 3⟩, 64, 8192, sch, (1, 0), 0x200000, 8, [sample r p], []⟩
def intake (b : Batch) : State := { on with itk := { on.itk with batches := [b] } }
def stage (p : Phase11) : State := intake (batch (sub 2) p none)
/-- A grey TIFF of one pixel, uncompressed (TIFF 6.0). -/
def tag (t ty v : Nat) : List Byte := leBytes 2 t ++ leBytes 2 ty ++ leBytes 4 1 ++ leBytes 4 v
def tiff : List Byte := [0x49, 0x49, 42, 0] ++ leBytes 4 8 ++ leBytes 2 9 ++ tag 256 3 1 ++ tag 257 3 1 ++ tag 258 3 8 ++ tag 259 3 1 ++
  tag 262 3 1 ++ tag 273 4 122 ++ tag 277 3 1 ++ tag 278 3 1 ++ tag 279 4 1 ++ leBytes 4 0 ++ [200]
theorem test_tiff : ((imgDecode (sub 2) 1000 tiff).1.toOption.map fun i => (i.w, i.h, i.ch, i.px)) = some (1, 1, 1, [200]) := by decide +kernel
theorem w_BatchesAndVocabulary : (runs 320 0x6001 [] (stage .waiting)).running 320 0x6001 = some (cmdOf 0x6001 []) ∧ on.itk.batch 320 = none ∧
    ((stage .waiting).itk.batch 320) = some (batch (sub 2) .waiting none) ∧
    ((intake { batch (sub 2) .waiting none with samples := [] }).itk.batch 320).map (·.samples) = some [] ∧ on.pipeEmpty = true ∧
    (stage .waiting).pipeEmpty = false := by decide +kernel
/-- IK_VOCAB_LOAD of one entry, "a", at 0, WORK at 4096. -/
def voP : List Nat := [1 + 1 * 2 ^ 32, 0, 4096]
def voc : State := on.memWrite 0 [1, 97]
theorem w_BatchesAndVocabulary_load : ok (voc.vocabFields 320 (cmdOf 0x6010 voP)) = true ∧ bad (voc.vocabFields 320 (cmdOf 0x6010 [0, 0, 4096])) = true ∧
    got (voc.opRead 320 0 32 (wordWith 1 (itkData 3 0))) = true ∧ (vocabGo 0 [] (chunks 32 (1 :: 97 :: List.replicate 30 0))).toOption = some [[97]] ∧
    (vocabGo 0 [] (chunks 32 (List.replicate 32 0))).toOption = none ∧ voc.opWaits 4096 64 = false := by decide +kernel
theorem w_SamplesPassThrough_stages : (stage .waiting).itk.lanesOut.contains 0 = false ∧ (stage .waiting).itk.onLane 0 = none ∧ (stage .waiting).itk.gated = false ∧
    (((stage .waiting).itk.all.take 512).find? (fun p => p.2.phase == .waiting)).isSome = true ∧
    ((on.itk.all.take 512).find? (fun p => p.2.phase == .waiting)) = none ∧
    ((stage (.started 0)).itk.onLane 0) = some (batch (sub 2) (.started 0) none, sample (sub 2) (.started 0)) ∧
    (stage (.started 0)).itk.earlierReserved (batch (sub 2) (.started 0) none) (sample (sub 2) (.started 0)) = true ∧
    (stage (.started 0)).cacheRegion = none ∧ (sub 2).size ≠ 0 ∧ ({ sub 2 with size := 0 } : SubRec).size = 0 := by decide +kernel
/-- The cache on, in region 0, and with this sample in it. -/
def cached (s : State) : State := (s.setReg 0xE00000 2).setReg 0xE0000C 0x8000
def cacheHit : State := { cached (stage (.started 0)) with itk := { (cached (stage (.started 0))).itk with cacheAt := (0, 16 * 512), cache := [⟨(cached on).cacheKey 320 (sub 2), 1, 1, 1, 1, [0]⟩] } }
theorem w_SamplesPassThrough_cache : (cached (stage (.started 0))).cacheRegion = some (0, 16 * 512) ∧ cacheHit.cacheRegion = some (0, 16 * 512) ∧
    ((cacheHit.cacheSync (0, 16 * 512)).itk.cache.find? (fun e => e.key == (cacheHit.cacheSync (0, 16 * 512)).cacheKey 320 (sub 2))).isSome = true ∧
    (((cached on).cacheSync (0, 16 * 512)).itk.cache.find? (fun e => e.key == ((cached on).cacheSync (0, 16 * 512)).cacheKey 320 (sub 2))) = none := by
  decide +kernel
def sch : Schema := ⟨44, 1, 0, []⟩
theorem w_SamplesPassThrough_decode : ((stage (.reserved 0 none 1 1 1 1)).itk.onLane 0).isSome = true ∧
    ((stage (.reserved 0 (some tiff) 1 1 1 1)).itk.onLane 0).isSome = true ∧ on.blockWaits 0x200000 [0] = false ∧
    (cached on).blockWaits ((cached on).cacheBlocks 320 (sub 2) ⟨1, 1, 1, [200]⟩).1 ((cached on).cacheBlocks 320 (sub 2) ⟨1, 1, 1, [200]⟩).2 = false ∧
    (outOf (cached on)).blockWaits ((outOf (cached on)).cacheBlocks 320 (sub 2) ⟨1, 1, 1, [200]⟩).1
      ((outOf (cached on)).cacheBlocks 320 (sub 2) ⟨1, 1, 1, [200]⟩).2 = true ∧
    (imgDecode (sub 2) ((batch (sub 2) .waiting none).budgetOf (sub 2)) tiff).1.toOption.isSome = true ∧
    (imgDecode (sub 2) ((batch (sub 2) .waiting none).budgetOf (sub 2)) []).1.toOption.isSome = false ∧
    (runDec (textDecode sch on.vocabNow 0 true) 1000 [65]).1.toOption.isSome = true ∧
    (runDec (textDecode { sch with reclen := 2 } on.vocabNow 0 true) 1000 [65]).1.toOption.isSome = false := by decide +kernel
def heads (d : Decoded) (r : SubRec) : State := intake (batch r (.decoded d) none)
theorem w_SamplesPassThrough_heads : (heads (.corrupt 2 5) (sub 2)).itk.head = some (batch (sub 2) (.decoded (.corrupt 2 5)) none, sample (sub 2) (.decoded (.corrupt 2 5)), .corrupt 2 5) ∧
    ((heads .over (sub 2)).itk.head).isSome = true ∧ ((heads (.ok false 1 1 1 1 false false 0) (sub 2)).itk.head).isSome = true ∧
    (sub 2).roi = false ∧ ({ sub 2 with flags := 64 } : SubRec).roi = true ∧ on.itk.roi = .none ∧
    (heads .over (sub 2)).slotWaits (batch (sub 2) (.decoded .over) none) 0 = false ∧
    (outOf (heads .over (sub 2))).slotWaits (batch (sub 2) (.decoded .over) none) 0 = true ∧ 0 + 1000 ≤ (late 1000).pwr.time ∧
    (({ on with itk := { on.itk with gated := true } } : State).setQ 320 { Queue.reset with cmd := some { cmdOf 0x6001 [] with phase := .waiting } }).itk.gated = true := by
  decide +kernel

/-! Witnesses: the host interface, integrity, service, resets, memory. -/

/-- A gangway access of 8 bytes that must wait, and one that waits. -/
def gwWaits (pend : List GwReq) (s : State := on) : State := { s with hif := { s.hif with gwPend := pend } }
theorem w_HostAccesses_gangway : gwFormed 64 8 = true ∧ gwFormed 64 0 = false ∧ gwFormed 268435455 2 = false ∧ on.barOpen = true ∧ shut.barOpen = false ∧
    shut.pwr.off = 0 ∧ on.hif.gwPend = [] ∧ (gwWaits [.read 64 8]).hif.gwPend ≠ [] ∧ (gwWaits [.read 64 8]).barOpen = true ∧
    (((gwWaits [.read (on.gwAddr 64) 8]).gwWake (on.gwAddr 64) 8).gwAsleep (on.gwAddr 64) 8 ||
      ((gwWaits [.read (on.gwAddr 64) 8]).gwWake (on.gwAddr 64) 8).accessWaits (on.gwAddr 64) 8) = false ∧
    ((gwWaits [.write (on.gwAddr 64) [0]]).gwWake (on.gwAddr 64) 1).writeWaits (on.gwAddr 64) 1 = false ∧
    read (((gwWaits [.read 64 8]).gwWake 64 8).memRead .gangway 64 8) = true ∧
    read (((gwWaits [.read 0 8] (broken on)).gwWake 0 8).memRead .gangway 0 8) = false := by decide +kernel
theorem w_HostAccesses_waits : ((gwWaits [.read 64 8] (outOf on)).gwWake 64 8).accessWaits 64 8 = true ∧
    ((gwWaits [.write 64 [0]] (outOf on)).gwWake 64 1).writeWaits 64 1 = true := by decide +kernel
/-- Queue 0 reads 8 bytes of the host's memory; what its completion timeout is set to. -/
def hostReading (c : PciConf) : State := { on with hif := { on.hif with conf := c } }.setQ 0
  { Queue.reset with state := .active, reads := [⟨64, 8, 1, 0, 0⟩] }
theorem w_HostAccesses_completion : ((hostReading (conf 128 0)).q 0).reads = [⟨64, 8, 1, 0, 0⟩] ∧ ((hostReading (conf 128 0)).q 0).state ≠ .idle ∧
    ([1, 2, 3, 4, 5, 6, 7, 8] : List Byte).length = 8 ∧ ([] : List Byte).length ≠ 8 ∧ (conf 128 0).cplOff = false ∧
    0 + cplLeast (hostReading (conf 128 0)).hif.conf.cplRange ≤ (late 50000 (hostReading (conf 128 0))).pwr.time ∧
    (late 49999 (hostReading (conf 128 0))).pwr.time < 0 + cplLeast (conf 128 0).cplRange ∧
    ({ conf 128 0 with cplOff := true } : PciConf).cplOff = true ∧ (on.q 0).reads = [] ∧ on.pwr.off = 0 ∧
    on.confOpen = true ∧ State.reset.confOpen = false ∧ State.reset.pwr.off = 0 := by decide +kernel
theorem w_LinkAndFunctionReset : on.hif.up = true ∧ lost.hif.up = false ∧ lost.hif.perst = false ∧ lost.pwr.off = 0 ∧
    linkFormed ⟨7, 16, true, true, conf 512 0⟩ = true ∧ on.pwr.off = 0 ∧ on.rstBusy = false ∧
    (({ on with pwr := { on.pwr with rstBusy := [(2, true)] } } : State).rstBusy) = true := by decide +kernel
/-- One write has been sent to the host. -/
def sentOne : State := { on with hif := { on.hif with tlps := [⟨.other, 64, false, [0, 0, 0, 0]⟩] } }
theorem w_LinkAndFunctionReset_unacknowledged : sentOne.hif.tlps = ⟨.other, 64, false, [0, 0, 0, 0]⟩ :: sentOne.hif.tlps.tail ∧
    sentOne.hif.up = true := by decide +kernel
theorem w_IntegrityScans_scrub : on.mem.refreshFast = false ∧ ({ on with mem := { on.mem with refreshCap := true } } : State).mem.refreshCap = true ∧
    on.scrubAt false (on.scrubber false).pos = some 0 ∧
    ({ on with mem := { on.mem with remap := [⟨false, 0, 0x2000000⟩] } } : State).scrubAt false 0 = none ∧ on.pcFailed (on.mem.loc 0) = false ∧
    ({ on with err := { on.err with pcs := (List.range 512).map fun i => (i, ⟨⟨1, true⟩, false, 0⟩) } } : State).pcFailed (on.mem.loc 0) = true ∧
    on.writeWaits 0 (tierWord false) = false := by decide +kernel
theorem w_IntegrityScans_upsets : on.strike [] = on ∧ on.regUpsets [] = on ∧ tget noPat (on.strike [(68, 3, 0xFF)]).mem.errs 2 = [(3, 0xFF)] ∧
    (on.regUpsets [(0x500000, 0, 1)]).rd 0x500000 ≠ on.rd 0x500000 ∧ (on.regUpsets [(0x500000, 1, 1)]) = on := by decide +kernel
/-- A scan that is due: one that adopts, and one whose reference is another. -/
def due (c : Cfg) : State := late 1000000 { on with cfg := c }
theorem w_IntegrityScans_scan : on.pwr.off = 0 ∧ (due on.cfg).cfg.scanMs < (due on.cfg).pwr.time / 1000000 ∧ on.cfg.voteMs < (late 1000000).pwr.time / 1000000 ∧
    on.pwr.time / 1000000 ≤ on.cfg.voteMs := by decide +kernel
theorem unvoted (s : State) (h : s.regs = []) (h1 : s.regs1 = []) (h2 : s.regs2 = []) (o m : Nat) : s.voteReg o m = s := by
  have : ∀ x : W16, vote3 x x x = x := by intro x; simp [vote3]
  simp [State.voteReg, State.rdT, h, h1, h2, tget, this, show List.range 3 = [0, 1, 2] from rfl]
theorem voted (s : State) (h : s.regs = []) (h1 : s.regs1 = []) (h2 : s.regs2 = []) : s.voteAll = s := by
  unfold State.voteAll
  generalize tRegs = l
  induction l with
  | nil => rfl
  | cons e l ih => rw [List.foldl_cons, unvoted s h h1 h2, ih]
theorem w_IntegrityScans_adopts : (due { on.cfg with adopting := true }).voteAll.scan.1 = .nothing := by
  rw [voted _ rfl rfl rfl]
  have a : (due { on.cfg with adopting := true }).cfg.adopting = true := rfl
  have b : ∀ x : State, (x.bumpWrap 0x10001C).cfg = x.cfg := fun _ => rfl
  generalize due { on.cfg with adopting := true } = s at *
  unfold State.scan
  generalize s.cfgCrc = v
  dsimp only
  rw [b]
  dsimp only
  rw [a, if_pos rfl]
theorem crc_of (r : W32) : (due { on.cfg with crcRef := r }).cfgCrc = (due { on.cfg with crcRef := 0 }).cfgCrc := by
  have h (o : Nat) : (due { on.cfg with crcRef := r }).payload o = (due { on.cfg with crcRef := 0 }).payload o := rfl
  unfold State.cfgCrc State.cStream
  simp only [h]
theorem scan_mismatch (s : State) (v : W32) (a : s.cfg.adopting = false) (d : s.cfg.dirty = false) (n : ¬ v = s.cfg.crcRef)
    (e : s.cfgCrc = v) : s.scan.1 = .mismatched := by
  have b : ∀ x : State, (x.bumpWrap 0x10001C).cfg = x.cfg := fun _ => rfl
  unfold State.scan
  rw [e]
  dsimp only
  rw [b]
  dsimp only
  rw [if_neg (by rw [a]; decide), if_neg (by rw [d]; decide), if_neg n]
theorem ref_of (r : W32) : (due { on.cfg with crcRef := r }).cfg.crcRef = r := rfl
theorem not_next (v : W32) : ¬ v = v + 1 := by bv_omega
theorem w_IntegrityScans_mismatch : ∃ r, (due { on.cfg with crcRef := r }).voteAll.scan.1 = .mismatched := by
  refine ⟨(due { on.cfg with crcRef := 0 }).cfgCrc + 1, ?_⟩
  rw [voted _ rfl rfl rfl]
  exact scan_mismatch _ (due { on.cfg with crcRef := 0 }).cfgCrc rfl rfl (by rw [ref_of]; exact not_next _) (crc_of _)
/-- Cluster 5, group 7 and pseudo-channel 9 in a service state. -/
def service (n : Nat) : State := { on with mat := { on.mat with svc := [(5, ⟨n, false⟩)] }, nbu := { on.nbu with svc := [(7, ⟨n, false⟩)] },
                                           err := { on.err with pcs := [(9, ⟨⟨n, false⟩, false, 0⟩)] } }
theorem w_ServiceActions : [0, 1, 2, 3].all (fun n => [5, 0x1007, 0x2009].all fun u => decide (((service n).unitSvc u).st = n)) = true ∧
    svcKnown 5 = true ∧ svcKnown 64 = false ∧ svcKind 5 = 0 ∧ svcKind 0x1007 = 1 ∧ svcKind 0x2009 = 2 ∧ on.barOpen = true ∧ (on.pc 9).svc.st = 0 ∧
    ((service 1).pc 9).svc.st ≠ 0 ∧ (on.q 0).state = .disabled ∧ (on.setReg (qo 0 0x14) 5).chan 0 ≠ 0 := by decide +kernel
theorem w_ServiceActions_qualification : ∀ q < 384, on.chan q = 0 ∨ (on.q q).state = .disabled := by intro q _; exact .inr rfl
/-- The vector engine is being reset. -/
def resetting : State := { on with pwr := { on.pwr with rstBusy := [(1, true)] } }
theorem w_EngineResets : on.barOpen = true ∧ (slack 1).pwr.state ≠ 0 ∧ on.pwr.state = 0 ∧ tget noFlag resetting.pwr.rstBusy 1 = true ∧
    tget noFlag on.pwr.rstBusy 1 = false ∧ (∀ i < 64, (resetting.q (64 * 1 + i)).state = .disabled) := by decide +kernel
theorem w_DeviceKeyKept : next (exec (.nop 0) on) = true ∧ next (exec .functionLevelReset on) = true := by decide +kernel
theorem planes_zero (w n k : Nat) (h : w * (n / w) = k) : planes w (List.replicate n 0) = List.replicate k 0 := by
  refine List.eq_replicate_iff.mpr ⟨?_, ?_⟩
  · simp only [planes, List.length_flatMap, List.length_map, List.length_range, List.length_replicate, List.map_const', List.sum_replicate_nat]; exact h
  · intro b hb
    simp only [planes, List.mem_flatMap, List.mem_map] at hb
    obtain ⟨p, -, i, -, rfl⟩ := hb
    rw [List.getD_eq_getElem?_getD, List.getElem?_replicate]
    split <;> rfl
theorem zeroRun_zeros (n : Nat) : zeroRun (List.replicate n 0) = n := by
  induction n with
  | zero => rfl
  | succ n ih => rw [List.replicate_succ]; simp only [zeroRun, if_true]; rw [ih]
theorem pack_zeros (w : Nat) (h : w * (4096 / w) = 4096) : packBlock w (List.replicate 4096 0) = some (0xFF :: List.replicate 31 0) := by
  have e : zrEncode 4096 (List.replicate 4096 0) = [0xFF] := by
    have z := zeroRun_zeros 4096
    have c : (List.replicate 4096 (0 : Byte)) = 0 :: List.replicate 4095 0 := rfl
    have d : (List.replicate 4096 (0 : Byte)).drop 4096 = [] := by simp
    rw [c] at z d ⊢
    unfold zrEncode
    dsimp only
    rw [z, d]
    rfl
  unfold packBlock
  rw [planes_zero w 4096 4096 h, e]
  rfl
theorem w_PackedBlocksUnpack (w : Nat) (h : w = 1 ∨ w = 2 ∨ w = 4) : (List.replicate 4096 (0 : Byte)).length = 4096 ∧
    packBlock w (List.replicate 4096 0) = some (0xFF :: List.replicate 31 0) := by
  refine ⟨List.length_replicate, pack_zeros w ?_⟩
  rcases h with rfl | rfl | rfl <;> rfl
theorem w_MemoryWritesStore : on.mem.wf = true ∧ on.mem.plain 64 8 = true ∧ on.stores 64 = true ∧ on.stores (16 * pageBytes) = false ∧
    on.mem.plain (16 * pageBytes) 8 = true := by decide +kernel

end Sys2Proof.Tests
end

section
/-!
Registers: the bits that a masked write and a vote leave, the words of BAR0 at which nothing is implemented, and what
REGISTER_WRITE does with each access of the host (R9, R310, R311, R315, R415, R417, R423).
-/
namespace Sys2Proof.Machine

/-! Bits and bytes. -/

theorem bitAt_eq_testBit (v i : Nat) : bitAt v i = v.testBit i := (Nat.testBit_eq_decide_div_mod_eq).symm

@[simp] theorem bitAt_and (v w i : Nat) : bitAt (v &&& w) i = (bitAt v i && bitAt w i) := by
  simp only [bitAt_eq_testBit, Nat.testBit_and]

@[simp] theorem bitAt_or (v w i : Nat) : bitAt (v ||| w) i = (bitAt v i || bitAt w i) := by
  simp only [bitAt_eq_testBit, Nat.testBit_or]

/-- The complement of a payload in its 16 bits. -/
theorem bitAt_payload_compl {i : Nat} (hi : i < 16) (v : Nat) : bitAt (0xFFFF ^^^ v) i = !bitAt v i := by
  have ones : (0xFFFF : Nat).testBit i = true := by
    rw [show (0xFFFF : Nat) = 2 ^ 16 - 1 from rfl, Nat.testBit_two_pow_sub_one]; exact decide_eq_true hi
  simp only [bitAt_eq_testBit, Nat.testBit_xor, ones, Bool.true_xor]

/-- The mask of a control-register write lies in the upper half of its data (R415). -/
theorem bitAt_upper_half (data i : Nat) : bitAt (data / 65536) i = bitAt data (16 + i) := by
  rw [bitAt, bitAt, Nat.div_div_eq_div_mul, Nat.pow_add]

theorem bitAt_maskedWrite (old data mask : Nat) {i : Nat} (hi : i < 16) :
    bitAt (maskedWrite old data mask) i = if bitAt data (16 + i) && bitAt mask i then bitAt data i else bitAt old i := by
  simp only [maskedWrite, bitAt_or, bitAt_and, bitAt_payload_compl hi, bitAt_upper_half]
  cases bitAt data (16 + i) && bitAt mask i <;> simp

/-- Each bit of a vote is the majority of that bit in the three copies (R423). -/
theorem bitAt_vote3 (a b c : W16) (i : Nat) : bitAt (vote3 a b c).toNat i =
    ((bitAt a.toNat i && bitAt b.toNat i) || (bitAt a.toNat i && bitAt c.toNat i) || (bitAt b.toNat i && bitAt c.toNat i)) := by
  simp only [vote3, BitVec.toNat_or, BitVec.toNat_and, bitAt_or, bitAt_and]

theorem leNat_lt (bs : List Byte) : leNat bs < 256 ^ bs.length := by
  induction bs with
  | nil => exact Nat.one_pos
  | cons b bs ih =>
    have hb := b.isLt
    simp only [leNat, List.length_cons, Nat.pow_succ]
    omega

theorem leBytes_leNat (bs : List Byte) : leBytes bs.length (leNat bs) = bs := by
  induction bs with
  | nil => rfl
  | cons b bs ih =>
    have hb := b.isLt
    have hdiv : (b.toNat + 256 * leNat bs) / 256 = leNat bs := by omega
    have hmod : BitVec.ofNat 8 (b.toNat + 256 * leNat bs) = b := by
      apply BitVec.eq_of_toNat_eq
      rw [BitVec.toNat_ofNat]
      omega
    simp only [leNat, List.length_cons, leBytes, hdiv, hmod, ih]

/-! Words of BAR0 at which nothing is implemented (R9). -/

theorem reservedAt_not_window {off : Nat} (h : reservedAt off = true) :
    ¬ (0x440000 ≤ off ∧ off < 0x448100) ∧ ¬ (0xF10000 ≤ off ∧ off < 0xF12000) ∧ ¬ (0xF20000 ≤ off ∧ off < 0xF30000) ∧
    ¬ (0x1110000 ≤ off ∧ off < 0x1112000) := by
  simp only [reservedAt, List.all_cons, List.all_nil, Bool.and_eq_true, Bool.not_eq_true', Bool.and_eq_false_iff, decide_eq_false_iff_not] at h
  omega

theorem regAt_of_reservedAt {off : Nat} (h : reservedAt off = true) : regAt off = none := by
  simp only [reservedAt, Bool.and_eq_true, Option.isNone_iff_eq_none] at h
  exact h.1.2

/-- A reserved word is not the high half of a 64-bit register. -/
theorem not_wide_of_reservedAt {off : Nat} {a : RegAt} (h : reservedAt off = true) (ha : regAt (off - 4) = some a) :
    ¬ (a.reg.wide = true ∧ 4 ≤ off) := by
  simp only [reservedAt, Bool.and_eq_true, ha, Option.any_some, Bool.or_eq_true, decide_eq_true_eq, Bool.not_eq_true'] at h
  obtain ⟨-, hlow | hwide⟩ := h
  · omega
  · simp [hwide]

theorem State.barWord_reserved (s : State) {off : Nat} (h : reservedAt off = true) : s.barWord off = 0 := by
  obtain ⟨hmsix, hmbox, hlog, hring⟩ := reservedAt_not_window h
  unfold State.barWord
  rw [if_neg (by omega), if_neg (by omega), if_neg hlog, if_neg hring, if_neg (by omega), if_neg (by omega),
    regAt_of_reservedAt h]
  cases ha : regAt (off - 4) with
  | none => rfl
  | some a => exact if_neg (not_wide_of_reservedAt h ha)

theorem State.barWordWrite_reserved (s : State) {off : Nat} (data : Nat) (h : reservedAt off = true) :
    s.barWordWrite off data = s := by
  obtain ⟨hmsix, -⟩ := reservedAt_not_window h
  unfold State.barWordWrite
  rw [if_neg (by omega), regAt_of_reservedAt h]

theorem State.useT_of_regAt_none (s : State) {off : Nat} (h : regAt off = none) : s.useT off = s := by
  unfold State.useT; rw [h]

theorem State.plainRead_reserved (s : State) {off : Nat} (o n : Nat) (h : reservedAt off = true) :
    s.plainRead off o n = (0, s) := by
  simp only [State.plainRead, regAt_of_reservedAt h, s.barWord_reserved h, Nat.zero_div, Nat.zero_mod]

/-- A read of 1, 2 or 4 bytes within a reserved word returns zero and changes nothing, when no half is latched there. -/
theorem State.barRead_reserved {s : State} {off o n : Nat} (h : reservedAt off = true) (h4 : off % 4 = 0) (hb : s.barOpen = true)
    (hl : ∀ l, s.hif.latch = some l → l.1 ≠ off) (hn : n = 1 ∨ n = 2 ∨ n = 4) (ho : o % n = 0) (hlo : off ≤ o) (hhi : o < off + 4) :
    s.barRead o n = (0, s) := by
  have hw : o / 4 * 4 = off := by omega
  have hsize : ([1, 2, 4, 8].contains n && o % n == 0) = true := by
    rcases hn with rfl | rfl | rfl <;> simp [ho]
  have h8 : n ≠ 8 := by omega
  simp only [State.barRead, hb, hsize, Bool.not_true, Bool.false_eq_true, if_false, if_neg h8, hw, s.plainRead_reserved o n h]
  cases hlatch : s.hif.latch with
  | none => rfl
  | some l => exact if_neg fun hh => hl l hlatch hh.2

/-- A read of 8 bytes over two reserved words returns zero and changes nothing. -/
theorem State.barRead_reserved_pair {s : State} {off : Nat} (h : reservedAt off = true) (h' : reservedAt (off + 4) = true)
    (h8 : off % 8 = 0) (hb : s.barOpen = true) : s.barRead off 8 = (0, s) := by
  simp [State.barRead, hb, h8, s.barWord_reserved h, s.barWord_reserved h', s.useT_of_regAt_none (regAt_of_reservedAt h),
    s.useT_of_regAt_none (regAt_of_reservedAt h')]

/-! Writes through BAR0. -/

/-- A write that changes nothing sets no DIRTY. -/
theorem State.byWrite_of_eq {s : State} {f : State → State} (h : f s = s) : s.byWrite f = s := by
  rw [State.byWrite_of_regs (by rw [h]; exact ⟨rfl, rfl, rfl⟩), h]

theorem State.regWrite_closed {s : State} {off n data : Nat} (hb : s.barOpen = false) : s.regWrite off n data = s.barRefuse := by
  simp only [State.regWrite, hb, Bool.not_false, if_true]

/-- The mailbox request area takes any size up to the Max Payload Size (R310). -/
theorem State.regWrite_mailbox {s : State} {off : Nat} {bs : List Byte} (hb : s.barOpen = true)
    (hx : 0xF10000 ≤ off ∧ off + bs.length ≤ 0xF11000 ∧ bs.length ≤ s.hif.conf.mps) :
    s.regWrite off bs.length (leNat bs) = s.reqWrite (off - 0xF10000) bs := by
  have hsame : Piece.regs.same s (s.reqWrite (off - 0xF10000) bs) := State.reqWrite_only _ _ _ .regs (by decide)
  rw [State.regWrite, if_neg (by simp [hb]), leBytes_leNat]
  exact (State.byWrite_congr (g := fun t => t.reqWrite (off - 0xF10000) bs) (by rw [if_pos hx])).trans (State.byWrite_of_regs hsame)

/-- An aligned write of 8 bytes outside the mailbox request area writes the lower word, then the upper one. -/
theorem State.regWrite_pair {s : State} {off data : Nat} (hb : s.barOpen = true) (h8 : off % 8 = 0)
    (hx : ¬ (0xF10000 ≤ off ∧ off + 8 ≤ 0xF11000 ∧ 8 ≤ s.hif.conf.mps)) :
    s.regWrite off 8 data = s.byWrite fun t =>
      (t.barWordWrite off (data % 4294967296)).barWordWrite (off + 4) (data / 4294967296 % 4294967296) := by
  rw [State.regWrite, if_neg (by simp [hb])]
  refine State.byWrite_congr ?_
  rw [if_neg hx, if_neg (by omega), if_pos ⟨rfl, h8⟩]

/-- A write of any other size or place is discarded and sets BAD_ACCESS (R417). -/
theorem State.regWrite_bad_access {s : State} {off n data : Nat} (hb : s.barOpen = true)
    (hx : ¬ (0xF10000 ≤ off ∧ off + n ≤ 0xF11000 ∧ n ≤ s.hif.conf.mps)) (h4 : ¬ (n = 4 ∧ off % 4 = 0))
    (h8 : ¬ (n = 8 ∧ off % 8 = 0)) : s.regWrite off n data = s.evHif 8 := by
  have hsame : Piece.regs.same s (s.evHif 8) := State.evHif_only _ _ .regs (by decide)
  rw [State.regWrite, if_neg (by simp [hb])]
  exact (State.byWrite_congr (g := fun t => t.evHif 8) (by rw [if_neg hx, if_neg h4, if_neg h8])).trans (State.byWrite_of_regs hsame)

/-- A control-register write whose mask selects no bit of a field changes nothing (R415, R416). -/
theorem State.barWordWrite_ctl_unmasked {s : State} {off data : Nat} {a : RegAt} (ha : regAt off = some a)
    (hk : a.reg.kind = .ctl false) (hx : ¬ (0x440000 ≤ off ∧ off < 0x448000))
    (hm : data / 65536 &&& (a.reg.storeMask ||| a.reg.actMask) = 0) : s.barWordWrite off data = s := by
  have hctl : s.ctlWrite a off data = s := by unfold State.ctlWrite; exact if_pos hm
  simp only [State.barWordWrite, if_neg hx, ha, hk, hctl]

/-- A write over a reserved word changes nothing (R9). -/
theorem State.regWrite_reserved {s : State} {off data : Nat} (h : reservedAt off = true) (h4 : off % 4 = 0) (hb : s.barOpen = true) :
    s.regWrite off 4 data = s := by
  obtain ⟨-, hmbox, -⟩ := reservedAt_not_window h
  rw [State.regWrite_word hb h4 (by omega), State.byWrite_of_eq (s.barWordWrite_reserved _ h)]

/-- A write over two reserved words changes nothing (R9). -/
theorem State.regWrite_reserved_pair {s : State} {off data : Nat} (h : reservedAt off = true) (h' : reservedAt (off + 4) = true)
    (h8 : off % 8 = 0) (hb : s.barOpen = true) : s.regWrite off 8 data = s := by
  obtain ⟨-, hmbox, -⟩ := reservedAt_not_window h
  rw [State.regWrite_pair hb h8 (by omega),
    State.byWrite_of_eq (by rw [s.barWordWrite_reserved _ h, s.barWordWrite_reserved _ h'])]

/-! REGISTER_WRITE, by the access that it carries. -/

theorem exec_registerWrite (off n : Nat) (acc : HostAccess) (s : State) :
    exec (.registerWrite off n acc) s = .next (s.hostAccess off n acc) := rfl

theorem barFormed_iff {off n : Nat} : barFormed off n = true ↔ 0 < n ∧ off + n ≤ 2 ^ 25 := by
  simp only [barFormed, Bool.and_eq_true, decide_eq_true_eq]

theorem exec_barWrite {off n data : Nat} {s : State} (hf : barFormed off n = true) :
    exec (.registerWrite off n (.write data)) s = .next (s.regWrite off n data) := by
  rw [exec_registerWrite, State.hostAccess, if_pos hf]

theorem exec_barWrite_outside {off n data : Nat} {s : State} (hf : barFormed off n = false) :
    exec (.registerWrite off n (.write data)) s = .next s := by
  rw [exec_registerWrite, State.hostAccess, if_neg (by simp [hf])]

theorem exec_barRead_open {off n v : Nat} {s t : State} (hf : barFormed off n = true) (hb : s.barOpen = true)
    (hr : s.barRead off n = (v, t)) :
    exec (.registerWrite off n .read) s = .next { t with hif := { t.hif with barReply := some (leBytes n v) } } := by
  rw [exec_registerWrite, State.hostAccess, if_pos hf, State.regRead, if_pos hb, hr]

theorem exec_barRead_closed {off n : Nat} {s : State} (hf : barFormed off n = true) (hb : s.barOpen = false) :
    exec (.registerWrite off n .read) s = .next ({ s with hif := { s.hif with barReply := none } } : State).barRefuse := by
  rw [exec_registerWrite, State.hostAccess, if_pos hf, State.regRead, if_neg (by simp [hb])]

theorem exec_barRead_outside {off n : Nat} {s : State} (hf : barFormed off n = false) :
    exec (.registerWrite off n .read) s = .next s := by
  rw [exec_registerWrite, State.hostAccess, if_neg (by simp [hf])]

theorem exec_configWrite_closed {o n : Nat} {bme : Bool} {c : PciConf} {clr : W32} {s : State} (hc : s.confOpen = false) :
    exec (.registerWrite o n (.configWrite bme c clr)) s = .next s := by
  rw [exec_registerWrite, State.hostAccess, State.confWrite, if_neg (by simp [hc])]

theorem exec_configWrite_open {o n : Nat} {bme : Bool} {c : PciConf} {clr : W32} {s : State} (hc : s.confOpen = true)
    (hf : confFormed c = true) : exec (.registerWrite o n (.configWrite bme c clr)) s =
      .next ({ s with hif := { s.hif with aer := s.hif.aer &&& ~~~clr, bme := bme, conf := c } } : State).outFlow := by
  rw [exec_registerWrite, State.hostAccess, State.confWrite, if_pos hc, State.confSet, if_pos hf]

/-- Settles O6: the word holds no register, no half of one and lies in no window, so each access finds nothing there. -/
theorem reservedLocations : Obligations.ReservedLocations := by
  intro off s h h4 hend hb hl
  refine ⟨s.barWord_reserved h, ?narrowRead, ?wideRead, ?narrowWrite, ?wideWrite⟩
  case narrowRead =>
    intro o n hn ho hlo hhi
    exact exec_barRead_open (barFormed_iff.2 (by omega)) hb (State.barRead_reserved h h4 hb hl hn ho hlo hhi)
  case wideRead =>
    intro h8 h'
    exact exec_barRead_open (barFormed_iff.2 (by omega)) hb (State.barRead_reserved_pair h h' h8 hb)
  case narrowWrite =>
    intro bs hbs
    rw [exec_barWrite (barFormed_iff.2 (by omega)), hbs, State.regWrite_reserved h h4 hb]
  case wideWrite =>
    intro h8 h' bs hbs
    rw [exec_barWrite (barFormed_iff.2 (by omega)), hbs, State.regWrite_reserved_pair h h' h8 hb]

/-- Settles O9: each kind of access by its own law, the payload bit by bit. -/
theorem registerWrites : Obligations.RegisterWrites := by
  refine ⟨⟨?masked, ?word, ?unmasked⟩, ⟨?write, ?read, ?config⟩, ?vote⟩
  case masked => exact fun old data mask i hi _ _ => bitAt_maskedWrite old data mask hi
  case word =>
    intro off bs s hb h4 hend hbs hx
    have hlt : leNat bs < 4294967296 := by have := leNat_lt bs; rw [hbs] at this; exact this
    rw [exec_barWrite (barFormed_iff.2 (by omega)), hbs, State.regWrite_word hb h4 hx, Nat.mod_eq_of_lt hlt]
  case unmasked => exact fun off data s a ha hk hx hm => State.barWordWrite_ctl_unmasked ha hk hx hm
  case write =>
    refine fun off bs s => ⟨exec_barWrite_outside, fun hf => ?_⟩
    rw [exec_barWrite hf]
    refine ⟨fun hb => ?_, fun hb hlo hhi hmps => ?_, fun hb hx => ⟨fun hbs h8 => ?_, fun h4 h8 => ?_⟩⟩
    · rw [State.regWrite_closed hb]
    · rw [State.regWrite_mailbox hb ⟨hlo, hhi, hmps⟩]
    · rw [hbs] at hx ⊢
      rw [State.regWrite_pair hb h8 hx]
    · rw [State.regWrite_bad_access hb hx h4 h8]
  case read => exact fun off n s t v => ⟨exec_barRead_outside, exec_barRead_open, exec_barRead_closed⟩
  case config =>
    refine fun bme c clr o n s t => ⟨exec_configWrite_closed, fun hc hf ht => ?_, rfl⟩
    rw [exec_configWrite_open hc hf, ht]
  case vote => exact fun s off i _ => bitAt_vote3 _ _ _ i

end Sys2Proof.Machine
end

section
/-!
The state right after reset (Table 16.10, R29, R269, R320, R433).
-/
namespace Sys2Proof.Machine

theorem State.reset_stat (off : Nat) : State.reset.stat off = 0 := rfl
theorem State.reset_ctr (off : Nat) : State.reset.ctr off = 0 := rfl
theorem State.reset_q (n : Nat) : State.reset.q n = Queue.reset := rfl
theorem State.reset_rtActive (d : Nat) : tget rtReset State.reset.rtActive d = 0xFFFF := rfl
theorem State.reset_rtShadow (d : Nat) : tget rtReset State.reset.rtShadow d = 0xFFFF := rfl

/-- Vector control is the fourth word of an MSI-X entry, and masks it (R320). -/
theorem State.reset_vecMasked (v : Nat) : State.reset.vecMasked v = true := by
  have hw : tget msixReset State.reset.hif.msix (4 * v + 3) = 1 := if_pos (by omega)
  rw [State.vecMasked, hw]; rfl

theorem State.reset_registers : State.reset.rd 0x20000C = 750 ∧ State.reset.rd 0x200010 = 1200 ∧ State.reset.rdT 0x400014 = 200 ∧
    State.reset.rd 0x500004 = 10 ∧ State.reset.rd 0x800008 = 64 ∧ State.reset.rd 0xC00008 = 100 ∧ State.reset.rdT 0x300010 = 100 := by
  decide +kernel

/-- Settles O1: the registers evaluated, the tables empty, so that every entry reads as an unlisted one. -/
theorem resetFacts : Obligations.ResetFacts := by
  obtain ⟨setpoint, limit, linkLoss, poll, migRate, peerTimeout, watchdog⟩ := State.reset_registers
  exact ⟨setpoint, limit, linkLoss, poll, migRate, peerTimeout, watchdog, fun off => ⟨State.reset_stat off, State.reset_ctr off⟩,
    fun q => ⟨State.reset_q q, rfl, rfl⟩, fun d => ⟨State.reset_rtActive d, State.reset_rtShadow d⟩, State.reset_vecMasked,
    rfl, rfl, rfl, rfl, rfl, rfl, rfl, rfl, rfl, rfl⟩

end Sys2Proof.Machine
end

section
/-!
Every command completes within its frame, and any number of steps follow one another.
-/
namespace Sys2Proof.Machine

/-- Every command ends in a next state and stays within its frame. Its operation has a frame of its own (Laws/Frame*.lean), within
`touches`; a commanded action whose frame holds no control register also reports a refused access in AER (R315). -/
theorem exec_frame (c : Instr) (s : State) : ∃ t, exec c s = .next t ∧ OnlyChanges (touches c) s t := by
  cases c <;> refine ⟨_, rfl, ?_⟩
  case resumeNext | dropList | cqfPeakClr | matNfClr | vecNfClr | nbuNfClr | xchNfClr | itkNfClr | itkPeakClr | swap | copy |
      portReset | mgtRestart | out | requalify | admitUnit | ready =>
    refine only_barDo ?_ (by simp [touches]) (by simp [touches])
    simp [touches]
  all_goals simp [touches]

theorem pending_not_touched (c : Instr) : Piece.pending ∉ touches c := by cases c <;> simp [touches]

theorem step_completes (s : State) : ∃ t, step s = .next t := by
  unfold step
  split
  · exact ⟨_, rfl⟩
  · next c rest _ =>
    obtain ⟨t, ht, -⟩ := exec_frame c { s with pending := rest }
    exact ⟨t, ht⟩

theorem safeRun (k : Nat) (s : State) : SafeRun k s := by
  induction k generalizing s with
  | zero => trivial
  | succ k ih =>
    obtain ⟨t, ht⟩ := step_completes s
    exact ⟨t, ht, ih t⟩

/-- Settles O5: the queue of waiting commands is outside every frame, and steps follow one another by induction. -/
theorem commandsComplete : Obligations.CommandsComplete := by
  refine ⟨fun c s => ?_, safeRun⟩
  obtain ⟨t, ht, hframe⟩ := exec_frame c s
  exact ⟨t, ht, hframe, hframe .pending (pending_not_touched c)⟩

end Sys2Proof.Machine
end

section
/-!
What the proofs about the front end share: reading back what was written, actions through the BARs, and a failure of the front
end's own step.
-/
namespace Sys2Proof.Machine

section
variable {α : Type} [DecidableEq α] {d : Nat → α}

/-- A value that differs from the unlisted one reads back from any table, canonical or not. -/
theorem tget_tput_of_ne (t : Tbl α) {k : Nat} {v : α} (h : v ≠ d k) : tget d (tput d t k v) k = v := by
  induction t with
  | nil => simp [tput, tcons, h, tget]
  | cons e t ih =>
    obtain ⟨j, w⟩ := e
    unfold tput
    split
    · simp [tcons, h, tget]
    · next hne =>
      split
      · simp [tcons, h, tget]
      · next hlt => rw [tget, if_neg hne, if_neg hlt, ih]

end

theorem next_congr {s t : State} (h : s = t) : (.next s : Out) = .next t := congrArg _ h

section
variable {s t : State} {f g : State → State}

/-- While the BARs are enabled, an action through them does what it does to this state. -/
theorem State.barDo_byWrite (hb : s.barOpen = true) (h : f s = g s) : s.barDo f = s.byWrite g := by
  rw [State.barDo_open hb, State.byWrite_congr h]

/-- One that leaves the control registers alone sets no DIRTY. -/
theorem State.barDo_eq (hb : s.barOpen = true) (h : f s = t) (hr : Piece.regs.same s t) : s.barDo f = t := by
  rw [State.barDo_of_regs hb (by rw [h]; exact hr), h]

theorem State.barDo_unchanged (hb : s.barOpen = true) (h : f s = s) : s.barDo f = s :=
  State.barDo_eq hb h (Piece.same_refl s .regs)

theorem State.setQ_same_regs (q : Nat) (v : Queue) : Piece.regs.same s (s.setQ q v) := ⟨rfl, rfl, rfl⟩

end

section
variable {s : State} {q : Nat}

/-- A queue that is not DISABLED reads back as it was set. -/
theorem State.q_setQ_of_not_disabled {v : Queue} (h : v.state ≠ .disabled) : (s.setQ q v).q q = v :=
  tget_tput_of_ne _ fun e => h (by rw [e]; rfl)

/-- A failed step of the front end stops a queue that its own reply has not stopped already (R438). -/
theorem State.frontFail_stops {st : Byte} {d : Nat} {why : FailStep}
    (h : ((s.reply q 0xFFFFFFFF st (BitVec.ofNat 32 d)).q q).state ≠ .stopped) :
    s.frontFail q st d why = (s.reply q 0xFFFFFFFF st (BitVec.ofNat 32 d)).stopQ q st 0xFFFFFFFF why := by
  rw [State.frontFail, if_neg h]

end

end Sys2Proof.Machine
end

section
/-!
Tokens (R37): the comparisons are those of signed 32-bit numbers, and a wait that is met stays met.
-/
namespace Sys2Proof.Machine

theorem geMod_eq_toInt (a b : W32) : geMod a b = decide (0 ≤ (a - b).toInt) := by
  rw [geMod, BitVec.msb_eq_toInt]; simp only [← decide_not, Int.not_lt]

theorem gtMod_eq_toInt (a b : W32) : gtMod a b = decide (0 < (a - b).toInt) := by
  have hzero : (a - b).toInt = 0 ↔ a = b := by
    rw [← BitVec.toInt_zero (w := 32), BitVec.toInt_inj]; bv_omega
  rw [gtMod, BitVec.msb_eq_toInt, Bool.eq_iff_iff]
  simp only [Bool.and_eq_true, Bool.not_eq_true', decide_eq_false_iff_not, bne_iff_ne, ne_eq, decide_eq_true_eq, ← hzero]
  omega

theorem signalled_eq_toInt (old v : W32) : signalled old v = if 0 < (v - old).toInt then v else old := by
  simp only [signalled, gtMod_eq_toInt, decide_eq_true_eq]

/-- R37: a wait that is met stays met, whatever the signal, as long as the two distances together keep within half the circle. -/
theorem wait_survives_signal {c v w : W32} (hc : 0 ≤ (c - w).toInt) (hlt : (c - w).toInt + (v - c).toInt < 2 ^ 31) :
    0 ≤ (signalled c v - w).toInt := by
  rw [signalled_eq_toInt]
  split
  · next hpos =>
    have hsum : v - w = (c - w) + (v - c) := by bv_omega
    have hmod : ((c - w).toInt + (v - c).toInt).bmod (2 ^ 32) = (c - w).toInt + (v - c).toInt :=
      Int.bmod_eq_of_le (by omega) (by omega)
    rw [hsum, BitVec.toInt_add, hmod]
    omega
  · exact hc

/-- Settles O19: the comparisons as signed numbers, and persistence because the two distances add without overflow. -/
theorem tokensMoveForward : Obligations.TokensMoveForward :=
  ⟨fun s t v => geMod_eq_toInt (s.tok t) v, fun s t v => congrArg (s.setTok t) (signalled_eq_toInt (s.tok t) v), fun _ => rfl,
    fun _ _ _ => wait_survives_signal⟩

end Sys2Proof.Machine
end

section
/-!
The commands common to every queue (R45) and the slipway commands (R48, Table 2.9).
-/
namespace Sys2Proof.Machine

theorem State.nop_running {s : State} {q : Nat} {c : Cmd} (h : s.running q 0 = some c) : s.nop q = s.endCmd q stOK 0 := by
  rw [State.nop, h]

theorem State.writeImm_error {s : State} {q : Nat} {c : Cmd} {f : Fail} (h : s.running q 1 = some c)
    (hc : s.checkAddr q (c.p 0) 8 0 8 = .error f) : s.writeImm q = (s.noteBme f).failCmd q f := by
  simp only [State.writeImm, h, hc]

theorem State.writeImm_stores {s : State} {q : Nat} {c : Cmd} (h : s.running q 1 = some c)
    (hc : s.checkAddr q (c.p 0) 8 0 8 = .ok ()) (hw : s.opWaits (c.p 0) 8 = false) :
    s.writeImm q = (s.opWrite q (c.p 0) 0 (leBytes 8 (c.p 1))).endCmd q stOK 0 := by
  simp only [State.writeImm, h, hc, hw, Bool.false_eq_true, if_false]

theorem tokenCheck_ok {cnt idx w : Nat} (hcnt : fld w 43 32 < cnt) (hbits : lowBit w (bmask 63 44) = none) :
    tokenCheck cnt idx w = .ok () := by
  rw [tokenCheck, if_neg (by omega), hbits]

theorem State.tokenSet_ok {s : State} {q : Nat} {c : Cmd} (h : s.running q 2 = some c)
    (hc : tokenCheck (s.tokCnt (s.chan q)) 0 (c.p 0) = .ok ()) : s.tokenSet q =
      (s.setTok (tokenOf (s.tokBase (s.chan q)) (c.p 0)).1 (tokenOf (s.tokBase (s.chan q)) (c.p 0)).2).endCmd q stOK 0 := by
  simp only [State.tokenSet, h, hc]

/-- A slipway command whose check passes and whose condition holds takes its effect and ends with OK (R48). -/
theorem State.slipCmd_ok {s : State} {q op : Nat} {c : Cmd} (h : s.running q op = some c) (hc : s.slipCheck q c = .ok ())
    (hm : s.slipMet q c = true) : s.slipCmd q op =
      (s.slipEffect op (fld (c.p 0) 5 0) (BitVec.ofNat 32 (fld (c.p 0) 63 32))).endCmd q stOK 0 := by
  simp only [State.slipCmd, h, hc, hm, if_true]

/-! The condition a slipway command whose check passes waits for (Table 2.9): ACQUIRE for a free slot, WAIT for a filled one,
PUBLISH and RELEASE for nothing. -/
section
variable {s : State} {q : Nat} {c : Cmd}

theorem State.slipMet_acquire (hc : s.slipCheck q c = .ok ()) (hop : c.op = 3) : s.slipMet q c =
    decide (sdiff (BitVec.ofNat 32 (fld (c.p 0) 63 32)) (s.slip (fld (c.p 0) 5 0)).head < (s.slipSlots (fld (c.p 0) 5 0) : Int)) := by
  simp only [State.slipMet, hc, hop]

theorem State.slipMet_wait (hc : s.slipCheck q c = .ok ()) (hop : c.op = 5) : s.slipMet q c =
    decide (1 ≤ sdiff (s.slip (fld (c.p 0) 5 0)).tail (BitVec.ofNat 32 (fld (c.p 0) 63 32))) := by
  simp only [State.slipMet, hc, hop]

theorem State.slipMet_publish (hc : s.slipCheck q c = .ok ()) (hop : c.op = 4) : s.slipMet q c = true := by
  simp only [State.slipMet, hc, hop]

theorem State.slipMet_release (hc : s.slipCheck q c = .ok ()) (hop : c.op = 6) : s.slipMet q c = true := by
  simp only [State.slipMet, hc, hop]

end

/-- Settles O14: each command by its own rule, the slipway commands through their check and their condition. -/
theorem commonCommandsAct : Obligations.CommonCommandsAct := by
  refine ⟨⟨?nop, ?store, ?badStore, ?token⟩, ?slip⟩
  case nop => exact fun q s c h => next_congr (State.nop_running h)
  case store => exact fun q s c h hc hw => next_congr (State.writeImm_stores h hc hw)
  case badStore => exact fun q s c f h hc => next_congr (State.writeImm_error h hc)
  case token => exact fun q s c h hbits hcnt => next_congr (State.tokenSet_ok h (tokenCheck_ok hcnt hbits))
  case slip =>
    rintro q s c n f rfl rfl hc
    have hend {op : Nat} (h : s.running q.val op = some c) (hm : c.op = op → s.slipMet q.val c = true) :=
      next_congr (State.slipCmd_ok h hc (hm (State.op_of_running h)))
    exact ⟨fun h hfree => hend h fun hop => (State.slipMet_acquire hc hop).trans (decide_eq_true hfree),
      fun h => hend h (State.slipMet_publish hc),
      fun h hfull => hend h fun hop => (State.slipMet_wait hc hop).trans (decide_eq_true hfull),
      fun h => hend h (State.slipMet_release hc)⟩

end Sys2Proof.Machine
end

section
/-!
Ring entries are taken (R27, R28, R32, R33) and lists fetched (R34, R38, R436).
-/
namespace Sys2Proof.Machine

section
variable {s : State} {q : Nat}

/-! Rings. -/

/-- A slot that has been read is looked at, when the ring is watched and lies in the module's memory. -/
theorem State.entryTake_local {u : State} {bs : List Byte} (hw : s.watching q = true) (hl : isHost (s.slotAddr q) = false)
    (hr : s.opRead q (s.slotAddr q) 32 0xFF = (.bytes bs, u)) : s.entryTake q = u.seeSlot q bs := by
  simp only [State.entryTake, hw, hl, hr, Bool.not_true, Bool.false_and, Bool.false_eq_true, if_false]

theorem State.seeSlot_posted {bs : List Byte} (h : stampOf (BitVec.ofNat 32 ((wordsOf 4 bs).getD 3 0)) (s.q q).head = .posted) :
    s.seeSlot q bs = s.takeEntry q (wordsOf 4 bs) := by
  simp only [State.seeSlot, h]

theorem State.seeSlot_overrun {bs : List Byte} (h : stampOf (BitVec.ofNat 32 ((wordsOf 4 bs).getD 3 0)) (s.q q).head = .overrun) :
    s.seeSlot q bs = s.overrun q (BitVec.ofNat 32 ((wordsOf 4 bs).getD 3 0)) := by
  simp only [State.seeSlot, h]

theorem State.seeSlot_notYet {bs : List Byte} (h : stampOf (BitVec.ofNat 32 ((wordsOf 4 bs).getD 3 0)) (s.q q).head = .notYet) :
    s.seeSlot q bs = s.setQ q { s.q q with have_ := [] } := by
  simp only [State.seeSlot, h]

theorem State.takeEntry_good {w : List Nat} {v : State}
    (hv : v = (s.setQ q { s.q q with head := (s.q q).head + 1, have_ := [] }).frontWrite q (s.headArea q)
      (leBytes 4 ((s.q q).head + 1).toNat ++ List.replicate 60 0))
    (hgo : (v.q q).state ≠ .stopped) (hc : entryCheck (v.tokCnt (v.chan q)) w = .ok ()) :
    s.takeEntry q w = v.setQ q { v.q q with state := .active, lst := some (v.entryList q w) } := by
  have harea (x : Queue) : (s.setQ q x).headArea q = s.headArea q := rfl
  simp only [State.takeEntry, harea, ← hv, if_neg hgo, hc]

theorem State.overrun_stops {seq : W32} (h : ((s.reply q 0xFFFFFFFF stOverrun seq).q q).state ≠ .stopped) :
    s.overrun q seq = (s.reply q 0xFFFFFFFF stOverrun seq).stopQ q stOverrun 0xFFFFFFFF .slot := by
  have hseq : BitVec.ofNat 32 seq.toNat = seq := by simp
  rw [State.overrun, State.frontFail_stops (by rwa [hseq]), hseq]

/-- A poll notes its time; it leaves the slot where it was. -/
theorem State.slotAddr_polled (hw : s.watching q = true) (n : Nat) :
    (s.setQ q { s.q q with polled := n }).slotAddr q = s.slotAddr q := by
  have hidle : (s.q q).state = .idle := by
    simp only [State.watching, Bool.and_eq_true, beq_iff_eq] at hw
    exact hw.1.1
  have hq := State.q_setQ_of_not_disabled (s := s) (q := q) (v := { s.q q with polled := n }) (by simp [hidle])
  simp only [State.slotAddr, hq]
  rfl

section
variable (hw : s.watching q = true) (hh : isHost (s.slotAddr q) = true) (hn : (s.q q).has (s.slotAddr q) 32 = false)
  (hr : (s.q q).reads = []) (ht : (s.q q).polled + s.rd 0x500004 * 100 ≤ s.pwr.time)
include hw hh hn hr ht

theorem State.hostPoll_due : s.hostPoll q =
    let t := s.setQ q { s.q q with polled := s.pwr.time }
    if t.hif.bme then t.request q (t.slotAddr q) 32 0xFF
    else (t.evHif 2).frontFail q barredFail.st barredFail.detail .slot := by
  simp only [State.hostPoll, hw, hh, hn, hr, Nat.not_lt.2 ht, Bool.not_true, Bool.or_self, Bool.false_eq_true, List.isEmpty_nil,
    decide_false, if_false]

theorem State.hostPoll_reads (hb : s.hif.bme = true) : s.hostPoll q =
    (s.setQ q { s.q q with polled := s.pwr.time }).request q (s.slotAddr q) 32 0xFF := by
  rw [State.hostPoll_due hw hh hn hr ht]
  exact (if_pos hb).trans (by rw [State.slotAddr_polled hw])

theorem State.hostPoll_barred (hb : s.hif.bme = false) : s.hostPoll q =
    ((s.setQ q { s.q q with polled := s.pwr.time }).evHif 2).frontFail q barredFail.st barredFail.detail .slot := by
  rw [State.hostPoll_due hw hh hn hr ht]
  exact if_neg (by simp [hb])

end

/-! Lists. -/

theorem State.listFetch_met {l : ListCtx} (hl : (s.q q).lst = some l) (hc : (s.q q).cmd = none) (hs : (s.q q).state = .active)
    (hm : s.tokMet l.waitTok = true) (hp : s.pwr.state = 0) : s.listFetch q = s.fetchNext q := by
  simp [State.listFetch, hl, hc, hs, hm, hp]

theorem State.endList_some {l : ListCtx} (hl : (s.q q).lst = some l) : s.endList q = (s.signal l.sigTok).setQ q
    { (s.signal l.sigTok).q q with state := .idle, lst := none, cmd := none, have_ := [] } := by
  simp only [State.endList, hl]

theorem State.fetchNext_end {l : ListCtx} (hl : (s.q q).lst = some l) (hlen : l.len ≤ l.pos) : s.fetchNext q = s.endList q := by
  simp only [State.fetchNext, hl, if_pos hlen]

theorem State.fetchNext_barred {l : ListCtx} (hl : (s.q q).lst = some l) (hlen : l.pos < l.len)
    (hb : s.barred q (l.addr + 8 * l.pos) 8 = true) :
    s.fetchNext q = (s.evHif 2).frontFail q barredFail.st barredFail.detail .header := by
  simp only [State.fetchNext, hl, if_neg (Nat.not_le.2 hlen), hb, if_true]

theorem State.fetchNext_header {l : ListCtx} {bs : List Byte} {u : State} (hl : (s.q q).lst = some l) (hlen : l.pos < l.len)
    (hb : s.barred q (l.addr + 8 * l.pos) 8 = false) (hr : s.opRead q (l.addr + 8 * l.pos) 8 0xFF = (.bytes bs, u)) :
    s.fetchNext q = u.fetchParams q l (leNat bs) := by
  simp only [State.fetchNext, hl, if_neg (Nat.not_le.2 hlen), hb, hr, Bool.false_eq_true, if_false]

theorem State.fetchParams_refused {l : ListCtx} {h : Nat} {f : Fail} (hc : headerCheck q l h = .error f) :
    s.fetchParams q l h = s.makeCurrent q l h [] (some f) := by
  simp only [State.fetchParams, hc]

theorem State.fetchParams_good {l : ListCtx} {h : Nat} {ps : List Byte} {v : State} (hc : headerCheck q l h = .ok ())
    (hb : s.barred q (l.addr + 8 * (l.pos + 1)) (8 * fld h 23 16) = false)
    (hr : s.opRead q (l.addr + 8 * (l.pos + 1)) (8 * fld h 23 16) 0xFF = (.bytes ps, v)) : s.fetchParams q l h =
      v.makeCurrent q l h (wordsOf (fld h 23 16) ps) (v.tokenChecks q h (wordsOf (fld h 23 16) ps)) := by
  simp only [State.fetchParams, hc, hb, hr, Bool.false_eq_true, and_false, if_false]

end

/-- Settles O15: what the slot's stamp says, the poll that is due, and the header and parameter words of the next command. -/
theorem entriesFetchedAndTaken : Obligations.EntriesFetchedAndTaken := by
  refine ⟨?entry, ?poll, ?list⟩
  case entry =>
    rintro q s u bs w seq hw hl hr rfl rfl
    have htake := State.entryTake_local hw hl hr
    refine ⟨fun v hstamp hv hgo hc => next_congr ?_, fun hstamp hgo => next_congr ?_, fun hstamp => next_congr ?_⟩
    · rw [htake, State.seeSlot_posted hstamp, State.takeEntry_good hv hgo hc]
    · rw [htake, State.seeSlot_overrun hstamp, State.overrun_stops hgo]
    · rw [htake, State.seeSlot_notYet hstamp]
  case poll =>
    exact fun q s hw hh hn hr ht => ⟨fun hb => next_congr (State.hostPoll_reads hw hh hn hr ht hb),
      fun hb => next_congr (State.hostPoll_barred hw hh hn hr ht hb)⟩
  case list =>
    intro q s l hl hc hs hm hp
    have hfetch := State.listFetch_met hl hc hs hm hp
    refine ⟨fun hlen => next_congr ?_, fun hlen hb => next_congr ?_, ?_, ?_⟩
    · rw [hfetch, State.fetchNext_end hl hlen, State.endList_some hl]
    · rw [hfetch, State.fetchNext_barred hl hlen hb]; rfl
    · rintro bs ps u v ws hlen hb hbp hr hck hrp rfl
      exact next_congr (by rw [hfetch, State.fetchNext_header hl hlen hb hr, State.fetchParams_good hck hbp hrp])
    · intro bs u f hlen hb hr hck
      exact next_congr (by rw [hfetch, State.fetchNext_header hl hlen hb hr, State.fetchParams_refused hck])

end Sys2Proof.Machine
end

section
/-!
Dispatch (R43, R79, R93, R113, R139, R227) and completion (R37 to R39).
-/
namespace Sys2Proof.Machine

/-- Queue q's command, dispatched from a voted state, before the exchange engine takes note of it. -/
def State.dispatchRun (t : State) (q : Nat) (c : Cmd) : State :=
  (if q / 64 = 0 then { t with mat := { t.mat with serial := t.mat.serial + 1 } } else t).setCmd q
    { c with phase := .running, tags := t.tagMap, tide := t.tideMap, clusters := t.clCount, born := t.mat.serial,
             quads := if c.op / 4096 = 2 then t.takeQuads c else [], man := t.mgt.vers.getD 2 (1, 0) }

section
variable {s : State} {q : Nat} {c : Cmd}

theorem State.dispatch_lowest (hc : (s.q q).cmd = some c) (hr : s.ready q = true)
    (hlow : ∀ i < q % 64, s.ready (q / 64 * 64 + i) = false) :
    s.dispatch q = (([0x800014, 0x800018, 0x80001C].foldl State.useT s).dispatchRun q c).xDispatch q c := by
  have hnone : ((List.range (q % 64)).any fun i => s.ready (q / 64 * 64 + i)) = false := by
    rw [List.any_eq_false]
    exact fun i hi => by simp [hlow i (List.mem_range.1 hi)]
  simp only [State.dispatch, hr, hnone, hc, Bool.not_false, Bool.and_self, if_true]
  rfl

theorem State.xDispatch_refused (h : c.op / 4096 ≠ 5 ∨ s.xAccepts q c = false) : s.xDispatch q c = s := by
  rw [State.xDispatch, if_neg]
  rintro ⟨hlo, hhi, hacc⟩
  rcases h with h | h
  · omega
  · simp [h] at hacc

theorem State.xDispatch_collective (hlo : 0x5001 ≤ c.op) (hhi : c.op ≤ 0x5005) (h : s.xAccepts q c = true) : s.xDispatch q c =
    (s.setXRun (s.xNew q c (fld (c.p 0) 3 0))).setGroup (fld (c.p 0) 3 0)
      { s.group (fld (c.p 0) 3 0) with cseq := (s.group (fld (c.p 0) 3 0)).cseq + 1 } := by
  rw [State.xDispatch, if_pos ⟨hlo, hhi, h⟩]

/-- The state after the reply of a command that has ended. -/
def State.answered (s : State) (q : Nat) (c : Cmd) (st : Byte) (d : W32) : State :=
  ((s.engineDone q c st).release q).replyCmd q c st d

theorem State.complete_success {st : Byte} {d : W32} {v : State} (hc : (s.q q).cmd = some c) (hp : c.phase = .ended st d)
    (hst : isSuccess st = true) (hvis : s.visible q = true) (hgo : ((s.answered q c st d).q q).state ≠ .stopped)
    (hv : v = (s.answered q c st d).setQ q { (s.answered q c st d).q q with cmd := none })
    (hd : ((v.signal c.sigTok).q q).draining = false) : s.complete q = (v.signal c.sigTok).fetchNext q := by
  subst hv
  simp only [State.answered] at hgo hd ⊢
  simp [State.complete, hc, hp, hst, hvis, hd, hgo]

theorem State.complete_failure {st : Byte} {d : W32} {v : State} (hc : (s.q q).cmd = some c) (hp : c.phase = .ended st d)
    (hst : isSuccess st = false) (hgo : ((s.answered q c st d).q q).state ≠ .stopped)
    (hv : v = (s.answered q c st d).setQ q { (s.answered q c st d).q q with cmd := none })
    (hd : (v.q q).draining = false) : s.complete q = (v.muteList q).stopQ q st c.tag .command := by
  subst hv
  simp only [State.answered] at hgo hd ⊢
  simp [State.complete, hc, hp, hst, hd, hgo]

end

/-- Settles O16: the dispatch of the lowest ready queue, with or without a collective, and the two ways a command completes. -/
theorem commandDispatchedAndCompleted : Obligations.CommandDispatchedAndCompleted := by
  refine ⟨?dispatch, ?complete⟩
  case dispatch =>
    rintro q s c hc hr hlow t u rfl hu
    replace hu : u = State.dispatchRun _ q.val c := hu
    refine ⟨fun h => next_congr ?_, fun hlo hhi h => next_congr ?_⟩
    · rw [State.dispatch_lowest hc hr hlow, ← hu, State.xDispatch_refused h]
    · rw [State.dispatch_lowest hc hr hlow, ← hu, State.xDispatch_collective hlo hhi h]
  case complete =>
    rintro q s u v c st d hc hp rfl hgo hv
    exact ⟨fun hst hvis hd => next_congr (congrArg State.d3Settle (State.complete_success hc hp hst hvis hgo hv hd)),
      fun hst hd => next_congr (congrArg State.d3Settle (State.complete_failure hc hp hst hgo hv hd))⟩

end Sys2Proof.Machine
end

section
/-!
Timeouts (R40) and the actions on a stopped queue (R39).
-/
namespace Sys2Proof.Machine

section
variable {s : State} {q : Nat}

theorem State.timeout_list {l : ListCtx} (hlim : s.rd (qo q 0x18) ≠ 0) (hs : (s.q q).state = .active) (hc : (s.q q).cmd = none)
    (hl : (s.q q).lst = some l) (hb : l.begun = false) (ht : l.waitTok.isSome = true) (hm : s.tokMet l.waitTok = false)
    (hd : s.due l.since (s.rd (qo q 0x18)) = true) : s.timeout q =
      (s.errRec 0x0B 1 5 q (timeoutDetail 1 (s.msSince l.since)) 0).frontFail q stTimeout
        (timeoutDetail 1 (s.msSince l.since)) .listWait := by
  simp [State.timeout, hlim, hs, hc, hl, hb, ht, hm, hd]

section
variable {c : Cmd} (hlim : s.rd (qo q 0x18) ≠ 0) (hs : (s.q q).state = .active) (hc : (s.q q).cmd = some c)
  (hd : s.due c.since (s.rd (qo q 0x18)) = true) (hstop : c.stop = none)
include hlim hs hc hd hstop

theorem State.timeout_waiting (hp : c.phase = .waiting) : s.timeout q =
    (s.errRec 0x0B 1 5 q (timeoutDetail (s.waitReason q) (s.msSince c.since)) 0).failCmd q
      ⟨stTimeout, timeoutDetail (s.waitReason q) (s.msSince c.since)⟩ := by
  simp [State.timeout, hlim, hs, hc, hd, hstop, hp]

theorem State.timeout_running (hp : c.phase = .running) : s.timeout q =
    (s.errRec 0x0B 1 5 q (timeoutDetail (s.waitReason q) (s.msSince c.since)) 0).requestStop q stTimeout
      (timeoutDetail (s.waitReason q) (s.msSince c.since)) := by
  simp [State.timeout, hlim, hs, hc, hd, hstop, hp]

end

theorem State.resumeNext_not_stopped (hs : (s.q q).state ≠ .stopped) : s.resumeNext q = s := by
  rw [State.resumeNext, if_pos (Or.inl hs)]

theorem State.dropList_not_stopped (hs : (s.q q).state ≠ .stopped) : s.dropList q = s := by
  rw [State.dropList, if_pos (Or.inl hs)]

section
variable (hs : (s.q q).state = .stopped) (hd : (s.q q).draining = false)
include hs hd

theorem State.dropList_stopped : s.dropList q =
    s.setQ q { s.q q with state := .idle, lst := none, failed := .none, have_ := [] } := by
  rw [State.dropList, if_neg (by simp [hs, hd])]

theorem State.resumeNext_entry (hf : (s.q q).failed = .entry) :
    s.resumeNext q = s.setQ q { s.q q with state := .idle, lst := none, failed := .none } := by
  rw [State.resumeNext, if_neg (by simp [hs, hd])]
  simp only [hf]

theorem State.resumeNext_slot (hf : (s.q q).failed = .slot) :
    s.resumeNext q = s.setQ q { s.q q with state := .idle, failed := .none, have_ := [] } := by
  rw [State.resumeNext, if_neg (by simp [hs, hd])]
  simp only [hf]

theorem State.resumeNext_command (hf : (s.q q).failed = .command) (hl : (s.q q).lst.isSome = true) :
    s.resumeNext q = (s.setQ q { s.q q with state := .active, failed := .none }).fetchNext q := by
  rw [State.resumeNext, if_neg (by simp [hs, hd])]
  simp only [hf, hl, if_true]

end

end

/-- Settles O17: the three timeouts of R40, and the actions of R39 on a queue that is STOPPED or not. -/
theorem queueStopsAndGoesOn : Obligations.QueueStopsAndGoesOn := by
  refine ⟨?timeout, ?action⟩
  case timeout =>
    rintro q s lim rfl hlim hs
    refine ⟨fun l t d hc hl hb ht hm hd hdet hgo => next_congr ?_,
      fun c d hc hd hstop hdet => ⟨fun hp => next_congr ?_, fun hp => next_congr ?_⟩⟩
    · subst hdet
      rw [State.timeout_list hlim hs hc hl hb (by rw [ht]; rfl) hm hd, State.frontFail_stops hgo]
    · rw [State.timeout_waiting hlim hs hc hd hstop hp, hdet]
    · rw [State.timeout_running hlim hs hc hd hstop hp, hdet]
  case action =>
    refine fun q s hb => ⟨fun hs => ⟨?_, ?_⟩, fun hs hd => ⟨?_, fun hf => ?_, fun hf => ?_, fun hf hl => ?_⟩⟩ <;>
      refine next_congr ?_
    · exact State.barDo_unchanged hb (State.resumeNext_not_stopped hs)
    · exact State.barDo_unchanged hb (State.dropList_not_stopped hs)
    · exact State.barDo_eq hb (State.dropList_stopped hs hd) (State.setQ_same_regs _ _)
    · exact State.barDo_eq hb (State.resumeNext_entry hs hd hf) (State.setQ_same_regs _ _)
    · exact State.barDo_eq hb (State.resumeNext_slot hs hd hf) (State.setQ_same_regs _ _)
    · exact State.barDo_byWrite hb (State.resumeNext_command hs hd hf hl)

end Sys2Proof.Machine
end

section
/-!
A queue is enabled, disabled and reset (R29, R39, R41, R42).
-/
namespace Sys2Proof.Machine

section
variable {s : State} {q : Nat}

theorem State.q_clearEnable (n : Nat) : (s.clearEnable q).q n = s.q n := State.q_setReg _ _ _ _

theorem State.refuseQ_same_regs : Piece.regs.same s (s.refuseQ q) := State.refuseQ_only s q .regs (by decide)

theorem State.enable_enabled (h : s.rbit (qo q 0) 0 = true) : s.enable q = s := by
  rw [State.enable, if_pos h]

theorem State.enable_invalid (h : s.rbit (qo q 0) 0 = false) (hv : s.enableValid q = false) : s.enable q = s.refuseQ q := by
  rw [State.enable, if_neg (by simp [h]), if_neg (by simp [hv])]

theorem State.enable_valid (h : s.rbit (qo q 0) 0 = false) (hv : s.enableValid q = true) : s.enable q =
    let u := (s.setReg (qo q 0) (s.rd (qo q 0) ||| 1)).setQ q
      { Queue.reset with state := .idle, err := (s.q q).err, errTag := (s.q q).errTag }
    u.frontWrite q (u.headArea q) (List.replicate 64 0) := by
  rw [State.enable, if_neg (by simp [h]), if_pos hv]
  simp only [State.q_setReg]

theorem State.resetQ_idle (hs : (s.q q).state ≠ .disabled) (hc : (s.q q).cmd = none) :
    s.resetQ q = ((s.clearEnable q).release q).disableQ q true := by
  simp only [State.resetQ, if_neg hs, State.abandonQ, State.q_clearEnable, hc]

theorem State.disable_idle (hs : (s.q q).state ≠ .disabled) (hd : (s.q q).draining = false) (hc : (s.q q).cmd = none) :
    s.disable q = ((s.clearEnable q).release q).disableQ q false := by
  simp only [State.disable, State.q_clearEnable, hs, hd, hc, Bool.false_eq_true, or_self, if_false]

end

/-- Settles O18: each action by its own rule, the refusal leaving the control registers alone. -/
theorem queueEnabledDisabledReset : Obligations.QueueEnabledDisabledReset := by
  refine fun q s hb => ⟨fun hoff hv => next_congr ?valid, fun hoff hv => next_congr ?invalid, fun hon => next_congr ?enabled,
    fun hs hc => ⟨next_congr ?reset, fun hd => next_congr ?disable⟩⟩
  case valid => exact State.barDo_byWrite hb (State.enable_valid hoff hv)
  case invalid => exact State.barDo_eq hb (State.enable_invalid hoff hv) State.refuseQ_same_regs
  case enabled => exact State.barDo_unchanged hb (State.enable_enabled hon)
  case reset => exact State.barDo_byWrite hb (State.resetQ_idle hs hc)
  case disable => exact State.barDo_byWrite hb (State.disable_idle hs hd hc)

end Sys2Proof.Machine
end

section
/-!
Front-end registers, channels, landing buffers and transfer tags (R44, R46, R50, R51, R53, R54, R57).
-/
namespace Sys2Proof.Machine

/-! Dispatch hold (R44). -/

theorem State.byWrite_regs (s : State) (f : State → State) : (s.byWrite f).regs = (f s).regs := by
  unfold State.byWrite; dsimp only; split <;> rfl

theorem State.setReg_regs (s : State) {off : Nat} (v : Nat) (h : regAt off ≠ none) :
    (s.setReg off v).regs = tput regReset s.regs off (BitVec.ofNat 16 v) := by
  unfold State.setReg
  split
  · split <;> rfl
  · next hnone => exact absurd hnone h

/-- DISPATCH_EN resets to 1, so its 0 is listed and reads back. -/
theorem State.rd_dispatchHold (s : State) : (s.dispatchHold false).rd 0x500000 = 0 := by
  rw [State.rd, State.dispatchHold, State.setReg_regs s _ (by decide +kernel), tget_tput_of_ne _ (by decide +kernel)]
  rfl

theorem State.not_ready_of_held {s : State} (h : s.held = true) (q : Nat) : s.ready q = false := by
  unfold State.ready
  split
  · simp [State.condMet, h]
  · rfl

theorem State.dispatchHold_not_ready (s : State) (q : Nat) : (s.byWrite fun t => t.dispatchHold false).ready q = false := by
  refine State.not_ready_of_held ?_ q
  have hrd : (s.byWrite fun t => t.dispatchHold false).rd 0x500000 = 0 := by
    rw [State.rd, State.byWrite_regs]; exact State.rd_dispatchHold s
  simp [State.held, State.rbit, hrd, bitAt]

section
variable {s : State} {n b : Nat}

/-! Slipways (R46). -/

theorem State.slipEnable_on (h : s.slipOn n = true) : s.slipEnable n true = s := by
  simp only [State.slipEnable, h, if_true]

theorem State.slipEnable_valid (h : s.slipOn n = false) (hv : s.slipValid n = true) :
    s.slipEnable n true = (s.setSlip n ⟨0, 0⟩).setReg (slo n 0x1C) 1 := by
  simp only [State.slipEnable, h, hv, Bool.false_eq_true, if_false, if_true]

theorem State.slipEnable_invalid (h : s.slipOn n = false) (hv : s.slipValid n = false) :
    s.slipEnable n true = s.refuseSl n := by
  simp only [State.slipEnable, h, hv, Bool.false_eq_true, if_false, if_true]

theorem State.refuseSl_same_regs : Piece.regs.same s (s.refuseSl n) := State.refuseSl_only s n .regs (by decide)

/-! Channels (R50, R53). -/

theorem State.berthOpen_valid (h : s.chanOpen b = false) (hv : s.openValid b = true) :
    s.berthOpen b = s.setReg (bo b 0) (s.rd (bo b 0) ||| 1) := by
  simp only [State.berthOpen, h, hv, Bool.false_eq_true, if_false, if_true]

theorem State.berthOpen_invalid (h : s.chanOpen b = false) (hv : s.openValid b = false) : s.berthOpen b = s.refuseB b 2 := by
  simp only [State.berthOpen, h, hv, Bool.false_eq_true, if_false]

theorem State.berthClose_unbound (h : s.chanOpen b = true) (hb : s.bound b = false) :
    s.berthClose b = (s.emptyBerth b).setReg (bo b 0) (s.rd (bo b 0) / 2 * 2) := by
  simp only [State.berthClose, h, hb, Bool.not_true, Bool.false_eq_true, if_false]

theorem State.berthClose_bound (h : s.chanOpen b = true) (hb : s.bound b = true) : s.berthClose b = s.refuseB b 3 := by
  simp only [State.berthClose, h, hb, Bool.not_true, Bool.false_eq_true, if_false, if_true]

theorem State.refuseB_same_regs (bit : Nat) : Piece.regs.same s (s.refuseB b bit) := State.refuseB_only s b bit .regs (by decide)

/-! Landing buffers (R51). -/

theorem State.landingGrant_queue {c n q : Nat} {rest : List LandReq} (h : s.cqf.landing = ⟨c, n, .queue q⟩ :: rest) :
    s.landingGrant = if s.canGrant c n then (({ s with cqf := { s.cqf with landing := rest } } : State).takeBufs c n).setQ q
      { s.q q with bufs := (s.q q).bufs + n } else s := by
  simp only [State.landingGrant, h]

/-! Transfer tags (R57). -/

theorem State.tagGrant_full {k : Nat} (h : poolSize k ≤ (s.pool k).inUse) : s.tagGrant k = s := by
  rw [State.tagGrant, if_pos h]

theorem poolSize_host : poolSize 21 = 2048 := rfl

theorem State.tagGrant_host {w : TagWait} (h : (s.pool 21).inUse < 2048)
    (hw : (s.cqf.tagWait.find? fun w => w.pool == 21) = some w) : s.tagGrant 21 =
      let u := (s.takeTag 21).setQ w.queue { s.q w.queue with reads := (s.q w.queue).reads ++ [w.req] }
      { u with cqf := { u.cqf with tagWait := u.cqf.tagWait.erase w } } := by
  rw [State.tagGrant, poolSize_host, if_neg (by omega), if_pos rfl]
  simp only [hw]

theorem poolSize_port (p : Fin 12) : poolSize (9 + p.val) = 1024 := by
  rw [poolSize, if_neg (by omega), if_pos (by omega)]

theorem State.tagGrant_port {p : Fin 12} {w : PeerWait} (h : (s.pool (9 + p.val)).inUse < 1024)
    (hw : (s.fab.tagWait.find? fun w => 9 + w.port == 9 + p.val) = some w) : s.tagGrant (9 + p.val) =
      ({ s with fab := { s.fab with tagWait := s.fab.tagWait.erase w } } : State).tagTo w.port w.what := by
  rw [State.tagGrant, poolSize_port, if_neg (by omega), if_neg (by omega)]
  simp only [hw]

theorem State.tagTo_access {p : Nat} {r : PeerReq} (h : s.hasId = true) :
    s.tagTo p (.access r) = (s.takeTag (9 + p)).peerSend p r := if_pos h

theorem State.tagTo_access_lost {p : Nat} {r : PeerReq} (h : s.hasId = false) :
    s.tagTo p (.access r) = s.peerLost r stPeer (peerDetail (peerId r.addr) 0) := if_neg (by simp [h])

theorem State.tagTo_segment {p : Nat} {x : XOut} (h : s.hasId = true) (hp : (s.port p).state = 4) :
    s.tagTo p (.segment x) = (s.takeTag (9 + p)).pushOut p ⟨s.segPacket x, none, true⟩ := if_pos ⟨h, hp⟩

end

/-- Settles O20: each register, request and tag by its own rule, a refusal leaving the control registers alone. -/
theorem frontEndRegistersAct : Obligations.FrontEndRegistersAct := by
  refine ⟨⟨?hold, ?held, ?slipway, ?weir⟩, ?channel, ?granted, ?waits, ?hostTag, ?portTag, ?full⟩
  case hold => exact fun en s hb => next_congr (State.barDo_byWrite hb rfl)
  case held =>
    exact fun s q hb => ⟨_, next_congr (State.barDo_byWrite hb rfl), State.dispatchHold_not_ready s q⟩
  case slipway =>
    exact fun n s hb => ⟨next_congr (State.barDo_byWrite hb rfl),
      fun h => next_congr (State.barDo_unchanged hb (State.slipEnable_on h)),
      fun h hv => next_congr (State.barDo_byWrite hb (State.slipEnable_valid h hv)),
      fun h hv => next_congr (State.barDo_eq hb (State.slipEnable_invalid h hv) State.refuseSl_same_regs)⟩
  case weir => exact fun b data s hb => next_congr (State.barDo_byWrite hb rfl)
  case channel =>
    exact fun b s hb => ⟨fun h hv => next_congr (State.barDo_byWrite hb (State.berthOpen_valid h hv)),
      fun h hv => next_congr (State.barDo_eq hb (State.berthOpen_invalid h hv) (State.refuseB_same_regs 2)),
      fun h hv => next_congr (State.barDo_byWrite hb (State.berthClose_unbound h hv)),
      fun h hv => next_congr (State.barDo_eq hb (State.berthClose_bound h hv) (State.refuseB_same_regs 3))⟩
  case granted => exact fun s c n q rest h hg => next_congr ((State.landingGrant_queue h).trans (if_pos hg))
  case waits => exact fun s c n q rest h hg => next_congr ((State.landingGrant_queue h).trans (if_neg (by simp [hg])))
  case hostTag => exact fun s w h hw => ⟨_, rfl, next_congr (State.tagGrant_host h hw)⟩
  case portTag =>
    rintro s t p w h hw rfl
    have hgrant := State.tagGrant_port h hw
    refine ⟨fun r hr hid => next_congr ?_, fun r hr hid => next_congr ?_, fun x hx hid hport => next_congr ?_⟩
    · exact hgrant.trans (by rw [hr, State.tagTo_access hid])
    · exact hgrant.trans (by rw [hr, State.tagTo_access_lost hid])
    · exact hgrant.trans (by rw [hx, State.tagTo_segment hid hport])
  case full => exact fun s k h => next_congr (State.tagGrant_full h)

end Sys2Proof.Machine
end

section
/-!
Configuration writes (R42) and the actions that clear counts and peaks (R416).
-/
namespace Sys2Proof.Machine

section
variable {s : State} {off data : Nat} {a : RegAt}

/-- The payload a configuration write asks for: the masked data, each field within its range (R415). -/
def State.configPayload (s : State) (a : RegAt) (off data : Nat) : Nat :=
  rangeWrite (s.payload off) (maskedWrite (s.payload off) data a.reg.storeMask) (fieldRanges off)

/-- The bits of a register that a write selects (R415). -/
def RegAt.selected (a : RegAt) (data : Nat) : Nat := data / 65536 &&& (a.reg.storeMask ||| a.reg.actMask)

theorem isCqfConfig_iff : isCqfConfig off = true ↔ 0x510000 ≤ off ∧ off < 0x600000 := by
  simp only [isCqfConfig, Bool.and_eq_true, decide_eq_true_eq]

theorem State.cqfWrite_other (h : isCqfConfig off = false) : s.cqfWrite off data = s := by
  rw [State.cqfWrite, if_neg (by simp [h])]

/-- A configuration write that selects a bit comes to the front end's own rule for the register. -/
theorem State.cqfWrite_config (hcfg : isCqfConfig off = true) (hb : s.barOpen = true) (h4 : off % 4 = 0) (ha : regAt off = some a)
    (hk : a.reg.kind = .ctl false) (hm : a.selected data ≠ 0) (hd : data < 4294967296) : s.cqfWrite off data =
      s.byWrite fun _ => s.writeCqf a.n off data (a.selected data) (s.configPayload a off data)
        (data &&& a.selected data &&& a.reg.actMask) := by
  obtain ⟨hlo, hhi⟩ := isCqfConfig_iff.1 hcfg
  rw [State.cqfWrite, if_pos hcfg, State.regWrite_word hb h4 (by omega), Nat.mod_eq_of_lt hd]
  refine State.byWrite_congr ?_
  rw [State.barWordWrite, if_neg (by omega), ha]
  simp only [hk]
  exact (if_neg hm).trans ((if_neg (by omega)).trans (if_pos hhi))

section
variable (n m v act : Nat)

theorem State.writeCqf_queue (hlo : 0x510000 ≤ off) (hhi : off < 0x520000) :
    s.writeCqf n off data m v act = s.writeQueue n (off % 0x40) off m v act := by
  rw [State.writeCqf, if_neg (by omega), if_pos hhi]

theorem State.writeCqf_slip (hlo : 0x520000 ≤ off) (hhi : off < 0x540000) :
    s.writeCqf n off data m v act = s.writeSlip n (off % 0x40) off m v := by
  rw [State.writeCqf, if_neg (by omega), if_neg (by omega), if_pos hhi]

theorem State.writeCqf_berth (hlo : 0x540000 ≤ off) :
    s.writeCqf n off data m v act = s.writeBerth n (off % 0x40) off data m v := by
  rw [State.writeCqf, if_neg (by omega), if_neg (by omega), if_neg (by omega)]

theorem State.writeQueue_config {f : Nat} (hctl : f ≠ 0) (hcmd : f ≠ 0x2C) : s.writeQueue n f off m v act =
    if (s.q n).state ≠ .disabled ∧ v ≠ s.rd off then s.refuseQ n else s.setReg off v := by
  unfold State.writeQueue
  split
  · exact absurd rfl hctl
  · exact absurd rfl hcmd
  · rfl

theorem State.writeSlip_config {f : Nat} (hctl : f ≠ 0x1C) : s.writeSlip n f off m v =
    if s.slipOn n = true ∧ v ≠ s.rd off then s.refuseSl n else s.setReg off v := by
  rw [State.writeSlip, if_neg hctl]

theorem State.writeBerth_config {f : Nat} (hctl : f ≠ 0) (hweir : f ≠ 0x14) : s.writeBerth n f off data m v =
    if s.chanOpen n = true ∧ v ≠ s.rd off then s.evCqf 3 else s.setReg off v := by
  rw [State.writeBerth, if_neg hctl, if_neg hweir]

end

/-- A configuration write is stored while its unit is free or the payload stays, and refused otherwise (R42). -/
theorem exec_cqfConfigWrite {data : W32} {t r : State} {used : Prop} [Decidable used] {v : Nat}
    (hwrite : s.cqfWrite off data.toNat = s.byWrite fun _ => t) (ht : t = if used ∧ v ≠ s.rd off then r else s.setReg off v)
    (hr : Piece.regs.same s r) :
    (¬ used ∨ v = s.rd off → exec (.cqfConfigWrite off data) s = .next (s.byWrite fun _ => s.setReg off v)) ∧
    (used → v ≠ s.rd off → exec (.cqfConfigWrite off data) s = .next r) := by
  subst ht
  refine ⟨fun hfree => next_congr (hwrite.trans (State.byWrite_congr (if_neg fun ⟨hu, hne⟩ => hfree.elim (· hu) hne))),
    fun hu hne => next_congr (hwrite.trans ?_)⟩
  rw [if_pos ⟨hu, hne⟩]
  exact State.byWrite_of_regs hr

end

/-- Settles O13: a queue, a slipway and a channel by one rule, and the clearing actions, which leave the control registers alone. -/
theorem configurationWrites : Obligations.ConfigurationWrites := by
  refine ⟨⟨fun off data s h => next_congr (State.cqfWrite_other h), ?config⟩, ?clear⟩
  case config =>
    rintro off data s a v hcfg hb h4 ha hk hm hv
    have hwrite := State.cqfWrite_config hcfg hb h4 ha hk hm data.isLt
    rw [State.configPayload, ← hv] at hwrite
    obtain ⟨hlo, -⟩ := isCqfConfig_iff.1 hcfg
    refine ⟨fun hhi hctl hcmd => ?queue, fun hlo' hhi hctl => ?slipway, fun hlo' hctl hweir => ?berth⟩
    case queue =>
      simpa only [ne_eq, Classical.not_not] using exec_cqfConfigWrite hwrite
        ((State.writeCqf_queue _ _ _ _ hlo hhi).trans (State.writeQueue_config _ _ _ _ hctl hcmd))
        (State.refuseQ_only s a.n .regs (by decide))
    case slipway =>
      simpa only [Bool.not_eq_true] using exec_cqfConfigWrite hwrite
        ((State.writeCqf_slip _ _ _ _ hlo' hhi).trans (State.writeSlip_config _ _ _ hctl))
        (State.refuseSl_only s a.n .regs (by decide))
    case berth =>
      simpa only [Bool.not_eq_true] using exec_cqfConfigWrite hwrite
        ((State.writeCqf_berth _ _ _ _ hlo').trans (State.writeBerth_config _ _ _ hctl hweir))
        (State.evCqf_only s 3 .regs (by decide))
  case clear =>
    intro s hb
    have hact {f : State → State} (hf : Piece.regs.same s (f s)) : (.next (s.barDo f) : Out) = .next (f s) :=
      next_congr (State.barDo_of_regs hb hf)
    exact ⟨hact (State.matNfClr_only s .regs (by decide)), hact (State.vecNfClr_only s .regs (by decide)),
      hact (State.nbuNfClr_only s .regs (by decide)), hact (State.xchNfClr_only s .regs (by decide)),
      hact (State.itkNfClr_only s .regs (by decide)), hact (State.itkPeakClr_only s .regs (by decide)),
      fun t ht => ht ▸ hact (State.cqfPeakClr_only s .regs (by decide))⟩

end Sys2Proof.Machine
end

section
/-!
Peer packets and segments at their destination (R53, R228, R246, R258, R259, R262, R275).
-/
namespace Sys2Proof.Machine

section
variable {s : State} {p : Nat} {x : InPkt}

/-! No packet of the kind at the head of its channel. -/

theorem State.pktWrite_none (h : s.inbound p 0 = none) : s.pktWrite p = s := by simp only [State.pktWrite, h]
theorem State.pktRead_none (h : s.inbound p 1 = none) : s.pktRead p = s := by simp only [State.pktRead, h]
theorem State.pktCompletion_none (h : s.inbound p 2 = none) : s.pktCompletion p = s := by simp only [State.pktCompletion, h]
theorem State.pktRefusal_none (h : s.inbound p 3 = none) : s.pktRefusal p = s := by simp only [State.pktRefusal, h]
theorem State.pktSegment_none (h : s.inbound p 4 = none) (abort flt : Bool) : s.pktSegment p abort flt = s := by
  simp only [State.pktSegment, h]
theorem State.pktNotice_none (h : s.inbound p 5 = none) : s.pktNotice p = s := by simp only [State.pktNotice, h]
theorem State.pktNotice_some (h : s.inbound p 5 = some x) : s.pktNotice p = s.leave p x := by simp only [State.pktNotice, h]

/-- What only the running firmware does (R327, R345). -/
theorem State.byCore_running {f : State → State} (h : s.mgt.core = 1) : s.byCore f = f s := if_pos h

/-! WRITE and READ (R259, R262). -/

theorem State.pktWrite_refused {f : Fail} (h : s.inbound p 0 = some x) (hc : s.peerCheck x.pkt x.pkt.data.length = .error f) :
    s.pktWrite p = ((if x.granted then s.freeBufs x.pkt.chan 1 else s).leave p x).refuse x.pkt f.st f.detail := by
  simp only [State.pktWrite, h, hc]

theorem State.pktWrite_ungranted (h : s.inbound p 0 = some x) (hc : s.peerCheck x.pkt x.pkt.data.length = .ok ())
    (hg : x.granted = false) (ha : (s.askBufs x.pkt.chan 1 (.packet x.id)).1 = false) :
    s.pktWrite p = (s.askBufs x.pkt.chan 1 (.packet x.id)).2 := by
  simp only [State.pktWrite, h, hc, hg, ha, Bool.false_eq_true, Bool.not_false, if_false, if_true]

theorem State.pktWrite_waits (h : s.inbound p 0 = some x) (hc : s.peerCheck x.pkt x.pkt.data.length = .ok ())
    (hg : x.granted = true) (hw : s.writeWaits x.pkt.offset x.pkt.data.length = true) :
    s.pktWrite p = (s.holdWrite (384 + p) x.pkt.offset x.pkt.data.length).markGranted p x := by
  simp only [State.pktWrite, h, hc, hg, hw, Bool.not_true, Bool.false_eq_true, if_false, if_true]

theorem State.pktWrite_stored {t : State} (h : s.inbound p 0 = some x) (hc : s.peerCheck x.pkt x.pkt.data.length = .ok ())
    (hg : x.granted = true) (hw : s.writeWaits x.pkt.offset x.pkt.data.length = false)
    (ht : t = (s.memWrite x.pkt.offset x.pkt.data).freeBufs x.pkt.chan 1) : s.pktWrite p =
      ((t.bump64 (bo x.pkt.chan 0x30) x.pkt.data.length).leave p x).sendReply (t.completionOf x.pkt []) := by
  simp only [State.pktWrite, h, hc, hg, hw, ht, Bool.not_true, Bool.false_eq_true, if_false, if_true]

theorem State.pktRead_refused {f : Fail} (h : s.inbound p 1 = some x) (hc : s.peerCheck x.pkt (8 * x.pkt.words) = .error f) :
    s.pktRead p = (s.leave p x).refuse x.pkt f.st f.detail := by
  simp only [State.pktRead, h, hc]

theorem State.pktRead_waits (h : s.inbound p 1 = some x) (hc : s.peerCheck x.pkt (8 * x.pkt.words) = .ok ())
    (hw : s.accessWaits x.pkt.offset (8 * x.pkt.words) = true) : s.pktRead p = s := by
  simp only [State.pktRead, h, hc, hw, if_true]

theorem State.pktRead_answered {t : State} {bs : List Byte} (h : s.inbound p 1 = some x)
    (hc : s.peerCheck x.pkt (8 * x.pkt.words) = .ok ()) (hw : s.accessWaits x.pkt.offset (8 * x.pkt.words) = false)
    (hr : s.memRead .other x.pkt.offset (8 * x.pkt.words) = (.bytes bs, t)) :
    s.pktRead p = (t.leave p x).sendReply (t.completionOf x.pkt bs) := by
  simp only [State.pktRead, h, hc, hw, hr, Bool.false_eq_true, if_false]

/-! COMPLETION (R258, R275). -/

section
variable {g : PeerTag}

theorem State.pktCompletion_late (h : s.inbound p 2 = some x) (hg : (s.leave p x).peerTag x.pkt.tag = none) :
    s.pktCompletion p = (s.leave p x).tagLate x.pkt.tag := by
  simp only [State.pktCompletion, h, hg]

theorem State.pktCompletion_stranger (h : s.inbound p 2 = some x) (hg : (s.leave p x).peerTag x.pkt.tag = some g)
    (hs : peerId g.req.addr ≠ x.pkt.src) : s.pktCompletion p = s.leave p x := by
  simp only [State.pktCompletion, h, hg, ne_eq, hs, not_false_eq_true, if_true]

/-- Numbers from 384 on are those of accesses that serve no command any more (R36). -/
theorem State.pktCompletion_orphan (h : s.inbound p 2 = some x) (hg : (s.leave p x).peerTag x.pkt.tag = some g)
    (hs : peerId g.req.addr = x.pkt.src) (hq : 384 ≤ g.req.queue) : s.pktCompletion p = (s.leave p x).tagBack x.pkt.tag g := by
  simp only [State.pktCompletion, h, hg, ne_eq, hs, not_true, if_false, hq, if_true]

theorem State.pktCompletion_write {u : State} (h : s.inbound p 2 = some x) (hg : (s.leave p x).peerTag x.pkt.tag = some g)
    (hs : peerId g.req.addr = x.pkt.src) (hb : g.req.bytes.isSome = true) (hq : g.req.queue < 384)
    (hu : u = (s.leave p x).tagBack x.pkt.tag g) :
    s.pktCompletion p = u.setQ g.req.queue { u.q g.req.queue with acks := (u.q g.req.queue).acks - 1 } := by
  have hnb : g.req.bytes.isNone = false := by rw [← Option.not_isSome, hb]; rfl
  simp only [State.pktCompletion, h, hg, ne_eq, hs, not_true, if_false, Nat.not_le.2 hq, hnb, Bool.false_eq_true, hu]

theorem State.pktCompletion_read {u : State} (h : s.inbound p 2 = some x) (hg : (s.leave p x).peerTag x.pkt.tag = some g)
    (hs : peerId g.req.addr = x.pkt.src) (hb : g.req.bytes = none) (hq : g.req.queue < 384)
    (hu : u = { (s.leave p x).tagBack x.pkt.tag g with hif := { ((s.leave p x).tagBack x.pkt.tag g).hif with
      ext := tputs zeroB ((s.leave p x).tagBack x.pkt.tag g).hif.ext g.req.addr
        ((x.pkt.data.drop (g.req.addr % 8)).take g.req.len) } }) :
    s.pktCompletion p = (u.setQ g.req.queue { u.q g.req.queue with
      have_ := (u.q g.req.queue).have_ ++ [(g.req.addr, g.req.len)] }).bump64 (bo (u.chan g.req.queue) 0x30) g.req.len := by
  simp only [State.pktCompletion, h, hg, ne_eq, hs, not_true, if_false, Nat.not_le.2 hq, hb, Option.isNone_none, if_true, hu]

/-! REFUSAL and the time of an access (R259, R275). -/

theorem State.pktRefusal_segment (h : s.inbound p 3 = some x) (ht : 0x8000 ≤ x.pkt.tag) :
    s.pktRefusal p = (s.leave p x).rankLost (x.pkt.flow % 16) (x.pkt.tag - 0x8000) 0 := by
  simp only [State.pktRefusal, h, ht, if_true]

theorem State.pktRefusal_late (h : s.inbound p 3 = some x) (ht : x.pkt.tag < 0x8000)
    (hg : (s.leave p x).peerTag x.pkt.tag = none) : s.pktRefusal p = (s.leave p x).tagLate x.pkt.tag := by
  simp only [State.pktRefusal, h, Nat.not_le.2 ht, if_false, hg]

theorem State.pktRefusal_access (h : s.inbound p 3 = some x) (ht : x.pkt.tag < 0x8000)
    (hg : (s.leave p x).peerTag x.pkt.tag = some g) : s.pktRefusal p =
      ((s.leave p x).tagBack x.pkt.tag g).peerLost g.req (BitVec.ofNat 8 (leNat (x.pkt.data.take 8)))
        (fld (leNat (x.pkt.data.take 8)) 63 32) := by
  simp only [State.pktRefusal, h, Nat.not_le.2 ht, if_false, hg]

theorem State.cplTimeout_early {tag : Nat} (hg : s.peerTag tag = some g) (hd : s.due g.since (s.rd 0xD0002C) = false) :
    s.cplTimeout tag = s := by
  simp only [State.cplTimeout, hg, hd, Bool.false_eq_true, if_false]

theorem State.cplTimeout_due {tag : Nat} (hg : s.peerTag tag = some g) (hd : s.due g.since (s.rd 0xD0002C) = true) :
    s.cplTimeout tag = ({ s.tagBack tag g with fab := { (s.tagBack tag g).fab with
      stale := (s.tagBack tag g).fab.stale ++ [tag] } } : State).peerLost g.req stPeer (peerDetail (peerId g.req.addr) 1) := by
  simp only [State.cplTimeout, hg, hd, if_true]

end

/-! SEGMENT and ABORT_SEGMENT (R53, R228, R246). -/

section
variable {g : Seg} {flt : Bool}

/-- Each of the two rows takes the segments of its own kind. -/
theorem State.pktSegment_some (h : s.inbound p 4 = some x) (hg : Seg.of x.pkt.data = some g) (abort : Bool) :
    s.pktSegment p abort flt = if (g.kind == 4) == abort then s.segIn p x g flt else s := by
  simp only [State.pktSegment, h, hg]

theorem State.segIn_closed (hc : s.chanOpen x.pkt.chan = false) : s.segIn p x g flt =
    ((if x.granted then s.freeBufs x.pkt.chan 1 else s).leave p x).refuse x.pkt stPeer (peerDetail s.fab.id 2) := by
  simp only [State.segIn, hc, Bool.not_false, if_true]

theorem State.segIn_discard (hc : s.chanOpen x.pkt.chan = true) (hf : s.segFate g = .discard) :
    s.segIn p x g flt = (if x.granted then s.freeBufs x.pkt.chan 1 else s).leave p x := by
  simp only [State.segIn, hc, hf, Bool.not_true, Bool.false_eq_true, if_false]

/-- A segment that the group does not discard needs a buffer of its channel. -/
theorem State.segIn_lands (hc : s.chanOpen x.pkt.chan = true) (hf : s.segFate g ≠ .discard) :
    s.segIn p x g flt = s.segLand p x g flt := by
  simp only [State.segIn, hc, Bool.not_true, Bool.false_eq_true, if_false]

section
variable {u : State}

theorem State.segLand_waits (ha : (if x.granted then (true, s) else s.askBufs x.pkt.chan 1 (.packet x.id)) = (false, u)) :
    s.segLand p x g flt = u := by
  simp only [State.segLand, ha, Bool.false_eq_true, if_false]

theorem State.segLand_taken {r : XRun} {v : State}
    (ha : (if x.granted then (true, s) else s.askBufs x.pkt.chan 1 (.packet x.id)) = (true, u))
    (hf : (u.leave p x).segFate g = .take r) (hv : v = ((u.leave p x).freeBufs x.pkt.chan 1).xTake r g) :
    s.segLand p x g flt = if (v.xRun r.queue).isSome then v.xStep r.queue flt else v := by
  simp only [State.segLand, ha, if_true, hf, hv]

theorem State.segLand_held {v : State}
    (ha : (if x.granted then (true, s) else s.askBufs x.pkt.chan 1 (.packet x.id)) = (true, u))
    (hf : (u.leave p x).segFate g = .hold) (hv : v = u.leave p x) :
    s.segLand p x g flt = { v with xch := { v.xch with held := v.xch.held ++ [⟨g, x.pkt.chan⟩] } } := by
  simp only [State.segLand, ha, if_true, hf, hv]

end
end
end

/-- Settles O35: each packet by the rule for it. -/
theorem peerPacketsArrive : Obligations.PeerPacketsArrive := by
  refine ⟨⟨?write, ?read, ?completion, ?refusal, ?timeout, ?notice, ?none⟩, ?segment, ?noSegment⟩
  case write =>
    exact fun p s t x h => ⟨fun f hc => next_congr (State.pktWrite_refused h hc),
      fun hc hg ha => next_congr (State.pktWrite_ungranted h hc hg ha), fun hc hg hw => next_congr (State.pktWrite_waits h hc hg hw),
      fun hc hg hw ht => next_congr (State.pktWrite_stored h hc hg hw ht)⟩
  case read =>
    exact fun p s t x bs h => ⟨fun f hc => next_congr (State.pktRead_refused h hc),
      fun hc hw => next_congr (State.pktRead_waits h hc hw), fun hc hw hr => next_congr (State.pktRead_answered h hc hw hr)⟩
  case completion =>
    rintro p s t u x g h rfl
    exact ⟨fun hg => next_congr (State.pktCompletion_late h hg), fun hg hs => next_congr (State.pktCompletion_stranger h hg hs),
      fun hg hs hq => next_congr (State.pktCompletion_orphan h hg hs hq),
      fun hg hs hb hq hu => next_congr (State.pktCompletion_write h hg hs hb hq hu),
      fun hg hs hb hq hu => next_congr (State.pktCompletion_read h hg hs hb hq hu)⟩
  case refusal =>
    rintro p s t x g h rfl
    exact ⟨fun ht => next_congr (State.pktRefusal_segment h ht), fun ht hg => next_congr (State.pktRefusal_late h ht hg),
      fun ht hg => next_congr (State.pktRefusal_access h ht hg)⟩
  case timeout =>
    refine fun tag s g hg => ⟨fun hd => next_congr (State.cplTimeout_early hg hd), ?_⟩
    rintro t u hd rfl rfl
    exact next_congr (State.cplTimeout_due hg hd)
  case notice =>
    exact fun p s hcore => ⟨fun x h => next_congr ((State.byCore_running hcore).trans (State.pktNotice_some h)),
      fun h => next_congr ((State.byCore_running hcore).trans (State.pktNotice_none h))⟩
  case none =>
    exact fun p s => ⟨fun h => next_congr (State.pktWrite_none h), fun h => next_congr (State.pktRead_none h),
      fun h => next_congr (State.pktCompletion_none h), fun h => next_congr (State.pktRefusal_none h)⟩
  case segment =>
    rintro p flt s t x g h hseg rfl
    have hpiece (hk : g.kind ≠ 4) : exec (.segment p flt) s = .next (s.segIn p.val x g flt) :=
      next_congr ((State.pktSegment_some h hseg false).trans (if_pos (by simpa using hk)))
    have habort (hk : g.kind = 4) : exec (.abortSegment p) s = .next (s.segIn p.val x g false) :=
      next_congr ((State.pktSegment_some h hseg true).trans (if_pos (by simpa using hk)))
    refine ⟨fun hc => ⟨fun hk => ?_, fun hk => ?_⟩, fun hc hf => ⟨fun hk => ?_, fun hk => ?_⟩,
      fun w u hc hf hask => ?land, ?other⟩
    · rw [hpiece hk, State.segIn_closed hc]
    · rw [habort hk, State.segIn_closed hc]
    · rw [hpiece hk, State.segIn_discard hc hf]
    · rw [habort hk, State.segIn_discard hc hf]
    case land =>
      refine ⟨?_, ?_, ?_⟩
      · rintro rfl
        exact ⟨fun hk => by rw [hpiece hk, State.segIn_lands hc hf, State.segLand_waits hask.symm],
          fun hk => by rw [habort hk, State.segIn_lands hc hf, State.segLand_waits hask.symm]⟩
      · rintro r v rfl hr hv
        exact ⟨fun hk => by rw [hpiece hk, State.segIn_lands hc hf, State.segLand_taken hask.symm hr hv],
          fun hk => by rw [habort hk, State.segIn_lands hc hf, State.segLand_taken hask.symm hr hv]⟩
      · rintro v rfl hheld hv hk
        rw [hpiece hk, State.segIn_lands hc hf, State.segLand_held hask.symm hheld hv]
    case other =>
      exact ⟨fun hk => next_congr ((State.pktSegment_some h hseg false).trans (if_neg (by simp [hk]))),
        fun hk => next_congr ((State.pktSegment_some h hseg true).trans (if_neg (by simpa using hk)))⟩
  case noSegment =>
    exact fun p flt s h => ⟨next_congr (State.pktSegment_none h false flt), next_congr (State.pktSegment_none h true false)⟩

end Sys2Proof.Machine
end

section
/-!
The commands of the matrix array (R97 to R105, R139): their checks, the start of a run, and accumulator handles.
-/
namespace Sys2Proof.Machine

/-! MM_PRODUCT and MM_COMBINE (R102 to R104). -/

/-- How a product and a combine start: the checks of the fields, the end with nothing to compute, the checks of the operands,
and the run (R102). -/
def State.matBegin (s : State) (q : Nat) (check : Except Fail Unit) (nothing : Bool) (os : List Opnd) (plan : List Acc → MatRun) :
    State :=
  match check with
  | .error f => s.matFail q f
  | .ok () =>
    if nothing then s.endCmd q stOK 0
    else match s.access q os with
      | .error f => s.matFail q f
      | .ok as => s.startWithSnap q (plan as)

section
variable {s : State} {q : Nat} {c : Cmd}

theorem State.mmProduct_begins (h : s.running q 0x1001 = some c) (hr : s.matRun q = none) : s.mmProduct q =
    s.matBegin q (s.mmFields c) (decide (fld (c.p 0) 23 0 = 0 ∨ fld (c.p 0) 47 24 = 0)) (mmOperands c (fld (c.p 1) 38 32))
      (mmPlan q c) := by
  simp only [State.mmProduct, h, hr, Option.isSome_none, Bool.false_eq_true, if_false, State.matBegin, decide_eq_true_eq]
  rfl

theorem State.mmCombine_begins (h : s.running q 0x1002 = some c) (hr : s.matRun q = none) : s.mmCombine q =
    s.matBegin q (mcFields c) (decide (fld (c.p 0) 23 0 = 0 ∨ fld (c.p 0) 47 24 = 0 ∨ fld (c.p 1) 6 0 = 0))
      [⟨c.p 2, pitchOf c 3, fld (c.p 1) 6 0 * fld (c.p 0) 23 0, fld (c.p 0) 47 24, fp32Fmt, 2, 2, 3, false, false, false⟩,
        ⟨c.p 4, pitchOf c 6, fld (c.p 0) 23 0, fld (c.p 0) 47 24, Fmt.of (c.p 5), 4, 5, 6, true, false, true⟩]
      (mcPlan q c) := by
  simp only [State.mmCombine, h, hr, Option.isSome_none, Bool.false_eq_true, if_false, State.matBegin, decide_eq_true_eq] <;>
    rfl

theorem State.startWithSnap_ok {r : MatRun} {d : Acc} {t : State} (h : s.takeSnap q r.d = (.ok d, t)) :
    s.startWithSnap q r = t.setRun { r with d := d } := by
  simp only [State.startWithSnap, h]

section
variable {nothing : Bool} {os : List Opnd} {plan : List Acc → MatRun}

theorem State.matBegin_refused (f : Fail) : s.matBegin q (.error f) nothing os plan = s.matFail q f := rfl

theorem State.matBegin_nothing : s.matBegin q (.ok ()) true os plan = s.endCmd q stOK 0 := rfl

theorem State.matBegin_barred {f : Fail} (ha : s.access q os = .error f) :
    s.matBegin q (.ok ()) false os plan = s.matFail q f := by
  simp only [State.matBegin, ha, Bool.false_eq_true, if_false]

theorem State.matBegin_starts {as : List Acc} {d : Acc} {t : State} (ha : s.access q os = .ok as)
    (ht : s.takeSnap q (plan as).d = (.ok d, t)) : s.matBegin q (.ok ()) false os plan = t.setRun { plan as with d := d } := by
  simp only [State.matBegin, ha, Bool.false_eq_true, if_false, State.startWithSnap_ok ht]

end

/-! MM_ACC_OPEN (R97, R105). -/

theorem State.accOpen_refused {f : Fail} (h : s.running q 0x1003 = some c) (hc : s.openFields c = .error f) :
    s.accOpen q = s.matFail q f := by
  simp only [State.accOpen, h, hc]

theorem State.accOpen_zero (h : s.running q 0x1003 = some c) (hc : s.openFields c = .ok ()) (hb : bitAt (c.p 0) 8 = false) :
    s.accOpen q = s.openBind q (fld (c.p 0) 7 0) (fld (c.p 0) 23 16) (fld (c.p 0) 31 24) 0
      (List.replicate (fld (c.p 0) 23 16) (List.replicate (fld (c.p 0) 31 24) f32zero)) := by
  simp only [State.accOpen, h, hc, hb, Bool.false_eq_true, if_false]

theorem State.accOpen_loaded {as : List Acc} {v : List Elems} {n : Nat} {t : State} (h : s.running q 0x1003 = some c)
    (hc : s.openFields c = .ok ()) (hb : bitAt (c.p 0) 8 = true)
    (ha : s.access q [opnd3 c 1 (fld (c.p 0) 23 16) (fld (c.p 0) 31 24) false false] = .ok as)
    (hv : (s.onPort q (s.openCluster.getD 0)).readRows q 0 (as.getD 0 Acc.none) (List.range (fld (c.p 0) 23 16)) 0
      (fld (c.p 0) 31 24) = (.ok (v, n), t)) :
    s.accOpen q = t.openBind q (fld (c.p 0) 7 0) (fld (c.p 0) 23 16) (fld (c.p 0) 31 24) n (v.map (·.map elem32)) := by
  simp only [State.accOpen, h, hc, hb, if_true, ha, hv]

section
variable {hn mh nh nf : Nat} {vals : List (List W32)}

theorem State.openBind_full (h : s.openCluster = none) : s.openBind q hn mh nh nf vals =
    (s.evMat 2).failCmd q ⟨stQuota, s.handlesOpen + s.handleCap * 256⟩ := by
  simp only [State.openBind, h]

theorem State.openBind_bound {k : Nat} (h : s.openCluster = some k) : s.openBind q hn mh nh nf vals =
    ((s.matNf k nf).setHandle hn (some ⟨k, s.freeSlot k, mh, nh, false, vals⟩)).endCmd q stOK 0 := by
  simp only [State.openBind, h]

end

theorem State.matNf_zero (k : Nat) : s.matNf k 0 = s := if_pos rfl

/-! MM_ACC_FLUSH (R99 to R101, R105). -/

/-- The commit points of a flush (R101): a readout and a converted word. -/
def flushPoint (p : Nat) : Bool := p % 4 == 1 || p % 4 == 2

theorem flushPoint_iff (p : Nat) : flushPoint p = true ↔ p % 4 = 1 ∨ p % 4 = 2 := by simp [flushPoint]

section
variable {flt : Option Nat} (h : s.running q 0x1004 = some c)
include h

theorem State.accFlush_refused {f : Fail} (hc : s.flushFields c = .error f) : s.accFlush q flt = s.matFail q f := by
  simp only [State.accFlush, h, hc]

section
variable {hd : Handle} (hc : s.flushFields c = .ok ()) (hh : s.handle (fld (c.p 0) 7 0) = some hd)
include hc hh

theorem State.accFlush_discards (hb : bitAt (c.p 0) 11 = true) :
    s.accFlush q flt = (s.setHandle (fld (c.p 0) 7 0) none).endCmd q stOK 0 := by
  simp only [State.accFlush, h, hc, hh, hb, if_true]

section
variable (hb : bitAt (c.p 0) 11 = false)
include hb

theorem State.accFlush_barred {f : Fail} (ha : s.access q [opnd3 c 1 hd.mh hd.nh true false] = .error f) :
    s.accFlush q flt = s.matFail q f := by
  simp only [State.accFlush, h, hc, hh, hb, Bool.false_eq_true, if_false, ha]

section
variable {as : List Acc} {a : Acc} {t u : State} {v : List (List W32) × Nat}
  (ha : s.access q [opnd3 c 1 hd.mh hd.nh true false] = .ok as) (hs : s.takeSnap q (as.getD 0 Acc.none) = (.ok a, t))
  (hw : t.rowsWait a (List.range hd.mh) 0 hd.nh = false)
  (hv : (t.onPort q hd.cluster).flushVals q (bitAt (c.p 0) 8) a hd = (.ok v, u))
include ha hs hw hv

theorem State.accFlush_stores (hf : flt.filter flushPoint = none) : s.accFlush q flt =
    u.flushStore q (fld (c.p 0) 7 0) (bitAt (c.p 0) 9) (bitAt (c.p 0) 10) a hd v := by
  unfold flushPoint at hf
  simp only [State.accFlush, h, hc, hh, hb, Bool.false_eq_true, if_false, ha, hs, hw, hv, hf]

theorem State.accFlush_residue {p : Nat} (hf : flt.filter flushPoint = some p) : s.accFlush q flt = u.flushResidue q a hd p v := by
  unfold flushPoint at hf
  simp only [State.accFlush, h, hc, hh, hb, Bool.false_eq_true, if_false, ha, hs, hw, hv, hf]

end
end
end
end
end

/-- A fault operand that names no point of the kind strikes none. -/
theorem filter_map_val_eq_none {n : Nat} {flt : Option (Fin n)} {point : Nat → Bool}
    (h : ∀ p, flt = some p → point p.val ≠ true) : (flt.map Fin.val).filter point = none := by
  rw [Option.filter_eq_none_iff]
  rintro _ hp
  obtain ⟨p, hflt, rfl⟩ := Option.map_eq_some_iff.1 hp
  exact h p hflt

/-- Settles O40: a product and a combine by the start they share, a handle by the cluster it is bound on, a flush by its fault. -/
theorem matrixCommandsStart : Obligations.MatrixCommandsStart := by
  refine ⟨fun q s c hr => ⟨fun h => ?product, fun h => ?combine⟩, fun q flt s c => ⟨fun h => ?opened, fun h => ?flush⟩⟩
  case product =>
    have hbegin := State.mmProduct_begins h hr
    refine ⟨fun f hc => next_congr ?_, fun hc => ⟨fun h0 => next_congr ?_, fun hm hn =>
      ⟨fun f ha => next_congr ?_, fun as d t ha ht => next_congr ?_⟩⟩⟩
    · rw [hbegin, hc, State.matBegin_refused]
    · rw [hbegin, hc, decide_eq_true h0, State.matBegin_nothing]
    · rw [hbegin, hc, decide_eq_false (by simp [hm, hn]), State.matBegin_barred ha]
    · rw [hbegin, hc, decide_eq_false (by simp [hm, hn]), State.matBegin_starts ha ht]
  case combine =>
    have hbegin := State.mmCombine_begins h hr
    refine ⟨fun f hc => next_congr ?_, fun hc => ⟨fun h0 => next_congr ?_, ?_⟩⟩
    · rw [hbegin, hc, State.matBegin_refused]
    · rw [hbegin, hc, decide_eq_true h0, State.matBegin_nothing]
    · rintro m n k ps ds rfl rfl rfl hm hn hk rfl rfl
      rw [hc, decide_eq_false (by simp [hm, hn, hk])] at hbegin
      exact ⟨fun f ha => next_congr (hbegin.trans (State.matBegin_barred ha)),
        fun as d t ha ht => next_congr (hbegin.trans (State.matBegin_starts ha ht))⟩
  case opened =>
    refine ⟨fun f hc => next_congr (State.accOpen_refused h hc), fun hc hb => ⟨fun hk => next_congr ?_, fun k hk => next_congr ?_⟩,
      fun as v n t k hc hb ha hv hk => next_congr ?_⟩
    · rw [State.accOpen_zero h hc hb, State.openBind_full hk]
    · rw [State.accOpen_zero h hc hb, State.openBind_bound hk, State.matNf_zero]
    · rw [State.accOpen_loaded h hc hb ha hv, State.openBind_bound hk]
  case flush =>
    refine ⟨fun f hc => next_congr (State.accFlush_refused h hc), fun hd hc hh =>
      ⟨fun hb => next_congr (State.accFlush_discards h hc hh hb), fun hb =>
        ⟨fun f ha => next_congr (State.accFlush_barred h hc hh hb ha), fun as a t v u ha hs hw hv => ⟨fun hf => ?_, ?_⟩⟩⟩⟩
    · exact next_congr (State.accFlush_stores h hc hh hb ha hs hw hv
        (filter_map_val_eq_none fun p hp => mt (flushPoint_iff p.val).1 (hf p hp)))
    · rintro p rfl hp
      exact next_congr (State.accFlush_residue h hc hh hb ha hs hw hv (Option.filter_some_pos ((flushPoint_iff p.val).2 hp)))

end Sys2Proof.Machine
end

section
/-!
Work items on the clusters of the matrix array (R91, R92, R95, R98, R100, R101, R110, R388).
-/
namespace Sys2Proof.Machine

section
variable {s : State} {c : Nat}

/-! WORK_ITEM_ISSUE and CLUSTER_WAKE. -/

/-- A product whose handle is lost ends before any item is issued (R100). -/
theorem State.itemIssue_orphan {x : Nat × Fail}
    (h : (s.mat.runs.findSome? fun r => (s.orphan r).map fun f => (r.queue, f)) = some x) :
    s.itemIssue c = (s.dropRun x.1).matFail x.1 x.2 := by
  simp only [State.itemIssue, h]

section
variable (h : (s.mat.runs.findSome? fun r => (s.orphan r).map fun f => (r.queue, f)) = none) (hfree : s.clFree c = true)
  (hawake : tget noFlag s.mat.gated c = false)
include h hfree hawake

theorem State.itemIssue_idle (hr : s.mat.runs.find? (s.clTakes c) = none) : s.itemIssue c = s := by
  simp only [State.itemIssue, h, hfree, hawake, hr, Bool.not_true, Bool.or_self, Bool.false_eq_true, if_false]

theorem State.itemIssue_takes {r : MatRun} (hr : s.mat.runs.find? (s.clTakes c) = some r) : s.itemIssue c =
    ({ s with mat := { s.mat with items := tput noneD s.mat.items c (some (r.item r.next)) } } : State).setRun
      { r with next := r.next + 1 } := by
  simp only [State.itemIssue, h, hfree, hawake, hr, Bool.not_true, Bool.or_self, Bool.false_eq_true, if_false]

end

theorem State.clusterWake_gated (h : tget noFlag s.mat.gated c = true) :
    s.clusterWake c = { s with mat := { s.mat with gated := tput noFlag s.mat.gated c false } } := if_pos h

/-! WORK_ITEM_COMPLETE. -/

/-- What an item computes, by the kind of its run (R92, R94). -/
def State.itemResult (s : State) (r : MatRun) (i : MatItem) (ms ns : List Nat) : ItemRes × State :=
  match r.kind with
  | .product => s.productItem r i ms ns
  | .combine => s.combineItem r i ms ns

/-- How an item ends that has computed x: it waits, it fails, it faults at a commit point that it passes, or it is delivered and
counted (R92, R95, R101). -/
def State.itemEnd (s : State) (c : Nat) (flt : Option Nat) (r : MatRun) (i : MatItem) (ms ns : List Nat) (x : ItemRes × State) :
    State :=
  match x.1 with
  | .error .wait => s.itemWaits x.2 i.queue c r
  | .error (.fail f) => x.2.itemFail c r f
  | .ok v =>
    let t := x.2.matNf c v.2
    match flt.filter fun p => (r.points i).contains (p % 4) with
    | some p => t.itemResidue c r i p ms ns v.1
    | none =>
      let u := (t.bump64 (0x610010 + 0x20 * c) 1).bump64 (0x610018 + 0x20 * c) (Config.beats t.draws).toNat
      ((u.draw.deliver r c i ms ns v.1).clDone c).runEnd i.queue

section
variable {flt : Option Nat} {i : MatItem} {r : MatRun} {ms ns : List Nat} {t : State}

theorem State.itemEnd_waits : s.itemEnd c flt r i ms ns (.error .wait, t) = s.itemWaits t i.queue c r := rfl

theorem State.itemEnd_fails (f : Fail) : s.itemEnd c flt r i ms ns (.error (.fail f), t) = t.itemFail c r f := rfl

section
variable {rows : List (List W32)} {n : Nat}

theorem State.itemEnd_residue {p : Nat} (hp : (flt.filter fun p => (r.points i).contains (p % 4)) = some p) :
    s.itemEnd c flt r i ms ns (.ok (rows, n), t) = (t.matNf c n).itemResidue c r i p ms ns rows := by
  simp only [State.itemEnd, hp]

theorem State.itemEnd_delivers {u : State} (hp : (flt.filter fun p => (r.points i).contains (p % 4)) = none)
    (hu : u = ((t.matNf c n).bump64 (0x610010 + 0x20 * c) 1).bump64 (0x610018 + 0x20 * c)
      (Config.beats (t.matNf c n).draws).toNat) :
    s.itemEnd c flt r i ms ns (.ok (rows, n), t) = ((u.draw.deliver r c i ms ns rows).clDone c).runEnd i.queue := by
  simp only [State.itemEnd, hp, hu]

end

section
variable (hi : s.clItem c = some i) (hr : s.matRun i.queue = some r)
include hi hr

theorem State.itemComplete_sram {p : Nat} (hp : 8 ≤ p) : s.itemComplete c (some p) = s.itemSram c r i (p - 8) := by
  simp only [State.itemComplete, hi, hr, Option.any_some, hp, decide_true, if_true, Option.getD_some]

section
variable (hflt : flt.any (8 ≤ ·) = false) (hms : ms = tileRange (i.t / tilesAcross r.n) r.m)
  (hns : ns = tileRange (i.t % tilesAcross r.n) r.n)
include hflt hms hns

theorem State.itemComplete_held (hw : s.deliverWaits r i ms ns = true) : s.itemComplete c flt = s.deliverHold r i ms ns := by
  subst hms hns
  simp only [State.itemComplete, hi, hr, hflt, hw, Bool.false_eq_true, if_false, if_true]

theorem State.itemComplete_ends (hw : s.deliverWaits r i ms ns = false) : s.itemComplete c flt =
    (s.onPort i.queue c).itemEnd c flt r i ms ns ((s.onPort i.queue c).itemResult r i ms ns) := by
  subst hms hns
  simp only [State.itemComplete, hi, hr, hflt, hw, Bool.false_eq_true, if_false]
  rfl

end
end
end
end

/-- A fault operand below 8 names a commit point and no array (R101, R388). -/
theorem any_map_val_eq_false {n : Nat} {flt : Option (Fin n)} (h : ∀ p, flt = some p → p.val < 8) :
    (flt.map Fin.val).any (8 ≤ ·) = false := by
  cases flt with
  | none => rfl
  | some p => simpa using h p rfl

/-- Settles O41: an issue by the first run that may use the cluster, a completion by what its item computes and where its fault
lies. -/
theorem workItemsRun : Obligations.WorkItemsRun := by
  refine ⟨fun c s hon => ⟨fun x h => ?orphan, fun h hfree hawake => ⟨fun hr => ?idle, fun r hr => ?takes⟩⟩,
    fun c s hoff => ?barred, ?complete, fun c s h => next_congr (State.clusterWake_gated h)⟩
  case orphan => exact next_congr ((if_pos hon).trans (State.itemIssue_orphan h))
  case idle => exact next_congr ((if_pos hon).trans (State.itemIssue_idle h hfree hawake hr))
  case takes => exact next_congr ((if_pos hon).trans (State.itemIssue_takes h hfree hawake hr))
  case barred => exact next_congr (if_neg (by simp [hoff]))
  case complete =>
    intro c flt s t u i r ms ns x hi hr hms hns
    refine ⟨?sram, fun hlow => ?_⟩
    case sram =>
      rintro p rfl hp
      exact next_congr (State.itemComplete_sram hi hr hp)
    have hflt := any_map_val_eq_false hlow
    refine ⟨fun hw => next_congr (State.itemComplete_held hi hr hflt hms hns hw), fun hw hx => ?_⟩
    have hend : exec (.workItemComplete c flt) s =
        .next ((s.onPort i.queue c.val).itemEnd c.val (flt.map Fin.val) r i ms ns (x, t)) :=
      next_congr ((State.itemComplete_ends hi hr hflt hms hns hw).trans (congrArg _ hx))
    refine ⟨?waits, ?fails, ?computed⟩
    case waits =>
      rintro rfl
      exact hend.trans (next_congr State.itemEnd_waits)
    case fails =>
      rintro f rfl
      exact hend.trans (next_congr (State.itemEnd_fails f))
    case computed =>
      rintro rows n rfl
      refine ⟨fun p hf hp => hend.trans (next_congr (State.itemEnd_residue ?point)),
        fun hp hu => hend.trans (next_congr (State.itemEnd_delivers ?passes hu))⟩
      case point =>
        subst hf
        exact Option.filter_some_pos (List.contains_iff_mem.2 hp)
      case passes => exact filter_map_val_eq_none fun p hf => mt List.contains_iff_mem.1 (hp p hf)

end Sys2Proof.Machine
end

section
/-!
The starts of the vector commands (R113, R119 to R131).
-/
namespace Sys2Proof.Machine

/-- The opcodes of Table 5.2 with the rows of the opcode table that carry them out. -/
def vectorRows : List (Nat × (QId → Instr)) :=
  [(0x2001, Instr.vxConvert), (0x2002, Instr.vxEltwise), (0x2003, Instr.vxReduce), (0x2004, Instr.vxNorm),
    (0x2005, Instr.vxSoftmax), (0x2006, Instr.vxOptDelayed)]

/-- The vector commands share one start. -/
theorem exec_vectorRow (q : QId) (s : State) : ∀ x ∈ vectorRows, exec (x.2 q) s = .next (s.vStart q.val x.1) := by
  simp only [vectorRows, List.forall_mem_cons]
  exact ⟨rfl, rfl, rfl, rfl, rfl, rfl, fun _ h => absurd h List.not_mem_nil⟩

section
variable {s : State} {q op : Nat} {c : Cmd} (h : s.running q op = some c) (hr : s.vecRun q = none)
include h hr

theorem State.vStart_refused {f : Fail} (hc : vFields c = .error f) : s.vStart q op = s.failCmd q f := by
  simp only [State.vStart, h, hr, hc, Option.isSome_none, Bool.false_eq_true, if_false]

section
variable (hc : vFields c = .ok ())
include hc

theorem State.vStart_nothing (hn : vNothing c = true) : s.vStart q op = s.endCmd q stOK 0 := by
  simp only [State.vStart, h, hr, hc, hn, Option.isSome_none, Bool.false_eq_true, if_false, if_true]

section
variable (hn : vNothing c = false)
include hn

theorem State.vStart_barred {f : Fail} (ha : s.vAccess q c = .error f) : s.vStart q op = (s.noteBme f).failCmd q f := by
  simp only [State.vStart, h, hr, hc, hn, ha, Option.isSome_none, Bool.false_eq_true, if_false]

section
variable {as : List Acc} {t : State} (ha : s.vAccess q c = .ok as)
include ha

theorem State.vStart_waits (ht : s.snapAll q (vTide c as) = (.error .wait, t)) : s.vStart q op = t := by
  simp only [State.vStart, h, hr, hc, hn, ha, ht, Option.isSome_none, Bool.false_eq_true, if_false]

theorem State.vStart_lost {f : Fail} (ht : s.snapAll q (vTide c as) = (.error (.fail f), t)) :
    s.vStart q op = t.failCmd q f := by
  simp only [State.vStart, h, hr, hc, hn, ha, ht, Option.isSome_none, Bool.false_eq_true, if_false]

theorem State.vStart_starts {bs : List Acc} (ht : s.snapAll q (vTide c as) = (.ok bs, t)) : s.vStart q op = t.setVRun
    { queue := q, op := op, total := vTotal c, n := vN c, accs := bs, quads := c.quads, undef := vClash c bs,
      next := 0, done := 0, skipped := 0, cols := [], fail := none, asker := none } := by
  simp only [State.vStart, h, hr, hc, hn, ha, ht, Option.isSome_none, Bool.false_eq_true, if_false]

end
end
end
end

/-- Settles O42: the start that the six commands share, by its first failed check. -/
theorem vectorCommandsStart : Obligations.VectorCommandsStart := by
  intro q s c x hx h hr
  have hexec : exec (x.2 q) s = .next (s.vStart q.val x.1) := exec_vectorRow q s x hx
  rw [hexec]
  exact ⟨fun f hc => next_congr (State.vStart_refused h hr hc), fun hc hn => next_congr (State.vStart_nothing h hr hc hn),
    fun hc hn => ⟨fun f ha => next_congr (State.vStart_barred h hr hc hn ha), fun as ha =>
      ⟨fun t ht => next_congr (State.vStart_waits h hr hc hn ha ht),
        fun f t ht => next_congr (State.vStart_lost h hr hc hn ha ht),
        fun bs t ht => next_congr (State.vStart_starts h hr hc hn ha ht)⟩⟩⟩

end Sys2Proof.Machine
end

section
/-!
Rows, columns and chunks on the quadrants of the vector engine (R113, R114, R133).
-/
namespace Sys2Proof.Machine

section
variable {s : State} {d : Nat}

/-! VEC_ROW_ISSUE and QUADRANT_WAKE. -/

section
variable (hfree : s.qdItem d = none) (hawake : tget noFlag s.vec.gated d = false)
include hfree hawake

theorem State.vIssue_idle (hr : s.vec.runs.find? (VecRun.takes d) = none) : s.vIssue d = s := by
  simp only [State.vIssue, hfree, hawake, hr, Option.isSome_none, Bool.or_self, Bool.false_eq_true, if_false]

theorem State.vIssue_takes {r : VecRun} (hr : s.vec.runs.find? (VecRun.takes d) = some r) :
    s.vIssue d = (s.setQd d (some ⟨r.queue, r.next, false⟩)).setVRun { r with next := r.next + 1 } := by
  simp only [State.vIssue, hfree, hawake, hr, Option.isSome_none, Bool.or_self, Bool.false_eq_true, if_false]

end

theorem State.qdWake_gated (h : tget noFlag s.vec.gated d = true) :
    s.qdWake d = { s with vec := { s.vec with gated := tput noFlag s.vec.gated d false } } := if_pos h

/-! VEC_ROW_END: the item by its kind, and a row by what its reads find. -/

section
variable {flt : Option Nat} {i : VecItem} {r : VecRun} {c : Cmd}

section
variable (hi : s.qdItem d = some i) (hr : s.vecRun i.queue = some r) (hc : (s.q i.queue).cmd = some c)
include hi hr hc

theorem State.vItemEnd_sram (hflt : flt.any (8 ≤ ·) = true) : s.vItemEnd d flt = s.vSram d r i.idx := by
  simp only [State.vItemEnd, hi, hr, hc, hflt, if_true]

section
variable (hflt : flt.any (8 ≤ ·) = false)
include hflt

theorem State.vItemEnd_chunk (hop : c.op = 0x2006) :
    s.vItemEnd d flt = s.vChunkEnd d c r i (flt.filter fun p => (vPoints c).contains (p % 3)) := by
  simp only [State.vItemEnd, hi, hr, hc, hflt, if_pos hop, Bool.false_eq_true, if_false]

theorem State.vItemEnd_column (hop : c.op = 0x2003) (hax : bitAt (c.p 1) 4 = true) :
    s.vItemEnd d flt = s.vColEnd d c r i.idx (flt.filter fun p => (vPoints c).contains (p % 3)) := by
  have hchunk : c.op ≠ 0x2006 := by omega
  simp only [State.vItemEnd, hi, hr, hc, hflt, if_neg hchunk, if_pos (And.intro hop hax), Bool.false_eq_true, if_false]

theorem State.vItemEnd_row (hchunk : c.op ≠ 0x2006) (hcol : ¬ (c.op = 0x2003 ∧ bitAt (c.p 1) 4 = true)) :
    s.vItemEnd d flt = s.vRowEnd d c r i.idx (flt.filter fun p => (vPoints c).contains (p % 3)) := by
  simp only [State.vItemEnd, hi, hr, hc, hflt, if_neg hchunk, if_neg hcol, Bool.false_eq_true, if_false]

end
end

section
variable {idx : Nat} {t : State}

theorem State.vRowEnd_fails {f : Fail}
    (hv : (s.onPort r.queue d).vRowsOf r.queue idx (vReads c r idx) = (.error (.fail f), t)) :
    s.vRowEnd d c r idx flt = t.vFail d r f := by
  simp only [State.vRowEnd, hv]

section
variable {v : List (List W32)} {n : Nat} {o : VecRun × List VOut}
  (hv : (s.onPort r.queue d).vRowsOf r.queue idx (vReads c r idx) = (.ok (v, n), t))
  (ho : o = lseOuts c r (vCompute c idx v))
include hv ho

theorem State.vRowEnd_held (hw : o.2.any (t.vWaits r) = true) : s.vRowEnd d c r idx flt = t.vHold r o.2 := by
  subst ho
  simp only [State.vRowEnd, hv, hw, if_true]

theorem State.vRowEnd_stores (hw : o.2.any (t.vWaits r) = false) :
    s.vRowEnd d c r idx none = (o.2.foldl (fun u x => u.vStore d r x) (t.vecNf d n)).vDone d o.1 := by
  subst ho
  simp only [State.vRowEnd, hv, hw, Bool.false_eq_true, if_false]

theorem State.vRowEnd_residue {p : Nat} {y : Fail × State} (hw : o.2.any (t.vWaits r) = false)
    (hy : y = (t.vecNf d n).vResidue d idx (p % 3)) : s.vRowEnd d c r idx (some p) = y.2.vFail d r y.1 := by
  subst ho hy
  simp only [State.vRowEnd, hv, hw, Bool.false_eq_true, if_false]

end
end
end
end

/-- Of the nine fault operands of a row, those other than 8 name a commit point (R133). -/
theorem any_map_val_of_ne_eight {flt : Option (Fin 9)} (h : flt ≠ some 8) : (flt.map Fin.val).any (8 ≤ ·) = false :=
  any_map_val_eq_false fun p hp => by
    have hne : p ≠ 8 := fun h8 => h (hp.trans (congrArg some h8))
    omega

/-- Settles O43: an issue by the first run that may use the quadrant, an end by the kind of the item, and a row's by what its
reads find. -/
theorem vectorRowsRun : Obligations.VectorRowsRun := by
  refine ⟨fun d s hfree hawake => ⟨fun hr => next_congr (State.vIssue_idle hfree hawake hr),
    fun r hr => next_congr (State.vIssue_takes hfree hawake hr)⟩, ?ends, fun d s h => next_congr (State.qdWake_gated h)⟩
  case ends =>
    rintro d flt s i r c k hi hr hc rfl
    refine ⟨?sram, fun hflt hop => ?chunk, fun hflt hop hax => ?column, ?row, ?fails⟩
    case sram =>
      rintro rfl
      exact next_congr (State.vItemEnd_sram hi hr hc rfl)
    case chunk => exact next_congr (State.vItemEnd_chunk hi hr hc (any_map_val_of_ne_eight hflt) hop)
    case column => exact next_congr (State.vItemEnd_column hi hr hc (any_map_val_of_ne_eight hflt) hop hax)
    case row =>
      intro v n t o hflt hchunk hcol hv ho
      have hrow := State.vItemEnd_row hi hr hc (any_map_val_of_ne_eight hflt) hchunk hcol
      refine ⟨fun hw => next_congr (hrow.trans (State.vRowEnd_held hv ho hw)), fun hw hk => next_congr (hrow.trans ?_),
        fun p y hw hk hy => next_congr (hrow.trans ?_)⟩
      · rw [hk, State.vRowEnd_stores hv ho hw]
      · rw [hk, State.vRowEnd_residue hv ho hw hy]
    case fails =>
      intro f t hflt hchunk hcol hv
      exact next_congr ((State.vItemEnd_row hi hr hc (any_map_val_of_ne_eight hflt) hchunk hcol).trans (State.vRowEnd_fails hv))

end Sys2Proof.Machine
end

section
/-!
TT_COMPRESS, TT_RETIRE and TT_TIDE: what each does once its fields are checked (R61, R142, R176, R182, R183).
-/
namespace Sys2Proof.Machine

/-! Lists of checks: the first failure counts, and in a parameter word the lowest offending bit (R61, R102). -/

section
variable {ε : Type} {l : List (Except ε Unit)}

@[simp] theorem firstErr_nil : firstErr ([] : List (Except ε Unit)) = .ok () := rfl

@[simp] theorem firstErr_error_cons (e : ε) : firstErr (.error e :: l) = .error e := rfl

@[simp] theorem firstErr_ok_cons : firstErr (.ok () :: l) = firstErr l := rfl

end

@[simp] theorem failIf_true (f : Fail) : failIf true f = .error f := rfl

@[simp] theorem failIf_false (f : Fail) : failIf false f = .ok () := rfl

@[simp] theorem bitIf_true (b : Nat) : bitIf true b = some b := rfl

@[simp] theorem bitIf_false (b : Nat) : bitIf false b = none := rfl

section
variable {i : Nat} {l : List (Option Nat)}

@[simp] theorem bitCheck_nil : bitCheck i [] = .ok () := rfl

@[simp] theorem bitCheck_none_cons : bitCheck i (none :: l) = bitCheck i l := rfl

/-- No bit is lower than bit 0, so the offending bits after it do not matter. -/
@[simp] theorem bitCheck_zero_cons : bitCheck i (some 0 :: l) = .error (badParam i 0) := by
  have hmin (bs : List Nat) : bs.foldl min 0 = 0 := by
    induction bs with
    | nil => rfl
    | cons b bs ih => rw [List.foldl_cons, Nat.zero_min, ih]
  exact congrArg (fun b => Except.error (badParam i b)) (hmin _)

theorem reservedCheck_none {c : Cmd} {mask : Nat} (h : lowBit (c.p i) mask = none) : reservedCheck c i mask = .ok () := by
  rw [reservedCheck, h, bitCheck_none_cons, bitCheck_nil]

end

section
variable {s : State} {q : Nat} {c : Cmd} {flt : Bool}

/-! TT_COMPRESS (R176). -/

section
variable {r : Region} (h : s.running q 0x4038 = some c) (h0 : lowBit (c.p 0) (bmask 63 12) = none)
  (hr : s.namedRegion q (fld (c.p 0) 11 0) = some r)
include h h0 hr

theorem State.ttCompress_other_region (hc : r.compress = false) : s.ttCompress q flt = s.failCmd q (badParam 0 0) := by
  simp [State.ttCompress, h, reservedCheck_none h0, hr, hc]

section
variable (hc : r.compress = true)
include hc

theorem State.ttCompress_past_region (hn : fld (c.p 1) 52 32 ≠ 0) (hend : r.pages < fld (c.p 1) 20 0 + fld (c.p 1) 52 32) :
    s.ttCompress q flt = s.failCmd q (badParam 1 0) := by
  simp [State.ttCompress, h, reservedCheck_none h0, hr, hc, bne_iff_ne.2 hn, hend]

section
variable (h1 : lowBit (c.p 1) (bmask 31 21) = none) (h2 : lowBit (c.p 1) (bmask 63 53) = none)
include h1 h2

theorem State.ttCompress_nothing (hn : fld (c.p 1) 52 32 = 0) : s.ttCompress q flt = s.endCmd q stOK 0 := by
  simp [State.ttCompress, h, reservedCheck_none h0, hr, hc, h1, h2, hn]

theorem State.ttCompress_packs (hn : fld (c.p 1) 52 32 ≠ 0) (hend : fld (c.p 1) 20 0 + fld (c.p 1) 52 32 ≤ r.pages) :
    s.ttCompress q flt = s.compressPages q r (fld (c.p 1) 20 0) (fld (c.p 1) 52 32) flt (fld (c.p 1) 52 32 + 1) := by
  simp [State.ttCompress, h, reservedCheck_none h0, hr, hc, h1, h2, hn, Nat.not_lt.2 hend]

end
end
end

/-! TT_RETIRE (R182, R183). -/

/-- The retirement of the frame at local offset off once frame and spare are accepted: the table may be full, the copy may
have to wait, and otherwise the frame is copied and the remap entered (R182). -/
def State.retireInto (s : State) (q off : Nat) (e : Remap) : State :=
  if 8192 ≤ s.mem.remap.length then (s.evTir 2).failCmd q (quotaFail e.cap 2 0)
  else if s.accessWaits off 65536 || s.mem.moving (off / pageBytes) then s
  else
    let copied := s.mem.copied (off / pageBytes)
    let x := if copied then s.copyErrs off 65536 else ([], s)
    let m := { x.2.mem with remap := x.2.mem.remap ++ [e], errs := tclear (off / 32) (off / 32 + 2048) x.2.mem.errs }
    let t := ({ x.2 with mem := m } : State).poisonUnits x.1
    (if copied then (t.failedWords off 65536).foldl (fun u w => u.dropWrite (u.mem.loc w) 2) t else t).endCmd q stOK 0

/-- What the spare of a remap must be: 64 KiB aligned, in range, in a spare region of the same tier, and not consumed (R182,
R183). -/
def State.spareCheck (s : State) (e : Remap) : Except Fail Unit :=
  let reg := s.mem.regionOf (e.spare / pageBytes)
  firstErr [failIf (e.spare % 65536 != 0 || e.spare / 2 ^ 62 != 0) (badAddr 1 0), failIf (!inRange e.spare 65536) (badAddr 1 3),
    failIf (!match reg with
      | some (_, r) => r.kind == 2
      | none => false) (badAddr 1 1),
    failIf ((match reg with
      | some (_, r) => r.hint != (if e.cap then 3 else 2)
      | none => false) || s.mem.remap.any fun r => r.spare == e.spare) (badParam 1 0)]

/-- The retirement once the frame is accepted: a frame already retired changes nothing, and otherwise the spare is checked
(R183). -/
def State.retireFrame (s : State) (q off : Nat) (e : Remap) : State :=
  if s.mem.remap.any fun r => r.cap == e.cap && r.frame == e.frame then s.endCmd q stNoted 0
  else match s.spareCheck e with
    | .error f => s.failCmd q f
    | .ok () => s.retireInto q off e

section
variable {off : Nat} {e : Remap}

theorem State.retireInto_full (hfull : 8192 ≤ s.mem.remap.length) :
    s.retireInto q off e = (s.evTir 2).failCmd q (quotaFail e.cap 2 0) := if_pos hfull

theorem State.retireInto_copies {x : List Nat × State} {m : Mem} {t : State} (hroom : s.mem.remap.length < 8192)
    (hw : s.accessWaits off 65536 = false) (hm : s.mem.moving (off / pageBytes) = false)
    (hx : x = if s.mem.copied (off / pageBytes) then s.copyErrs off 65536 else ([], s))
    (hmem : m = { x.2.mem with remap := x.2.mem.remap ++ [e], errs := tclear (off / 32) (off / 32 + 2048) x.2.mem.errs })
    (ht : t = ({ x.2 with mem := m } : State).poisonUnits x.1) :
    s.retireInto q off e = (if s.mem.copied (off / pageBytes) then
      (t.failedWords off 65536).foldl (fun u w => u.dropWrite (u.mem.loc w) 2) t else t).endCmd q stOK 0 := by
  subst hx hmem ht
  rw [State.retireInto, if_neg (Nat.not_le.2 hroom), if_neg (by simp [hw, hm])]

theorem State.retireFrame_again (hre : (s.mem.remap.any fun r => r.cap == e.cap && r.frame == e.frame) = true) :
    s.retireFrame q off e = s.endCmd q stNoted 0 := if_pos hre

theorem State.retireFrame_into (hre : (s.mem.remap.any fun r => r.cap == e.cap && r.frame == e.frame) = false)
    (hspare : s.spareCheck e = .ok ()) : s.retireFrame q off e = s.retireInto q off e := by
  rw [State.retireFrame, hre, if_neg Bool.false_ne_true, hspare]

theorem State.spareCheck_ok {k : Nat} {r : Region} (halign : e.spare % 65536 = 0) (hlocal : e.spare / 2 ^ 62 = 0)
    (hin : inRange e.spare 65536 = true) (hreg : s.mem.regionOf (e.spare / pageBytes) = some (k, r)) (hk : r.kind = 2)
    (hhint : r.hint = if e.cap then 3 else 2) (hfresh : (s.mem.remap.any fun r => r.spare == e.spare) = false) :
    s.spareCheck e = .ok () := by
  simp only [State.spareCheck, halign, hlocal, hin, hreg, hk, hhint, hfresh, bne_self_eq_false, beq_self_eq_true, Bool.or_self,
    Bool.not_true, failIf_false, firstErr_ok_cons, firstErr_nil]

end

/-- A frame of the tier that backs no bank-aligned and no spare region is accepted from channel 0 (R183). -/
theorem State.ttRetire_accepted {fr off : Nat} {cap : Bool} (h : s.running q 0x4039 = some c) (hfr : fr = fld (c.p 0) 24 0)
    (hcap : cap = bitAt (c.p 0) 32) (hoff : off = s.mem.offsetAt cap (fr * 65536)) (h0 : lowBit (c.p 0) (bmask 31 25) = none)
    (h1 : lowBit (c.p 0) (bmask 63 33) = none) (hlt : fr < retireFrames cap)
    (hkind : ∀ e, s.mem.regionOf (off / pageBytes) = some e → e.2.kind = 0) (hchan : s.chan q = 0) :
    s.ttRetire q = s.retireFrame q off ⟨cap, fr, c.p 1⟩ := by
  have hin : decide (retireFrames cap ≤ fr) = false := decide_eq_false (Nat.not_le.2 hlt)
  subst hfr hcap hoff
  cases hreg : s.mem.regionOf (s.mem.offsetAt (bitAt (c.p 0) 32) (fld (c.p 0) 24 0 * 65536) / pageBytes) with
  | none =>
    simp only [State.ttRetire, h, hreg, hin, h0, h1, hchan, Bool.or_self, bitIf_false, bitCheck_none_cons, bitCheck_nil,
      bne_self_eq_false, failIf_false, firstErr_ok_cons, firstErr_nil]
    rfl
  | some e =>
    simp only [State.ttRetire, h, hreg, hkind e hreg, hin, h0, h1, hchan, Bool.or_self, bitIf_false, bitCheck_none_cons,
      bitCheck_nil, bne_self_eq_false, failIf_false, firstErr_ok_cons, firstErr_nil]
    rfl

/-! TT_TIDE (R142). -/

section
variable (h : s.running q 0x4040 = some c)
include h

theorem State.ttTide_past_table (hend : 4096 < fld (c.p 0) 11 0 + fld (c.p 0) 24 12) :
    s.ttTide q flt = s.failCmd q (badParam 0 0) := by
  simp [State.ttTide, h, hend]

theorem State.ttTide_folds (h0 : lowBit (c.p 0) (bmask 63 25) = none) (h1 : lowBit (c.p 1) (bmask 63 32) = none)
    (hend : fld (c.p 0) 11 0 + fld (c.p 0) 24 12 ≤ 4096) : s.ttTide q flt =
      s.tideEntries q (fld (c.p 0) 11 0) (fld (c.p 0) 24 12) (fld (c.p 1) 31 0) flt (fld (c.p 0) 24 12 + 1) := by
  simp [State.ttTide, h, h0, reservedCheck_none h1, Nat.not_lt.2 hend]

end
end

/-- Settles O49: a compression and a tide fold by their fields, a retirement by its frame, then its spare, then the remap table. -/
theorem compressRetireTide : Obligations.CompressRetireTide := by
  refine fun q s c => ⟨?compress, ?retire, fun flt h h0 h1 => ⟨fun hend => next_congr (State.ttTide_past_table h hend),
    fun hend => next_congr (State.ttTide_folds h h0 h1 hend)⟩⟩
  case compress =>
    rintro flt r first n h rfl rfl h0 h1 h2 hr
    exact ⟨fun hc => next_congr (State.ttCompress_other_region h h0 hr hc),
      fun hc hn hend => next_congr (State.ttCompress_past_region h h0 hr hc hn hend),
      fun hc hn => next_congr (State.ttCompress_nothing h h0 hr hc h1 h2 hn),
      fun hc hn hend => next_congr (State.ttCompress_packs h h0 hr hc h1 h2 hn hend)⟩
  case retire =>
    intro fr off cap x m t h hfr hcap hoff h0 h1 hlt hkind hchan
    have hframe := State.ttRetire_accepted h hfr hcap hoff h0 h1 hlt hkind hchan
    refine ⟨fun hre => next_congr (hframe.trans (State.retireFrame_again hre)),
      fun k r hre halign hlocal hin hreg hk hhint hfresh => ?_⟩
    have hinto := hframe.trans (State.retireFrame_into hre (State.spareCheck_ok halign hlocal hin hreg hk hhint hfresh))
    exact ⟨fun hfull => next_congr (hinto.trans (State.retireInto_full hfull)),
      fun hroom hw hm hx hmem ht => next_congr (hinto.trans (State.retireInto_copies hroom hw hm hx hmem ht))⟩

end Sys2Proof.Machine
end

section
/-!
The invariant (R156, R186, R259, R314): a command keeps the memory canonical, by the law of its operation under Laws/Cells*.lean,
and leaves the commands that wait as they are.
-/
namespace Sys2Proof.Machine

theorem inv_iff {s : State} : Inv s = true ↔ twf zeroB s.mem.cells = true ∧ s.queueWf = true := by
  rw [Inv, Bool.and_eq_true, Mem.wf]

/-- Every command keeps the memory canonical. A commanded action does so whether the BARs are enabled or not. -/
theorem exec_keeps_cells {c : Instr} {s t : State} (h : exec c s = .next t) (hm : twf zeroB s.mem.cells = true) :
    twf zeroB t.mem.cells = true := by
  cases c <;> cases h
  case resumeNext q => exact State.barDo_cells s _ (fun u => State.resumeNext_cells u q.val) hm
  case queueReset q => exact State.barDo_cells s _ (fun u => State.resetQ_cells u q.val) hm
  case queueEnable q => exact State.barDo_cells s _ (fun u => State.enable_cells u q.val) hm
  case queueDisable q => exact State.barDo_cells s _ (fun u => State.disable_cells u q.val) hm
  case engineReset mask => exact State.barDo_cells s _ (fun u => State.engineReset_cells u mask.toNat) hm
  all_goals simp [hm]

theorem exec_keeps_pending {c : Instr} {s t : State} (h : exec c s = .next t) : t.pending = s.pending := by
  obtain ⟨u, hu, hframe⟩ := exec_frame c s
  obtain rfl : t = u := Host.Outcome.next.inj (h.symm.trans hu)
  exact hframe .pending (pending_not_touched c)

theorem State.tick_keeps_pending (s : State) : s.tick.pending = s.pending := State.tick_only s .pending (by decide)

/-- Settles O4: a step is a period of the oscillator or the command at the front of the queue, and each keeps both parts. -/
theorem invariantKept : Obligations.InvariantKept := by
  intro s t hinv hstep
  obtain ⟨hm, hq⟩ := inv_iff.1 hinv
  unfold step at hstep
  split at hstep
  next =>
    cases hstep
    exact inv_iff.2 ⟨State.tick_cells s hm, by rw [State.queueWf, s.tick_keeps_pending]; exact hq⟩
  next c rest hp =>
    obtain ⟨-, hrest⟩ : c.wf = true ∧ rest.all Instr.wf = true := by
      simpa only [State.queueWf, hp, List.all_cons, Bool.and_eq_true] using hq
    exact inv_iff.2 ⟨exec_keeps_cells hstep hm, by rw [State.queueWf, exec_keeps_pending hstep]; exact hrest⟩

end Sys2Proof.Machine
end

section
/-!
Packed blocks (R177, R178): what a stream of zero-run tokens decodes to, token by token; the coder's stream; the byte planes.
-/
namespace Sys2Proof.Machine

/-! Tokens. Each produces at least one byte, so as many rounds as there are bytes to produce are enough. -/

/-- The stream begins with tokens that decode to the given bytes, whatever follows them. -/
def Decodes (cs out : List Byte) : Prop := ∀ f, out.length ≤ f → zrDecode f out.length cs = some out

theorem decodes_nil (cs : List Byte) : Decodes cs [] := fun f _ => by rw [List.length_nil, zrDecode]

section
variable {cs out : List Byte}

theorem Decodes.literal {lit : List Byte} (h : Decodes cs out) (hne : lit ≠ []) (hlen : lit.length ≤ 128) :
    Decodes (BitVec.ofNat 8 (lit.length - 1) :: lit ++ cs) (lit ++ out) := by
  have hpos := List.length_pos_iff.2 hne
  rintro (_ | f) hf <;> rw [List.length_append] at hf ⊢
  · omega
  obtain ⟨n, hn⟩ : ∃ n, lit.length + out.length = n + 1 := ⟨lit.length + out.length - 1, by omega⟩
  have hv : (BitVec.ofNat 8 (lit.length - 1)).toNat = lit.length - 1 := by rw [BitVec.toNat_ofNat]; omega
  have hm : lit.length - 1 + 1 = lit.length := by omega
  have hrest : n + 1 - lit.length = out.length := by omega
  rw [hn, List.cons_append, zrDecode, hv, hm]
  dsimp only
  rw [if_pos (by omega), if_pos ⟨by omega, by rw [List.length_append]; omega⟩, List.drop_left, List.take_left, hrest,
    h f (by omega), Option.map_some]

/-- A token for a run of m zeros, whichever of the two forms it has. -/
theorem Decodes.zero_token {v m : Nat} (h : Decodes cs out) (hv : 128 ≤ v ∧ v < 256) (hpos : 0 < m)
    (hm : (if v < 192 then v - 128 + 1 else (v - 192 + 1) * 64) = m) :
    Decodes (BitVec.ofNat 8 v :: cs) (List.replicate m 0 ++ out) := by
  rintro (_ | f) hf <;> rw [List.length_append, List.length_replicate] at hf ⊢
  · omega
  obtain ⟨n, hn⟩ : ∃ n, m + out.length = n + 1 := ⟨m + out.length - 1, by omega⟩
  have hb : (BitVec.ofNat 8 v).toNat = v := by rw [BitVec.toNat_ofNat]; omega
  have hrest : n + 1 - m = out.length := by omega
  rw [hn, zrDecode, hb]
  dsimp only
  rw [if_neg (by omega), hm, if_pos (by omega), hrest, h f (by omega), Option.map_some]

theorem Decodes.zeroTokens (h : Decodes cs out) {f z : Nat} (hz : z ≤ f) :
    Decodes (zeroTokens f z ++ cs) (List.replicate z 0 ++ out) := by
  induction f generalizing z with
  | zero => rw [Nat.le_zero.1 hz]; exact h
  | succ f ih =>
    rw [Machine.zeroTokens]
    split
    next hlong =>
      have hsum : z = min (z / 64) 64 * 64 + (z - min (z / 64) 64 * 64) := by omega
      conv => rhs; rw [hsum, ← List.replicate_append_replicate, List.append_assoc]
      exact (ih (by omega)).zero_token (by omega) (by omega) (by rw [if_neg (by omega)]; omega)
    next hshort =>
      split
      next hpos => exact h.zero_token (by omega) hpos (by rw [if_pos (by omega)]; omega)
      next hzero => rw [Nat.eq_zero_of_not_pos hzero]; exact h

theorem Decodes.literalTokens (h : Decodes cs out) {f : Nat} {bs : List Byte} (hf : bs.length ≤ f) :
    Decodes (literalTokens f bs ++ cs) (bs ++ out) := by
  induction f generalizing bs with
  | zero => obtain rfl := List.eq_nil_of_length_eq_zero (Nat.le_zero.1 hf); exact h
  | succ f ih =>
    cases bs with
    | nil => exact h
    | cons b bs =>
      have hdrop : ((b :: bs).drop 128).length ≤ f := by rw [List.length_drop]; omega
      have hlit := (ih hdrop).literal (lit := (b :: bs).take 128) (List.cons_ne_nil _ _) (List.length_take_le _ _)
      rwa [← List.append_assoc, ← List.append_assoc, List.take_append_drop] at hlit

end

/-! The coder. -/

theorem zeroRun_le (bs : List Byte) : zeroRun bs ≤ bs.length := by
  induction bs with
  | nil => exact Nat.le_refl 0
  | cons b bs ih => rw [zeroRun, List.length_cons]; split <;> omega

theorem take_zeroRun (bs : List Byte) : bs.take (zeroRun bs) = List.replicate (zeroRun bs) 0 := by
  induction bs with
  | nil => rfl
  | cons b bs ih =>
    rw [zeroRun]
    split
    next hb => rw [List.take_succ_cons, ih, hb, List.replicate_succ]
    next => rfl

theorem literalRun_le (bs : List Byte) : literalRun bs ≤ bs.length := by
  induction bs with
  | nil => exact Nat.le_refl 0
  | cons a bs ih =>
    cases bs with
    | nil => exact Nat.le_refl 1
    | cons b bs => rw [literalRun, List.length_cons]; split <;> omega

/-- A round of the coder on what is left to code. -/
theorem zrEncode_round {f : Nat} {bs : List Byte} (hne : bs ≠ []) : zrEncode (f + 1) bs =
    if 2 ≤ zeroRun bs then zeroTokens (zeroRun bs) (zeroRun bs) ++ zrEncode f (bs.drop (zeroRun bs))
    else literalTokens (max 1 (literalRun bs)) (bs.take (max 1 (literalRun bs))) ++ zrEncode f (bs.drop (max 1 (literalRun bs))) := by
  cases bs with
  | nil => exact absurd rfl hne
  | cons b bs => rfl

/-- Each round codes a run of zeros or a run of literals, and takes at least one byte. -/
theorem decodes_zrEncode {f : Nat} {bs : List Byte} (hf : bs.length ≤ f) (tail : List Byte) : Decodes (zrEncode f bs ++ tail) bs := by
  induction f generalizing bs with
  | zero => obtain rfl := List.eq_nil_of_length_eq_zero (Nat.le_zero.1 hf); exact decodes_nil _
  | succ f ih =>
    by_cases hne : bs = []
    · subst hne; exact decodes_nil _
    have hpos := List.length_pos_iff.2 hne
    rw [zrEncode_round hne]
    split
    next hz =>
      have hrest := ih (bs := bs.drop (zeroRun bs)) (by rw [List.length_drop]; omega)
      have hrun := hrest.zeroTokens (Nat.le_refl (zeroRun bs))
      rwa [← take_zeroRun, List.take_append_drop, ← List.append_assoc] at hrun
    next =>
      have hle := literalRun_le bs
      have hrest := ih (bs := bs.drop (max 1 (literalRun bs))) (by rw [List.length_drop]; omega)
      have hrun := hrest.literalTokens (List.length_take_le (max 1 (literalRun bs)) bs)
      rwa [List.take_append_drop, ← List.append_assoc] at hrun

/-! Byte planes. -/

/-- Rows of w entries each, one after another, are one range: entry k stands in row k / w at place k % w. -/
theorem flatMap_range_map {α : Type} (g : Nat → Nat → α) (n : Nat) {w : Nat} (hw : 0 < w) :
    ((List.range n).flatMap fun i => (List.range w).map (g i)) = (List.range (n * w)).map fun k => g (k / w) (k % w) := by
  induction n with
  | zero => rw [Nat.zero_mul]; rfl
  | succ n ih =>
    rw [List.range_succ, List.flatMap_append, ih, Nat.succ_mul, List.range_add, List.map_append, List.flatMap_singleton, List.map_map]
    congr 1
    refine List.map_congr_left fun k hk => ?_
    have hlt := List.mem_range.1 hk
    rw [Function.comp_apply, Nat.mul_comm n w, Nat.mul_add_div hw, Nat.div_eq_of_lt hlt, Nat.mul_add_mod, Nat.mod_eq_of_lt hlt,
      Nat.add_zero]

theorem getD_eq_getElem {α : Type} {l : List α} {d : α} {k : Nat} (h : k < l.length) : l.getD k d = l[k] := by
  rw [List.getD_eq_getElem?_getD, List.getElem?_eq_getElem h, Option.getD_some]

section
variable {w n : Nat} {bs : List Byte}

theorem planes_eq (hw : 0 < w) (hn : 0 < n) (hlen : bs.length = n * w) :
    planes w bs = (List.range (w * n)).map fun k => bs.getD (k % n * w + (w - 1 - k / n)) 0 := by
  rw [planes, hlen, Nat.mul_div_cancel _ hw, flatMap_range_map _ _ hn]

theorem unplanes_eq (hw : 0 < w) (hlen : bs.length = n * w) :
    unplanes w bs = (List.range (n * w)).map fun k => bs.getD ((w - 1 - k % w) * n + k / w) 0 := by
  rw [unplanes, hlen, Nat.mul_div_cancel _ hw, flatMap_range_map _ _ hw]

theorem length_planes (hw : 0 < w) (hn : 0 < n) (hlen : bs.length = n * w) : (planes w bs).length = n * w := by
  rw [planes_eq hw hn hlen, List.length_map, List.length_range, Nat.mul_comm]

/-- Entry k of the block stands in plane w − 1 − k % w at place k / w (R177). -/
theorem unplanes_planes (hw : 0 < w) (hn : 0 < n) (hlen : bs.length = n * w) : unplanes w (planes w bs) = bs := by
  rw [unplanes_eq hw (length_planes hw hn hlen), planes_eq hw hn hlen]
  refine List.ext_getElem (by rw [List.length_map, List.length_range, hlen]) fun k hk hk' => ?_
  have hmod := Nat.mod_lt k hw
  have hdiv : k / w < n := Nat.div_lt_of_lt_mul (by rw [Nat.mul_comm]; omega)
  have hplace : (w - 1 - k % w) * n + k / w < w * n := by
    calc (w - 1 - k % w) * n + k / w < (w - 1 - k % w + 1) * n := by rw [Nat.succ_mul]; omega
      _ ≤ w * n := Nat.mul_le_mul_right n (by omega)
  have hrow : ((w - 1 - k % w) * n + k / w) / n = w - 1 - k % w := by
    rw [Nat.mul_comm, Nat.mul_add_div hn, Nat.div_eq_of_lt hdiv, Nat.add_zero]
  have hcol : ((w - 1 - k % w) * n + k / w) % n = k / w := by
    rw [Nat.mul_comm, Nat.mul_add_mod, Nat.mod_eq_of_lt hdiv]
  have hback : k / w * w + (w - 1 - (w - 1 - k % w)) = k := by
    rw [Nat.sub_sub_self (by omega), Nat.div_add_mod']
  rw [List.getElem_map, List.getElem_range, getD_eq_getElem (by rw [List.length_map, List.length_range]; exact hplace),
    List.getElem_map, List.getElem_range, hrow, hcol, hback, getD_eq_getElem hk']

end

/-! The block. -/

theorem length_padTo_alignUp (c : List Byte) : (padTo (alignUp c.length 32) c).length = alignUp c.length 32 := by
  rw [padTo, List.length_append, List.length_replicate, alignUp]; omega

theorem packBlock_some {w : Nat} {bs c : List Byte} (h : packBlock w bs = some c) :
    c = padTo (alignUp (zrEncode 4096 (planes w bs)).length 32) (zrEncode 4096 (planes w bs)) ∧ c.length < 4096 := by
  unfold packBlock at h
  dsimp only at h
  split at h
  · cases h
  · cases h; exact ⟨rfl, by omega⟩

theorem unpack_packBlock {w n : Nat} {bs c : List Byte} (hw : 0 < w) (hnw : n * w = 4096) (hlen : bs.length = 4096)
    (h : packBlock w bs = some c) : (zrDecode 4096 4096 c).map (unplanes w) = some bs := by
  obtain ⟨rfl, -⟩ := packBlock_some h
  have hn : 0 < n := Nat.pos_of_ne_zero fun h0 => by rw [h0, Nat.zero_mul] at hnw; cases hnw
  have hlen' : bs.length = n * w := hlen.trans hnw.symm
  have hp : (planes w bs).length = 4096 := (length_planes hw hn hlen').trans hnw
  have hdec := decodes_zrEncode (Nat.le_of_eq hp)
  simp only [Decodes, hp] at hdec
  rw [padTo, hdec _ 4096 (Nat.le_refl _), Option.map_some, unplanes_planes hw hn hlen']

/-- Settles O59: the tokens decode to the planes, the planes put back are the block, and the padding fills a multiple of 32. -/
theorem packedBlocksUnpack : Obligations.PackedBlocksUnpack := by
  intro w bs c hw hlen h
  obtain ⟨hc, hlt⟩ := packBlock_some h
  obtain ⟨n, hpos, hnw⟩ : ∃ n, 0 < w ∧ n * w = 4096 := by
    obtain rfl | rfl | rfl := hw
    · exact ⟨4096, by decide⟩
    · exact ⟨2048, by decide⟩
    · exact ⟨1024, by decide⟩
  refine ⟨unpack_packBlock hpos hnw hlen h, ?_, hlt⟩
  rw [hc, length_padTo_alignUp, alignUp, Nat.mul_mod_left]

end Sys2Proof.Machine
end

section
/-!
TT_COPY and TT_FILL (R186): the checks, then block after block.
-/
namespace Sys2Proof.Machine

section
variable {s : State} {q : Nat} {c : Cmd}

/-- A command that has done a block has made progress, so its progress reads back. -/
theorem State.prog_setProg_of_done {p : Prog} (h : p.done ≠ 0) : (s.setProg q p).prog q = p :=
  tget_tput_of_ne _ fun e => h (congrArg Prog.done e)

/-! TT_COPY. -/

section
variable (h : s.running q 0x4001 = some c)
include h

theorem State.ttCopy_refused {f : Fail} (hc : s.xferCheck q c [1, 2] = .error f) : s.ttCopy q = (s.noteBme f).failCmd q f := by
  simp only [State.ttCopy, h, hc]

theorem State.ttCopy_copies (hc : s.xferCheck q c [1, 2] = .ok ()) : s.ttCopy q = s.copyBlocks
    (c.p 1 != c.p 2 && decide (c.p 1 < c.p 2 + fld (c.p 0) 39 0) && decide (c.p 2 < c.p 1 + fld (c.p 0) 39 0))
    q c (fld (c.p 0) 39 0 / 4096 + 2) := by
  simp only [State.ttCopy, h, hc]

end

theorem State.copyBlocks_nothing {undef : Bool} (f : Nat) (h0 : fld (c.p 0) 39 0 = 0) :
    s.copyBlocks undef q c (f + 1) = s.endCmd q stOK 0 := by
  rw [State.copyBlocks, h0]
  exact if_pos (by omega)

/-! TT_FILL. -/

section
variable (h : s.running q 0x4002 = some c)
include h

theorem State.ttFill_refused {f : Fail} (hc : s.xferCheck q c [1] = .error f) : s.ttFill q = (s.noteBme f).failCmd q f := by
  simp only [State.ttFill, h, hc]

theorem State.ttFill_fills (hc : s.xferCheck q c [1] = .ok ()) : s.ttFill q = s.fillBlocks q c (fld (c.p 0) 39 0 / 4096 + 2) := by
  simp only [State.ttFill, h, hc]

end

theorem State.fillBlocks_done (f : Nat) (hend : fld (c.p 0) 39 0 ≤ (s.prog q).done * 4096) :
    s.fillBlocks q c (f + 1) = s.endCmd q stOK 0 := by
  rw [State.fillBlocks]
  exact if_pos (by omega)

/-- A first block of at most 4 KiB is the whole fill. -/
theorem State.fillBlocks_one {n : Nat} {t : State} (f : Nat) (hn : n = fld (c.p 0) 39 0) (hpos : 0 < n) (hle : n ≤ 4096)
    (hdone : (s.prog q).done = 0) (hw : s.opWaits (c.p 1) n = false)
    (ht : t = (s.opWrite q (c.p 1) 1 (List.replicate (n / 8) (leBytes 8 (c.p 2))).flatten).setProg q ⟨1, 0⟩) :
    s.fillBlocks q c (f + 2) = t.endCmd q stOK 0 := by
  have hsize : min 4096 (n - 0 * 4096) = n := by omega
  have hprog : t.prog q = ⟨1, 0⟩ := by rw [ht]; exact State.prog_setProg_of_done Nat.one_ne_zero
  rw [State.fillBlocks, ← hn, hdone, hsize]
  dsimp only
  rw [if_neg (by omega), Nat.zero_mul, Nat.add_zero, if_neg (Bool.eq_false_iff.1 hw), Nat.zero_add, ← ht]
  exact State.fillBlocks_done f (by rw [hprog, ← hn, Nat.one_mul]; exact hle)

end

/-- Settles O45: the checks decide, an empty copy has no block, and a fill of at most 4 KiB has one. -/
theorem transfersRun : Obligations.TransfersRun := by
  refine fun q s c => ⟨fun h => ⟨fun f hc => next_congr (State.ttCopy_refused h hc), fun hc => ?copy⟩,
    fun h => ⟨fun f hc => next_congr (State.ttFill_refused h hc), fun hc => ?fill⟩⟩
  case copy =>
    have hcopy := State.ttCopy_copies h hc
    exact ⟨next_congr hcopy, fun h0 => next_congr (hcopy.trans (State.copyBlocks_nothing _ h0))⟩
  case fill =>
    have hfill := State.ttFill_fills h hc
    exact ⟨next_congr hfill, fun n t hn hpos hle hdone hw ht =>
      next_congr (hfill.trans (State.fillBlocks_one _ hn hpos hle hdone hw ht))⟩

end Sys2Proof.Machine
end

section
/-!
Regions and tolls (R156, R157, R159, R169, R170, R187): what each command does once its fields are checked.
-/
namespace Sys2Proof.Machine

section
variable {s : State} {q : Nat} {c : Cmd}

/-! TT_REGION_SET. -/

section
variable (h : s.running q 0x4010 = some c)
include h

theorem State.regionSet_refused {f : Fail} (hc : s.regionFields q c = .error f) : s.regionSet q = s.failCmd q f :=
  (match_some h).trans (match_error hc)

section
variable (hc : s.regionFields q c = .ok ())
include hc

theorem State.regionSet_barred {f : Fail} (ha : s.regionAddrs q c = .error f) : s.regionSet q = s.failCmd q f :=
  ((match_some h).trans (match_ok hc)).trans (match_error ha)

theorem State.regionSet_places {x : Except (Option Fail) (List Nat)} {t : State} (ha : s.regionAddrs q c = .ok ())
    (hp : s.placeRegion (s.ctx q) (c.p 1 / pageBytes) (fld (c.p 2) 20 0) (fld (c.p 2) 22 21) (fld (c.p 2) 25 23) 4096 = (x, t)) :
    s.regionSet q = State.regionEnd q c (s.ctx q) (x, t) := by
  have hplace : s.regionPlace q c = State.regionEnd q c (s.ctx q) (x, t) := by rw [State.regionPlace, hp]
  exact (((match_some h).trans (match_ok hc)).trans (match_ok ha)).trans hplace

end
end

/-! TT_REGION_CLEAR. -/

/-- The memory that a cleared region leaves: no entry, nothing of its pages, no move of one, no ford layer with one (R156,
R187). -/
def Mem.withoutRegion (m : Mem) (num : Nat) (r : Region) : Mem :=
  (((({ m with regions := tput noneD m.regions num none } : Mem).tamper r.base (r.pages * pageBytes)).dropPages r.first
    r.pages).dropMoves fun v => decide (r.first ≤ v.page) && decide (v.page < r.first + r.pages)).clearLayers r.first r.pages

section
variable (h : s.running q 0x4011 = some c)
include h

theorem State.regionClear_reserved {b : Nat} (h0 : lowBit (c.p 0) (bmask 63 12) = some b) :
    s.regionClear q = s.failCmd q (badParam 0 b) := by
  simp only [State.regionClear, h, h0]

section
variable (h0 : lowBit (c.p 0) (bmask 63 12) = none)
include h0

theorem State.regionClear_unnamed (hr : s.namedRegion q (fld (c.p 0) 11 0) = none) :
    s.regionClear q = s.failCmd q (badParam 0 0) := by
  simp only [State.regionClear, h, h0, hr]

theorem State.regionClear_clears {r : Region} (hr : s.namedRegion q (fld (c.p 0) 11 0) = some r) :
    s.regionClear q = ({ s with mem := s.mem.withoutRegion (fld (c.p 0) 11 0) r } : State).endCmd q stOK 0 := by
  simp only [State.regionClear, h, h0, hr, Mem.withoutRegion]

end
end

/-! TT_REGION_HINT. -/

/-- How TT_REGION_HINT ends whose region has been placed for its new hint. -/
def State.hintEnd (q num hint : Nat) (r : Region) (p : (Except (Option Fail) (List Nat)) × State) : State :=
  match p.1 with
  | .error none => p.2
  | .error (some f) => p.2.failCmd q f
  | .ok _ => ({ p.2 with mem := { p.2.mem with
      regions := tput noneD p.2.mem.regions num (some { r with desc := withHint r.desc hint }) } } : State).endCmd q stOK 0

section
variable {r : Region} (h : s.running q 0x4012 = some c) (h0 : lowBit (c.p 0) (bmask 63 12) = none)
  (hr : s.namedRegion q (fld (c.p 0) 11 0) = some r)
include h h0 hr

theorem State.regionHint_not_ordinary (hk : r.kind ≠ 0) : s.regionHint q = s.failCmd q (badParam 0 0) := by
  simp only [State.regionHint, h, reservedCheck_none h0, hr, bne_iff_ne.2 hk, failIf_true, firstErr_ok_cons, firstErr_error_cons]

theorem State.regionHint_unknown (hk : r.kind = 0) (hhint : 4 < fld (c.p 1) 2 0) :
    s.regionHint q = s.failCmd q (badParam 1 0) := by
  simp only [State.regionHint, h, reservedCheck_none h0, hr, hk, decide_eq_true hhint, bne_self_eq_false, failIf_false, bitIf_true,
    bitCheck_zero_cons, firstErr_ok_cons, firstErr_error_cons]

theorem State.regionHint_places (h1 : lowBit (c.p 1) (bmask 63 3) = none) (hk : r.kind = 0) (hhint : fld (c.p 1) 2 0 ≤ 4) :
    s.regionHint q = State.hintEnd q (fld (c.p 0) 11 0) (fld (c.p 1) 2 0) r
      (s.placeRegion r.ctx r.first r.pages 0 (fld (c.p 1) 2 0) (fld (c.p 0) 11 0)) := by
  simp only [State.regionHint, h, reservedCheck_none h0, h1, hr, hk, decide_eq_false (Nat.not_lt.2 hhint), bne_self_eq_false,
    failIf_false, bitIf_false, bitCheck_none_cons, bitCheck_nil, firstErr_ok_cons, firstErr_nil]
  rfl

end

/-! Tolls: a grant of 0 is no grant; only channel 0 sets and closes them (R170). -/

/-- A context's grant in a tier set to g. -/
def State.setGrant (s : State) (ctx : Nat) (cap : Bool) (g : Nat) : State :=
  { s with mem := { s.mem with grants := tput grantReset s.mem.grants (2 * ctx + b2n cap) g } }

section
variable (h0 : lowBit (c.p 0) (bmask 15 12 + bmask 63 17) = none)
include h0

section
variable (h : s.running q 0x4028 = some c)
include h

theorem State.tollSet_zero (hg : fld (c.p 1) 19 0 = 0) : s.tollSet q = s.failCmd q (badParam 1 0) := by
  simp only [State.tollSet, h, reservedCheck_none h0, hg, beq_self_eq_true, bitIf_true, bitCheck_zero_cons, firstErr_ok_cons,
    firstErr_error_cons]

section
variable (hg : fld (c.p 1) 19 0 ≠ 0) (h1 : lowBit (c.p 1) (bmask 63 20) = none)
include hg h1

theorem State.tollSet_other_channel (hchan : s.chan q ≠ 0) : s.tollSet q = s.failCmd q chanFail := by
  simp only [State.tollSet, h, reservedCheck_none h0, h1, beq_eq_false_iff_ne.2 hg, bne_iff_ne.2 hchan, failIf_true, bitIf_false,
    bitCheck_none_cons, bitCheck_nil, firstErr_ok_cons, firstErr_error_cons]

section
variable (hchan : s.chan q = 0)
include hchan

theorem State.tollSet_short (hlt : fld (c.p 1) 19 0 < s.mem.charge (fld (c.p 0) 11 0) (bitAt (c.p 0) 16)) :
    s.tollSet q = s.failCmd q (quotaFail (bitAt (c.p 0) 16) 0
      (s.mem.charge (fld (c.p 0) 11 0) (bitAt (c.p 0) 16) - fld (c.p 1) 19 0)) := by
  simp only [State.tollSet, h, reservedCheck_none h0, h1, beq_eq_false_iff_ne.2 hg, hchan, hlt, bne_self_eq_false,
    failIf_false, bitIf_false, bitCheck_none_cons, bitCheck_nil, firstErr_ok_cons, firstErr_nil, if_true]

theorem State.tollSet_grants (hle : s.mem.charge (fld (c.p 0) 11 0) (bitAt (c.p 0) 16) ≤ fld (c.p 1) 19 0) :
    s.tollSet q = (s.setGrant (fld (c.p 0) 11 0) (bitAt (c.p 0) 16) (fld (c.p 1) 19 0)).endCmd q stOK 0 := by
  simp only [State.setGrant, State.tollSet, h, reservedCheck_none h0, h1, beq_eq_false_iff_ne.2 hg, hchan, Nat.not_lt.2 hle,
    bne_self_eq_false, failIf_false, bitIf_false, bitCheck_none_cons, bitCheck_nil, firstErr_ok_cons, firstErr_nil, if_false]

end
end
end

section
variable (h : s.running q 0x4029 = some c)
include h

theorem State.tollClose_other_channel (hchan : s.chan q ≠ 0) : s.tollClose q = s.failCmd q chanFail := by
  simp only [State.tollClose, h, reservedCheck_none h0, bne_iff_ne.2 hchan, failIf_true, firstErr_ok_cons, firstErr_error_cons]

section
variable (hchan : s.chan q = 0)
include hchan

theorem State.tollClose_charged (hpos : 0 < s.mem.charge (fld (c.p 0) 11 0) (bitAt (c.p 0) 16)) :
    s.tollClose q = s.failCmd q (quotaFail (bitAt (c.p 0) 16) 0 (s.mem.charge (fld (c.p 0) 11 0) (bitAt (c.p 0) 16))) := by
  simp only [State.tollClose, h, reservedCheck_none h0, hchan, hpos, bne_self_eq_false, failIf_false, firstErr_ok_cons,
    firstErr_nil, if_true]

theorem State.tollClose_closes (hzero : s.mem.charge (fld (c.p 0) 11 0) (bitAt (c.p 0) 16) = 0) :
    s.tollClose q = (s.setGrant (fld (c.p 0) 11 0) (bitAt (c.p 0) 16) 0).endCmd q stOK 0 := by
  simp only [State.setGrant, State.tollClose, h, reservedCheck_none h0, hchan, hzero, Nat.lt_irrefl, bne_self_eq_false, failIf_false, firstErr_ok_cons,
    firstErr_nil, if_false]

end
end
end
end

/-- Settles O46: each command by its fields, a region's commands then by how its placement ends, a toll's by what is charged. -/
theorem regionsAndTolls : Obligations.RegionsAndTolls := by
  refine ⟨fun q s c => ⟨fun h => ?set, fun h => ?clear, ?hint⟩, ?tolls⟩
  case set =>
    refine ⟨fun f hc => next_congr (State.regionSet_refused h hc), fun f hc ha => next_congr (State.regionSet_barred h hc ha),
      fun x t hc ha hp => ?_⟩
    have hplaced := State.regionSet_places h hc ha hp
    refine ⟨?waits, ?fails, ?entered⟩
    case waits => rintro rfl; exact next_congr hplaced
    case fails => rintro f rfl; exact next_congr hplaced
    case entered => rintro rows rfl; exact next_congr hplaced
  case clear =>
    refine ⟨fun b h0 => next_congr (State.regionClear_reserved h h0),
      fun h0 hr => next_congr (State.regionClear_unnamed h h0 hr), ?_⟩
    rintro r m h0 hr rfl
    exact next_congr (State.regionClear_clears h h0 hr)
  case hint =>
    rintro r hint h rfl h0 h1 hr
    refine ⟨fun hk => next_congr (State.regionHint_not_ordinary h h0 hr hk),
      fun hk hhint => next_congr (State.regionHint_unknown h h0 hr hk hhint), fun x t hk hhint hp => ?_⟩
    have hplaced := State.regionHint_places h h0 hr h1 hk hhint
    rw [hp] at hplaced
    refine ⟨?waits, ?fails, ?entered⟩
    case waits => rintro rfl; exact next_congr hplaced
    case fails => rintro f rfl; exact next_congr hplaced
    case entered => rintro rows rfl; exact next_congr hplaced
  case tolls =>
    rintro q s c k cap g rfl rfl rfl h0
    exact ⟨fun h hg h1 => ⟨fun hchan => next_congr (State.tollSet_other_channel h0 h hg h1 hchan),
        fun hchan hlt => next_congr (State.tollSet_short h0 h hg h1 hchan hlt),
        fun hchan hle => next_congr (State.tollSet_grants h0 h hg h1 hchan hle)⟩,
      fun h hg => next_congr (State.tollSet_zero h0 h hg),
      fun h => ⟨fun hchan => next_congr (State.tollClose_other_channel h0 h hchan),
        fun hchan hpos => next_congr (State.tollClose_charged h0 h hchan hpos),
        fun hchan hzero => next_congr (State.tollClose_closes h0 h hchan hzero)⟩⟩

end Sys2Proof.Machine
end

section
/-!
Pages placed, moved and counted (R163 to R166, R188).
-/
namespace Sys2Proof.Machine

section
variable {s : State} {q : Nat} {c : Cmd}

/-! TT_PLACE. -/

section
variable (h : s.running q 0x4020 = some c) (h1 : lowBit (c.p 1) (bmask 31 21 + bmask 63 33) = none)
include h h1

theorem State.ttPlace_nothing (hn : fld (c.p 1) 20 0 = 0) : s.ttPlace q = s.endCmd q stOK 0 := by
  simp only [State.ttPlace, h, reservedCheck_none h1, hn, if_true]

section
variable (hn : fld (c.p 1) 20 0 ≠ 0)
include hn

theorem State.ttPlace_bad_place (ha : c.p 0 / 2 ^ 62 ≠ 0 ∨ c.p 0 % pageBytes ≠ 0) :
    s.ttPlace q = s.failCmd q (badAddr 0 0) := by
  have hbad : (c.p 0 / 2 ^ 62 != 0 || malformedAddr (c.p 0) || c.p 0 % pageBytes != 0) = true := by
    obtain ha | ha := ha
    · rw [bne_iff_ne.2 ha]; rfl
    · rw [bne_iff_ne.2 ha, Bool.or_true]
  simp only [State.ttPlace, h, reservedCheck_none h1, if_neg hn, hbad, failIf_true, firstErr_error_cons]

section
variable (hlocal : c.p 0 / 2 ^ 62 = 0) (halign : c.p 0 % pageBytes = 0) (hform : malformedAddr (c.p 0) = false)
include hlocal halign hform

theorem State.ttPlace_out_of_range (hin : inRange (c.p 0) (fld (c.p 1) 20 0 * pageBytes) = false) :
    s.ttPlace q = s.failCmd q (badAddr 0 3) := by
  simp only [State.ttPlace, h, reservedCheck_none h1, if_neg hn, hlocal, halign, hform, hin, bne_self_eq_false, Bool.or_self,
    Bool.not_false, failIf_false, failIf_true, firstErr_ok_cons, firstErr_error_cons]

section
variable (hin : inRange (c.p 0) (fld (c.p 1) 20 0 * pageBytes) = true)
include hin

theorem State.ttPlace_barred (hr : s.mem.placeRange (s.ctx q) (c.p 0 / pageBytes) (fld (c.p 1) 20 0) = false) :
    s.ttPlace q = s.failCmd q (badAddr 0 1) := by
  simp only [State.ttPlace, h, reservedCheck_none h1, if_neg hn, hlocal, halign, hform, hin, hr, bne_self_eq_false, Bool.or_self,
    Bool.not_false, Bool.not_true, failIf_false, failIf_true, firstErr_ok_cons, firstErr_error_cons]

theorem State.ttPlace_places (hr : s.mem.placeRange (s.ctx q) (c.p 0 / pageBytes) (fld (c.p 1) 20 0) = true) : s.ttPlace q =
    s.placePages q (c.p 0 / pageBytes) (bitAt (c.p 1) 32) (fld (c.p 1) 20 0) (fld (c.p 1) 20 0 + 1) := by
  simp only [State.ttPlace, h, reservedCheck_none h1, if_neg hn, hlocal, halign, hform, hin, hr, bne_self_eq_false, Bool.or_self,
    Bool.not_true, failIf_false, firstErr_ok_cons, firstErr_nil]

end
end
end
end

section
variable {x n p : Nat} {cap : Bool} (f : Nat) (hp : p = (s.prog q).done)
include hp

theorem State.placePages_done (hend : n ≤ p) : s.placePages q x cap n (f + 1) =
    if (s.prog q).skipped = 0 then s.endCmd q stOK 0 else s.endCmd q stNoted (s.prog q).skipped := by
  subst hp
  rw [State.placePages]
  exact if_pos hend

section
variable {t : State} (hlt : p < n)
include hlt

theorem State.placePages_waits (hone : s.placeOne (x + p) cap = (none, t)) : s.placePages q x cap n (f + 1) = t := by
  subst hp
  simp only [State.placePages, Nat.not_le.2 hlt, if_false, hone]

theorem State.placePages_goes_on {moved : Bool} (hone : s.placeOne (x + p) cap = (some moved, t)) :
    s.placePages q x cap n (f + 1) =
      (t.setProg q ⟨p + 1, if moved then (s.prog q).skipped else (s.prog q).skipped + 1⟩).placePages q x cap n f := by
  subst hp
  simp only [State.placePages, Nat.not_le.2 hlt, if_false, hone]

end
end
end

section
variable {s : State} {x : Nat}

/-! BACKGROUND_MOVE_START. -/

section
variable {v : Nat} (hon : s.rbit 0x800000 0 = true) (hrun : s.pwr.state = 0) (hrate : s.movesNow < s.rd 0x800008)
  (hv : s.bgVictim x = some v)
include hon hrun hrate hv

theorem State.bgStart_moves (hx : s.mem.tollAllows x false = true) (hout : s.mem.tollAllows v true = true) : s.bgStart x =
    { s with mem := { s.mem with moves := s.mem.moves ++ [⟨x, v, .background⟩], moveMs := s.pwr.time / 1000000,
                                 moved := s.movesNow + 1 } } := by
  simp only [State.bgStart, hon, hrun, decide_eq_false (Nat.not_le.2 hrate), hv, hx, hout, Bool.not_true, bne_self_eq_false,
    Bool.or_self, Bool.false_eq_true, if_false, Bool.and_self, if_true]

theorem State.bgStart_barred (h : s.mem.tollAllows x false = false ∨ s.mem.tollAllows v true = false) :
    s.bgStart x = s.evTir 0 := by
  have hbar : (s.mem.tollAllows x false && s.mem.tollAllows v true) = false := Bool.and_eq_false_iff.2 h
  simp only [State.bgStart, hon, hrun, decide_eq_false (Nat.not_le.2 hrate), hv, hbar, Bool.not_true, bne_self_eq_false,
    Bool.or_self, Bool.false_eq_true, if_false]

end

/-! PAGE_MOVE_SWITCH. -/

section
variable {t : State} {v : Move} (hv : s.mem.moves.find? (fun v => v.page == x) = some v)
  (ht : t = { s with mem := s.mem.dropMoves fun w => w.page == x })
include hv ht

theorem State.moveSwitch_given_up (hgood : t.moveGood v = false) : s.moveSwitch x = t.moveEnd v := by
  subst ht
  simp only [State.moveSwitch, hv, hgood, Bool.not_false, if_true]

section
variable (hgood : t.moveGood v = true)
include hgood

theorem State.moveSwitch_skipped (htoll : (t.mem.tollAllows x false && t.mem.tollAllows v.victim true) = false) :
    s.moveSwitch x = (t.evTir 0).moveEnd v := by
  subst ht
  simp only [State.moveSwitch, hv, hgood, htoll, Bool.not_true, Bool.not_false, Bool.false_eq_true, if_false, if_true]

section
variable (htoll : (t.mem.tollAllows x false && t.mem.tollAllows v.victim true) = true)
include htoll

theorem State.moveSwitch_waits (hw : t.moveWaits x v.victim = true) : s.moveSwitch x = s := by
  subst ht
  simp only [State.moveSwitch, hv, hgood, htoll, hw, Bool.not_true, Bool.false_eq_true, if_false, if_true]

section
variable {u : State} (hw : t.moveWaits x v.victim = false) (hu : u = t.swapPages x v.victim)
include hw hu

theorem State.moveSwitch_background (hwhy : v.why = .background) : s.moveSwitch x =
    { u with mem := { u.mem with cleanFrom := tput noneD u.mem.cleanFrom x none } } := by
  subst ht hu
  simp only [State.moveSwitch, hv, hgood, htoll, hw, hwhy, State.moveEnd, Bool.not_true, Bool.false_eq_true, if_false]

theorem State.moveSwitch_ford {f : Nat} (hwhy : v.why = .ford f) : s.moveSwitch x =
    ({ u with mem := { u.mem with cleanFrom := tput noneD u.mem.cleanFrom x (some (t.mem.frame x)) } } : State).fordAdvance f := by
  subst ht hu
  simp only [State.moveSwitch, hv, hgood, htoll, hw, hwhy, State.moveEnd, Bool.not_true, Bool.false_eq_true, if_false]

end
end
end
end

/-! ACCESS_COUNTER_HALVING. -/

theorem State.halve_due (h : s.mem.epochAt + s.rd 0x80000C * 10000 ≤ s.pwr.time) : s.halve = { s with mem := { s.mem with
    access := s.mem.access.filterMap (fun e => if e.2 / 2 = 0 then none else some (e.1, e.2 / 2)), epochAt := s.pwr.time } } :=
  if_neg (Nat.not_lt.2 h)

end

/-- Settles O47: a placement by its first failed check and then page by page, a start by the tolls, a switch by whether its move
still holds. -/
theorem pagesPlacedAndMoved : Obligations.PagesPlacedAndMoved := by
  refine ⟨?place, ?pages, ?start, ?switch, fun s h => next_congr (State.halve_due h)⟩
  case place =>
    rintro q s c n h rfl h1
    refine ⟨fun hn => next_congr (State.ttPlace_nothing h h1 hn), fun hn =>
      ⟨fun ha => next_congr (State.ttPlace_bad_place h h1 hn ha), fun hlocal halign hform => ⟨fun hin => ?_, fun hin hr => ?_,
        fun hin hr => ?_⟩⟩⟩
    · exact next_congr (State.ttPlace_out_of_range h h1 hn hlocal halign hform hin)
    · exact next_congr (State.ttPlace_barred h h1 hn hlocal halign hform hin hr)
    · exact next_congr (State.ttPlace_places h h1 hn hlocal halign hform hin hr)
  case pages =>
    exact fun q x n f p cap s hp => ⟨State.placePages_done f hp, fun t => State.placePages_waits f hp,
      fun t moved hlt => State.placePages_goes_on f hp hlt⟩
  case start =>
    exact fun x s v hon hrun hrate hv => ⟨fun hx hout => next_congr (State.bgStart_moves hon hrun hrate hv hx hout),
      fun h => next_congr (State.bgStart_barred hon hrun hrate hv h)⟩
  case switch =>
    refine fun x s t v hv ht => ⟨fun hgood => next_congr (State.moveSwitch_given_up hv ht hgood),
      fun hgood htoll => next_congr (State.moveSwitch_skipped hv ht hgood htoll),
      fun hgood htoll hw => next_congr (State.moveSwitch_waits hv ht hgood htoll hw), fun hgood htoll hw => ⟨?_, ?_⟩⟩
    · exact fun u hwhy hu => next_congr (State.moveSwitch_background hv ht hgood htoll hw hu hwhy)
    · exact fun f u hwhy hu => next_congr (State.moveSwitch_ford hv ht hgood htoll hw hu hwhy)

end Sys2Proof.Machine
end

section
/-!
Fords (R171 to R174): what sets one, what a step brings back and asks for, what ends one.
-/
namespace Sys2Proof.Machine

section
variable {s : State} {q : Nat} {c : Cmd}

/-! TT_FORD_SET. -/

/-- The checks of TT_FORD_SET on its first parameter word (R171). -/
def State.fordFields (s : State) (c : Cmd) : Except Fail Unit :=
  bitCheck 0 [bitIf (s.mem.ford (fld (c.p 0) 2 0)).active 0, lowBit (c.p 0) (bmask 7 3),
    bitIf (fld (c.p 0) 14 8 == 0 || decide (64 < fld (c.p 0) 14 8)) 8, lowBit (c.p 0) (bmask 15 15),
    bitIf (fld (c.p 0) 26 16 == 0) 16, lowBit (c.p 0) (bmask 63 27)]

section
variable (h : s.running q 0x4030 = some c)
include h

theorem State.fordSet_refused {f : Fail} (hc : s.fordFields c = .error f) : s.fordSet q = s.failCmd q f :=
  (match_some h).trans (match_error hc)

section
variable {n : Nat} (hc : s.fordFields c = .ok ()) (hn : n = fld (c.p 0) 26 16)
include hc hn

theorem State.fordSet_barred {f : Fail} (ha : s.checkAddr q (c.p 1) (8 * n) 1 8 = .error f) :
    s.fordSet q = (s.noteBme f).failCmd q f := by
  subst hn
  exact (match_some h).trans <| (match_ok hc).trans <| match_error ha

section
variable {bs : List Byte} {k : Nat} {t : State} {ls : List (Nat × Nat)} (ha : s.checkAddr q (c.p 1) (8 * n) 1 8 = .ok ())
  (ht : s.readTable q (c.p 1) 1 5 0 (8 * n) = ((.bytes bs, k), t)) (hls : ls = (wordsOf n bs).map layerOf)
  (hok : ((wordsOf n bs).any (fun x => fld x 63 41 != 0 || fld x 40 20 == 0) || layersMeet ls) = false)
include ha ht hls hok

theorem State.fordSet_bad_layer (hl : (ls.any fun p => !t.layerOk (s.ctx q) p) = true) :
    s.fordSet q = t.failCmd q (badAddr 1 5) := by
  subst hn hls
  unfold State.fordFields at hc
  simp only [State.fordSet, h, hc, ha, ht, hok, hl, Bool.false_eq_true, if_false, if_true]

theorem State.fordSet_sets (hl : (ls.any fun p => !t.layerOk (s.ctx q) p) = false) : s.fordSet q =
    (t.setFord (fld (c.p 0) 2 0) ⟨true, s.ctx q, fld (c.p 0) 14 8, ls, false, 0, false, [], false, []⟩).endCmd q stOK 0 := by
  subst hn hls
  unfold State.fordFields at hc
  simp only [State.fordSet, h, hc, ha, ht, hok, hl, Bool.false_eq_true, if_false]

end
end
end

/-! TT_FORD_STEP. -/

/-- The pages that a step takes out of the window of ford f, which becomes g: resident pages of layers still kept (R173). -/
def State.fordBack (s : State) (f g : Ford) : List Nat :=
  ((List.range f.layers.length).filter (s.layerKept f)).flatMap fun i => (f.layerPages i).filter fun x => !g.holds x && !s.mem.inCap x

/-- A step to layer l that turns ford f into g, once its fields are checked: a layer of the window may be lost, a return may have
to wait, and otherwise the pages return and the ford goes on (R172, R173). -/
def State.fordTurn (s : State) (q fi l : Nat) (f g : Ford) : State :=
  if g.window.any fun i => !s.layerKept f i then s.failCmd q (badAddr 0 5)
  else if (s.fordBack f g).any fun x => (s.mem.cleanPage x).isNone && s.accessWaits (x * pageBytes) pageBytes then s
  else
    let t := ({ s with mem := s.mem.dropMoves fun v => v.why == MoveWhy.ford fi } : State).setFord fi g
    let u := (s.fordBack f g).foldl State.fordReturn t
    (if u.resident g l then u else u.evTir 1).fordAdvance fi

section
variable {fi l : Nat} {f g : Ford}

theorem State.fordTurn_lost_layer (hlost : (g.window.any fun i => !s.layerKept f i) = true) :
    s.fordTurn q fi l f g = s.failCmd q (badAddr 0 5) := if_pos hlost

section
variable (hkept : (g.window.any fun i => !s.layerKept f i) = false)
include hkept

theorem State.fordTurn_waits (hwait : ((s.fordBack f g).any fun x =>
    (s.mem.cleanPage x).isNone && s.accessWaits (x * pageBytes) pageBytes) = true) : s.fordTurn q fi l f g = s := by
  rw [State.fordTurn, hkept, if_neg Bool.false_ne_true, if_pos hwait]

theorem State.fordTurn_advances {t u v : State} (hgo : ((s.fordBack f g).any fun x =>
      (s.mem.cleanPage x).isNone && s.accessWaits (x * pageBytes) pageBytes) = false)
    (ht : t = ({ s with mem := s.mem.dropMoves fun v => v.why == MoveWhy.ford fi } : State).setFord fi g)
    (hu : u = (s.fordBack f g).foldl State.fordReturn t) (hv : v = if u.resident g l then u else u.evTir 1) :
    s.fordTurn q fi l f g = v.fordAdvance fi := by
  subst ht hu hv
  rw [State.fordTurn, hkept, if_neg Bool.false_ne_true, hgo, if_neg Bool.false_ne_true]

end
end

section
variable {f : Ford} {l : Nat} (h : s.running q 0x4031 = some c) (hf : f = s.mem.ford (fld (c.p 0) 2 0))
  (hw : (f.waiters.any fun w => w.1 == q) = false) (hact : f.active = true) (h0 : lowBit (c.p 0) (bmask 15 4) = none)
  (h1 : lowBit (c.p 0) (bmask 63 27) = none) (hl : l = fld (c.p 0) 26 16)
include h hf hw hact h0 h1 hl

theorem State.fordStep_past_layers (hend : f.layers.length ≤ l) : s.fordStep q = s.failCmd q (badParam 0 16) := by
  have hchk : bitCheck 0 [bitIf (!f.active) 0, lowBit (c.p 0) (bmask 15 4), bitIf (f.active && decide (f.layers.length ≤ l)) 16,
      lowBit (c.p 0) (bmask 63 27)] = .error (badParam 0 16) := by
    rw [hact, h0, h1, decide_eq_true hend]; rfl
  subst hf hl
  exact (match_some h).trans <| (if_neg (Bool.eq_false_iff.1 hw)).trans <| match_error hchk

theorem State.fordStep_turns {g : Ford} (hlt : l < f.layers.length)
    (hg : g = { f with dir := bitAt (c.p 0) 3, layer := l, stepped := true, waiters := f.waiters ++ [(q, l)], filling := true }) :
    s.fordStep q = s.fordTurn q (fld (c.p 0) 2 0) l f g := by
  have hchk : bitCheck 0 [bitIf (!f.active) 0, lowBit (c.p 0) (bmask 15 4), bitIf (f.active && decide (f.layers.length ≤ l)) 16,
      lowBit (c.p 0) (bmask 63 27)] = .ok () := by
    rw [hact, h0, h1, decide_eq_false (Nat.not_le.2 hlt)]; rfl
  subst hf hl hg
  exact (match_some h).trans <| (if_neg (Bool.eq_false_iff.1 hw)).trans <| match_ok hchk

end

/-! TT_FORD_END. -/

section
variable (h : s.running q 0x4032 = some c)
include h

theorem State.fordEnd_inactive (hact : (s.mem.ford (fld (c.p 0) 2 0)).active = false) :
    s.fordEnd q = s.failCmd q (badParam 0 0) := by
  simp only [State.fordEnd, h, hact, Bool.not_false, bitIf_true, bitCheck_zero_cons]

theorem State.fordEnd_ends (h0 : lowBit (c.p 0) (bmask 63 3) = none)
    (hact : (s.mem.ford (fld (c.p 0) 2 0)).active = true) : s.fordEnd q =
    (({ s with mem := s.mem.dropMoves fun v => v.why == MoveWhy.ford (fld (c.p 0) 2 0) } : State).setFord (fld (c.p 0) 2 0)
      Ford.empty).endCmd q stOK 0 := by
  simp only [State.fordEnd, h, hact, h0, Bool.not_true, bitIf_false, bitCheck_none_cons, bitCheck_nil]

end
end

/-- Settles O48: a set by its checks and its table, a step by the layers that are still kept, an end by whether the ford is set. -/
theorem fordsRun : Obligations.FordsRun := by
  rintro q s c fi rfl
  refine ⟨?set, ?step, fun h h0 => ⟨fun hact => next_congr (State.fordEnd_inactive h hact),
    fun hact => next_congr (State.fordEnd_ends h h0 hact)⟩⟩
  case set =>
    rintro w n chk h rfl rfl rfl
    refine ⟨fun f hc => next_congr (State.fordSet_refused h hc), fun f hc ha => next_congr (State.fordSet_barred h hc rfl ha), ?_⟩
    exact fun bs t ls k hc ha ht hls hok => ⟨fun hl => next_congr (State.fordSet_bad_layer h hc rfl ha ht hls hok hl),
      fun hl => next_congr (State.fordSet_sets h hc rfl ha ht hls hok hl)⟩
  case step =>
    intro l f h hl hf hw hact h0 h1
    refine ⟨fun hend => next_congr (State.fordStep_past_layers h hf hw hact h0 h1 hl hend), ?_⟩
    rintro g back t u v hlt hg rfl
    have hturn := State.fordStep_turns h hf hw hact h0 h1 hl hlt hg
    exact ⟨fun hlost => next_congr (hturn.trans (State.fordTurn_lost_layer hlost)), fun hkept =>
      ⟨fun hwait => next_congr (hturn.trans (State.fordTurn_waits hkept hwait)),
        fun hgo ht hu hv => next_congr (hturn.trans (State.fordTurn_advances hkept hgo ht hu hv))⟩⟩

end Sys2Proof.Machine
end

section
/-!
A write to part of a word (R373, R378): in qualification mode the bytes of an activation word are taken as they are stored, an
upset among them included.
-/
namespace Sys2Proof.Machine

/-- Page 0 a region for activations, qualification mode on (R378), every byte zero, and an upset of byte 1 of the first word. -/
def qualUpset : State :=
  { State.reset.setReg 0x1100000 2 with mem := { Mem.reset with
    regions := [(0, some ⟨0, 1 + 2 ^ 27, 0, 0, 0, [], false⟩)], errs := [(0, [(1, 0xFF)])] } }

theorem qualUpset_plain : qualUpset.mem.wf = true ∧ qualUpset.mem.plain 0 1 = true := by decide +kernel

theorem qualUpset_dataByte : qualUpset.mem.dataByte 1 = 0 := by decide +kernel

/-- The merge of a one-byte write takes byte 1 as stored: the upset is its data from then on. -/
theorem qualUpset_memWrite_dataByte : (qualUpset.memWrite 0 [0x55]).mem.dataByte 1 = 0xFF := by decide +kernel

/-- Refutes O60: a write of byte 0 of a word of an activation region in qualification mode changes byte 1 of the word, which it
does not cover, where that byte has been struck by an upset that is not corrected. -/
theorem not_memoryWritesStore : ¬ Obligations.MemoryWritesStore := by
  intro h
  obtain ⟨hwf, hplain⟩ := qualUpset_plain
  have hkept := (h 0 [0x55] qualUpset hwf hplain).1 1 (Or.inr (Nat.le_refl 1))
  rw [qualUpset_memWrite_dataByte, qualUpset_dataByte] at hkept
  exact absurd hkept (by decide)

end Sys2Proof.Machine
end

section
/-!
Near-bank commands and their row operations (R197 to R224): the start the four commands share, the issue of a row index under
the cap, the end of a row operation, and the switch of a repair.
-/
namespace Sys2Proof.Machine

section
variable {s : State} {q : Nat} {c : Cmd}

/-! The commands (R202, R224). -/

/-- How a near-bank command starts: the checks of its fields, the end with nothing to do, the checks of what it names, and its
run. -/
def State.nbBegin (s : State) (q : Nat) (fields : Except Fail Unit) (nothing : Prop) [Decidable nothing] (named : Except Fail Unit)
    (run : State) : State :=
  match fields with
  | .error f => s.nbFail q f
  | .ok () =>
    if nothing then s.endCmd q stOK 0
    else match named with
      | .error f => s.nbFail q f
      | .ok () => run

section
variable {nothing : Prop} [Decidable nothing] {named : Except Fail Unit} {t : State}

theorem State.nbBegin_refused (f : Fail) : s.nbBegin q (.error f) nothing named t = s.nbFail q f := rfl

theorem State.nbBegin_nothing (h : nothing) : s.nbBegin q (.ok ()) nothing named t = s.endCmd q stOK 0 := if_pos h

theorem State.nbBegin_barred (h : ¬ nothing) (f : Fail) : s.nbBegin q (.ok ()) nothing (.error f) t = s.nbFail q f := if_neg h

theorem State.nbBegin_starts (h : ¬ nothing) : s.nbBegin q (.ok ()) nothing (.ok ()) t = t := if_neg h

end

theorem State.nbFerry_goes_on (h : s.running q 0x3001 = some c) (hr : s.nbRun q ≠ none) : s.nbFerry q = s.nbAdvance q := by
  simp only [State.nbFerry, h, Option.isSome_iff_ne_none.2 hr, if_true]

theorem State.nbFerry_begins (h : s.running q 0x3001 = some c) (hr : s.nbRun q = none) : s.nbFerry q =
    s.nbBegin q (ferryFields c) (fld (c.p 0) 7 0 = 0 ∨ fld (c.p 0) 63 48 = 0 ∨ fld (c.p 0) 13 8 = 0) (s.ferryAddrs q c)
      (s.ferryStart q c) := by
  simp only [State.nbFerry, h, hr, Option.isSome_none, Bool.false_eq_true, if_false]
  rfl

theorem State.nbOptimize_begins (h : s.running q 0x3002 = some c) (hr : s.nbRun q = none) : s.nbOptimize q =
    s.nbBegin q (optFields c) (fld (c.p 0) 7 0 = 0 ∨ fld (c.p 1) 29 0 = 0) (s.optChecks q c)
      ((s.optStart q c).nbAdvance q) := by
  rw [State.nbOptimize, h]
  refine (if_neg (by simp [hr])).trans ?_
  cases optFields c with
  | error f => rfl
  | ok _ => cases s.optChecks q c <;> rfl

theorem State.nbAttend_begins (h : s.running q 0x3003 = some c) (hr : s.nbRun q = none) : s.nbAttend q =
    s.nbBegin q (s.attChecks q c) (fld (c.p 0) 7 0 = 0 ∨ fld (c.p 0) 31 16 = 0) (.ok ())
      ((s.setNRun (newRun q 0x3003 [])).attLoad q c (newRun q 0x3003 [])) := by
  simp only [State.nbAttend, h, hr]
  rfl

theorem State.nbAttend_loads {r : NbRun} (h : s.running q 0x3003 = some c) (hr : s.nbRun q = some r) (hl : r.loaded = false) :
    s.nbAttend q = s.attLoad q c r := by
  simp only [State.nbAttend, h, hr, hl, Bool.false_eq_true, if_false]

theorem State.nbRepair_begins (h : s.running q 0x3004 = some c) (hr : s.nbRun q = none) : s.nbRepair q =
    s.nbBegin q (s.repairCheck q c) False (.ok ())
      ((s.setNRun (newRun q 0x3004 [⟨fld (c.p 0) 10 0 / 256, 0, 0, 16, [], none⟩])).setHold (8 * fld (c.p 0) 10 0) 0 true) := by
  simp only [State.nbRepair, h, hr]
  rfl

theorem State.nbRepair_goes_on {r : NbRun} (h : s.running q 0x3004 = some c) (hr : s.nbRun q = some r) :
    s.nbRepair q = s.repairNext r (fld (c.p 0) 10 0) := by
  simp only [State.nbRepair, h, hr]

end

/-! ROW_INDEX_ISSUE (R201, R219). -/

section
variable {s : State} {k : Nat} {r : NbRun} {x : NbStack} {c : Cmd}

theorem State.capApplies_iff : s.capApplies = true ↔ s.rbit 0xA00008 8 = true ∨ (s.mat.items.any fun e => e.2.isSome) = true := by
  rw [State.capApplies, Bool.or_eq_true]

theorem State.overCap_iff {n : Nat} :
    s.overCap k n = true ↔ s.colsNow k ≠ 0 ∧ s.rf 0xA00008 7 0 * 1250000 ≤ s.colsNow k + n := by
  rw [State.overCap, Bool.and_eq_true, bne_iff_ne, decide_eq_true_eq]

/-- The column bytes that a row index of a stack moves when nothing fails (R219). -/
def NbRun.rowBytes (r : NbRun) (c : Cmd) (st i free : Nat) : Nat := ((nbWork c r st i).map fun p => colBytes c r free p i).sum

section
variable (hr : s.rowToIssue k = some r) (hx : r.stackRuns.find? (fun x => x.stack == k) = some x)
  (hc : (s.q r.queue).cmd = some c)
include hr hx hc

theorem State.rowIssue_uncapped (hcap : s.capApplies = false) : s.rowIssue k = (s.setCapHeld k false).rowStart k r x c := by
  simp only [State.rowIssue, hr, hx, hc, hcap, Bool.false_eq_true, if_false]

section
variable (hcap : s.capApplies = true)
include hcap

/-- The arbiter holds the row index over the cap, or by a lower cap it enforces; otherwise the row index starts. -/
theorem State.rowIssue_capped : s.rowIssue k =
    if s.overCap k (r.rowBytes c k x.next (Config.beats s.draws).toNat) || bitAt (Config.freeWord s.draws).toNat 0 then
      (s.setCapHeld k true).draw.evNbu 5 else (s.setCapHeld k false).draw.rowStart k r x c := by
  simp only [State.rowIssue, hr, hx, hc, hcap, if_true]
  rfl

theorem State.rowIssue_held_or_starts : s.rowIssue k = (s.setCapHeld k true).draw.evNbu 5 ∨
    s.rowIssue k = (s.setCapHeld k false).draw.rowStart k r x c := by
  rw [State.rowIssue_capped hr hx hc hcap]
  split
  · exact .inl rfl
  · exact .inr rfl

theorem State.rowIssue_over_cap (hover : s.overCap k (r.rowBytes c k x.next (Config.beats s.draws).toNat) = true) :
    s.rowIssue k = (s.setCapHeld k true).draw.evNbu 5 := by
  rw [State.rowIssue_capped hr hx hc hcap, hover, Bool.true_or, if_pos rfl]

end
end
end

/-! ROW_OPERATION_END (R197, R199, R203). -/

section
variable {s : State} {u : Nat} {flt : Option Nat} {r : NbRun} {x : NbStack} {c : Cmd}

/-- What unit u's row operation computes, by the command's opcode. -/
def State.unitRow (s : State) (c : Cmd) (r : NbRun) (u i : Nat) (flt : Option Nat) : UnitEnd :=
  match r.op with
  | 0x3001 => s.ferryRow c r u i flt
  | 0x3002 => s.optimizeRow c r u i flt
  | _ => s.attendRow c r u i flt

/-- Of the failure that a stack's row has so far and that of unit u, the one of the lower pair (log entry 27). -/
def lowerFail (u : Nat) (old : Option (Nat × Byte × Nat)) (new : Option Fail) : Option (Nat × Byte × Nat) :=
  match old, new with
  | some f, some g => if u < f.1 then some (u, g.st, g.detail) else some f
  | some f, none => some f
  | none, some g => some (u, g.st, g.detail)
  | none, none => none

theorem State.rowEnd_ends {y : NbStack} {run : NbRun} {e : UnitEnd} {fail : Option (Nat × Byte × Nat)} {moved : Nat} {t v : State}
    (hr : s.nbu.runs.find? (fun r => (r.stackFor u).isSome) = some r) (hx : r.stackFor u = some x)
    (hc : (s.q r.queue).cmd = some c) (he : e = s.unitRow c r u x.cur flt) (hfail : fail = lowerFail u x.fail e.2.1)
    (hy : y = { x with todo := x.todo.filter (fun p => p != u), fail := fail })
    (hrun : run = { (e.1.setStack y) with stopping := (e.1.setStack y).stopping || fail.isSome })
    (ht : t = (e.2.2.setHold u x.cur false).setNRun run)
    (hmoved : moved = if e.2.1.isSome then (Config.beats t.draws).toNat else if e.1.skipped ≠ r.skipped then 32
      else colBytes c r (Config.beats t.draws).toNat u x.cur)
    (hv : v = ((t.bump64 (0xA10008 + 0x20 * x.stack) 1).addCols x.stack moved).draw) :
    s.rowEnd u flt = (if y.todo.isEmpty then v.rowDone run y else v).nbAdvance r.queue := by
  subst hv hmoved ht hrun hy hfail he
  simp only [State.rowEnd, hr, hx, hc]
  rfl

end

/-! REPAIR_MAP_SWITCH (R220). -/

theorem State.repairSwitch_switches {s t u : State} {k : Nat} {r : NbRun} {c : Cmd} {x : NbRun × State}
    (hr : s.nbu.runs.find? (fun r => r.op == 0x3004 && r.stackRuns.any fun x => x.stack == k) = some r)
    (hc : (s.q r.queue).cmd = some c)
    (hx : x = (List.range' r.place (16 - r.place)).foldl (fun a b => a.2.repairBank a.1 (fld (c.p 0) 10 0) b) (r, s))
    (ht : t = (x.2.mem.groupErrs (fld (c.p 0) 10 0)).foldl State.arriveWord x.2)
    (hu : u = { t with nbu := { t.nbu with
      map := tput homeMap t.nbu.map (fld (c.p 0) 10 0) (fld (c.p 0) 19 16), bySw := tput noFlag t.nbu.bySw (fld (c.p 0) 10 0) true } }) :
    s.repairSwitch k = if x.1.skipped = 0 then u.nbEnd r.queue stOK 0
      else u.nbEnd r.queue stNoted (min x.1.skipped 0xFFFFFFFF) := by
  subst hu ht hx
  simp only [State.repairSwitch, hr, hc]

/-- Settles O44: the commands by the start they share, an issue by whether the cap applies and is reached, the end of a row and
of a repair by what it leaves to be done. -/
theorem nearBankCommandsRun : Obligations.NearBankCommandsRun := by
  refine ⟨fun q s c => ⟨fun h => ⟨fun hr => next_congr (State.nbFerry_goes_on h hr), fun hr => ?ferry⟩, fun h hr => ?optimize,
    fun h hr => ?attend, fun r h hr hl => next_congr (State.nbAttend_loads h hr hl), fun h hr => ?repair,
    fun r h hr => next_congr (State.nbRepair_goes_on h hr)⟩, ?issue, ?ends, ?switch⟩
  case ferry =>
    have hbegin := State.nbFerry_begins h hr
    refine ⟨fun f hc => next_congr ?_, fun hc h0 => next_congr ?_, fun hc hst hn hp => ?_⟩
    · rw [hbegin, hc, State.nbBegin_refused]
    · rw [hbegin, hc, State.nbBegin_nothing h0]
    · have hsome := not_or.2 ⟨hst, not_or.2 ⟨hn, hp⟩⟩
      refine ⟨fun f ha => next_congr ?_, fun ha => next_congr ?_⟩
      · rw [hbegin, hc, ha, State.nbBegin_barred hsome]
      · rw [hbegin, hc, ha, State.nbBegin_starts hsome]
  case optimize =>
    have hbegin := State.nbOptimize_begins h hr
    refine ⟨fun f hc => next_congr ?_, fun hc h0 => next_congr ?_, fun hc hst hn => ?_⟩
    · rw [hbegin, hc, State.nbBegin_refused]
    · rw [hbegin, hc, State.nbBegin_nothing h0]
    · have hsome := not_or.2 ⟨hst, hn⟩
      refine ⟨fun f ha => next_congr ?_, fun ha => next_congr ?_⟩
      · rw [hbegin, hc, ha, State.nbBegin_barred hsome]
      · rw [hbegin, hc, ha, State.nbBegin_starts hsome]
  case attend =>
    have hbegin := State.nbAttend_begins h hr
    refine ⟨fun f hc => next_congr ?_, fun hc h0 => next_congr ?_, fun hc hst hn => next_congr ?_⟩
    · rw [hbegin, hc, State.nbBegin_refused]
    · rw [hbegin, hc, State.nbBegin_nothing h0]
    · rw [hbegin, hc, State.nbBegin_starts (not_or.2 ⟨hst, hn⟩)]
  case repair =>
    have hbegin := State.nbRepair_begins h hr
    refine ⟨fun f hc => next_congr ?_, fun hc => next_congr ?_⟩
    · rw [hbegin, hc, State.nbBegin_refused]
    · rw [hbegin, hc, State.nbBegin_starts not_false]
  case issue =>
    rintro k s r x y c go hr hx hc rfl rfl
    refine ⟨fun halways hbusy => next_congr (State.rowIssue_uncapped hr hx hc ?_), fun hcap => ?_⟩
    · rw [State.capApplies, halways, hbusy, Bool.or_self]
    · have hcapped := State.capApplies_iff.2 hcap
      refine ⟨(State.rowIssue_held_or_starts hr hx hc hcapped).imp next_congr next_congr, ?_⟩
      rintro n rfl hcols hover
      exact next_congr (State.rowIssue_over_cap hr hx hc hcapped (State.overCap_iff.2 ⟨hcols, hover⟩))
  case ends =>
    intro u flt s t v r run x y c e fail moved hr hx hc he hfail hy hrun ht hmoved hv
    exact next_congr (State.rowEnd_ends hr hx hc he hfail hy hrun ht hmoved hv)
  case switch =>
    intro k s t u r c x hr hc hx ht hu
    exact next_congr (State.repairSwitch_switches hr hc hx ht hu)

end Sys2Proof.Machine
end

section
/-!
Collectives (R226 to R230, R246 to R249): their start and steps, XC_RANK_SET, and the time a rank is waited for.
-/
namespace Sys2Proof.Machine

/-- The collectives of Table 9.4 with the rows of the opcode table that carry them out, and the residue fault each row may name. -/
def collectiveRows (q : QId) (flt : Bool) : List (Nat × Instr × Bool) :=
  [(0x5001, Instr.xcReduce q flt, flt), (0x5002, Instr.xcReduceComp q flt, flt), (0x5003, Instr.xcGather q, false),
    (0x5004, Instr.xcBroadcast q, false), (0x5005, Instr.xcAttnCombine q flt, flt)]

/-- The collectives share one row. -/
theorem exec_collectiveRow (q : QId) (flt : Bool) (s : State) :
    ∀ x ∈ collectiveRows q flt, exec x.2.1 s = .next (s.collective q.val x.1 x.2.2) := by
  simp only [collectiveRows, List.forall_mem_cons]
  exact ⟨rfl, rfl, rfl, rfl, rfl, fun _ h => absurd h List.not_mem_nil⟩

section
variable {s : State} {q : Nat} {c : Cmd}

section
variable {op : Nat} {flt : Bool} (h : s.running q op = some c)
include h

/-- A collective that took no sequence number at its dispatch has no run (R227). -/
theorem State.collective_refused (hr : s.xRun q = none) : s.collective q op flt = s.failCmd q (badParam 0xF2 0) := by
  simp only [State.collective, h, hr]

section
variable {r : XRun} (hr : s.xRun q = some r)
include hr

theorem State.collective_goes_on (hb : r.begun = true) : s.collective q op flt = s.xStep q flt := by
  simp only [State.collective, h, hr, hb, if_true]

theorem State.collective_starts (hb : r.begun = false) : s.collective q op flt = s.xStart q c r := by
  simp only [State.collective, h, hr, hb, Bool.false_eq_true, if_false]

end
end

/-! The start (R227, R246 to R249). -/

section
variable {r : XRun}

theorem State.xStart_broken (hs : (s.group r.group).state = 3) :
    s.xStart q c r = (s.dropXRun q).failCmd q ⟨stPeer, (s.group r.group).my % 32768 + 3 * 65536⟩ := if_pos hs

section
variable (hs : (s.group r.group).state ≠ 3)
include hs

theorem State.xStart_bad_fields {f : Fail} (hf : xFields c (s.group r.group).nr = .error f) :
    s.xStart q c r = s.xFail r f.st f.detail 0xFFFF := by
  simp only [State.xStart, if_neg hs, hf]

section
variable (hf : xFields c (s.group r.group).nr = .ok ())
include hf

theorem State.xStart_barred {f : Fail} (hx : s.xChecks q r (s.group r.group).my = .error f) :
    s.xStart q c r = s.xFail r f.st f.detail 0xFFFF := by
  simp only [State.xStart, if_neg hs, hf, hx]

theorem State.xStart_begins {r1 r2 : XRun} (hx : s.xChecks q r (s.group r.group).my = .ok r1)
    (h2 : r2 = { r1 with begun := true, waitAt := s.pwr.time }) :
    s.xStart q c r = ((s.setXRun r2).xSendAll r2 0 0 0 []).takeHeld q := by
  subst h2
  simp only [State.xStart, if_neg hs, hf, hx]

end
end
end

/-! The sequence number (R227). -/

theorem State.xAccepts_iff :
    s.xAccepts q c = true ↔ (s.group (fld (c.p 0) 3 0)).state ≠ 0 ∧ (s.group (fld (c.p 0) 3 0)).queue = q := by
  rw [State.xAccepts, Bool.and_eq_true, bne_iff_ne, beq_iff_eq]

theorem State.xDispatch_takes (hlo : 0x5001 ≤ c.op) (hhi : c.op ≤ 0x5005) (ha : s.xAccepts q c = true) : s.xDispatch q c =
    (s.setXRun (s.xNew q c (fld (c.p 0) 3 0))).setGroup (fld (c.p 0) 3 0)
      { s.group (fld (c.p 0) 3 0) with cseq := (s.group (fld (c.p 0) 3 0)).cseq + 1 } := if_pos ⟨hlo, hhi, ha⟩

theorem State.xDispatch_leaves (h : ¬ (0x5001 ≤ c.op ∧ c.op ≤ 0x5005 ∧ s.xAccepts q c = true)) : s.xDispatch q c = s := if_neg h

/-! XC_RANK_SET (R226). -/

section
variable (h : s.running q 0x5010 = some c)
include h

theorem State.rankSet_refused {f : Fail} (hf : s.rankFields q c = .error f) : s.rankSet q = s.failCmd q f := by
  simp only [State.rankSet, h, hf]

section
variable {bs : List Byte} {t : State} {tb : List Nat} (hf : s.rankFields q c = .ok ())
  (hread : s.opRead q (c.p 2) (2 * fld (c.p 1) 14 0) 2 = (.bytes bs, t))
  (htb : tb = (List.range (fld (c.p 1) 14 0)).map fun i => leNat ((bs.drop (2 * i)).take 2))
include hf hread htb

theorem State.rankSet_bad_table {f : Fail} (ht : s.rankTable c tb = .error f) : s.rankSet q = t.failCmd q f := by
  subst htb
  simp only [State.rankSet, h, hf, hread, ht]

theorem State.rankSet_sets {ep : W32} {u : State} (ht : s.rankTable c tb = .ok ()) (hep : ep = BitVec.ofNat 32 (fld (c.p 1) 63 32))
    (hu : u = t.setGroup (fld (c.p 0) 3 0)
      ⟨1, fld (c.p 1) 14 0, fld (c.p 1) 30 16, ep, 0, fld (c.p 0) 12 4, fld (c.p 0) 27 16, tb, 0, 0⟩) :
    s.rankSet q = (u.dropHeld fun h => h.group == fld (c.p 0) 3 0 && gtMod ep h.epoch).endCmd q stOK 0 := by
  subst hu hep htb
  simp only [State.rankSet, h, hf, hread, ht]

end
end
end

/-! PEER_TIMEOUT (R248). -/

section
variable {s : State} {g k : Nat} {r : XRun} (hr : s.xch.runs.find? (fun r => r.group == g && r.begun) = some r)
  (hk : r.awaited (s.group g).my = some k)
include hr hk

theorem State.peerTimeout_storing (hst : r.storing (s.group g).my = true) : s.peerTimeout g = s := by
  simp only [State.peerTimeout, hr, hk, hst, Bool.not_true, Bool.false_eq_true, and_false, if_false]

theorem State.peerTimeout_fails (hdue : s.due r.waitAt (s.rd 0xC00008) = true) (hst : r.storing (s.group g).my = false) :
    s.peerTimeout g = s.xFail r stPeer (k % 32768 + 65536) 0xFFFF := by
  simp only [State.peerTimeout, hr, hk, hdue, hst, Bool.not_false, and_self, if_true]

end

/-- Settles O50: a collective by its run and the start of one, the sequence number by what R227 accepts, a rank table by its
checks, and a rank that is late by whether the next step is its own. -/
theorem collectivesRun : Obligations.CollectivesRun := by
  refine ⟨?runs, ?sequence, fun q s c h => ⟨fun f hf => next_congr (State.rankSet_refused h hf), ?table⟩,
    fun g s r k hr hk hdue => ⟨fun hst => next_congr (State.peerTimeout_storing hr hk hst),
      fun hst => next_congr (State.peerTimeout_fails hr hk hdue hst)⟩⟩
  case runs =>
    intro q flt s c x hx h
    have hexec : exec x.2.1 s = .next (s.collective q.val x.1 x.2.2) := exec_collectiveRow q flt s x hx
    rw [hexec]
    refine ⟨fun hr => next_congr (State.collective_refused h hr), fun r hr hb => next_congr (State.collective_goes_on h hr hb), ?_⟩
    rintro r g hr hb rfl
    rw [State.collective_starts h hr hb]
    exact ⟨fun hs => next_congr (State.xStart_broken hs), fun f hs hf => next_congr (State.xStart_bad_fields hs hf),
      fun f hs hf hx => next_congr (State.xStart_barred hs hf hx),
      fun r1 r2 hs hf hx h2 => next_congr (State.xStart_begins hs hf hx h2)⟩
  case sequence =>
    rintro q s c gi g rfl rfl
    refine ⟨fun hlo hhi hs hq => State.xDispatch_takes hlo hhi (State.xAccepts_iff.2 ⟨hs, hq⟩),
      fun hno => State.xDispatch_leaves ?_⟩
    rintro ⟨hlo, hhi, ha⟩
    obtain ⟨hs, hq⟩ := State.xAccepts_iff.1 ha
    omega
  case table =>
    rintro nr bs tb t hf rfl hread htb
    exact ⟨fun f ht => next_congr (State.rankSet_bad_table h hf hread htb ht),
      fun ep u ht hep hu => next_congr (State.rankSet_sets h hf hread htb ht hep hu)⟩

end Sys2Proof.Machine
end

section
/-!
Packet headers (R257, Tables 10.4 and 10.5): the header of a packet as one number, and the fields read back from it.
-/
namespace Sys2Proof.Machine

@[simp] theorem length_leBytes (n v : Nat) : (leBytes n v).length = n := by
  induction n generalizing v with
  | zero => rfl
  | succ n ih => rw [leBytes, List.length_cons, ih]

theorem leNat_leBytes (n v : Nat) : leNat (leBytes n v) = v % 256 ^ n := by
  induction n generalizing v with
  | zero => rw [Nat.pow_zero, Nat.mod_one]; rfl
  | succ n ih =>
    calc leNat (leBytes (n + 1) v) = v % 256 + 256 * (v / 256 % 256 ^ n) := by rw [leBytes, leNat, ih, BitVec.toNat_ofNat]
      _ = v % 256 ^ (n + 1) := by rw [Nat.pow_succ' (m := 256), Nat.mod_mul]

/-- The header of a packet as one number (Table 10.4). -/
def Packet.header (k : Packet) : Nat :=
  k.dst + put k.src 14 + put k.vc 28 + put k.kind 30 + put k.words 34 + put k.chan 40 + put k.flow 52 + put k.offset 64 +
    put k.tag 105 + put k.hops 121

theorem Packet.take_bytes (k : Packet) : k.bytes.take 16 = leBytes 16 k.header := List.take_left' (length_leBytes 16 _)

/-- The kinds that have a virtual channel, and the four virtual channels (Table 10.5). -/
theorem kindVc_bounds {kind vc : Nat} (h : kindVc kind = some vc) : kind < 8 ∧ vc < 4 := by
  unfold kindVc at h
  split at h <;> cases h <;> decide

section
variable {k : Packet} (hdst : k.dst < 2 ^ 14) (hsrc : k.src < 2 ^ 14) (hvc : k.vc < 4) (hkind : k.kind < 8)
  (hwords : k.words ≤ 32) (hchan : k.chan < 2 ^ 12) (hflow : k.flow < 2 ^ 12) (hoff : k.offset < 2 ^ 41)
  (htag : k.tag < 2 ^ 16) (hhops : k.hops < 2 ^ 4)
include hdst hsrc hvc hkind hwords hchan hflow hoff htag hhops

theorem Packet.header_lt : k.header < 2 ^ 125 := by
  simp only [Packet.header, put]
  omega

/-- Fields that fit their places do not overlap: each is read back, and the reserved bits are 0. -/
theorem Packet.fld_header :
    fld k.header 13 0 = k.dst ∧ fld k.header 27 14 = k.src ∧ fld k.header 29 28 = k.vc ∧ fld k.header 33 30 = k.kind ∧
    fld k.header 39 34 = k.words ∧ fld k.header 51 40 = k.chan ∧ fld k.header 63 52 = k.flow ∧ fld k.header 104 64 = k.offset ∧
    fld k.header 120 105 = k.tag ∧ fld k.header 124 121 = k.hops ∧ fld k.header 127 125 = 0 := by
  simp only [Packet.header, fld, put]
  refine ⟨?_, ?_, ?_, ?_, ?_, ?_, ?_, ?_, ?_, ?_, ?_⟩ <;> omega

end

/-- Settles O32: the first 16 bytes are the header, which fits them, and its fields are read back one by one. -/
theorem packetHeaderRoundTrip : Obligations.PacketHeaderRoundTrip := by
  intro k hdst hsrc hkv hwords hchan hflow hoff htag hhops
  obtain ⟨hkind, hvc⟩ := kindVc_bounds hkv
  have hlt : k.header < 256 ^ 16 :=
    Nat.lt_trans (Packet.header_lt hdst hsrc hvc hkind hwords hchan hflow hoff htag hhops) (by decide)
  obtain ⟨edst, esrc, evc, ekind, ewords, echan, eflow, eoff, etag, ehops, erest⟩ :=
    Packet.fld_header hdst hsrc hvc hkind hwords hchan hflow hoff htag hhops
  rw [Packet.take_bytes, leNat_leBytes, Nat.mod_eq_of_lt hlt]
  simp only [Packet.ofHeader, edst, esrc, evc, ekind, ewords, echan, eflow, eoff, etag, ehops, erest, hwords, hkv,
    and_self, if_true]

end Sys2Proof.Machine
end

section
/-!
Control registers of the fabric and the intake engine (R267, R269, R272, R301): what a 4-byte write of the host does to each.
-/
namespace Sys2Proof.Machine

section
variable {s : State} {off data : Nat} {a : RegAt}

/-- An open BAR0 hands a 4-byte write of a control register that is not posted to the register's own rule (R415). -/
theorem State.regWrite_ctl (hb : s.barOpen = true) (h4 : off % 4 = 0) (hd : data < 4294967296)
    (hx : ¬ (0x440000 ≤ off ∧ off < 0x448000) ∧ ¬ (0xF10000 ≤ off ∧ off < 0xF11000)) (ha : regAt off = some a)
    (hk : a.reg.kind = .ctl false) : s.regWrite off 4 data = s.byWrite fun _ => s.ctlWrite a off data := by
  rw [State.regWrite_word hb h4 hx.2, Nat.mod_eq_of_lt hd]
  refine State.byWrite_congr ?_
  simp only [State.barWordWrite, if_neg hx.1, ha, hk]

theorem State.ctlWrite_unselected (hm : a.selected data = 0) : s.ctlWrite a off data = s := by
  rw [State.ctlWrite]; exact if_pos hm

theorem State.ctlWrite_fab (hm : a.selected data ≠ 0) (hlo : 0xD00000 ≤ off) (hhi : off < 0xE00000) :
    s.ctlWrite a off data = s.writeFab a.n off (a.selected data)
      (if off = 0xD00038 then data % 65536 else s.configPayload a off data)
      (data &&& a.selected data &&& a.reg.actMask) := by
  rw [State.ctlWrite]
  exact (if_neg hm).trans ((if_neg (by omega)).trans ((if_neg (by omega)).trans ((if_neg (by omega)).trans (if_pos hhi))))

theorem State.ctlWrite_itk (hm : a.selected data ≠ 0) (hlo : 0xE00000 ≤ off) (hhi : off < 0xF00000) :
    s.ctlWrite a off data = s.writeItk off (s.configPayload a off data) (data &&& a.selected data &&& a.reg.actMask) := by
  rw [State.ctlWrite]
  exact (if_neg hm).trans ((if_neg (by omega)).trans ((if_neg (by omega)).trans ((if_neg (by omega)).trans
    ((if_neg (by omega)).trans (if_pos hhi)))))

end

/-- At an offset lies a control register without action bits and without ranges, which is not posted: the bits it stores, and
whether it is triplicated. -/
def isPlainCtl (off store : Nat) (voted : Bool) : Bool :=
  (regAt off).any fun a => decide (a.reg.kind = .ctl false) && a.reg.actMask == 0 && a.reg.storeMask == store &&
    (a.reg.tMask != 0) == voted && (fieldRanges off).isEmpty

theorem isPlainCtl_rtShadow : isPlainCtl 0xD00038 0xFFFF false = true := by decide +kernel
theorem isPlainCtl_idCfg : isPlainCtl 0xD00008 49151 true = true := by decide +kernel
theorem isPlainCtl_cacheRegion : isPlainCtl 0xE0000C 36863 false = true := by decide +kernel

/-- What a write finds there: the bits it selects and the payload it asks for. -/
theorem isPlainCtl_spec {off store : Nat} {voted : Bool} (h : isPlainCtl off store voted = true) : ∃ a, regAt off = some a ∧
    a.reg.kind = .ctl false ∧ (∀ data, a.selected data = data / 65536 &&& store) ∧
    ∀ (s : State) (data : Nat), s.payload off = (if voted then s.rdT off else s.rd off) ∧
      s.configPayload a off data = maskedWrite (s.payload off) data store := by
  simp only [isPlainCtl, Option.any_eq_true, Bool.and_eq_true, decide_eq_true_eq, beq_iff_eq, List.isEmpty_iff] at h
  obtain ⟨a, ha, ⟨⟨⟨hk, hact⟩, hstore⟩, hvoted⟩, hranges⟩ := h
  refine ⟨a, ha, hk, fun data => ?_, fun s data => ⟨?_, ?_⟩⟩
  · rw [RegAt.selected, hstore, hact, Nat.or_zero]
  · simp only [State.payload, ha]
    by_cases ht : a.reg.tMask = 0
    · simp [← hvoted, ht]
    · simp [← hvoted, ht]
  · rw [State.configPayload, hstore, hranges]; rfl

/-- The masked write of 16 bits, as FAB_RT_SHADOW merges it into the entry at its index (R269). -/
theorem maskedWrite_word (old data : Nat) :
    (old &&& (0xFFFF ^^^ (data / 65536 &&& 0xFFFF))) ||| (data % 65536 &&& (data / 65536 &&& 0xFFFF)) =
      maskedWrite old data 0xFFFF := by
  have hlow : data % 65536 = data &&& 0xFFFF := (Nat.and_two_pow_sub_one_eq_mod data 16).symm
  rw [maskedWrite, hlow, Nat.and_assoc, Nat.and_comm 0xFFFF, Nat.and_assoc, Nat.and_self]

section
variable {s : State} {data : Nat} (hb : s.barOpen = true) (hd : data < 4294967296)
include hb hd

/-- FAB_RT_SHADOW (R269, R272). -/
theorem State.regWrite_rtShadow : s.regWrite 0xD00038 4 data = s.byWrite fun _ => if data / 65536 = 0 then s else
    s.shadowWrite (maskedWrite (tget rtReset s.rtShadow (s.rf 0xD00034 13 0)).toNat data 0xFFFF) := by
  obtain ⟨a, ha, hk, hsel, -⟩ := isPlainCtl_spec isPlainCtl_rtShadow
  have hmask : a.selected data = data / 65536 := by
    rw [hsel, Nat.and_two_pow_sub_one_eq_mod _ 16]
    omega
  rw [State.regWrite_ctl hb (by decide) hd (by decide) ha hk]
  refine State.byWrite_congr ?_
  split
  · next hm => exact State.ctlWrite_unselected (hmask.trans hm)
  · next hm => rw [State.ctlWrite_fab (hmask ▸ hm) (by decide) (by decide), if_pos rfl, hsel, ← maskedWrite_word]; rfl

/-- FAB_ID_CFG (R267). -/
theorem State.regWrite_idCfg : s.regWrite 0xD00008 4 data = s.byWrite fun _ => if data / 65536 &&& 49151 = 0 then s else
    if maskedWrite (s.rdT 0xD00008) data 49151 = s.rdT 0xD00008 then s
    else (s.setReg 0xD00008 (maskedWrite (s.rdT 0xD00008) data 49151)).idConfig := by
  obtain ⟨a, ha, hk, hsel, hpay⟩ := isPlainCtl_spec isPlainCtl_idCfg
  obtain ⟨hold, hnew⟩ := hpay s data
  rw [if_pos rfl] at hold
  rw [State.regWrite_ctl hb (by decide) hd (by decide) ha hk]
  refine State.byWrite_congr ?_
  split
  · next hm => exact State.ctlWrite_unselected ((hsel data).trans hm)
  · next hm =>
    rw [State.ctlWrite_fab (hsel data ▸ hm) (by decide) (by decide), if_neg (by decide), hnew, ← hold]
    rfl

/-- ITK_CACHE_REGION (R301). -/
theorem State.regWrite_cacheRegion : s.regWrite 0xE0000C 4 data = s.byWrite fun _ => if data / 65536 &&& 36863 = 0 then s else
    if !s.pipeEmpty then s.evItk 6
    else if maskedWrite (s.rd 0xE0000C) data 36863 = s.rd 0xE0000C then s
    else (s.setReg 0xE0000C (maskedWrite (s.rd 0xE0000C) data 36863)).cacheEmpty := by
  obtain ⟨a, ha, hk, hsel, hpay⟩ := isPlainCtl_spec isPlainCtl_cacheRegion
  obtain ⟨hold, hnew⟩ := hpay s data
  rw [State.regWrite_ctl hb (by decide) hd (by decide) ha hk]
  refine State.byWrite_congr ?_
  split
  · next hm => exact State.ctlWrite_unselected ((hsel data).trans hm)
  · next hm => rw [State.ctlWrite_itk (hsel data ▸ hm) (by decide) (by decide), hnew, hold]; rfl

end

/-- Settles O12: each register by its own rule, what leaves the control registers alone setting no DIRTY. -/
theorem fabricAndIntakeRegisters : Obligations.FabricAndIntakeRegisters := by
  refine ⟨fun data s hb => ⟨next_congr (State.regWrite_closed hb), next_congr (State.regWrite_closed hb),
    next_congr (State.regWrite_closed hb)⟩, fun data s hb => ⟨fun hm => ?_, fun hm => ?_, fun hm => ?_⟩,
    fun data s v hb => ⟨?written, ?copying, ?id, ?cache⟩⟩
  · exact next_congr ((State.regWrite_rtShadow hb data.isLt).trans (State.byWrite_of_eq (if_pos hm)))
  · exact next_congr ((State.regWrite_idCfg hb data.isLt).trans (State.byWrite_of_eq (if_pos hm)))
  · exact next_congr ((State.regWrite_cacheRegion hb data.isLt).trans (State.byWrite_of_eq (if_pos hm)))
  case written =>
    rintro hm hc rfl
    refine next_congr ((State.regWrite_rtShadow hb data.isLt).trans (State.byWrite_congr ?_))
    rw [if_neg hm, State.shadowWrite, if_neg (by simp [hc])]
  case copying =>
    intro hm hc
    refine next_congr ((State.regWrite_rtShadow hb data.isLt).trans ?_)
    simp only [if_neg hm, State.shadowWrite, if_pos hc]
    exact State.byWrite_of_regs (State.evFab_only s 6 .regs (by decide))
  case id =>
    rintro hm rfl
    refine ⟨fun hv => ?_, fun hv => ?_⟩
    · refine next_congr ((State.regWrite_idCfg hb data.isLt).trans (State.byWrite_congr ?_))
      rw [if_neg hm, if_neg hv]
    · refine next_congr ((State.regWrite_idCfg hb data.isLt).trans (State.byWrite_of_eq ?_))
      rw [if_neg hm, if_pos hv]
  case cache =>
    rintro hm rfl
    refine ⟨fun he hv => ?_, fun he hv => ?_, fun he => ?_⟩
    · refine next_congr ((State.regWrite_cacheRegion hb data.isLt).trans (State.byWrite_congr ?_))
      rw [if_neg hm, if_neg (by simp [he]), if_neg hv]
    · refine next_congr ((State.regWrite_cacheRegion hb data.isLt).trans (State.byWrite_of_eq ?_))
      rw [if_neg hm, if_neg (by simp [he]), if_pos hv]
    · refine next_congr ((State.regWrite_cacheRegion hb data.isLt).trans ?_)
      simp only [if_neg hm, he, Bool.not_false, if_true]
      exact State.byWrite_of_regs (State.evItk_only s 6 .regs (by decide))

end Sys2Proof.Machine
end

section
/-!
The rails switch off (R274, R392, R407): shutdowns by their cause, and deep off with its notices.
-/
namespace Sys2Proof.Machine

section
variable {s : State}

theorem State.powered_iff : s.powered = true ↔ s.pwr.off = 0 := beq_iff_eq

theorem State.shutdown_on {why : Nat} (h : s.pwr.off ≤ 1) : s.shutdown why = s.powerOff why := if_pos h
theorem State.shutdown_off {why : Nat} (h : 1 < s.pwr.off) : s.shutdown why = s := if_neg (by omega)

section
variable {x : Sensor} {t : Int}

theorem State.thermalTrip_above (hp : s.pwr.off = 0) (h : tripAt x < t) : s.thermalTrip x t = s.powerOff 4 := by
  rw [State.thermalTrip, if_pos ⟨State.powered_iff.2 hp, h⟩, State.shutdown_on (by omega)]

theorem State.thermalTrip_below (h : t ≤ tripAt x) : s.thermalTrip x t = s := if_neg fun ⟨_, hlt⟩ => absurd h (Int.not_le.2 hlt)

end

/-- A port of the twelve is DRAINING. -/
theorem State.any_draining_iff :
    (portList.any fun p => (s.port p).state == 5) = true ↔ ∃ p ∈ portList, (s.port p).state = 5 := by
  simp only [List.any_eq_true, beq_iff_eq]

section
variable {n : Nat}

theorem State.deepOffEnd_waits {p : Nat} (hp : p ∈ portList) (h5 : (s.port p).state = 5) (ht : s.pwr.time < n + 100000) :
    s.deepOffEnd n = s := by
  rw [State.deepOffEnd, State.any_draining_iff.2 ⟨p, hp, h5⟩, if_pos (by simpa using ht)]

theorem State.deepOffEnd_off (h : (∀ p ∈ portList, (s.port p).state ≠ 5) ∨ n + 100000 ≤ s.pwr.time) :
    s.deepOffEnd n = s.powerOff 1 := by
  refine if_neg fun hwait => ?_
  rw [Bool.and_eq_true, State.any_draining_iff, decide_eq_true_eq] at hwait
  obtain ⟨⟨p, hp, h5⟩, ht⟩ := hwait
  exact h.elim (fun hnone => hnone p hp h5) fun hlate => absurd hlate (by omega)

end

theorem State.deepOffBegin_none (h : s.pwr.deepAt = none) : s.deepOffBegin = s := by simp only [State.deepOffBegin, h]

section
variable {t : Nat} (h : s.pwr.deepAt = some t) (hp : s.pwr.off = 0) (ht : t ≤ s.pwr.time)
include h hp ht

theorem State.deepOffBegin_notices {u : State} (hn : s.pwr.deepNoticed = none) (hu : u = s.xchReset.fabNotice 3) :
    s.deepOffBegin = { u with pwr := { u.pwr with deepNoticed := some u.pwr.time } } := by
  simp only [State.deepOffBegin, h, hn, ← hu, State.powered_iff.2 hp, Nat.not_lt.2 ht, Bool.not_true,
    Bool.false_eq_true, or_self, if_false]

theorem State.deepOffBegin_goes_on {n : Nat} (hn : s.pwr.deepNoticed = some n) : s.deepOffBegin = s.deepOffEnd n := by
  simp only [State.deepOffBegin, h, hn, State.powered_iff.2 hp, Nat.not_lt.2 ht, Bool.not_true,
    Bool.false_eq_true, or_self, if_false]

end

/-- What is left with the rails off: flash and the waiting commands, and nothing else of what a program can read (R392, R413). -/
theorem State.powerOff_left (why : Nat) : (s.powerOff why).flash = s.flash ∧ (s.powerOff why).sec.xi = [] ∧
    (s.powerOff why).mem = Mem.reset ∧ (s.powerOff why).regs = [] ∧ (s.powerOff why).pwr.time = 0 ∧
    (s.powerOff why).pending = s.pending := ⟨rfl, rfl, rfl, rfl, rfl, rfl⟩

end

/-- Settles O22: the shutdowns by whether the rails are on, deep off by whether its notices have gone out, and what is left by the
definition of the state without rails. -/
theorem railsSwitchOff : Obligations.RailsSwitchOff := by
  refine fun s => ⟨fun h => ⟨next_congr (State.shutdown_on h), next_congr (State.shutdown_on h)⟩,
    fun h => ⟨next_congr (State.shutdown_off h), next_congr (State.shutdown_off h)⟩,
    fun x t hp h => next_congr (State.thermalTrip_above hp h), fun x t h => next_congr (State.thermalTrip_below h),
    fun t h hp ht => ⟨?_, fun n hn hd => ?_, fun n p hn hmem h5 hlt => ?_⟩,
    fun h => next_congr (State.deepOffBegin_none h), fun why => State.powerOff_left why⟩
  · exact fun u hn hu => next_congr (State.deepOffBegin_notices h hp ht hn hu)
  · exact next_congr ((State.deepOffBegin_goes_on h hp ht hn).trans (State.deepOffEnd_off hd))
  · exact next_congr ((State.deepOffBegin_goes_on h hp ht hn).trans (State.deepOffEnd_waits hmem h5 hlt))

end Sys2Proof.Machine
end

section
/-!
Ports (R254 to R257, R263 to R265, R273, Table 10.8): their timers and events, frames, control messages, and the host's actions.
-/
namespace Sys2Proof.Machine

theorem State.portsChange_congr {s : State} {f g : State → State} (h : f s = g s) : s.portsChange f = s.portsChange g := by
  rw [State.portsChange, State.portsChange, h]

/-- Ports that stay as they are are not advertised. -/
theorem State.portsChange_unchanged {s : State} {f : State → State} (h : f s = s) : s.portsChange f = s := by
  rw [State.portsChange, h]; exact if_pos rfl

/-- With the BARs closed an action is answered with Unsupported Request (R315). -/
theorem State.barDo_closed {s : State} {f : State → State} (hb : s.barOpen = false) : s.barDo f = s.barRefuse :=
  if_neg (by simp [hb])

section
variable {s : State} {p : Nat}

/-! Locking and training (R265). -/

section
variable (h : (s.port p).state = 1)
include h

theorem State.portLock_before_ready (hr : s.pwr.ready = false) : s.portLock p = s.setPort p { s.port p with locked := true } :=
  (if_pos h).trans (if_neg (by simp [hr]))

theorem State.portLock_ready (hr : s.pwr.ready = true) :
    s.portLock p = (s.setPort p { s.port p with locked := true }).portsChange (·.negotiate p) :=
  (if_pos h).trans (if_pos hr)

theorem State.trainTimeout_due (hl : (s.port p).locked = false) (hd : s.due (s.port p).since 100 = true) :
    s.trainTimeout p = s.portsChange (·.portFail p) := if_pos ⟨h, by simp [hl], hd⟩

end

theorem State.failedRetry_due (h : (s.port p).state = 7) (ho : s.portOn p = true) (hd : s.due (s.port p).since 100 = true) :
    s.failedRetry p = s.portsChange (·.train p) := if_pos ⟨h, ho, hd⟩

theorem State.versionRetry_due (h : (s.port p).state = 2) (hd : s.due (s.port p).since 100 = true) :
    s.versionRetry p = (s.setPort p { s.port p with chosen := none, accept := none }).negotiate p := if_pos ⟨h, hd⟩

/-! Loss of lock and retraining (R264). -/

theorem State.lockLoss_link (h : (s.port p).state = 3 ∨ (s.port p).state = 4) :
    s.lockLoss p = s.portsChange fun t => t.retrain p := by
  rcases h with h | h <;> simp only [State.lockLoss, h]

theorem State.lockLoss_training (h : (s.port p).state = 1) :
    s.lockLoss p = s.portsChange fun t => t.setPort p { s.port p with locked := false, since := t.pwr.time } := by
  simp only [State.lockLoss, h]

theorem State.lockLoss_negotiating (h : (s.port p).state = 2) : s.lockLoss p = s.portsChange fun t => t.train p := by
  simp only [State.lockLoss, h]

theorem State.lockLoss_draining (h : (s.port p).state = 5) :
    s.lockLoss p = s.portsChange fun t => (t.loseReplay p false).train p := by
  simp only [State.lockLoss, h]

section
variable (h : (s.port p).state = 6)
include h

theorem State.retrainDone_goes_on (ht : s.pwr.time ≤ (s.port p).since + 1000000) :
    s.retrainDone p true = s.portsChange fun t =>
      let u := t.portState p (s.port p).resume
      u.setPort p { u.port p with
        replayPos := if (s.port p).replay = [] then none else some 0, replays := 0, progressAt := u.pwr.time } :=
  (if_neg (Classical.not_not.2 h)).trans (State.portsChange_congr (if_pos ⟨rfl, ht⟩))

theorem State.retrainDone_fails : s.retrainDone p false = s.portsChange fun t => t.portFail p :=
  (if_neg (Classical.not_not.2 h)).trans (State.portsChange_congr (if_neg (by simp)))

theorem State.retrainTimeout_due (ht : (s.port p).since + 1000000 ≤ s.pwr.time) :
    s.retrainTimeout p = s.portsChange (·.portFail p) := if_pos ⟨h, ht⟩

end

/-! Draining and replays (R263, R273). -/

theorem State.drainTimeout_due (h : (s.port p).state = 5) (ht : (s.port p).since + 100000 ≤ s.pwr.time) :
    s.drainTimeout p = s.portsChange fun t => (t.loseReplay p false).train p := if_pos ⟨h, ht⟩

theorem State.replayTimeout_due (h : (s.port p).state = 3 ∨ (s.port p).state = 4 ∨ (s.port p).state = 5)
    (hr : (s.port p).replay ≠ []) (ht : (s.port p).progressAt + 1000 ≤ s.pwr.time) : s.replayTimeout p = s.startReplay p :=
  if_pos ⟨h, hr, ht⟩

theorem State.nakRepeat_due (h : (s.port p).nak = true) (ht : (s.port p).nakAt + 1000 ≤ s.pwr.time) :
    s.nakRepeat p = s.setPort p { s.port p with nakDue := true, nakAt := s.pwr.time } := if_pos ⟨h, ht⟩

/-! Received frames (R255, R256, R263). -/

section
variable {f : List Byte}

theorem State.frameReceive_ignored (h : (s.port p).state = 0 ∨ (s.port p).state = 6 ∨ (s.port p).state = 7) :
    s.frameReceive p f = s := by
  refine if_pos ?_
  rcases h with h | h | h
  · exact .inl h
  · exact .inr (.inl h)
  · exact .inr (.inr (.inl h))

section
variable (hlo : 2 ≤ (s.port p).state) (hhi : (s.port p).state ≤ 5)
include hlo hhi

/-- From negotiation to draining a port takes frames. -/
theorem State.takes_frames : ¬ ((s.port p).state = 0 ∨ (s.port p).state = 6 ∨ (s.port p).state = 7 ∨
    (s.port p).state = 1 ∧ (!(s.port p).locked) = true) := by
  omega

theorem State.frameReceive_good {body : List Byte} {n : Nat} (hf : f.length = 896) (hd : frameDecode f = some (body, n)) :
    s.frameReceive p f = (s.bump64 (po p 0x28) n).takeFrame p body := by
  simp only [State.frameReceive, if_neg (State.takes_frames hlo hhi), if_pos hf, hd]

theorem State.frameReceive_bad (hf : f.length ≠ 896 ∨ frameDecode f = none) : s.frameReceive p f =
    if 3 ≤ (s.port p).state then (s.bump (po p 0x18) 1).askReplay p else s.bump (po p 0x18) 1 := by
  have hnone : (if f.length = 896 then frameDecode f else none) = none := by
    rcases hf with hf | hf
    · rw [if_neg hf]
    · rw [hf, ite_self]
  simp only [State.frameReceive, if_neg (State.takes_frames hlo hhi), hnone]

end
end

/-! Control messages (R265, R273). -/

section
variable {m : List Byte} {t : State}

section
variable (h : (s.port p).state = 2)
include h

theorem State.versionOffer_answered {u : State} {minor : Nat} (hm : s.takeCtl p 0 = some (m, t))
    (hmajor : bitAt (leNat ((m.drop 10).take 2)) 1 = true)
    (hu : u = t.setPort p { t.port p with nbr := some (leNat ((m.drop 1).take 8), leNat ((m.drop 9).take 1)) })
    (hminor : minor = min (leNat ((m.drop 13).take 1)) u.linkMinor) :
    s.versionOffer p = (u.setPort p { u.port p with
      chosen := some (1, minor), ctl := (u.port p).ctl ++ [ctlMsg [1, 1, BitVec.ofNat 8 minor]] }).agree p := by
  subst hminor hu
  simp only [State.versionOffer, h, hm, hmajor, ne_eq, not_true, if_false, if_true]

theorem State.versionOffer_no_major (hm : s.takeCtl p 0 = some (m, t)) (hmajor : bitAt (leNat ((m.drop 10).take 2)) 1 = false) :
    s.versionOffer p =
      (t.setPort p { t.port p with nbr := some (leNat ((m.drop 1).take 8), leNat ((m.drop 9).take 1)) }).evFab 4 := by
  simp only [State.versionOffer, h, hm, hmajor, ne_eq, not_true, Bool.false_eq_true, if_false]

theorem State.versionAccept_compared (hm : s.takeCtl p 1 = some (m, t)) : s.versionAccept p =
    (t.setPort p { t.port p with accept := some ((m.getD 1 0).toNat, (m.getD 2 0).toNat) }).agree p := by
  simp only [State.versionAccept, h, hm, ne_eq, not_true, if_false]

end

theorem State.linkNotice_drains (hm : s.takeCtl p 2 = some (m, t))
    (h : (t.port p).state = 2 ∨ (t.port p).state = 3 ∨ (t.port p).state = 4 ∨ (t.port p).state = 6) :
    s.linkNotice p = t.portsChange fun u => (u.drainBegin p).drainEnd p := by
  simp only [State.linkNotice, hm]
  exact State.portsChange_congr (if_pos h)

end

/-! PORT_RESET and FAB_Pn_CTL.ENABLE (R265, R273, Table 10.8). -/

theorem State.portReset_unchanged (h : (s.port p).state = 0 ∨ (s.port p).state = 5) : s.portReset p = s := if_pos h

theorem State.portReset_drains (h0 : (s.port p).state ≠ 0) (h5 : (s.port p).state ≠ 5) :
    s.portReset p = s.portsChange fun v => v.drain p 0 := if_neg fun h => h.elim h0 h5

/-- A register write leaves the ports alone, and what their training depends on. -/
@[simp] theorem State.setReg_fab (off v : Nat) : (s.setReg off v).fab = s.fab := State.setReg_only s off v .fab (by decide)
@[simp] theorem State.setReg_hif (off v : Nat) : (s.setReg off v).hif = s.hif := State.setReg_only s off v .hif (by decide)
@[simp] theorem State.setReg_cfg (off v : Nat) : (s.setReg off v).cfg = s.cfg := State.setReg_only s off v .cfg (by decide)
@[simp] theorem State.setReg_pwr (off v : Nat) : (s.setReg off v).pwr = s.pwr := State.setReg_only s off v .pwr (by decide)
@[simp] theorem State.port_setReg (off v n : Nat) : (s.setReg off v).port n = s.port n := by
  simp only [State.port, State.setReg_fab]

/-- BAR0 is open only with the rails on (R315). -/
theorem State.off_of_barOpen (hb : s.barOpen = true) : s.pwr.off = 0 := by
  simp only [State.barOpen, Bool.and_eq_true, State.powered, beq_iff_eq] at hb
  exact hb.1.1

theorem State.portEnable_true : s.portEnable p true = (s.setReg (po p 0) (s.rd (po p 0) / 2 * 2 + 1)).portsChange fun u =>
    if (s.port p).state = 0 ∧ u.pwr.off = 0 ∧ u.hif.rrs = false ∧ u.cfg.recovery = false then u.train p else u := by
  simp only [State.portEnable, b2n, if_true, State.port_setReg, Bool.not_eq_true']

theorem State.portEnable_false : s.portEnable p false = (s.setReg (po p 0) (s.rd (po p 0) / 2 * 2)).portsChange fun u =>
    if (s.port p).state = 0 then u else ((u.loseReplay p true).portState p 0).setPort p { Port.reset with
      since := ((u.loseReplay p true).portState p 0).pwr.time, inq := (((u.loseReplay p true).portState p 0).port p).inq } := by
  simp only [State.portEnable, b2n, Bool.false_eq_true, if_false, Nat.add_zero, State.port_setReg]

section
variable {t : State} (ht : t = s.setReg (po p 0) (s.rd (po p 0) / 2 * 2 + 1))
include ht

theorem State.portEnable_trains (h : (s.port p).state = 0) (hoff : s.pwr.off = 0) (hr : s.hif.rrs = false)
    (hc : s.cfg.recovery = false) : s.portEnable p true = t.portsChange fun u => u.train p := by
  rw [State.portEnable_true, ← ht]
  refine State.portsChange_congr (if_pos ?_)
  rw [ht, State.setReg_pwr, State.setReg_hif, State.setReg_cfg]
  exact ⟨h, hoff, hr, hc⟩

theorem State.portEnable_stays (h : (s.port p).state ≠ 0 ∨ s.hif.rrs = true ∨ s.cfg.recovery = true) :
    s.portEnable p true = t := by
  rw [State.portEnable_true, ← ht]
  refine State.portsChange_unchanged (if_neg ?_)
  rw [ht, State.setReg_pwr, State.setReg_hif, State.setReg_cfg]
  rintro ⟨h0, -, hr, hc⟩
  simp [h0, hr, hc] at h

end

section
variable {t : State} (ht : t = s.setReg (po p 0) (s.rd (po p 0) / 2 * 2))
include ht

theorem State.portDisable_unchanged (h : (s.port p).state = 0) : s.portEnable p false = t := by
  rw [State.portEnable_false, ← ht]
  exact State.portsChange_unchanged (if_pos h)

theorem State.portDisable_empties (h : (s.port p).state ≠ 0) : s.portEnable p false = t.portsChange fun u =>
    ((u.loseReplay p true).portState p 0).setPort p { Port.reset with
      since := ((u.loseReplay p true).portState p 0).pwr.time, inq := (((u.loseReplay p true).portState p 0).port p).inq } := by
  rw [State.portEnable_false, ← ht]
  exact State.portsChange_congr (if_neg h)

end
end

/-- Settles O33: each timer and event by the state of its port. -/
theorem portStatesChange : Obligations.PortStatesChange := by
  rintro p s v rfl
  exact ⟨fun h hr => next_congr (State.portLock_before_ready h hr), fun h hr => next_congr (State.portLock_ready h hr),
    fun h hl hd => next_congr (State.trainTimeout_due h hl hd), fun h ho hd => next_congr (State.failedRetry_due h ho hd),
    fun h hd => next_congr (State.versionRetry_due h hd), fun h => next_congr (State.lockLoss_link h),
    fun h => next_congr (State.lockLoss_training h), fun h => next_congr (State.lockLoss_negotiating h),
    fun h => next_congr (State.lockLoss_draining h), fun h ht => next_congr (State.retrainDone_goes_on h ht),
    fun h => next_congr (State.retrainDone_fails h), fun h ht => next_congr (State.retrainTimeout_due h ht),
    fun h ht => next_congr (State.drainTimeout_due h ht), fun h hr ht => next_congr (State.replayTimeout_due h hr ht),
    fun h ht => next_congr (State.nakRepeat_due h ht)⟩

/-- Settles O34: a frame by the state of its port and by what it decodes to, a control message by its type. -/
theorem framesAndControlMessages : Obligations.FramesAndControlMessages := by
  refine fun p s => ⟨rfl, fun f body n hf hlo hhi hd => next_congr (State.frameReceive_good hlo hhi hf hd),
    fun f hf => ⟨fun hlo hhi => ?_, fun h => ?_⟩, fun f h => next_congr (State.frameReceive_ignored h),
    fun m t u minor h hm hmajor hu hminor => next_congr (State.versionOffer_answered h hm hmajor hu hminor),
    fun m t h hm hmajor => next_congr (State.versionOffer_no_major h hm hmajor),
    fun m t h hm => next_congr (State.versionAccept_compared h hm),
    fun m t hm h => next_congr (State.linkNotice_drains hm h), ?_⟩
  · exact next_congr ((State.frameReceive_bad (by omega) hhi hf).trans (if_pos hlo))
  · exact next_congr ((State.frameReceive_bad (by omega) (by omega) hf).trans (if_neg (by omega)))
  · rintro u rfl
    rfl

/-- Settles O39: a reset and a disable by the state of the port, an enable also by what holds training back. -/
theorem portsCommanded : Obligations.PortsCommanded := by
  refine ⟨fun p en s hb => ?closed, fun p s hb => ⟨fun h => ?_, fun h0 h5 => ?_⟩,
    fun p s t hb ht => ⟨fun h hr hc => ?_, fun h => ?_⟩, fun p s t hb ht => ⟨fun h => ?_, fun h => ?_⟩⟩
  case closed => exact ⟨next_congr (State.barDo_closed hb), next_congr (State.barDo_closed hb)⟩
  · exact next_congr (State.barDo_unchanged hb (State.portReset_unchanged h))
  · exact next_congr (State.barDo_eq hb (State.portReset_drains h0 h5)
      (State.portReset_drains h0 h5 ▸ State.portReset_only s p.val .regs (by decide)))
  · exact next_congr (State.barDo_byWrite hb (State.portEnable_trains ht h (State.off_of_barOpen hb) hr hc))
  · exact next_congr (State.barDo_byWrite hb (State.portEnable_stays ht h))
  · exact next_congr (State.barDo_byWrite hb (State.portDisable_unchanged ht h))
  · exact next_congr (State.barDo_byWrite hb (State.portDisable_empties ht h))

end Sys2Proof.Machine
end

section
/-!
Discovery, fabric IDs and routes (R266, R267, R272).
-/
namespace Sys2Proof.Machine

/-- What only the running firmware does and would change nothing, changes nothing (R327, R345). -/
theorem State.byCore_unchanged {s : State} {f : State → State} (h : f s = s) : s.byCore f = s := by
  rw [State.byCore, h, ite_self]

section
variable {s t : State}

/-! The database (R266): a change of it leaves the ports and the module's own ID alone. -/

theorem State.evFab_fab (s : State) (bit : Nat) : (s.evFab bit).fab = s.fab := State.evFab_only s bit .fab (by decide)

theorem State.dbChanged_fab (s : State) :
    s.dbChanged.fab = { s.fab with changedAt := s.dbChanged.fab.changedAt, settled := false, grants := [] } := by
  unfold State.dbChanged
  split
  · simp only [State.evFab_fab]
  · rfl

theorem State.dbPut_cases (s : State) (e : LsaEntry) {u : State}
    (hu : u = { s with fab := { s.fab with db := putEntry e s.fab.db } }) : s.dbPut e = u ∨ s.dbPut e = u.dbChanged := by
  simp only [State.dbPut, ← hu]
  split
  · split
    · exact .inl rfl
    · exact .inr rfl
  · exact .inr rfl

theorem State.dbPut_ports_id (s : State) (e : LsaEntry) : (s.dbPut e).fab.ports = s.fab.ports ∧ (s.dbPut e).fab.id = s.fab.id := by
  rcases s.dbPut_cases e rfl with h | h
  · rw [h]; exact ⟨rfl, rfl⟩
  · rw [h, State.dbChanged_fab]; exact ⟨rfl, rfl⟩

theorem State.dbPut_vc3Ports (s : State) (e : LsaEntry) : (s.dbPut e).vc3Ports = s.vc3Ports := by
  simp only [State.vc3Ports, State.port, (s.dbPut_ports_id e).1]

theorem State.dbPut_lsaPacket (s : State) (e : LsaEntry) : (s.dbPut e).lsaPacket e = s.lsaPacket e := by
  simp only [State.lsaPacket, State.newPacket, (s.dbPut_ports_id e).2]

/-! LSA (R266). -/

section
variable {p : Nat} {x : InPkt} {e : LsaEntry}

theorem State.pktLsa_none (h : s.inbound p 6 = none) : s.pktLsa p = s := by simp only [State.pktLsa, h]

section
variable (h : s.inbound p 6 = some x) (ht : t = s.leave p x) (he : e = LsaEntry.of x.pkt.data t.pwr.time)
include h ht he

theorem State.pktLsa_ignored (hn : t.discovering = false ∨ e.serial = t.serialNo) : s.pktLsa p = t := by
  subst ht he
  simp only [State.pktLsa, h]
  refine if_pos ?_
  rcases hn with hn | hn
  · simp [hn]
  · simp [hn]

theorem State.pktLsa_older {y : LsaEntry} (hy : t.fab.db.find? (fun y => y.serial == e.serial) = some y)
    (hold : gtMod e.seq y.seq = false) : s.pktLsa p = t := by
  subst ht he
  simp only [State.pktLsa, h, hy, hold, Bool.not_false, Bool.or_true, if_true]

theorem State.pktLsa_newer (hd : t.discovering = true) (hs : e.serial ≠ t.serialNo)
    (hnew : ∀ y, t.fab.db.find? (fun y => y.serial == e.serial) = some y → gtMod e.seq y.seq = true) :
    s.pktLsa p = ((t.dbPut e).flood ((t.dbPut e).vc3Ports.filter (· != p)) x.pkt).conflict := by
  subst ht he
  have hs' : ((LsaEntry.of x.pkt.data (s.leave p x).pwr.time).serial == (s.leave p x).serialNo) = false := beq_false_of_ne hs
  rw [State.dbPut_vc3Ports]
  simp only [State.pktLsa, h, hd, hs', Bool.not_true, Bool.false_or]
  cases hy : (s.leave p x).fab.db.find? fun y => y.serial == (LsaEntry.of x.pkt.data (s.leave p x).pwr.time).serial with
  | none => rfl
  | some y => simp only [hnew y hy, Bool.not_true, Bool.false_eq_true, if_false]

end
end

/-! LSA_REFRESH and LSA_EXPIRY (R266). -/

theorem State.lsaRefresh_early (hd : s.due s.fab.lsaAt (s.rd 0xD00028) = false) : s.lsaRefresh = s := if_neg (by simp [hd])

section
variable (hd : s.due s.fab.lsaAt (s.rd 0xD00028) = true)
include hd

theorem State.lsaRefresh_undiscovered (h : s.discovering = false) : s.lsaRefresh = s :=
  (if_pos hd).trans (if_neg (by simp [h]))

theorem State.lsaRefresh_advertises (h : s.discovering = true)
    (ht : t = { s with fab := { s.fab with lsaSeq := s.fab.lsaSeq + 1, lsaAt := s.pwr.time } }) :
    s.lsaRefresh = (t.dbPut t.ownEntry).flood (t.dbPut t.ownEntry).vc3Ports ((t.dbPut t.ownEntry).lsaPacket t.ownEntry) := by
  rw [State.dbPut_vc3Ports, State.dbPut_lsaPacket, State.lsaRefresh, if_pos hd, State.advertise, if_pos h, ht]

end

section
variable {n : Nat}

theorem State.lsaExpiry_unknown (h : s.fab.db.find? (fun e => e.serial == n) = none) : s.lsaExpiry n = s := by
  simp only [State.lsaExpiry, h]

section
variable {e : LsaEntry} (h : s.fab.db.find? (fun e => e.serial == n) = some e)
include h

theorem State.lsaExpiry_stays (hn : n = s.serialNo ∨ s.due e.seen (3 * s.rd 0xD00028) = false) : s.lsaExpiry n = s := by
  simp only [State.lsaExpiry, h]
  refine if_neg fun ⟨hne, hd⟩ => ?_
  rcases hn with hn | hn
  · exact hne hn
  · simp [hn] at hd

theorem State.lsaExpiry_forgets (hn : n ≠ s.serialNo) (hd : s.due e.seen (3 * s.rd 0xD00028) = true) : s.lsaExpiry n =
    ({ s with fab := { s.fab with db := s.fab.db.filter fun x => x.serial != n } } : State).dbChanged := by
  simp only [State.lsaExpiry, h]
  exact if_pos ⟨hn, hd⟩

end
end

/-! DATABASE_SETTLED (R266, Tables 13.9 and 16.7). -/

section
variable (ht : t = s.settle)
include ht

theorem State.databaseSettled_nothing_new (h : t.fab.settled = false ∨ s.fab.settled = true) : s.databaseSettled = t := by
  subst ht
  refine if_neg ?_
  rcases h with h | h
  · simp [h]
  · simp [h]

theorem State.databaseSettled_logs (h : t.fab.settled = true) (hs : s.fab.settled = false) {u : State}
    (hu : u = (t.logWrite 0x000A 0 [t.fab.db.length, t.fab.leader.getD 0 % 4294967296]).trace 4 4) :
    s.databaseSettled = if u.pwr.step = 8 then u.stepReached 9 else u := by
  subst ht hu
  exact if_pos (by simp [h, hs])

end

/-! Fabric IDs (R267). -/

theorem freeId_eq_some {used : List Nat} {i : Nat} : freeId used = some i ↔ i < 16384 ∧ i ∉ used ∧ ∀ j < i, j ∈ used := by
  rw [freeId, List.find?_range'_eq_some]
  simp only [List.mem_range'_1, Nat.zero_le, true_and, Nat.zero_add, Bool.not_not, List.contains_iff_mem, Bool.not_eq_true',
    true_implies]
  rw [← Bool.not_eq_true, List.contains_iff_mem, and_left_comm]

theorem freeId_eq_none {used : List Nat} : freeId used = none ↔ ∀ j < 16384, j ∈ used := by
  rw [freeId, List.find?_eq_none]
  simp [List.mem_range'_1]

section
variable {p n : Nat} {x : InPkt}

theorem State.pktGrant_none (h : s.inbound p 7 = none) : s.pktGrant p = s := by simp only [State.pktGrant, h]

section
variable (h : s.inbound p 7 = some x) (ht : t = s.leave p x) (hn : n = leNat (x.pkt.data.take 8))
include h ht hn

theorem State.pktGrant_own (hs : n = t.serialNo) : s.pktGrant p = t.takeId x.pkt.dst := by
  subst ht hn
  simp only [State.pktGrant, h, hs, if_true]

theorem State.pktGrant_known (hs : n ≠ t.serialNo) (hk : (n, x.pkt.dst) ∈ t.fab.grants) : s.pktGrant p = t := by
  subst ht hn
  simp only [State.pktGrant, h, if_neg hs, List.contains_iff_mem.2 hk, if_true]

theorem State.pktGrant_forwarded (hs : n ≠ t.serialNo) (hk : (n, x.pkt.dst) ∉ t.fab.grants) : s.pktGrant p =
    ({ t with fab := { t.fab with grants := t.fab.grants ++ [(n, x.pkt.dst)] } } : State).flood
      (t.vc3Ports.filter (· != p)) x.pkt := by
  subst ht hn
  simp only [State.pktGrant, h, if_neg hs]
  exact if_neg (by simpa using hk)

end
end

section
variable {u : State} {id : Nat} (hu : u = t.useT 0xD00008)
include hu

theorem State.takeId_kept (h : u.hasId = true ∨ bitAt (u.rdT 0xD00008) 15 = true) : t.takeId id = u := by
  subst hu
  exact if_pos (by simpa using h)

theorem State.takeId_taken (h : u.hasId = false) (hc : bitAt (u.rdT 0xD00008) 15 = false) :
    t.takeId id = (({ u with fab := { u.fab with id := id, idSrc := 2 } } : State).advertise).conflict := by
  subst hu
  exact if_neg (by simp [h, hc])

end

/-! Routing tables (R272). -/

theorem State.swap_dropped (h : s.fab.copying = true) : s.swap = s.evFab 6 := if_pos h

theorem State.swap_exchanges (h : s.fab.copying = false)
    (ht : t = (({ s with fab := { s.fab with active := !s.fab.active } } : State).bumpWrap 0xD00040).evFab 7) :
    s.swap = s.portsChange fun _ =>
      portList.foldl (fun v p => if (v.port p).state = 3 ∧ v.portAdmit p then v.portState p 4 else v) t := by
  rw [State.swap, if_neg (by simp [h])]
  exact State.portsChange_congr (by rw [State.doSwap, ht])

theorem State.copyDone_idle (h : s.fab.copying = false) : s.copyDone = s := if_neg (by simp [h])

theorem State.copyDone_ends (h : s.fab.copying = true) :
    s.copyDone = { s.setShadow s.rtActive with fab := { (s.setShadow s.rtActive).fab with copying := false } } := if_pos h

/-- At the end of a copy both tables hold what the active one held. -/
theorem State.copyDone_tables (h : s.fab.copying = true) :
    s.copyDone.fab.copying = false ∧ s.copyDone.rtShadow = s.rtActive ∧ s.copyDone.rtActive = s.rtActive := by
  rw [State.copyDone_ends h]
  cases ha : s.fab.active <;> simp [State.setShadow, State.rtShadow, State.rtActive, ha]

end

/-- Settles O36: an LSA and the age of an entry by what the database holds, a refresh and the settling by whether they are due. -/
theorem discoveryActs : Obligations.DiscoveryActs := by
  refine ⟨fun p s t x e hcore h ht he => ⟨fun hn => ?_, fun y hy hold => ?_, fun hd hs hnew => ?_⟩, fun p s h => ?noLsa,
    fun s hcore => ⟨fun hd => ?_, fun hd hoff => ?_, fun t hd hon ht => ?_⟩,
    fun serial s e hcore h => ⟨fun hn => ?_, fun hn hd => ?_⟩, fun serial s h => ?unknown,
    fun s t hcore ht => ⟨fun h => ?_, fun h hs u hu => ?_⟩⟩
  · exact next_congr ((State.byCore_running hcore).trans (State.pktLsa_ignored h ht he hn))
  · exact next_congr ((State.byCore_running hcore).trans (State.pktLsa_older h ht he hy hold))
  · exact next_congr ((State.byCore_running hcore).trans (State.pktLsa_newer h ht he hd hs hnew))
  case noLsa => exact next_congr (State.byCore_unchanged (State.pktLsa_none h))
  · exact next_congr ((State.byCore_running hcore).trans (State.lsaRefresh_early hd))
  · exact next_congr ((State.byCore_running hcore).trans (State.lsaRefresh_undiscovered hd hoff))
  · exact next_congr ((State.byCore_running hcore).trans (State.lsaRefresh_advertises hd hon ht))
  · exact next_congr ((State.byCore_running hcore).trans (State.lsaExpiry_stays h hn))
  · exact next_congr ((State.byCore_running hcore).trans (State.lsaExpiry_forgets h hn hd))
  case unknown => exact next_congr (State.byCore_unchanged (State.lsaExpiry_unknown h))
  · exact next_congr ((State.byCore_running hcore).trans (State.databaseSettled_nothing_new ht h))
  · exact next_congr ((State.byCore_running hcore).trans (State.databaseSettled_logs ht h hs hu))

/-- Settles O37: the search for a free ID, and a grant by the module it names. -/
theorem grantedIdIsLowest : Obligations.GrantedIdIsLowest := by
  refine ⟨fun used i => freeId_eq_some, fun used => freeId_eq_none, fun p s t x n hcore h ht hn =>
    ⟨fun u hs hu hkept => ?_, fun u hs hu hid hc => ?_, fun hs hk => ?_, fun hs hk => ?_⟩,
    fun p s h => next_congr (State.byCore_unchanged (State.pktGrant_none h))⟩
  · exact next_congr ((State.byCore_running hcore).trans ((State.pktGrant_own h ht hn hs).trans (State.takeId_kept hu hkept)))
  · exact next_congr ((State.byCore_running hcore).trans ((State.pktGrant_own h ht hn hs).trans (State.takeId_taken hu hid hc)))
  · exact next_congr ((State.byCore_running hcore).trans (State.pktGrant_known h ht hn hs hk))
  · exact next_congr ((State.byCore_running hcore).trans (State.pktGrant_forwarded h ht hn hs hk))

/-- Settles O38: each action by whether a copy is in progress; none writes a control register. -/
theorem routesCommanded : Obligations.RoutesCommanded := by
  refine ⟨fun s hb => ⟨next_congr (State.barDo_closed hb), next_congr (State.barDo_closed hb)⟩, fun s hb hc => ?_,
    fun s t hb hc ht => ?_, fun s hb => ?_, fun s hc => next_congr (State.copyDone_idle hc), fun s hc => ?_⟩
  · exact next_congr (State.barDo_eq hb (State.swap_dropped hc) (State.evFab_only s 6 .regs (by decide)))
  · exact next_congr (State.barDo_eq hb (State.swap_exchanges hc ht)
      (State.swap_exchanges hc ht ▸ State.swap_only s .regs (by decide)))
  · exact next_congr (State.barDo_eq hb rfl (State.copyStart_only s .regs (by decide)))
  · obtain ⟨hcopying, hshadow, hactive⟩ := State.copyDone_tables hc
    exact ⟨s.copyDone, rfl, hcopying, hshadow, hactive, State.copyDone_only s⟩

end Sys2Proof.Machine
end

section
/-!
The intake engine's commands (R279 to R281, R290, R299, R301, R302): a batch by what the pipeline holds of it, the vocabulary and
the cache once the pipeline is empty.
-/
namespace Sys2Proof.Machine

section
variable {s : State} {q : Nat} {c : Cmd}

/-! IK_BATCH (R281). -/

section
variable (h : s.running q 0x6001 = some c)
include h

theorem State.ikBatch_starts (hb : s.itk.batch q = none) : s.ikBatch q = s.ikStart q c := by
  simp only [State.ikBatch, h, hb]

section
variable {b : Batch} (hb : s.itk.batch q = some b)
include hb

theorem State.ikBatch_finishes (hx : b.samples = []) : s.ikBatch q = s.ikFinish q b := by
  simp only [State.ikBatch, h, hb, hx, if_true]

theorem State.ikBatch_waits (hx : b.samples ≠ []) : s.ikBatch q = s := by
  simp only [State.ikBatch, h, hb, hx, if_false]

end
end

/-! IK_VOCAB_LOAD (R290). -/

section
variable (h : s.running q 0x6010 = some c)
include h

theorem State.vocabLoad_waits (he : s.pipeEmpty = false) : s.vocabLoad q = s := by
  simp only [State.vocabLoad, h, he, Bool.not_false, if_true]

section
variable (he : s.pipeEmpty = true)
include he

theorem State.vocabLoad_refused {f : Fail} (hf : s.vocabFields q c = .error f) : s.vocabLoad q = s.vocabFail q f := by
  simp only [State.vocabLoad, h, he, hf, Bool.not_true, Bool.false_eq_true, if_false]

section
variable {bs : List Byte} {t : State} (hf : s.vocabFields q c = .ok ())
  (hread : s.opRead q (c.p 1) (32 * fld (c.p 0) 20 0) (wordWith 1 (itkData 3 0)) = (.bytes bs, t))
include hf hread

theorem State.vocabLoad_bad_entry {i : Nat} (hv : vocabGo 0 [] (chunks 32 bs) = .error i) :
    s.vocabLoad q = t.vocabFail q ⟨stBadParam, 0xF7 + i * 4096⟩ := by
  simp only [State.vocabLoad, h, he, hf, hread, hv, Bool.not_true, Bool.false_eq_true, if_false]

/-- WORK is left with free bytes (log entry 37). -/
theorem State.vocabLoad_loads {es : List (List Byte)} {f : List Byte} {u v : State} (hv : vocabGo 0 [] (chunks 32 bs) = .ok es)
    (hw : t.opWaits (c.p 2) (64 * fld (c.p 0) 20 0) = false)
    (hfree : t.freeBytes (c.p 2) (64 * fld (c.p 0) 20 0) = (f, u)) (hmem : v = u.memWrite (c.p 2) f) :
    s.vocabLoad q = ({ v with
      itk := { v.itk with vocab := some (es, fld (c.p 0) 62 32) },
      mem := { v.mem with vocWork := c.p 2, vocLen := 64 * fld (c.p 0) 20 0, vocBad := false } } : State).endCmd q stOK 0 := by
  subst hmem
  simp only [State.vocabLoad, h, he, hf, hread, hv, hw, hfree, Bool.not_true, Bool.false_eq_true, if_false]

end
end
end

/-! IK_CACHE_FLUSH (R301). -/

section
variable (h : s.running q 0x6011 = some c)
include h

theorem State.cacheFlush_empties (he : s.pipeEmpty = true) : s.cacheFlush q = s.cacheEmpty.endCmd q stOK 0 := by
  simp only [State.cacheFlush, h, he, if_true]

theorem State.cacheFlush_waits (he : s.pipeEmpty = false) : s.cacheFlush q = s := by
  simp only [State.cacheFlush, h, he, Bool.false_eq_true, if_false]

end
end

/-- Settles O51: a batch by whether the pipeline holds it and its samples, a vocabulary by its checks, then its table, then WORK,
a flush by whether the pipeline is empty. -/
theorem batchesAndVocabulary : Obligations.BatchesAndVocabulary := by
  refine fun q s c => ⟨fun h => ⟨fun hb => next_congr (State.ikBatch_starts h hb),
      fun b hb hx => next_congr (State.ikBatch_finishes h hb hx), fun b hb hx => next_congr (State.ikBatch_waits h hb hx)⟩,
    fun h => ⟨fun he => next_congr (State.vocabLoad_waits h he),
      fun he f hf => next_congr (State.vocabLoad_refused h he hf), ?table⟩,
    fun h => ⟨fun he => next_congr (State.cacheFlush_empties h he), fun he => next_congr (State.cacheFlush_waits h he)⟩⟩
  case table =>
    rintro n bs t he hf rfl hread
    exact ⟨fun i hv => next_congr (State.vocabLoad_bad_entry h he hf hread hv),
      fun es f u v hv hw hfree hmem => next_congr (State.vocabLoad_loads h he hf hread hv hw hfree hmem)⟩

end Sys2Proof.Machine
end

section
/-!
Samples in the intake pipeline (R282 to R303): the lanes, staging, the transform stage, the region of interest and the sleeping
domain.
-/
namespace Sys2Proof.Machine

section
variable {s : State} {k : Nat}

/-! DECODE_START (R295). -/

section
variable (hout : s.itk.lanesOut.contains k = false) (hfree : s.itk.onLane k = none) (hawake : s.itk.gated = false)
include hout hfree hawake

theorem State.decodeStart_takes {p : Batch × Sample} (hp : (s.itk.all.take 512).find? (fun p => p.2.phase == .waiting) = some p) :
    s.decodeStart k = s.setSample p.1 { p.2 with phase := .started k } := by
  simp only [State.decodeStart, hout, hfree, hawake, hp, Option.isSome_none, Bool.or_self, Bool.false_eq_true, if_false]

theorem State.decodeStart_idle (hp : (s.itk.all.take 512).find? (fun p => p.2.phase == .waiting) = none) :
    s.decodeStart k = s := by
  simp only [State.decodeStart, hout, hfree, hawake, hp, Option.isSome_none, Bool.or_self, Bool.false_eq_true, if_false]

end

/-! STAGING_RESERVE (R296, R300). -/

section
variable {b : Batch} {x : Sample} (hlane : s.itk.onLane k = some (b, x)) (hphase : x.phase = .started k)
  (hturn : s.itk.earlierReserved b x = true)
include hlane hphase hturn

theorem State.stagingReserve_empty (hsize : x.sub.size = 0) : s.stagingReserve k = s.endDecode b x (.corrupt 1 0) := by
  simp only [State.stagingReserve, hlane, hphase, hturn, hsize, bne_self_eq_false, Bool.not_true, Bool.or_self,
    Bool.false_eq_true, if_false, if_true]

section
variable (hsize : x.sub.size ≠ 0)
include hsize

/-- Only images are cached, and only while the cache has a region. -/
theorem State.stagingReserve_uncached (hc : b.schema.isSome = true ∨ s.cacheRegion = none) :
    s.stagingReserve k = s.reserveFresh b x k := by
  have hnone : (if b.schema.isSome then none else s.cacheRegion) = none := by
    rcases hc with hsome | hregion
    · exact if_pos hsome
    · rw [hregion, ite_self]
  simp only [State.stagingReserve, hlane, hphase, hturn, hsize, hnone, bne_self_eq_false, Bool.not_true, Bool.or_self,
    Bool.false_eq_true, if_false]

section
variable {r : Nat × Nat} {t : State} (himage : b.schema = none) (hr : s.cacheRegion = some r) (ht : t = s.cacheSync r)
include himage hr ht

theorem State.stagingReserve_hit {e : CacheEntry} (he : t.itk.cache.find? (fun e => e.key == t.cacheKey b.queue x.sub) = some e) :
    s.stagingReserve k = t.reserveHit b x k r.1 e := by
  subst ht
  simp only [State.stagingReserve, hlane, hphase, hturn, hsize, himage, hr, he, bne_self_eq_false, Bool.not_true, Bool.or_self,
    Option.isSome_none, Bool.false_eq_true, if_false]

theorem State.stagingReserve_miss (he : t.itk.cache.find? (fun e => e.key == t.cacheKey b.queue x.sub) = none) :
    s.stagingReserve k = t.reserveFresh b x k := by
  subst ht
  simp only [State.stagingReserve, hlane, hphase, hturn, hsize, himage, hr, he, bne_self_eq_false, Bool.not_true, Bool.or_self,
    Option.isSome_none, Bool.false_eq_true, if_false]

end
end
end

/-! DECODE_END (R297). -/

section
variable {b : Batch} {x : Sample} {l u w h ch : Nat} (hlane : s.itk.onLane k = some (b, x))
include hlane

theorem State.decodeEnd_cached (hphase : x.phase = .reserved l none u w h ch) :
    s.decodeEnd k = s.endDecode b x (.ok true u w h ch false false 0) := by
  simp only [State.decodeEnd, hlane, hphase]

section
variable {src : List Byte} {n : Nat} {t : State} (hphase : x.phase = .reserved l (some src) u w h ch)
  (hfree : s.blockWaits b.stage x.blocks = false)
include hphase hfree

section
variable (himage : b.schema = none)
include himage

section
variable {i : Img} (hdec : imgDecode x.sub (b.budgetOf x.sub) src = (.ok i, n))
include hdec

theorem State.decodeEnd_image_held
    (hw : s.blockWaits (s.cacheBlocks b.queue x.sub i).1 (s.cacheBlocks b.queue x.sub i).2 = true) :
    s.decodeEnd k = s.blockHold b.queue (s.cacheBlocks b.queue x.sub i).1 (s.cacheBlocks b.queue x.sub i).2 := by
  simp only [State.decodeEnd, hlane, hphase, hfree, himage, hdec, hw, Bool.false_eq_true, if_false, if_true]

theorem State.decodeEnd_image (ht : t = s.bump64 0xE00058 n)
    (hw : s.blockWaits (s.cacheBlocks b.queue x.sub i).1 (s.cacheBlocks b.queue x.sub i).2 = false) :
    s.decodeEnd k = ((t.blockWrite b.stage x.blocks i.px).cachePut b.queue x.sub n i).endDecode b x
      (.ok false n i.w i.h i.ch false false 0) := by
  subst ht
  simp only [State.decodeEnd, hlane, hphase, hfree, himage, hdec, hw, Bool.false_eq_true, if_false]

end

theorem State.decodeEnd_image_stopped {e : Stop} (hdec : imgDecode x.sub (b.budgetOf x.sub) src = (.error e, n))
    (ht : t = s.bump64 0xE00058 n) : s.decodeEnd k = t.endDecode b x (e.outcome n) := by
  subst ht
  simp only [State.decodeEnd, hlane, hphase, hfree, himage, hdec, Bool.false_eq_true, if_false]

end

section
variable {sch : Schema} (htext : b.schema = some sch) (ht : t = { s.bump64 0xE00058 n with draws := s.draws + sch.cols.length })
include htext ht

theorem State.decodeEnd_text {i : TextOut}
    (hdec : runDec (textDecode sch s.vocabNow s.draws (x.sub.format == 4)) (b.budgetOf x.sub) src = (.ok i, n)) :
    s.decodeEnd k = (t.blockWrite b.stage x.blocks i.bytes).endDecode b x (.ok false n 0 0 0 i.trunc i.missing i.nf) := by
  subst ht
  simp only [State.decodeEnd, hlane, hphase, hfree, htext, hdec, Bool.false_eq_true, if_false]

theorem State.decodeEnd_text_stopped {e : Stop}
    (hdec : runDec (textDecode sch s.vocabNow s.draws (x.sub.format == 4)) (b.budgetOf x.sub) src = (.error e, n)) :
    s.decodeEnd k = t.endDecode b x (e.outcome n) := by
  subst ht
  simp only [State.decodeEnd, hlane, hphase, hfree, htext, hdec, Bool.false_eq_true, if_false]

end
end
end

/-! TRANSFORM_SAMPLE (R291 to R293, R298). -/

section
variable {b : Batch} {x : Sample} {flt : Bool}

/-- What becomes of a head sample that has no contents to write: its slot is padded, unless that meets a residue fault (R298,
R369). -/
def State.padOrFault (s : State) (b : Batch) (x : Sample) (flt : Bool) (status reason work : Nat) : State :=
  if flt && !s.slotWaits b x.idx then s.itkResidue b.queue else s.padHead b x status reason work

theorem State.padOrFault_pads {status reason work : Nat} (h : flt = false ∨ s.slotWaits b x.idx = true) :
    s.padOrFault b x flt status reason work = s.padHead b x status reason work := by
  refine if_neg ?_
  rcases h with h | h <;> simp [h]

theorem State.padOrFault_faults {status reason work : Nat} (h : flt = true) (hw : s.slotWaits b x.idx = false) :
    s.padOrFault b x flt status reason work = s.itkResidue b.queue := if_pos (by simp [h, hw])

theorem State.transformSample_corrupt {r u : Nat} (h : s.itk.head = some (b, x, .corrupt r u)) :
    s.transformSample flt = s.padOrFault b x flt 2 r u := by
  simp only [State.transformSample, h, State.padOrFault]

theorem State.transformSample_over (h : s.itk.head = some (b, x, .over)) :
    s.transformSample flt = s.padOrFault b x flt 3 0 0xFFFFFFFF := by
  simp only [State.transformSample, h, State.padOrFault]

section
variable {cached tr mi : Bool} {u w h ch nf : Nat} (hhead : s.itk.head = some (b, x, .ok cached u w h ch tr mi nf))
include hhead

/-- Text, and an image that is not steered, is written with its own crop. -/
theorem State.transformSample_own (hown : b.schema.isSome = true ∨ x.sub.roi = false) : s.transformSample flt =
    s.writeHead b x flt ⟨x.sub.x0, x.sub.y0, x.sub.x1, x.sub.y1⟩ cached u w h ch (b2n tr + 2 * b2n mi, nf) := by
  have hsteer : (b.schema.isNone && x.sub.roi) = false := by
    rcases hown with htext | hroi
    · rw [← Option.not_isSome, htext]; rfl
    · rw [hroi, Bool.and_false]
  simp only [State.transformSample, hhead, hsteer, Bool.false_eq_true, if_false]

section
variable (himage : b.schema = none) (hroi : x.sub.roi = true)
include himage hroi

theorem State.transformSample_reads (hr : s.itk.roi = .none) : s.transformSample flt = s.roiTry b x := by
  simp only [State.transformSample, hhead, himage, hroi, hr, Option.isNone_none, Bool.and_self, if_true]

theorem State.transformSample_bad_box (hr : s.itk.roi = .read none) : s.transformSample flt = s.padHead b x 2 8 u := by
  simp only [State.transformSample, hhead, himage, hroi, hr, Option.isNone_none, Bool.and_self, if_true]

theorem State.transformSample_steered {box : Box} (hr : s.itk.roi = .read (some box)) : s.transformSample flt =
    s.writeHead b x flt box cached u w h ch (b2n tr + 2 * b2n mi, nf) := by
  simp only [State.transformSample, hhead, himage, hroi, hr, Option.isNone_none, Bool.and_self, if_true]

end
end

/-! ROI_POLL (R293) and INTAKE_DOMAIN_WAKE (R394). -/

theorem State.roiPoll_polls {since polled : Nat} {d : Decoded} {t : State} (hr : s.itk.roi = .waiting since polled)
    (hhead : s.itk.head = some (b, x, d)) (hdue : polled + 1000 ≤ s.pwr.time) (ht : t = s.bump64 0xE00068 (s.pwr.time - since)) :
    s.roiPoll = ({ t with itk := { t.itk with roi := .waiting t.pwr.time t.pwr.time } } : State).roiTry b x := by
  subst ht
  simp only [State.roiPoll, hr, hhead, Nat.not_lt.2 hdue, if_false]

end

theorem State.itkWake_wakes {c : Cmd} (i : Fin 64) (hg : s.itk.gated = true) (hc : (s.q (320 + i.val)).cmd = some c)
    (hp : c.phase = .waiting) : s.itkWake = { s with itk := { s.itk with gated := false } } := by
  refine if_pos ?_
  rw [hg, Bool.true_and, List.any_eq_true]
  refine ⟨i.val, List.mem_range.2 i.isLt, ?_⟩
  simp only [hc, hp, beq_self_eq_true]

end

/-- Settles O52: each row by the phase of the sample it finds, on its lane or at the head of the window. -/
theorem samplesPassThrough : Obligations.SamplesPassThrough := by
  refine ⟨fun k s hout hfree hawake => ⟨fun p hp => next_congr (State.decodeStart_takes hout hfree hawake hp),
      fun hp => next_congr (State.decodeStart_idle hout hfree hawake hp)⟩, ?reserve,
    fun k s b x l u w h ch hlane hphase => next_congr (State.decodeEnd_cached hlane hphase), ?decoded, ?head,
    fun s t since polled b x d hr hhead hdue ht => next_congr (State.roiPoll_polls hr hhead hdue ht),
    fun s c i hg hc hp => next_congr (State.itkWake_wakes i hg hc hp)⟩
  case reserve =>
    intro k s b x hlane hphase hturn
    exact ⟨fun hsize => next_congr (State.stagingReserve_empty hlane hphase hturn hsize),
      fun hsize hc => next_congr (State.stagingReserve_uncached hlane hphase hturn hsize hc),
      fun r t hsize himage hr ht => ⟨fun e he => next_congr (State.stagingReserve_hit hlane hphase hturn hsize himage hr ht he),
        fun he => next_congr (State.stagingReserve_miss hlane hphase hturn hsize himage hr ht he)⟩⟩
  case decoded =>
    intro k s b x l src u w h ch hlane hphase hfree
    exact ⟨fun n t himage ht => ⟨
        fun i hdec hw => next_congr (State.decodeEnd_image_held hlane hphase hfree himage hdec hw),
        fun i hdec hw => next_congr (State.decodeEnd_image hlane hphase hfree himage hdec ht hw),
        fun e hdec => next_congr (State.decodeEnd_image_stopped hlane hphase hfree himage hdec ht)⟩,
      fun sch n t htext ht => ⟨fun i hdec => next_congr (State.decodeEnd_text hlane hphase hfree htext ht hdec),
        fun e hdec => next_congr (State.decodeEnd_text_stopped hlane hphase hfree htext ht hdec)⟩⟩
  case head =>
    refine fun flt s b x => ⟨fun r u hhead => ?_, fun hhead => ?_, fun cached u w h ch tr mi nf hhead => ⟨
      fun hown => next_congr (State.transformSample_own hhead hown), fun himage hroi => ⟨
        fun hr => next_congr (State.transformSample_reads hhead himage hroi hr),
        fun hr => next_congr (State.transformSample_bad_box hhead himage hroi hr),
        fun box hr => next_congr (State.transformSample_steered hhead himage hroi hr)⟩⟩⟩
    · have hpad := State.transformSample_corrupt (flt := flt) hhead
      exact ⟨fun h => next_congr (hpad.trans (State.padOrFault_pads h)),
        fun h hw => next_congr (hpad.trans (State.padOrFault_faults h hw))⟩
    · have hpad := State.transformSample_over (flt := flt) hhead
      exact ⟨fun h => next_congr (hpad.trans (State.padOrFault_pads h)),
        fun h hw => next_congr (hpad.trans (State.padOrFault_faults h hw))⟩

end Sys2Proof.Machine
end

section
/-!
The data link (R322, R323), and the function level reset (R58, R306, R327, R336): what each of its stages keeps.
-/
namespace Sys2Proof.Machine

section
variable {s : State}

/-! DL_DOWN and DL_UP. -/

/-- The reads of host memory in flight are lost, queue by queue (R323). -/
def State.loseReads (s : State) : State :=
  s.cqf.queues.foldl (fun u e => match (u.q e.1).reads with
    | r :: _ => u.hostReadFail e.1 r stTimeout (timeoutDetail 5 (u.cmdMs e.1))
    | [] => u) s

theorem State.dlDown_loses {t u : State} (hup : s.hif.up = true)
    (ht : t = { s with hif := { s.hif with up := false, rate := 0, width := 0, flit := false,
                                           downAt := if s.hif.armed then some s.pwr.time else none } })
    (hu : u = (t.evHif 0).loseUnacked) : s.dlDown = u.loseReads := by
  subst hu ht
  exact if_neg (by simp [hup])

theorem State.dlDown_down (hup : s.hif.up = false) : s.dlDown = s := if_pos (by simp [hup])

theorem State.loseUnacked_some {n : Nat} (h : s.hif.tlps ≠ [])
    (hn : n = (Config.freeWord s.draws).toNat % (s.hif.tlps.length + 1)) : s.loseUnacked = s.draw.loseTlps n := by
  rw [State.loseUnacked, if_neg h, hn]

theorem State.dlUp_comes_up {t u : State} {k : LinkInfo} (hp : s.pwr.off = 0) (hdown : s.hif.up = false)
    (hperst : s.hif.perst = false) (hk : linkFormed k = true)
    (ht : t = { s with hif := { s.hif with up := true, rate := k.rate, width := k.width, flit := k.flit, armed := true, downAt := none } })
    (hu : u = if k.width < 16 ∨ k.rate < 7 then t.evHif 1 else t) : s.dlUp k = (u.confSet k.bme k.conf).outFlow := by
  subst hu ht
  exact if_neg (by simp [State.powered_iff.2 hp, hdown, hperst, hk])

theorem State.dlUp_up {k : LinkInfo} (hup : s.hif.up = true) : s.dlUp k = s := if_pos (.inr (.inl hup))

/-! FUNCTION_LEVEL_RESET waits for an engine reset, or applies at once. -/

theorem State.functionReset_waits (hp : s.pwr.off = 0) (hbusy : s.rstBusy = true) :
    s.functionReset = { s with pwr := { s.pwr with flrWait := true } } := by
  rw [State.functionReset, if_neg (by simp [hp]), if_pos hbusy]

theorem State.functionReset_applies (hp : s.pwr.off = 0) (hbusy : s.rstBusy = false) : s.functionReset = s.flrApply := by
  rw [State.functionReset, if_neg (by simp [hp]), if_neg (by simp [hbusy])]

/-! Units leave service: what the engines run and hold stays as it was. -/

/-- The matrix engine runs nothing and holds no accumulator. -/
def Mat.idle (m : Mat) : Prop := m.runs = [] ∧ m.handles = []

theorem State.clSet_idle {c new cause : Nat} {failed : Bool} (h : s.mat.idle) : (s.clSet c new cause failed).mat.idle := by
  unfold State.clSet
  rw [State.svcRecord_only _ _ _ _ _ _ _ .mat (by decide)]
  exact h

theorem State.clOut_idle {c cause : Nat} (h : s.mat.idle) : (s.clOut c cause).mat.idle := by
  obtain ⟨hruns, hhandles⟩ : (s.clSet c 1 cause (s.clSvc c).failed).mat.idle := State.clSet_idle h
  exact ⟨hruns, List.map_eq_nil_iff.2 hhandles⟩

theorem State.clLeaves_idle {c : Nat} (h : s.mat.idle) : (s.clLeaves c).mat.idle := by
  unfold State.clLeaves
  split
  · have hout : (s.clOut c 1).mat.idle := State.clOut_idle h
    exact State.clSet_idle hout
  · exact State.clOut_idle h

theorem State.matLeave_idle (h : s.mat.idle) : s.matLeave.mat.idle :=
  List.foldlRecOn (motive := fun t : State => t.mat.idle) _ _ h fun _ ht _ _ => State.clLeaves_idle ht

theorem State.nbSet_runs (pg new cause : Nat) (failed : Bool) : (s.nbSet pg new cause failed).nbu.runs = s.nbu.runs := by
  unfold State.nbSet
  rw [State.svcRecord_only _ _ _ _ _ _ _ .nbu (by decide)]

theorem State.nbLeave_runs : s.nbLeave.nbu.runs = s.nbu.runs :=
  List.foldlRecOn (motive := fun t : State => t.nbu.runs = s.nbu.runs) _ _ rfl fun _ ht _ _ => (State.nbSet_runs _ _ _ _).trans ht

theorem State.leaveNow_idle (h : s.mat.idle) : s.leaveNow.mat.idle := by
  rw [State.leaveNow, State.nbLeave_only _ .mat (by decide)]
  exact State.matLeave_idle h

theorem State.leaveNow_nbu_runs : s.leaveNow.nbu.runs = s.nbu.runs := by
  rw [State.leaveNow, State.nbLeave_runs, State.matLeave_only _ .nbu (by decide)]

/-! The stages of a function level reset that applies. -/

theorem State.stopEngines_idle : s.stopEngines.mat.idle := ⟨rfl, rfl⟩

/-- The queues return to their reset values, the channels of the host lose their buffers (R58). -/
def State.flrReleased (s : State) : State := (s.cqf.queues.foldl (fun t e => t.flrQueue e.1) s).flrBerths

/-- The engines are stopped, the queues released and the registers reset. -/
def State.flrEmptied (s : State) : State := s.stopEngines.leaveNow.flrReleased.peaksReset.resetRegs .flr

theorem State.flrReleased_only (s : State) : OnlyChanges [.cqf, .hif, .xch, .fab] s s.flrReleased := by
  unfold State.flrReleased; simp

theorem State.peaksReset_itk : s.peaksReset.itk = { s.itk with peak := s.itk.occ } := by
  have hitk : s.cqfPeakClr.itk = s.itk := State.cqfPeakClr_only s .itk (by decide)
  rw [State.peaksReset, State.itkPeakClr, hitk]

/-- A block of which neither the queues and channels nor the registers are a part is as the engines have left it. -/
theorem State.flrEmptied_after_stop (s : State) :
    OnlyChanges [.regs, .stats, .ctrs, .cqf, .hif, .xch, .fab, .itk] s.stopEngines.leaveNow s.flrEmptied := by
  have hreleased := State.flrReleased_only s.stopEngines.leaveNow
  unfold State.flrEmptied
  simp [onlyChanges_iff hreleased]

theorem State.flrEmptied_mgt : s.flrEmptied.mgt = s.mgt := by
  rw [s.flrEmptied_after_stop .mgt (by decide), State.leaveNow_only _ .mgt (by decide), State.stopEngines_only _ .mgt (by decide)]

theorem State.flrEmptied_mat_idle : s.flrEmptied.mat.idle := by
  rw [s.flrEmptied_after_stop .mat (by decide)]
  exact State.leaveNow_idle State.stopEngines_idle

theorem State.flrEmptied_vec_runs : s.flrEmptied.vec.runs = [] := by
  rw [s.flrEmptied_after_stop .vec (by decide), State.leaveNow_only _ .vec (by decide)]; rfl

theorem State.flrEmptied_nbu_runs : s.flrEmptied.nbu.runs = [] := by
  rw [s.flrEmptied_after_stop .nbu (by decide), State.leaveNow_nbu_runs]; rfl

/-- The pipeline and the cache are empty (R301, R306). -/
theorem State.flrEmptied_itk : s.flrEmptied.itk.batches = [] ∧ s.flrEmptied.itk.cache = [] := by
  rw [State.flrEmptied, State.resetRegs_only _ _ .itk (by decide), State.peaksReset_itk,
    State.flrReleased_only _ .itk (by decide), State.leaveNow_only _ .itk (by decide)]
  exact ⟨rfl, rfl⟩

/-- The last stage leaves the engines as they are. -/
theorem State.flrApply_after_emptied (s : State) :
    OnlyChanges [.stats, .cqf, .mem, .hif, .mgt, .sec, .err, .cfg, .pwr] s.flrEmptied s.flrApply := by
  unfold State.flrApply State.flrEmptied State.flrReleased
  simp [only_upd]

/-- The engines run nothing, and the accumulators, the intake pipeline and its cache are empty (R301, R306). -/
theorem State.flrApply_engines : s.flrApply.mat.idle ∧ s.flrApply.vec.runs = [] ∧ s.flrApply.nbu.runs = [] ∧
    s.flrApply.itk.batches = [] ∧ s.flrApply.itk.cache = [] := by
  rw [s.flrApply_after_emptied .mat (by decide), s.flrApply_after_emptied .vec (by decide),
    s.flrApply_after_emptied .nbu (by decide), s.flrApply_after_emptied .itk (by decide)]
  exact ⟨State.flrEmptied_mat_idle, State.flrEmptied_vec_runs, State.flrEmptied_nbu_runs, State.flrEmptied_itk⟩

/-- What the host has set up is cleared (R327). -/
theorem State.flrApply_host : s.flrApply.hif.bme = false ∧ s.flrApply.hif.msixOn = false ∧ s.flrApply.hif.gwBase = 0 ∧
    s.flrApply.hif.msix = [] ∧ s.flrApply.hif.pba = [] ∧ s.flrApply.hif.conf = PciConf.reset ∧ s.flrApply.cqf.tokens = [] ∧
    s.flrApply.cqf.slips = [] := ⟨rfl, rfl, rfl, rfl, rfl, rfl, rfl, rfl⟩

/-- The platform driver's session ends and the firmware goes on (R336). -/
theorem State.flrApply_mgt : s.flrApply.mgt.attached = false ∧ s.flrApply.mgt.req = [] ∧ s.flrApply.mgt.rpl = [] ∧
    s.flrApply.mgt.core = s.mgt.core ∧ s.flrApply.mgt.supp = s.mgt.supp ∧ s.flrApply.mgt.log = s.mgt.log := by
  rw [← s.flrEmptied_mgt]
  unfold State.flrApply State.flrEmptied State.flrReleased
  rw [State.adoptSelf_only _ .mgt (by decide)]
  simp only [and_self]

/-- Of the history entries that wait for a reply, the platform driver's are kept. -/
theorem State.flrApply_histPend : ∀ e ∈ s.flrApply.err.histPend, e.byDriver = true := by
  unfold State.flrApply
  rw [State.adoptSelf_only _ .err (by decide)]
  simp only [List.mem_filter]
  exact fun e he => he.2

end

/-- Settles O54: the link by whether it is up, the reset by whether an engine reset is in progress, and what it leaves stage by
stage. -/
theorem linkAndFunctionReset : Obligations.LinkAndFunctionReset := by
  refine ⟨fun s t u hup ht hu => next_congr (State.dlDown_loses hup ht hu), fun s hup => next_congr (State.dlDown_down hup),
    fun n s l hl hn => State.loseUnacked_some (by rw [hl]; exact List.cons_ne_nil _ _) hn,
    fun s t u k hp hdown hperst hk ht hu => next_congr (State.dlUp_comes_up hp hdown hperst hk ht hu),
    fun s k hup => next_congr (State.dlUp_up hup), fun s hp hbusy => next_congr (State.functionReset_waits hp hbusy), ?applies⟩
  case applies =>
    intro s hp hbusy
    obtain ⟨hbme, hmsixOn, hgw, hmsix, hpba, hconf, htokens, hslips⟩ := s.flrApply_host
    obtain ⟨hattached, hreq, hrpl, hcore, hsupp, hlog⟩ := s.flrApply_mgt
    obtain ⟨⟨hruns, hhandles⟩, hvec, hnbu, hbatches, hcache⟩ := s.flrApply_engines
    exact ⟨s.flrApply, next_congr (State.functionReset_applies hp hbusy), hbme, hmsixOn, hgw, hmsix, hpba, hconf, htokens, hslips,
      hattached, hreq, hrpl, hruns, hhandles, hvec, hnbu, hbatches, hcache, rfl, hcore, hsupp, hlog, rfl, s.flrApply_histPend,
      State.flrApply_only s⟩

end Sys2Proof.Machine
end

section
/-!
Control registers of the host interface and of the configuration (R312, R322, R427), each as its own rule writes it.
-/
namespace Sys2Proof.Machine

theorem isPlainCtl_llTimeout : isPlainCtl 0x400014 0xFFFF true = true := by decide +kernel
theorem isPlainCtl_gwBaseHi : isPlainCtl 0x400010 0x1F false = true := by decide +kernel
theorem isPlainCtl_crcRefHi : isPlainCtl 0x100014 0xFFFF true = true := by decide +kernel

section
variable {s : State} {off data : Nat} {a : RegAt}

theorem State.ctlWrite_low (hm : a.selected data ≠ 0) (hlo : off < 0x500000) :
    s.ctlWrite a off data = s.writeLow off data (s.configPayload a off data) (data &&& a.selected data &&& a.reg.actMask) := by
  rw [State.ctlWrite]
  exact (if_neg hm).trans (if_pos hlo)

/-- A payload of 16 bits is the whole upper half of the data: all its bits can be selected. -/
theorem upper_half_masked (hd : data < 4294967296) : data / 65536 &&& 0xFFFF = data / 65536 := by
  rw [Nat.and_two_pow_sub_one_eq_mod _ 16]
  omega

section
variable (hb : s.barOpen = true) (hd : data < 4294967296)
include hb hd

/-- A write of a plain control register below the front end's: nothing, or the register's own rule on the payload asked for
(which action bits come with it does not matter, as the register has none). -/
theorem State.regWrite_low {store : Nat} {voted : Bool} (h : isPlainCtl off store voted = true) (h4 : off % 4 = 0)
    (hlo : off < 0x440000) : ∃ act, s.regWrite off 4 data = s.byWrite fun _ => if data / 65536 &&& store = 0 then s else
      s.writeLow off data (maskedWrite (if voted then s.rdT off else s.rd off) data store) act := by
  obtain ⟨a, ha, hk, hsel, hpay⟩ := isPlainCtl_spec h
  obtain ⟨hold, hnew⟩ := hpay s data
  refine ⟨data &&& a.selected data &&& a.reg.actMask, ?_⟩
  rw [State.regWrite_ctl hb h4 hd (by omega) ha hk]
  refine State.byWrite_congr ?_
  split
  · next hm => exact State.ctlWrite_unselected ((hsel data).trans hm)
  · next hm => rw [State.ctlWrite_low (hsel data ▸ hm) (by omega), hnew, hold]

/-- HIF_LL_TIMEOUT (R322). -/
theorem State.regWrite_llTimeout {v : Nat} (hv : v = maskedWrite (s.rdT 0x400014) data 0xFFFF) :
    s.regWrite 0x400014 4 data = s.byWrite fun _ => if data / 65536 = 0 then s else
      if 10 ≤ v ∧ v ≤ 10000 then s.setReg 0x400014 v else s.evHif 9 := by
  obtain ⟨act, hw⟩ := State.regWrite_low hb hd isPlainCtl_llTimeout (by decide) (by decide)
  rw [hw, upper_half_masked hd, hv]
  rfl

/-- HIF_GW_BASE_HI (R312). -/
theorem State.regWrite_gwBaseHi : s.regWrite 0x400010 4 data = s.byWrite fun _ => s.gwCommit data := by
  obtain ⟨act, hw⟩ := State.regWrite_low hb hd isPlainCtl_gwBaseHi (by decide) (by decide)
  rw [hw]
  refine State.byWrite_congr ?_
  split
  · next hm => rw [State.gwCommit, if_pos hm]
  · rfl

/-- CFG_CRC_REF_HI (R427). -/
theorem State.regWrite_crcRefHi : s.regWrite 0x100014 4 data = s.byWrite fun _ => s.refHiWrite data := by
  obtain ⟨act, hw⟩ := State.regWrite_low hb hd isPlainCtl_crcRefHi (by decide) (by decide)
  rw [hw, upper_half_masked hd]
  refine State.byWrite_congr ?_
  split
  · next hm => rw [State.refHiWrite, if_pos hm]
  · rfl

end

theorem State.gwCommit_unselected (hm : data / 65536 &&& 0x1F = 0) : s.gwCommit data = s := if_pos hm

section
variable {v : Nat} (hm : data / 65536 &&& 0x1F ≠ 0) (hv : v = maskedWrite (s.rd 0x400010) data 0x1F)
include hm hv

theorem State.gwCommit_in_range (hr : s.rd 0x40000C + 65536 * v ≤ 0x1FFF00) : s.gwCommit data =
    { s.setReg 0x400010 v with hif := { s.hif with gwBase := s.rd 0x40000C + 65536 * v } } := by
  have hhif : (s.setReg 0x400010 v).hif = s.hif := State.setReg_only s _ _ .hif (by decide)
  rw [State.gwCommit, if_neg hm, ← hv, if_neg (by omega)]
  simp only [hhif]

theorem State.gwCommit_out_of_range (hr : 0x1FFF00 < s.rd 0x40000C + 65536 * v) : s.gwCommit data = s.evHif 9 := by
  rw [State.gwCommit, if_neg hm, ← hv, if_pos hr]

end

theorem State.refHiWrite_unselected (hm : data / 65536 = 0) : s.refHiWrite data = s := if_pos hm

theorem State.refHiWrite_commits {v : Nat} (hm : data / 65536 ≠ 0) (hv : v = maskedWrite (s.rdT 0x100014) data 0xFFFF) :
    s.refHiWrite data =
      let u := s.setReg 0x100014 v
      { u with cfg := { u.cfg with crcRef := BitVec.ofNat 32 (u.rdT 0x100010 + 65536 * u.rdT 0x100014), dirty := false } } := by
  rw [State.refHiWrite, if_neg hm, ← hv]

end

/-- Settles O11: each register by its own rule; a write that selects no bit or is refused leaves the control registers alone. -/
theorem hostRegistersCommit : Obligations.HostRegistersCommit := by
  have flagged (s : State) : s.byWrite (fun _ => s.evHif 9) = s.evHif 9 :=
    State.byWrite_of_regs (State.evHif_only s 9 .regs (by decide))
  refine ⟨fun data s hb => ⟨next_congr (State.regWrite_closed hb), next_congr (State.regWrite_closed hb),
    next_congr (State.regWrite_closed hb)⟩, fun data s hb => ⟨fun hm => ?_, fun hm => ?_, fun hm => ?_⟩,
    fun data s v hb => ⟨fun hm hv => ⟨fun hlo hhi => ?_, fun hout => ?_⟩, fun hm hv => ⟨fun hr => ?_, fun hr => ?_⟩, fun hm hv => ?_⟩⟩ <;>
    refine next_congr ?_
  · exact (State.regWrite_llTimeout hb data.isLt rfl).trans (State.byWrite_of_eq (if_pos hm))
  · exact (State.regWrite_gwBaseHi hb data.isLt).trans (State.byWrite_of_eq (State.gwCommit_unselected hm))
  · exact (State.regWrite_crcRefHi hb data.isLt).trans (State.byWrite_of_eq (State.refHiWrite_unselected hm))
  · rw [State.regWrite_llTimeout hb data.isLt hv, if_neg hm, if_pos ⟨hlo, hhi⟩]
    exact State.byWrite_congr rfl
  · rw [State.regWrite_llTimeout hb data.isLt hv, if_neg hm, if_neg hout, flagged]
  · exact (State.regWrite_gwBaseHi hb data.isLt).trans (State.byWrite_congr (State.gwCommit_in_range hm hv hr))
  · rw [State.regWrite_gwBaseHi hb data.isLt, State.gwCommit_out_of_range hm hv hr, flagged]
  · exact (State.regWrite_crcRefHi hb data.isLt).trans (State.byWrite_congr (State.refHiWrite_commits hm hv))

end Sys2Proof.Machine
end

section
/-!
Module self-reset (R324 to R326, Table 16.10): its stages, and what each of its causes leaves.
-/
namespace Sys2Proof.Machine

section
variable {s : State}

/-- The first stage of a self-reset: the engines are stopped, the ports drain and the registers are reset (R324). -/
def State.selfStopped (s : State) : State := s.stopEngines.leaveNow.fabReset.resetRegs .msr

/-- Of what a self-reset keeps, the first stage changes nothing. -/
theorem State.selfStopped_only (s : State) :
    OnlyChanges [.regs, .stats, .ctrs, .cqf, .mem, .hif, .err, .mat, .vec, .nbu, .xch, .fab, .itk, .draws] s s.selfStopped := by
  unfold State.selfStopped; simp

/-- After the engines have stopped, no matrix run goes on and no accumulator is held. -/
theorem State.selfStopped_mat (s : State) : s.selfStopped.mat.idle := by
  unfold State.selfStopped
  rw [State.resetRegs_only _ _ .mat (by decide), State.fabReset_only _ .mat (by decide)]
  exact State.leaveNow_idle State.stopEngines_idle

theorem State.selfStopped_vec (s : State) : s.selfStopped.vec.runs = [] := by
  unfold State.selfStopped
  rw [State.resetRegs_only _ _ .vec (by decide), State.fabReset_only _ .vec (by decide), State.leaveNow_only _ .vec (by decide)]
  rfl

theorem State.selfStopped_itk (s : State) : s.selfStopped.itk.batches = [] ∧ s.selfStopped.itk.cache = [] := by
  unfold State.selfStopped
  rw [State.resetRegs_only _ _ .itk (by decide), State.fabReset_only _ .itk (by decide), State.leaveNow_only _ .itk (by decide)]
  exact ⟨rfl, rfl⟩

theorem State.selfStopped_fab (s : State) : s.selfStopped.fab.tags = [] := by
  unfold State.selfStopped
  rw [State.resetRegs_only _ _ .fab (by decide)]
  rfl

/-- What the reset leaves, block by block: the first stage has emptied the engines, the rest returns to its start, but that
TIM_TIME goes on and of the security block only two measurements are gone (R358, Table 16.10). -/
theorem State.selfReset_leaves {cause : Nat} {t : State} (hp : s.pwr.off = 0) (ht : t = s.selfReset cause) :
    t.cqf = Cqf.reset ∧ t.mgt.core = 0 ∧ t.fab.tags = [] ∧ t.sec = { s.sec with mSupp := [], mProg := [] } ∧
    (t.pwr.ready = false ∧ t.pwr.cause = 5 ∧ t.pwr.state = 0 ∧ t.pwr.time = s.pwr.time) ∧
    (t.mat.runs = [] ∧ t.mat.handles = []) ∧ t.vec.runs = [] ∧ t.itk.batches = [] ∧ t.itk.cache = [] := by
  have hpwr : s.selfStopped.pwr = s.pwr := s.selfStopped_only .pwr (by decide)
  have hsec : s.selfStopped.sec = s.sec := s.selfStopped_only .sec (by decide)
  rw [State.selfReset, if_neg (by simp [hp])] at ht
  dsimp only at ht
  rw [← State.selfStopped] at ht
  rw [ht, State.evHif_only _ _ .cqf (by decide), State.evHif_only _ _ .mgt (by decide), State.evHif_only _ _ .fab (by decide),
    State.evHif_only _ _ .sec (by decide), State.evHif_only _ _ .pwr (by decide), State.evHif_only _ _ .mat (by decide),
    State.evHif_only _ _ .vec (by decide), State.evHif_only _ _ .itk (by decide)]
  dsimp only [State.bump_cqf, State.bump_mgt, State.bump_fab, State.bump_sec, State.bump_pwr, State.bump_mat, State.bump_vec,
    State.bump_itk]
  rw [hpwr, hsec]
  exact ⟨rfl, rfl, s.selfStopped_fab, rfl, ⟨rfl, rfl, rfl, rfl⟩, s.selfStopped_mat, s.selfStopped_vec, s.selfStopped_itk⟩

/-- The events that bring a module self-reset (R324 to R326); the link-loss time counts at the voted value of its register. -/
def BringsSelfReset (s : State) (c : Instr) : Prop :=
  c = .hotReset ∨ c = .linkDisable ∨ c = .perstAssert ∨
    c = .linkLossTimeout ∧ (∃ t, s.hif.downAt = some t ∧ (s.useT 0x400014).due t ((s.useT 0x400014).rdT 0x400014) = true)

theorem State.linkLoss_due {t : Nat} (h : s.hif.downAt = some t)
    (hd : (s.useT 0x400014).due t ((s.useT 0x400014).rdT 0x400014) = true) : s.linkLoss = (s.useT 0x400014).selfReset 4 := by
  simp only [State.linkLoss, h, hd, if_true]

/-- Each of them is a self-reset, of the present state but for what comes before: PERST# is recorded, the register of the
link-loss time is voted (R423). -/
theorem exec_bringsSelfReset {c : Instr} (hc : BringsSelfReset s c) : ∃ u cause, exec c s = .next (u.selfReset cause) ∧
    OnlyChanges [.regs, .stats, .ctrs, .hif, .err] s u := by
  obtain rfl | rfl | rfl | ⟨rfl, t, hdown, hdue⟩ := hc
  · exact ⟨s, 5, rfl, onlyChanges_refl _ s⟩
  · exact ⟨s, 5, rfl, onlyChanges_refl _ s⟩
  · exact ⟨{ s with hif := { s.hif with perst := true } }, 5, rfl, by simp⟩
  · exact ⟨s.useT 0x400014, 4, next_congr (State.linkLoss_due hdown hdue), State.useT_only s _⟩

end

/-- Settles O21: each event is a self-reset, which leaves every block as its stages do. -/
theorem moduleSelfReset : Obligations.ModuleSelfReset := by
  intro c s hoff hc
  obtain ⟨u, cause, hexec, hu⟩ := exec_bringsSelfReset hc
  have hpwr : u.pwr = s.pwr := hu .pwr (by decide)
  have hsec : u.sec = s.sec := hu .sec (by decide)
  have hon : u.pwr.off = 0 := hpwr ▸ hoff
  have honly := (onlyChanges_iff (State.selfReset_only u cause) (List.Subset.refl _)).2
    ((onlyChanges_iff hu (by simp)).2 (onlyChanges_refl _ s))
  obtain ⟨hcqf, hcore, htags, hleft, ⟨hready, hcause, hstate, htime⟩, ⟨hruns, hhandles⟩, hvec, hbatches, hcache⟩ :=
    State.selfReset_leaves (cause := cause) hon rfl
  rw [hsec] at hleft
  exact ⟨u.selfReset cause, hexec, hcqf, hready, hcause, hstate, hpwr ▸ htime, by rw [hleft], by rw [hleft], by rw [hleft],
    by rw [hleft], honly .flash (by decide), hhandles, hruns, hvec, hbatches, hcache, htags, hcore, honly .pending (by decide), honly⟩

end Sys2Proof.Machine
end

section
/-!
The gangway (R312 to R315), the completions of host reads (R319, Table 12.3) and MSI-X (R320).
-/
namespace Sys2Proof.Machine

section
variable {s t : State}

/-! A request of the gangway that is tried. -/

section
variable {a n : Nat} {bs : List Byte} (ht : t = s.gwWake a n)
include ht

theorem State.gwRead_waits (hw : (t.gwAsleep a n || t.accessWaits a n) = true) : s.gwRead a n = none := by
  subst ht
  exact if_pos hw

section
variable {v w : State} (hw : (t.gwAsleep a n || t.accessWaits a n) = false) (hv : w = v.bump64 0x400030 n)
include hw hv

theorem State.gwRead_data (hr : t.memRead .gangway a n = (.bytes bs, v)) :
    s.gwRead a n = some { w with hif := { w.hif with gwReply := some ⟨bs, false, false⟩ } } := by
  subst ht hv
  rw [State.gwRead, if_neg (by simp [hw]), hr]

/-- Data that cannot be read is answered with zeros and EP (R314). -/
theorem State.gwRead_poisoned {g : Got} (hr : t.memRead .gangway a n = (g, v)) (hg : ∀ bs, g ≠ .bytes bs) : s.gwRead a n =
    some ((({ w with hif := { w.hif with gwReply := some ⟨List.replicate n 0, true, false⟩ } } : State).evHif 7).aerEvent
      (if w.hif.conf.egressBlock then 26 else 15)) := by
  subst ht hv
  rw [State.gwRead, if_neg (by simp [hw]), hr]
  cases g with
  | bytes bs => exact absurd rfl (hg bs)
  | _ => rfl

end

end

section
variable {a : Nat} {bs : List Byte} (ht : t = s.gwWake a bs.length)
include ht

theorem State.gwWrite_waits (hw : (t.gwAsleep a bs.length || t.writeWaits a bs.length) = true) : s.gwWrite a bs = none := by
  subst ht
  exact if_pos hw

theorem State.gwWrite_done (hw : (t.gwAsleep a bs.length || t.writeWaits a bs.length) = false) :
    s.gwWrite a bs = some ((t.memWrite a bs).bump64 0x400038 bs.length) := by
  subst ht
  exact if_neg (by simp [hw])

end

/-! Requests in their order of arrival (R313). -/

section
variable {r : GwReq} {l : List GwReq} (hpend : s.hif.gwPend = r :: l)
include hpend

theorem State.gwStep_done (h : s.gwTry r = some t) : s.gwStep = { t with hif := { t.hif with gwPend := l } } := by
  simp only [State.gwStep, hpend, h]

theorem State.gwStep_held (h : s.gwTry r = none) : s.gwStep = s.gwHold r := by
  simp only [State.gwStep, hpend, h]

end

section
variable {off n : Nat} {bs : List Byte}

theorem State.gangwayRead_outside (hf : gwFormed off n = false) : s.gangwayRead off n = s := if_pos (by simp [hf])

theorem State.gangwayRead_arrives (hf : gwFormed off n = true) (hb : s.barOpen = true) :
    s.gangwayRead off n = s.gwArrive (.read (s.gwAddr off) n) := by
  rw [State.gangwayRead, if_neg (by simp [hf]), if_pos hb]

theorem State.gangwayRead_closed (hf : gwFormed off n = true) (hb : s.barOpen = false) (hp : s.pwr.off = 0) :
    s.gangwayRead off n = ({ s with hif := { s.hif with gwReply := some ⟨[], false, true⟩ } } : State).barRefuse := by
  rw [State.gangwayRead, if_neg (by simp [hf]), if_neg (by simp [hb]), if_pos (State.powered_iff.2 hp)]

theorem State.gangwayWrite_outside (hf : gwFormed off bs.length = false) : s.gangwayWrite off bs = s := if_pos (by simp [hf])

theorem State.gangwayWrite_arrives (hf : gwFormed off bs.length = true) (hb : s.barOpen = true) :
    s.gangwayWrite off bs = s.gwArrive (.write (s.gwAddr off) bs) := by
  rw [State.gangwayWrite, if_neg (by simp [hf]), if_pos hb]

theorem State.gangwayWrite_closed (hf : gwFormed off bs.length = true) (hb : s.barOpen = false) :
    s.gangwayWrite off bs = s.barRefuse := by
  rw [State.gangwayWrite, if_neg (by simp [hf]), if_neg (by simp [hb])]

/-- With nothing before it, a request that arrives is the oldest. -/
theorem State.gwArrive_alone {r : GwReq} (hnone : s.hif.gwPend = []) :
    s.gwArrive r = ({ s with hif := { s.hif with gwPend := [r] } } : State).gwStep := by
  rw [State.gwArrive, hnone, List.nil_append]

end

/-! Host reads (R316, R319, Table 12.3). -/

section
variable {q : Nat}

theorem State.hostComplete_none {res : HostResult} (h : (s.q q).reads = []) : s.hostComplete q res = s := by
  simp only [State.hostComplete, h]

theorem State.hostTimeout_none (h : (s.q q).reads = []) : s.hostTimeout q = s := by simp only [State.hostTimeout, h]

section
variable {r : HostReq} {rest : List HostReq} (h : (s.q q).reads = r :: rest)
include h

theorem State.hostComplete_ur : s.hostComplete q .ur =
    ((s.evHif 3).bump 0x400044 1).hostReadFail q r stBadAddress (addrWord r.word + 256 * 7) := by
  simp only [State.hostComplete, h]

theorem State.hostComplete_ca : s.hostComplete q .ca =
    ((s.evHif 4).bump 0x400044 1).hostReadFail q r stBadAddress (addrWord r.word + 256 * 8) := by
  simp only [State.hostComplete, h]

theorem State.hostComplete_poisoned : s.hostComplete q .poisoned =
    ((s.evHif 6).aerEvent 12).hostReadFail q r stPoisoned (dataWord r.word) := by
  simp only [State.hostComplete, h]

theorem State.hostComplete_wrong_length {bs : List Byte} (hlen : bs.length ≠ r.len) : s.hostComplete q (.data bs) = s := by
  simp only [State.hostComplete, h, if_neg hlen]

theorem State.hostTimeout_acts (hoff : s.hif.conf.cplOff = false) (hdue : r.since + cplLeast s.hif.conf.cplRange ≤ s.pwr.time) :
    s.hostTimeout q =
      (((s.evHif 5).bump 0x400040 1).aerEvent 14).hostReadFail q r stTimeout (timeoutDetail 5 (s.cmdMs q)) := by
  simp only [State.hostTimeout, h]
  exact if_neg (by simp [hoff, hdue])

theorem State.hostTimeout_early (hearly : s.hif.conf.cplOff = true ∨ s.pwr.time < r.since + cplLeast s.hif.conf.cplRange) :
    s.hostTimeout q = s := by
  simp only [State.hostTimeout, h]
  exact if_pos hearly

/-- The bytes go to their place and are there for the command, if the queue is not reading a slot of its ring. -/
theorem State.hostComplete_data {bs : List Byte} {u v : State} (hlen : bs.length = r.len) (ht : t = s.freeTag 21)
    (hu : u = { t with hif := { t.hif with ext := tputs zeroB t.hif.ext (hostAddr r.addr) bs } })
    (hv : v = u.setQ q { u.q q with reads := rest, have_ := (u.q q).have_ ++ [(hostAddr r.addr, r.len)] })
    (hidle : (s.q q).state ≠ .idle) : s.hostComplete q (.data bs) =
      if r.word = 0xFF then v else (v.bump64 0x400020 r.len).bump64 (bo (v.chan q) 0x30) r.len := by
  have hback : v.q q = { u.q q with reads := rest, have_ := (u.q q).have_ ++ [(hostAddr r.addr, r.len)] } := by
    rw [hv]
    exact tget_tput_of_ne _ fun e => absurd (congrArg Queue.have_ e) (by simp [qReset, Queue.reset])
  have hstate : (v.q q).state ≠ .idle := by
    rw [hback, hu, ht]
    exact hidle
  have hcounted : ((if r.word = 0xFF then v else (v.bump64 0x400020 r.len).bump64 (bo (v.chan q) 0x30) r.len).q q).state ≠ .idle := by
    split <;> exact hstate
  simp only [State.hostComplete, h, if_pos hlen, ← ht, ← hu, ← hv]
  exact if_neg (by simp [hcounted])

end

end

/-! MSI-X (R320). -/

theorem State.msixEnable_on (hp : s.pwr.off = 0) :
    s.msixEnable = ({ s with hif := { s.hif with msixOn := true } } : State).deliverAll := if_pos (State.powered_iff.2 hp)

theorem State.msixControl_open {on mask : Bool} (hc : s.confOpen = true) :
    s.msixControl on mask = ({ s with hif := { s.hif with msixOn := on, funcMask := mask } } : State).deliverAll := if_pos hc

theorem State.msixControl_closed {on mask : Bool} (hc : s.confOpen = false) : s.msixControl on mask = s := if_neg (by simp [hc])

theorem State.msixUnmask_function (hp : s.pwr.off = 0) :
    s.msixUnmask none = ({ s with hif := { s.hif with funcMask := false } } : State).deliverAll :=
  if_neg (by simp [State.powered_iff.2 hp])

theorem State.msixUnmask_vector (hp : s.pwr.off = 0) (v : Nat) : s.msixUnmask (some v) =
    s.msixWord (4 * v + 3) (tget msixReset s.hif.msix (4 * v + 3) &&& 0xFFFFFFFE) :=
  if_neg (by simp [State.powered_iff.2 hp])

end

/-- Settles O53: a request of the gangway by whether it waits and what it reads, a host read by how it ends, MSI-X by what is
cleared. -/
theorem hostAccesses : Obligations.HostAccesses := by
  refine ⟨⟨?read, ?write, ?behind, ?refused⟩, ?completion, ?noRead, ?msix⟩
  case read =>
    intro off len a s u t hf hb hnone ha hu ht
    have hexec : s.gangwayRead off len = u.gwStep := by
      rw [State.gangwayRead_arrives hf hb, State.gwArrive_alone hnone, hu, ha]
    have hpend : u.hif.gwPend = [.read a len] := by rw [hu]
    refine ⟨fun hw => next_congr ?_, fun hw => ⟨fun bs v w hr hv => next_congr ?_, fun g v w x hr hg hv hx => next_congr ?_⟩⟩
    · exact (hexec.trans (State.gwStep_held hpend (State.gwRead_waits ht hw))).trans ht.symm
    · exact hexec.trans (State.gwStep_done hpend (State.gwRead_data ht hw hv hr))
    · rw [hx]
      exact hexec.trans (State.gwStep_done hpend (State.gwRead_poisoned ht hw hv hr hg))
  case write =>
    intro off a bs s u t v hf hb hnone ha hu ht hv
    have hexec : s.gangwayWrite off bs = u.gwStep := by
      rw [State.gangwayWrite_arrives hf hb, State.gwArrive_alone hnone, hu, ha]
    have hpend : u.hif.gwPend = [.write a bs] := by rw [hu]
    refine ⟨fun hw => next_congr ?_, fun hw => next_congr ?_⟩
    · rw [hv]
      exact hexec.trans (State.gwStep_done hpend (State.gwWrite_done ht hw))
    · rw [ht]
      exact hexec.trans (State.gwStep_held hpend (State.gwWrite_waits ht hw))
  case behind =>
    exact fun off len bs s hb _ => ⟨fun hf => next_congr (State.gangwayRead_arrives hf hb),
      fun hf => next_congr (State.gangwayWrite_arrives hf hb)⟩
  case refused =>
    exact fun off len bs s => ⟨fun hf => next_congr (State.gangwayRead_outside hf),
      fun hf => next_congr (State.gangwayWrite_outside hf), fun hf hb hp => next_congr (State.gangwayRead_closed hf hb hp),
      fun hf hb => next_congr (State.gangwayWrite_closed hf hb)⟩
  case completion =>
    intro q s r rest h
    exact ⟨next_congr (State.hostComplete_ur h), next_congr (State.hostComplete_ca h), next_congr (State.hostComplete_poisoned h),
      fun hoff hdue => next_congr (State.hostTimeout_acts h hoff hdue), fun hearly => next_congr (State.hostTimeout_early h hearly),
      fun bs hlen => next_congr (State.hostComplete_wrong_length h hlen),
      fun bs t u v hlen ht hu hv hidle => next_congr (State.hostComplete_data h hlen ht hu hv hidle)⟩
  case noRead => exact fun q s res h => ⟨next_congr (State.hostComplete_none h), next_congr (State.hostTimeout_none h)⟩
  case msix =>
    exact fun s hp => ⟨next_congr (State.msixEnable_on hp),
      fun o n on mask => ⟨fun hc => next_congr (State.msixControl_open hc), fun hc => next_congr (State.msixControl_closed hc)⟩,
      next_congr (State.msixUnmask_function hp), fun v => next_congr (State.msixUnmask_vector hp v.val)⟩

end Sys2Proof.Machine
end

section
/-!
Management requests (R331 to R333, R353): which one is taken next, and what lies in the buffer of a towpath message.
-/
namespace Sys2Proof.Machine

section
variable {s : State}

/-! Taking a request. -/

theorem State.takeTow_of_not_next (f : Nat) (h : s.towNext = false) : s.takeTow f = s := by
  cases f with
  | zero => rfl
  | succ f => exact if_neg (by simp [h])

/-- While a message is in progress, no towpath request is next. -/
theorem State.nextMsg_in_progress {m : Msg} (h : s.mgt.msg = some m) : s.nextMsg = s :=
  State.takeTow_of_not_next _ (by simp [State.towNext, h])

section
variable {tow : Bool} {bs : List Byte}

theorem State.takeMsg_good (h : s.msgCheck (msgOf tow bs) bs = .ok ()) :
    s.takeMsg tow bs = { s with mgt := { s.mgt with msg := some (msgOf tow bs) } } := by simp only [State.takeMsg, h]

theorem State.takeMsg_bad {f : Fail} (h : s.msgCheck (msgOf tow bs) bs = .error f) :
    s.takeMsg tow bs = s.msgReply (msgOf tow bs) f.st f.detail [] := by simp only [State.takeMsg, h]

end

section
variable (hcore : s.mgt.core = 1) (hmsg : s.mgt.msg = none) (hp : s.pwr.off = 0)
include hcore hmsg hp

/-- The firmware runs and is free to read SEQ of the request area. -/
theorem State.free_to_take : ¬ (s.mgt.core ≠ 1 ∨ s.mgt.msg.isSome = true ∨ (!s.powered) = true) := by
  simp [hcore, hmsg, State.powered_iff.2 hp]

theorem State.mailboxTake_taken (h : s.reqSeq = s.mgt.taken.toNat) : s.mailboxTake = s := by
  rw [State.mailboxTake, if_neg (State.free_to_take hcore hmsg hp), if_pos h]

theorem State.mailboxTake_skew (h : s.reqSeq ≠ s.mgt.taken.toNat) (hpost : s.posted = false) : s.mailboxTake = s.evMgt 5 := by
  rw [State.mailboxTake, if_neg (State.free_to_take hcore hmsg hp), if_neg h, if_pos (by simp [hpost])]

theorem State.mailboxTake_takes {t : State} (h : s.reqSeq ≠ s.mgt.taken.toNat) (hpost : s.posted = true) (htow : s.towNext = false)
    (ht : t = { s with mgt := { s.mgt with taken := BitVec.ofNat 32 s.reqSeq, ahead := none } }) :
    s.mailboxTake = (t.takeMsg false (tgets zeroB s.mgt.req 0 4096)).nextMsg := by
  rw [State.mailboxTake, if_neg (State.free_to_take hcore hmsg hp), if_neg h, if_neg (by simp [hpost]), if_neg (by simp [htow]), ht]

end

/-! The towpath. -/

section
variable {bs : List Byte}

theorem State.towpathRequest_queued (hcore : s.mgt.core = 1) (hp : s.pwr.off = 0) : s.towpathRequest bs =
    ({ s with mgt := { s.mgt with towQ := s.mgt.towQ ++ [towImage bs] } } : State).nextMsg :=
  if_neg (by simp [hcore, State.powered_iff.2 hp])

theorem State.towpathRequest_lost (h : s.mgt.core ≠ 1 ∨ s.pwr.off ≠ 0) : s.towpathRequest bs = s :=
  if_pos (h.imp_right fun hoff => by simpa [State.powered] using hoff)

theorem length_towImage : (towImage bs).length = 4096 := by
  rw [towImage, padTo, List.length_append, List.length_take, List.length_replicate]; omega

/-- The buffer holds the message, and zeros beyond its end. -/
theorem towImage_getD {i : Nat} (hi : i < 4096) : (towImage bs).getD i 0 = if i < bs.length then bs.getD i 0 else 0 := by
  have hlen : (bs.take 4096).length = min 4096 bs.length := List.length_take
  rw [towImage, padTo, List.getD_eq_getElem?_getD]
  split
  · next h => rw [List.getElem?_append_left (by omega), List.getElem?_take_of_lt hi, List.getD_eq_getElem?_getD]
  · next h => rw [List.getElem?_append_right (by omega), List.getElem?_replicate_of_lt (by omega), Option.getD_some]

end

end

/-- Settles O29: the mailbox by what SEQ says and whether the request passes its checks, the towpath by whether the core runs. -/
theorem requestsTaken : Obligations.RequestsTaken := by
  refine ⟨fun s hcore hmsg hp => ⟨fun h => next_congr (State.mailboxTake_taken hcore hmsg hp h),
      fun h hpost => next_congr (State.mailboxTake_skew hcore hmsg hp h hpost), ?taken⟩,
    fun bs s hcore hp => next_congr (State.towpathRequest_queued hcore hp), fun bs s h => next_congr (State.towpathRequest_lost h),
    fun bs => ⟨length_towImage, fun i hi => towImage_getD hi⟩⟩
  case taken =>
    intro bs m t h hpost htow hbs hm ht
    have htake : s.mailboxTake = (t.takeMsg false bs).nextMsg := hbs ▸ State.mailboxTake_takes hcore hmsg hp h hpost htow ht
    subst hm
    refine ⟨fun hgood => next_congr ?_, fun f hbad => next_congr ?_⟩
    · rw [htake, State.takeMsg_good hgood, State.nextMsg_in_progress rfl]
    · rw [htake, State.takeMsg_bad hbad]

end Sys2Proof.Machine
end

section
/-!
Firmware restarts and the watchdog (R329, R345 to R348, R403).
-/
namespace Sys2Proof.Machine

section
variable {s : State}

/-! The beginning of a restart. -/

/-- A restart is counted, one by the watchdog twice, and recorded. -/
def State.restartNoted (s : State) (cause : Nat) : State :=
  let t := (s.evMgt 0).bump 0xF00010 1
  (if cause = 0 then (t.evMgt 1).bump 0xF00014 1 else t).errRec 0x0A 1 15 0 (min cause 2) 0

theorem State.restartNoted_only (s : State) (cause : Nat) : OnlyChanges [.stats, .ctrs, .hif, .err] s (s.restartNoted cause) := by
  unfold State.restartNoted
  split <;> simp

theorem State.fwRestartBy_running {cause : Nat} {discard : Bool} (h2 : s.mgt.core ≠ 2) (h3 : s.mgt.core ≠ 3) (hp : s.pwr.off = 0)
    {t : State} (ht : t = s.restartNoted cause) : s.fwRestartBy cause discard =
      { t with mgt := { t.mgt with core := 2, cause := cause, discard := discard, msg := none, interrupted := t.mgt.msg, wdtOn := false },
               err := { t.err with histPend := [] } } := by
  rw [State.fwRestartBy, if_neg (by simp [h2, h3, State.powered_iff.2 hp]), ht, State.restartNoted]

theorem State.fwRestartBy_mgt {cause : Nat} {discard : Bool} (h2 : s.mgt.core ≠ 2) (h3 : s.mgt.core ≠ 3) (hp : s.pwr.off = 0) :
    (s.fwRestartBy cause discard).mgt =
      { s.mgt with core := 2, cause := cause, discard := discard, msg := none, interrupted := s.mgt.msg, wdtOn := false } := by
  have hmgt : (s.restartNoted cause).mgt = s.mgt := s.restartNoted_only cause .mgt (by decide)
  rw [State.fwRestartBy_running h2 h3 hp rfl, hmgt]

theorem State.mgtRestart_restarts {d : Bool} (hb : s.barOpen = true) :
    s.barDo (fun u => u.fwRestartBy 1 d) = s.fwRestartBy 1 d :=
  State.barDo_eq hb rfl (State.fwRestartBy_only s 1 d .regs (by decide))

section
variable (hp : s.pwr.off = 0)
include hp

theorem State.coreFault_residue : s.coreFault .residue = (s.errRec 0x01 1 15 0 0 0).fwRestartBy 2 false :=
  if_neg (by simp [State.powered_iff.2 hp])

theorem State.coreFault_sram : s.coreFault .sram =
    (s.draw.errRec 0x06 1 15 0 4 (Config.freeWord s.draws).toNat).fwRestartBy 3 false :=
  if_neg (by simp [State.powered_iff.2 hp])

end

/-! The watchdog. -/

/-- Of the expiries kept, this one is the third within ten seconds when two came before it, the older of them at most ten seconds
ago (R348). -/
theorem third_expiry_iff (now : Nat) (l : List Nat) :
    (decide (((now :: l).take 3).length = 3) && decide (now ≤ ((now :: l).take 3).getD 2 0 + 10000000000)) = true ↔
      2 ≤ l.length ∧ now ≤ l.getD 1 0 + 10000000000 := by
  match l with
  | [] => simp
  | [_] => simp
  | _ :: _ :: _ => simp

section
variable {t : State} (hon : s.mgt.wdtOn = true) (hdue : s.due s.mgt.kickAt s.mgt.wdtPeriod = true) (hcore : s.mgt.core = 1)
  (ht : t = { s with mgt := { s.mgt with wdtTimes := (s.pwr.time :: s.mgt.wdtTimes).take 3 } })
include hon hdue hcore

theorem State.watchdog_expires :
    ¬ (!s.mgt.wdtOn || !s.due s.mgt.kickAt s.mgt.wdtPeriod || s.mgt.core == 2 || s.mgt.core == 3) = true := by
  simp [hon, hdue, hcore]

include ht

theorem State.watchdogExpiry_restarts (h : s.mgt.wdtTimes.length < 2 ∨ s.mgt.wdtTimes.getD 1 0 + 10000000000 < s.pwr.time) :
    s.watchdogExpiry = t.fwRestartBy 0 false := by
  rw [State.watchdogExpiry, if_neg (State.watchdog_expires hon hdue hcore)]
  dsimp only
  rw [if_neg (by rw [third_expiry_iff]; omega), ht]

theorem State.watchdogExpiry_halts (h2 : 2 ≤ s.mgt.wdtTimes.length) (h10 : s.pwr.time ≤ s.mgt.wdtTimes.getD 1 0 + 10000000000)
    {u : State} (hu : u = ((t.logWrite 0x0006 3 []).fwRestartBy 0 false).evMgt 6) :
    s.watchdogExpiry = { u with mgt := { u.mgt with core := 3, interrupted := none } } := by
  rw [State.watchdogExpiry, if_neg (State.watchdog_expires hon hdue hcore)]
  dsimp only
  rw [if_pos ((third_expiry_iff _ _).2 ⟨h2, h10⟩), hu, ht]

end

theorem State.wdtKick_arms (hcore : s.mgt.core = 1) (hon : s.mgt.wdtOn = true) : s.wdtKick = s.wdtArm := if_pos ⟨hcore, hon⟩

/-! The end of a restart. -/

/-- The supplement is discarded, if the restart asks for it. -/
def State.restartKept (s : State) : State := if s.mgt.discard then s.suppDiscard else s

/-- The core runs again, with no message to answer any more. -/
def State.restartRuns (s : State) : State :=
  { s with mgt := { s.mgt with core := 1, discard := false, interrupted := none }, fab := { s.fab with changedAt := s.pwr.time } }

/-- The watchdog is armed, the restart logged, and the firmware may pass its trace points (R346, R350). -/
def State.restartLogged (s : State) : State :=
  (s.wdtArm.logWrite 0x0005 2 [min s.mgt.cause 2, b2n s.mgt.supp.isSome]).trace 12 4

theorem State.wdtArm_cause : s.wdtArm.mgt.cause = s.mgt.cause := by
  have hmgt : (s.useT 0x300010).mgt = s.mgt := s.useT_only _ .mgt (by decide)
  rw [State.wdtArm, hmgt]

theorem State.restartLogged_cause : s.restartLogged.mgt.cause = s.mgt.cause := by
  rw [State.restartLogged, State.trace_cause, State.logWrite_cause, State.wdtArm_cause]

theorem State.restartKept_interrupted : s.restartKept.mgt.interrupted = s.mgt.interrupted := by
  unfold State.restartKept; split <;> rfl

/-- Only a fault in the core's memory puts the supplement in doubt (R347). -/
theorem State.suppIntact_of_cause (h : s.mgt.cause ≠ 3) : s.suppIntact = (true, s) := if_neg fun ⟨h3, _⟩ => h h3

theorem State.restartDone_not_restarting (h : s.mgt.core ≠ 2) : s.restartDone = s := if_pos h

section
variable {u : State} (hcore : s.mgt.core = 2) (hcause : s.mgt.cause ≠ 3) (hu : u = s.restartKept.restartRuns)
include hcore hcause hu

theorem State.restartDone_no_message (hi : s.mgt.interrupted = none) : s.restartDone = u.restartLogged.nextMsg := by
  rw [State.restartDone, if_neg (not_not_intro hcore), State.suppIntact_of_cause hcause]
  dsimp only [if_true]
  rw [if_pos rfl, ← State.restartKept, State.restartKept_interrupted, hi, hu]
  rfl

theorem State.restartDone_answers {m : Msg} (hi : s.mgt.interrupted = some m) : s.restartDone =
    if m.type = 0x7020 then u.restartLogged.finish m stOK 0 []
    else u.restartLogged.finish m stAborted (b2n m.committed + put (min u.mgt.cause 2) 1) [] := by
  rw [State.restartDone, if_neg (not_not_intro hcore), State.suppIntact_of_cause hcause, ← State.restartLogged_cause, hu]
  dsimp only
  rw [if_pos rfl, ← State.restartKept, State.restartKept_interrupted, hi]
  rfl

end

end

/-- Settles O30: a restart by its cause, the watchdog by the expiries before it, the end by whether a message was interrupted. -/
theorem firmwareRestarts : Obligations.FirmwareRestarts := by
  refine ⟨fun d s hb => next_congr (State.mgtRestart_restarts hb), fun cause d s => State.fwRestartBy_mgt,
    fun s hp => ⟨next_congr (State.coreFault_residue hp), _, next_congr (State.coreFault_sram hp)⟩,
    fun s t hon hdue hcore ht => ⟨fun h => next_congr (State.watchdogExpiry_restarts hon hdue hcore ht h), fun h2 h10 => ?halts⟩,
    fun s t hcore hon ht => next_congr (ht ▸ State.wdtKick_arms hcore hon),
    fun s h => next_congr (State.restartDone_not_restarting h), ?noMessage, ?answers⟩
  case halts => exact ⟨_, next_congr (State.watchdogExpiry_halts hon hdue hcore ht h2 h10 rfl), rfl, rfl⟩
  case noMessage =>
    intro s t u hcore hcause hi ht hu
    have hkept : u = s.restartKept.restartRuns := hu.trans (congrArg State.restartRuns ht)
    exact next_congr (State.restartDone_no_message hcore hcause hkept hi)
  case answers =>
    intro s t u m hcore hcause hi ht hu
    have hkept : u = s.restartKept.restartRuns := hu.trans (congrArg State.restartRuns ht)
    exact next_congr (State.restartDone_answers hcore hcause hkept hi)

end Sys2Proof.Machine
end

section
/-!
The sideband endpoint (R351, R352): its address, and its answers to MCTP control messages.
-/
namespace Sys2Proof.Machine

section
variable {s : State}

theorem State.entdaa_assigns {a : Nat} (hp : s.pwr.off = 0) :
    s.entdaa a = { s with cfg := { s.cfg with dynAddr := a, addrValid := true } } := if_pos (State.powered_iff.2 hp)

section
variable (hp : s.pwr.off = 0) (hcore : s.mgt.core = 1)
include hp hcore

theorem State.mctpReply_running (pl : List Byte) :
    s.mctpReply pl = { s with mgt := { s.mgt with lastReply := some ⟨true, 0, stOK, 0, pl⟩ } } :=
  if_pos ⟨hcore, State.powered_iff.2 hp⟩

theorem State.setEid_endpoint {e : Nat} (h0 : e ≠ 0) (h255 : e ≠ 255) {t : State}
    (ht : t = { s with cfg := { s.cfg with eid := e } }) : s.setEid e =
      { t with mgt := { t.mgt with lastReply := some ⟨true, 0, stOK, 0, [0, 0, BitVec.ofNat 8 e, 0]⟩ } } := by
  subst ht
  rw [State.setEid, if_neg (by simp [hcore, State.powered_iff.2 hp]), if_neg (by simp [h0, h255])]
  exact State.mctpReply_running (s := { s with cfg := { s.cfg with eid := e } }) hp hcore _

end

theorem State.getMctpVersion_known {t : Nat} (h : t = 0 ∨ t = 0x7E ∨ t = 0xFF) :
    s.getMctpVersion t = (s.mctpReply ([0, 1] ++ leBytes 4 (Config.freeWord s.draws).toNat)).draw := if_pos h

theorem State.getVendorMsgs_zero : s.getVendorMsgs 0 = (s.mctpReply ([0, 0xFF, 0, BitVec.ofNat 8 (s.cfg.pciId.getD 0 0 / 256),
    BitVec.ofNat 8 (s.cfg.pciId.getD 0 0)] ++ leBytes 2 (Config.freeWord s.draws).toNat)).draw := rfl

theorem State.getVendorMsgs_other {k : Nat} (h : k ≠ 0) : s.getVendorMsgs k = s.mctpReply [2] := if_neg h

end

/-- Settles O31: each message by what it answers, and every answer by the one rule for answers of a running core. -/
theorem sidebandEndpoint : Obligations.SidebandEndpoint := by
  refine fun s hp => ⟨fun a => next_congr (State.entdaa_assigns hp), fun hcore => ?_⟩
  have answer := State.mctpReply_running hp hcore
  refine ⟨fun e h0 h255 => next_congr (State.setEid_endpoint hp hcore h0 h255 rfl), next_congr (answer _), next_congr (answer _),
    fun t ht => ⟨_, next_congr ((State.getMctpVersion_known ht).trans (congrArg State.draw (answer _)))⟩,
    ⟨_, next_congr (State.getVendorMsgs_zero.trans (congrArg State.draw (answer _)))⟩,
    fun k hk => next_congr ((State.getVendorMsgs_other hk).trans (answer _))⟩

end Sys2Proof.Machine
end

section
/-!
Messages that inform, attach and attest (R337 to R340, R364 to R367, R384, R386, R409).
-/
namespace Sys2Proof.Machine

section
variable {s : State} {m : Msg}

/-! What the module holds, as it stands. -/

theorem State.msgEcho_answers (h : s.msgIn 0x7000 = some m) : s.msgEcho = s.finish m stOK 0 m.payload := by
  rw [State.msgEcho, h]

theorem State.msgGetInfo_answers (h : s.msgIn 0x7002 = some m) : s.msgGetInfo = s.finish m stOK 0 s.infoBytes := by
  rw [State.msgGetInfo, h]

theorem State.msgSuppStatus_answers (h : s.msgIn 0x7011 = some m) :
    s.msgSuppStatus = s.finish m stOK 0 (leBytes 4 s.suppState ++ measured s.sec.mSupp) := by rw [State.msgSuppStatus, h]

theorem State.msgLogRead_answers (h : s.msgIn 0x7021 = some m) {first n : Nat} (hfirst : first = max (numAt m.payload 0 4) s.logOldest)
    (hn : n = min (numAt m.payload 4 4) (s.ctr 0xF00018 - first)) : s.msgLogRead = s.finish m stOK 0 (leBytes 4 s.logOldest ++
      leBytes 4 n ++ ((List.range n).filterMap fun i => tget noneD s.mgt.log ((first + i) % 2048)).flatMap LogEntry.bytes) := by
  rw [State.msgLogRead, h, hn, hfirst]

theorem State.msgTelemetry_answers (h : s.msgIn 0x7030 = some m) : s.msgTelemetry = s.draw.finish m stOK 0 s.telemetryBytes := by
  rw [State.msgTelemetry, h]

theorem State.msgCertRead_answers (h : s.msgIn 0x7041 = some m) {obj : List Byte} {o n : Nat}
    (hobj : obj = s.certObject (numAt m.payload 0 4)) (ho : o = numAt m.payload 4 4) (hn : n = min 4024 (obj.length - o)) :
    s.msgCertRead = s.finish m stOK 0 (leBytes 4 obj.length ++ leBytes 4 n ++ part obj o n) := by
  rw [State.msgCertRead, h, hn, ho, hobj]

theorem State.msgHistRead_answers (h : s.msgIn 0x7060 = some m) {es : List HistEntry}
    (hes : es = (s.flash.hist.drop (numAt m.payload 0 4)).take (numAt m.payload 4 4)) : s.msgHistRead = s.finish m stOK 0
      (leBytes 4 s.flash.hist.length ++ leBytes 4 es.length ++ es.flatMap HistEntry.bytes) := by
  rw [State.msgHistRead, h, hes]

/-! ATTACH, by the versions chosen: the towpath's message asks for the mailbox interface alone. -/

section
variable (h : s.msgIn 0x7001 = some m) {want : List (Option (Nat × Nat))}
  (hwant : want = (List.range 5).map (fun i =>
    if m.towpath = true ∧ i ≠ 1 then some (s.mgt.vers.getD i (1, 0)) else s.choose m.payload i))
include h hwant

theorem State.msgAttach_attaches {t : State}
    (ht : t = (if m.towpath then { s with mgt := { s.mgt with towVer := (want.map fun x => x.getD (1, 0)).getD 1 (1, 0) } }
      else { s with mgt := { s.mgt with vers := want.map fun x => x.getD (1, 0), attached := true } }))
    (hall : want.any (·.isNone) = false) : s.msgAttach = (t.logWrite 0x0007 0 [numAt (attachBytes want) 0 4,
      numAt (attachBytes want) 4 4, numAt (attachBytes want) 8 2]).finish m stOK 0 (attachBytes want) := by
  rw [State.msgAttach, h]
  dsimp only
  rw [← hwant, if_neg (by simp [hall]), ht]

theorem State.msgAttach_no_version (hnone : want.any (·.isNone) = true) :
    s.msgAttach = s.finish m stVersion (attachDetail want) (attachBytes want) := by
  rw [State.msgAttach, h]
  dsimp only
  rw [← hwant, if_pos hnone]

end

/-! ATTEST, by its OP. -/

theorem State.msgReport_no_identity (h : s.attestIn 0 = some m) (hid : s.sec.id ≠ 1) :
    s.msgReport = s.finishFail m ⟨stOutOfService, 1⟩ := by
  rw [State.msgReport, h]
  exact if_pos hid

theorem State.msgReport_reports (h : s.attestIn 0 = some m) (hid : s.sec.id = 1) : s.msgReport =
    (s.report (part m.payload 4 32) m.towpath).2.finish m stOK 0 (s.report (part m.payload 4 32) m.towpath).1 := by
  rw [State.msgReport, h]
  exact if_neg (not_not_intro hid)

theorem State.msgExtend_extends (h : s.attestIn 1 = some m) (hn : numAt m.payload 12 8 ≠ 0) {bs : List Byte} {t u : State}
    (hread : s.fwRead (numAt m.payload 4 8) (numAt m.payload 4 8) (numAt m.payload 12 8) = (.bytes bs, t)) (hu : u = t.extendProg bs) :
    s.msgExtend = u.finish m stOK 0 (leBytes 4 (u.ctr 0x1000080) ++ measured u.sec.mProg) := by
  simp only [State.msgExtend, h, if_neg hn, hread, hu]

theorem State.msgClear_clears (h : s.attestIn 2 = some m) : s.msgClear = s.clearProg.finish m stOK 0 [] := by
  rw [State.msgClear, h]

/-! MARGIN, by whether its unit is trained (R386). -/

theorem State.msgMargin_trained (h : s.msgIn 0x7070 = some m) {lo hi limit : Nat}
    (htrained : s.marginable (byteAt m.payload 0) (numAt m.payload 2 2) = true)
    (hlimit : limit = (if byteAt m.payload 0 = 2 then 48 else 32)) : s.msgMargin lo hi = s.draw.finish m stOK 0
      (leBytes 2 (min lo limit) ++ leBytes 2 (min hi limit) ++ leBytes 2 limit ++
        leBytes 2 ((Config.freeWord s.draws).toNat % 65536)) := by
  rw [State.msgMargin, h]
  dsimp only
  rw [if_neg (by simp [htrained]), hlimit]

theorem State.msgMargin_untrained (h : s.msgIn 0x7070 = some m) {lo hi : Nat}
    (huntrained : s.marginable (byteAt m.payload 0) (numAt m.payload 2 2) = false) :
    s.msgMargin lo hi = s.finishFail m ⟨stOutOfService, 0⟩ := by
  rw [State.msgMargin, h]
  exact if_pos (by simp [huntrained])

end

/-- Settles O27: each message by what it answers, ATTACH by the versions chosen, ATTEST by its OP, MARGIN by whether its unit is
trained. -/
theorem messagesAnswered : Obligations.MessagesAnswered := by
  refine ⟨fun s m => ⟨fun h => next_congr (State.msgEcho_answers h), fun h => next_congr (State.msgGetInfo_answers h),
      fun h => next_congr (State.msgSuppStatus_answers h), fun first n h hfirst hn => next_congr (State.msgLogRead_answers h hfirst hn),
      fun h => next_congr (State.msgTelemetry_answers h), fun obj o n h hobj ho hn => next_congr (State.msgCertRead_answers h hobj ho hn),
      fun es h hes => next_congr (State.msgHistRead_answers h hes)⟩,
    fun s m => ⟨?attach, fun h hid => next_congr (State.msgReport_no_identity h hid),
      fun h hid => next_congr (State.msgReport_reports h hid), fun bs t u h hn hread hu => next_congr (State.msgExtend_extends h hn hread hu),
      fun h => next_congr (State.msgClear_clears h),
      fun lo hi limit h htrained hlimit => ⟨_, next_congr (State.msgMargin_trained h htrained hlimit)⟩,
      fun lo hi h huntrained => next_congr (State.msgMargin_untrained h huntrained)⟩⟩
  case attach =>
    exact fun want t h hwant ht => ⟨fun hall => next_congr (State.msgAttach_attaches h hwant ht hall),
      fun hnone => next_congr (State.msgAttach_no_version h hwant hnone)⟩

end Sys2Proof.Machine
end

section
/-!
Messages that change power and what the module keeps (R336, R342, R345, R383, R384, R405 to R408, R434).
-/
namespace Sys2Proof.Machine

section
variable {s : State} {m : Msg}

/-! Power. -/

section
variable (h : s.powerIn 0 = some m)
include h

theorem State.msgPowerRun_from_slack (hslack : s.pwr.state = 1) (hd3 : s.cqf.heldD3 = false) :
    s.msgPowerRun = s.slackExit.powerReply m := by
  rw [State.msgPowerRun, h]
  dsimp only
  rw [if_neg (by simp [hslack, hd3]), if_pos hslack]

theorem State.msgPowerRun_running (hrun : s.pwr.state = 0) (hd3 : s.cqf.heldD3 = false) : s.msgPowerRun = s.powerReply m := by
  rw [State.msgPowerRun, h]
  dsimp only
  rw [if_neg (by simp [hrun, hd3]), if_neg (by simp [hrun])]

theorem State.msgPowerRun_d3hot (hd3 : s.pwr.state = 2 ∨ s.cqf.heldD3 = true) :
    s.msgPowerRun = s.finishFail m ⟨stBadParam, 3⟩ := by
  rw [State.msgPowerRun, h]
  exact if_pos hd3

end

section
variable (h : s.powerIn 1 = some m) (hstate : s.pwr.state ≠ 1)
include h hstate

theorem State.msgSlack_enters (hnone : s.slackRefuse = none) : s.msgSlack = (s.slackEnter 1).powerReply m := by
  simp only [State.msgSlack, h, if_neg hstate, hnone]

theorem State.msgSlack_refused {d : Nat} (hd : s.slackRefuse = some d) : s.msgSlack = s.finishFail m ⟨stBadParam, d⟩ := by
  simp only [State.msgSlack, h, if_neg hstate, hd]

end

section
variable (h : s.powerIn 3 = some m)
include h

theorem State.msgDeepOff_prepares (hnone : s.slackRefuse = none) :
    s.msgDeepOff = ({ s with pwr := { s.pwr with deepAt := some (s.pwr.time + 1000000) } } : State).powerReply m := by
  simp only [State.msgDeepOff, h, hnone]

theorem State.msgDeepOff_refused {d : Nat} (hd : s.slackRefuse = some d) : s.msgDeepOff = s.finishFail m ⟨stBadParam, d⟩ := by
  simp only [State.msgDeepOff, h, hd]

end

theorem State.msgPowerLimit_sets (h : s.msgIn 0x7051 = some m) {t : State}
    (ht : t = s.byWrite (fun u => u.setReg 0x200010 (numAt m.payload 0 2))) : s.msgPowerLimit = t.finish m stOK 0 (leBytes 4 t.limitW) := by
  rw [State.msgPowerLimit, h, ht]

/-! The supplement and the restart. -/

section
variable (h : s.msgIn 0x7010 = some m) {t : State}
include h

theorem State.msgSuppLoad_commits {x : Supp} (hload : s.suppLoadTry (numAt m.payload 0 8) (numAt m.payload 8 4) = (.done x, t)) :
    s.msgSuppLoad = (t.suppCommit x).finish m stOK 0 x.measurement := by
  simp only [State.msgSuppLoad, h, hload]

/-- A check other than the signature's fails. -/
theorem State.msgSuppLoad_fails {f : Fail} (hload : s.suppLoadTry (numAt m.payload 0 8) (numAt m.payload 8 4) = (.fail f false, t)) :
    s.msgSuppLoad = t.finishFail m f := by
  simp only [State.msgSuppLoad, h, hload, Bool.false_eq_true, if_false]

end

theorem State.msgFwRestart_restarts (h : s.msgIn 0x7020 = some m) : s.msgFwRestart =
    ({ s with mgt := { s.mgt with msg := some { m with committed := true } } } : State).fwRestartBy 1 (bitAt (byteAt m.payload 0) 0) := by
  rw [State.msgFwRestart, h]

/-! The persistent history: one entry of the driver's at a time, and 4,096 in all. -/

section
variable (h : s.msgIn 0x7061 = some m) (hone : s.err.histPend.any HistEntry.byDriver = false)
include h hone

theorem State.msgHistAdd_queues (hroom : s.histCount < 4096) : s.msgHistAdd = { s with err := { s.err with histPend := s.err.histPend ++
    [⟨numAt m.payload 0 1, numAt m.payload 4 4, numAt m.payload 8 8, s.flash.starts, s.cfg.version⟩] } } := by
  rw [State.msgHistAdd, h]
  dsimp only
  rw [if_neg (by simp [hone]), if_neg (Nat.not_le.2 hroom)]
  exact if_pos hroom

theorem State.msgHistAdd_full (hfull : 4096 ≤ s.histCount) : s.msgHistAdd = (s.evErr 4).finishFail m ⟨stQuota, 0⟩ := by
  rw [State.msgHistAdd, h]
  dsimp only
  rw [if_neg (by simp [hone]), if_pos hfull]

end

section
variable {e : HistEntry} {rest : List HistEntry} {t : State} (hpend : s.err.histPend = e :: rest)
  (ht : t = { s with err := { s.err with histPend := rest }, flash := { s.flash with hist := s.flash.hist ++ [e] } })
include hpend ht

theorem State.histWritten_own (hown : e.byDriver = false) : s.histWritten = t := by
  simp only [State.histWritten, hpend, hown, ht]

theorem State.histWritten_driver (hdriver : e.byDriver = true) (h : t.msgIn 0x7061 = some m) :
    s.histWritten = t.finish m stOK 0 [] := by
  simp only [State.histWritten, hpend, hdriver, ← ht, h]

end

/-! CONFIG_UPDATE: the record passes its checks, and the slot reads back as written or not (R434). -/

section
variable (h : s.msgIn 0x7080 = some m) {a size : Nat} {bs : List Byte} {r : Record} {t u : State} (ha : a = numAt m.payload 0 8)
  (hsize : size = numAt m.payload 8 4) (hlo : 256 ≤ size) (hhi : size ≤ 1048576) (hread : s.fwRead a a size = (.bytes bs, t))
  (hcheck : t.cfgCheck bs size = (.ok r, u))
include h ha hsize hlo hhi hread hcheck

theorem State.msgConfigUpdate_writes :
    s.msgConfigUpdate = (u.draw.writeSlot bs).commitRecord.finish m stOK 0 (leBytes 4 r.version) ∨
      ∃ o < size, s.msgConfigUpdate = (u.draw.writeSlot bs).finishFail m ⟨stUncorrectable, o⟩ := by
  have hfits : ¬ (size < 256 ∨ 1048576 < size) := by omega
  simp only [State.msgConfigUpdate, h, ← ha, ← hsize, if_neg hfits, hread, hcheck]
  cases Config.flashBad u.draws size with
  | none => exact .inl rfl
  | some o => exact .inr ⟨o % size, Nat.mod_lt _ (by omega), rfl⟩

end

end

/-- Settles O28: power by the state the module is in, the supplement by how its load ends, the history by its room and who adds,
CONFIG_UPDATE by what the slot reads back. -/
theorem powerAndCommitMessages : Obligations.PowerAndCommitMessages := by
  refine ⟨fun s m => ⟨fun h hslack hd3 => next_congr (State.msgPowerRun_from_slack h hslack hd3),
      fun h hrun hd3 => next_congr (State.msgPowerRun_running h hrun hd3), fun h hd3 => next_congr (State.msgPowerRun_d3hot h hd3),
      fun h hstate hnone => next_congr (State.msgSlack_enters h hstate hnone),
      fun d h hstate hd => next_congr (State.msgSlack_refused h hstate hd), fun h hnone => next_congr (State.msgDeepOff_prepares h hnone),
      fun d h hd => next_congr (State.msgDeepOff_refused h hd), fun t h ht => next_congr (State.msgPowerLimit_sets h ht)⟩,
    fun s m => ⟨fun x t h hload => next_congr (State.msgSuppLoad_commits h hload),
      fun f t h hload => next_congr (State.msgSuppLoad_fails h hload), fun h => next_congr (State.msgFwRestart_restarts h),
      fun h hone hroom => next_congr (State.msgHistAdd_queues h hone hroom),
      fun h hone hfull => next_congr (State.msgHistAdd_full h hone hfull), ?historyWritten, ?configUpdate⟩⟩
  case historyWritten =>
    exact fun e rest t hpend ht => ⟨fun hown => next_congr (State.histWritten_own hpend ht hown),
      fun hdriver h => next_congr (State.histWritten_driver hpend ht hdriver h)⟩
  case configUpdate =>
    intro a size bs r t u h ha hsize hlo hhi hread hcheck
    exact (State.msgConfigUpdate_writes h ha hsize hlo hhi hread hcheck).imp next_congr
      fun ⟨o, ho, hdiffers⟩ => ⟨o, ho, next_congr hdiffers⟩

end Sys2Proof.Machine
end

section
/-!
One step (R402), and the invariant at its beginning.
-/
namespace Sys2Proof.Machine

theorem step_of_waiting {c : Instr} {rest : List Instr} {s : State} (h : s.pending = c :: rest) :
    step s = exec c { s with pending := rest } := by rw [step, h]

theorem step_of_idle {s : State} (h : s.pending = []) : step s = .next s.tick := by rw [step, h]

/-- Settles O2: by whether a command waits. -/
theorem stepTakesTheFront : Obligations.StepTakesTheFront := ⟨fun _ _ _ => step_of_waiting, fun _ => step_of_idle⟩

/-- Settles O3: after reset no cell is listed and no command waits. -/
theorem invariantAtReset : Obligations.InvariantAtReset := inv_iff.2 ⟨rfl, rfl⟩

end Sys2Proof.Machine
end

section
/-!
Sequence-cleared status registers and counts (R419, R421).
-/
namespace Sys2Proof.Machine

/-! Bits of a register whose SEQ stands in [31:24]. -/

/-- Adding a power of two to a number that has not that bit sets the bit and no other. -/
theorem testBit_add_two_pow {x i : Nat} (h : x.testBit i = false) (j : Nat) :
    (x + 2 ^ i).testBit j = (x.testBit j || decide (i = j)) := by
  have heven : x / 2 ^ i % 2 = 0 := by
    rw [Nat.testBit_eq_decide_div_mod_eq] at h
    have := of_decide_eq_false h
    omega
  have hx : x = 2 ^ i * (x / 2 ^ i) + x % 2 ^ i := (Nat.div_add_mod _ _).symm
  have hlo : x % 2 ^ i < 2 ^ i := Nat.mod_lt _ (Nat.two_pow_pos i)
  have hsum : x + 2 ^ i = 2 ^ i * (x / 2 ^ i + 1) + x % 2 ^ i := by rw [Nat.mul_add]; omega
  generalize x / 2 ^ i = m at heven hx hsum
  generalize x % 2 ^ i = lo at hlo hx hsum
  rw [hsum, hx, Nat.testBit_two_pow_mul_add _ hlo, Nat.testBit_two_pow_mul_add _ hlo]
  by_cases hj : j < i
  · simp [hj, Nat.ne_of_gt hj]
  · obtain ⟨k, rfl⟩ := Nat.exists_eq_add_of_le (Nat.le_of_not_lt hj)
    simp only [if_neg hj, Nat.add_sub_cancel_left]
    cases k with
    | zero => simp [Nat.testBit_zero]; omega
    | succ k => simp [Nat.testBit_succ, show (m + 1) / 2 = m / 2 by omega]

theorem add_two_pow_lt {x i n : Nat} (h : x.testBit i = false) (hx : x < 2 ^ n) (hi : i < n) : x + 2 ^ i < 2 ^ n := by
  have hor : x + 2 ^ i = x ||| 2 ^ i := Nat.eq_of_testBit_eq fun j => by
    rw [testBit_add_two_pow h, Nat.testBit_or, Nat.testBit_two_pow]
  rw [hor]
  exact Nat.or_lt_two_pow hx (Nat.pow_lt_pow_right (by omega) hi)

/-- What stands in [31:24] does not matter to the bits below. -/
theorem bitAt_mod_seq (x : Nat) {i : Nat} (hi : i < 24) : bitAt (x % 16777216) i = bitAt x i := by
  rw [bitAt_eq_testBit, bitAt_eq_testBit, show (16777216 : Nat) = 2 ^ 24 from rfl, Nat.testBit_mod_two_pow]
  simp [hi]

/-- Clearing bits below SEQ clears those bits and leaves SEQ. -/
theorem bitAt_clear (v m : Nat) {i : Nat} (hi : i < 24) : bitAt (v &&& (0xFFFFFFFF ^^^ m)) i = (bitAt v i && !bitAt m i) := by
  have hone : (0xFFFFFFFF : Nat).testBit i = true := by
    rw [show (0xFFFFFFFF : Nat) = 2 ^ 32 - 1 from rfl, Nat.testBit_two_pow_sub_one]; exact decide_eq_true (by omega)
  simp only [bitAt_eq_testBit, Nat.testBit_and, Nat.testBit_xor, hone, Bool.true_xor]

theorem seq_clear {v m : Nat} (hv : v < 4294967296) (hm : m < 16777216) : (v &&& (0xFFFFFFFF ^^^ m)) / 16777216 = v / 16777216 := by
  rw [show (16777216 : Nat) = 2 ^ 24 from rfl] at *
  refine Nat.eq_of_testBit_eq fun i => ?_
  have hmi : m.testBit (i + 24) = false :=
    Nat.testBit_lt_two_pow (hm.trans_le (Nat.pow_le_pow_right (by omega) (by omega)))
  simp only [Nat.testBit_div_two_pow, Nat.testBit_and, Nat.testBit_xor, hmi, Bool.xor_false]
  rw [show (0xFFFFFFFF : Nat) = 2 ^ 32 - 1 from rfl, Nat.testBit_two_pow_sub_one]
  by_cases hi : i + 24 < 32
  · simp [hi]
  · rw [Nat.testBit_lt_two_pow (hv.trans_le (Nat.pow_le_pow_right (n := 2) (i := 32) (by omega) (by omega)))]
    rfl

/-! Status registers (R419). -/

section
variable {v w : W32}

theorem setEvent_of_set {bit : Nat} (h : bitAt v.toNat bit = true) : setEvent v bit = v := if_pos h

section
variable {bit : Nat} (hbit : bit < 24) (h : bitAt v.toNat bit = false)
include hbit h

/-- The event bits of a register with a new event stay within [23:0]. -/
theorem event_bits_lt : v.toNat % 16777216 + 2 ^ bit < 16777216 :=
  add_two_pow_lt (n := 24) (by rw [← bitAt_eq_testBit, bitAt_mod_seq _ hbit]; exact h) (Nat.mod_lt _ (by decide)) hbit

theorem toNat_setEvent :
    (setEvent v bit).toNat = (v.toNat / 16777216 + 1) % 256 * 16777216 + v.toNat % 16777216 + 2 ^ bit := by
  have hlow := event_bits_lt hbit h
  rw [setEvent, if_neg (by simp [h]), BitVec.toNat_ofNat, Nat.mod_eq_of_lt (by omega)]

theorem seq_setEvent : (setEvent v bit).toNat / 16777216 = (v.toNat / 16777216 + 1) % 256 := by
  have hlow := event_bits_lt hbit h
  rw [toNat_setEvent hbit h]
  generalize 2 ^ bit = p at hlow ⊢
  omega

theorem bitAt_setEvent {i : Nat} (hi : i < 24) : bitAt (setEvent v bit).toNat i = (bitAt v.toNat i || decide (bit = i)) := by
  have hlow := event_bits_lt hbit h
  have hmod : (setEvent v bit).toNat % 16777216 = v.toNat % 16777216 + 2 ^ bit := by
    rw [toNat_setEvent hbit h]
    generalize 2 ^ bit = p at hlow ⊢
    omega
  rw [← bitAt_mod_seq _ hi, hmod, bitAt_eq_testBit, testBit_add_two_pow, ← bitAt_eq_testBit, bitAt_mod_seq _ hi]
  rw [← bitAt_eq_testBit, bitAt_mod_seq _ hbit]
  exact h

end

/-- A clearing write whose SEQ matches (R419). -/
theorem toNat_seqClear {ev : Nat} (h : w.toNat / 16777216 = v.toNat / 16777216) :
    (seqClear ev v w).toNat = v.toNat &&& (0xFFFFFFFF ^^^ (w.toNat % 16777216 &&& ev)) := by
  rw [seqClear, if_pos h, BitVec.toNat_ofNat, Nat.mod_eq_of_lt (Nat.and_le_left.trans_lt v.isLt)]

theorem seqClear_stale {ev : Nat} (h : w.toNat / 16777216 ≠ v.toNat / 16777216) : seqClear ev v w = setEvent v 23 := if_neg h

theorem seq_seqClear {ev : Nat} (h : w.toNat / 16777216 = v.toNat / 16777216) :
    (seqClear ev v w).toNat / 16777216 = v.toNat / 16777216 := by
  rw [toNat_seqClear h]
  exact seq_clear v.isLt (Nat.and_le_left.trans_lt (Nat.mod_lt _ (by decide)))

theorem bitAt_seqClear {ev : Nat} (h : w.toNat / 16777216 = v.toNat / 16777216) {i : Nat} (hi : i < 24) :
    bitAt (seqClear ev v w).toNat i = (bitAt v.toNat i && !(bitAt w.toNat i && bitAt ev i)) := by
  rw [toNat_seqClear h, bitAt_clear _ _ hi, bitAt_and, bitAt_mod_seq _ hi]

/-! Counts (R421). -/

theorem countUp_saturated (h : v.toNat % 16777216 = 0xFFFFFF) : countUp v = v := if_pos h

theorem toNat_countUp (h : v.toNat % 16777216 ≠ 0xFFFFFF) :
    (countUp v).toNat = (v.toNat / 16777216 + 1) % 256 * 16777216 + (v.toNat % 16777216 + 1) := by
  have hc : v.toNat % 16777216 < 16777216 := Nat.mod_lt _ (by decide)
  rw [countUp, if_neg h, BitVec.toNat_ofNat, Nat.mod_eq_of_lt (by omega), Nat.add_assoc]

theorem toNat_countClear (h : w.toNat / 16777216 = v.toNat / 16777216) :
    (countClear v w).toNat = v.toNat / 16777216 * 16777216 := by
  have hv := v.isLt
  rw [countClear, if_pos h, BitVec.toNat_ofNat, Nat.mod_eq_of_lt (by omega)]

theorem countClear_unmatched (h : w.toNat / 16777216 ≠ v.toNat / 16777216) : countClear v w = v := if_neg h

end

/-! The clearing write through BAR0. -/

section
variable {s : State} {off data : Nat} {a : RegAt}

section
variable (hb : s.barOpen = true) (h4 : off % 4 = 0) (hmbox : ¬ (0xF10000 ≤ off ∧ off < 0xF11000))
include hb h4 hmbox

/-- One word's write that only sets a status word. -/
theorem State.regWrite_stats {f : W32 → W32 → W32} (hw : ∀ d, s.barWordWrite off d =
    { s with stats := tput statReset s.stats off (f (s.stat off) (BitVec.ofNat 32 d)) }) (d : W32) :
    s.regWrite off 4 d.toNat = { s with stats := tput statReset s.stats off (f (s.stat off) d) } := by
  rw [State.regWrite_word hb h4 hmbox, State.byWrite_of_regs (by rw [hw]; exact ⟨rfl, rfl, rfl⟩), hw, Nat.mod_eq_of_lt d.isLt,
    BitVec.ofNat_toNat, BitVec.setWidth_eq]

section
variable (hmsix : ¬ (0x440000 ≤ off ∧ off < 0x448000)) (ha : regAt off = some a)
include hmsix ha

theorem State.seqWrite_clears {ev : Nat} {k : Kept} (hk : a.reg.kind = .stat ev k) (d : W32) :
    s.seqWrite off d.toNat = { s with stats := tput statReset s.stats off (seqClear ev (s.stat off) d) } := by
  rw [State.seqWrite, if_pos (by simp [isStat, ha, hk])]
  exact State.regWrite_stats hb h4 hmbox (fun d => by simp only [State.barWordWrite, if_neg hmsix, ha, hk]) d

theorem State.countWrite_clears {k : Kept} (hk : a.reg.kind = .rc k) (d : W32) :
    s.countWrite off d.toNat = { s with stats := tput statReset s.stats off (countClear (s.stat off) d) } := by
  rw [State.countWrite, if_pos (by simp [isRc, ha, hk])]
  exact State.regWrite_stats hb h4 hmbox (fun d => by simp only [State.barWordWrite, if_neg hmsix, ha, hk]) d

end
end
end

/-- Settles O7: a new event adds its bit, a write whose SEQ matches takes bits away, and neither reaches SEQ's bits from below. -/
theorem statusSequenceClear : Obligations.StatusSequenceClear := by
  refine ⟨fun v bit hbit => ⟨setEvent_of_set, fun h => ⟨?_, seq_setEvent hbit h, fun i hi hne => ?_⟩⟩,
    fun ev v w _ => ⟨fun h => ⟨seq_seqClear h, fun i hi => bitAt_seqClear h hi⟩, seqClear_stale⟩,
    fun off data s a ev k hb ha hk h4 hmsix hmbox => next_congr (State.seqWrite_clears hb h4 hmbox hmsix ha hk data)⟩
  · rw [bitAt_setEvent hbit h hbit, decide_eq_true rfl, Bool.or_true]
  · rw [bitAt_setEvent hbit h hi, decide_eq_false hne.symm, Bool.or_false]

/-- Settles O8: the register is SEQ times 2^24 plus the count, so one more and zero change one of the two parts or both. -/
theorem countSequenceClear : Obligations.CountSequenceClear := by
  refine ⟨fun v => ⟨countUp_saturated, fun h => ?_⟩, fun v w => ⟨fun h => ?_, countClear_unmatched⟩,
    fun off data s a k hb ha hk h4 hmsix hmbox => next_congr (State.countWrite_clears hb h4 hmbox hmsix ha hk data)⟩
  · rw [toNat_countUp h]; omega
  · rw [toNat_countClear h]; omega

end Sys2Proof.Machine
end

section
/-!
Pins, sensors and the reference oscillator (R392, R397, R401, R405).
-/
namespace Sys2Proof.Machine

section
variable {s : State} (hp : s.pwr.off = 0)
include hp

theorem State.inputLow_flags : s.inputLow = ({ s with pwr := { s.pwr with low := true } } : State).evPwr 2 :=
  if_pos (State.powered_iff.2 hp)

theorem State.inputHigh_flags : s.inputHigh = ({ s with pwr := { s.pwr with high := true } } : State).evPwr 3 :=
  if_pos (State.powered_iff.2 hp)

section
variable {t : Int}

theorem State.hotReached_stack {x : Sensor} (hx : ∃ i, x = .stackCore i ∨ x = .stackBase i) (ht : (s.rf 0x900004 15 8 : Int) ≤ t) :
    s.hotReached x t = (s.setTemp x t).raiseIf 0x900000 2 393 (s.rbit 0x900004 0) := by
  obtain ⟨i, rfl | rfl⟩ := hx <;> exact if_pos ⟨State.powered_iff.2 hp, ht⟩

theorem State.hotReached_package (i : Fin 24) (ht : (s.rf 0xB00004 15 8 : Int) ≤ t) :
    s.hotReached (.package i) t = (s.setTemp (.package i) t).raiseIf 0xB00000 2 395 (s.rbit 0xB00004 0) :=
  if_pos ⟨State.powered_iff.2 hp, ht⟩

end

/-- The oscillator's record takes its class, INFO and LOCATION from one free value. -/
theorem State.oscillatorFail_switches (ho : s.pwr.oscInt = false) :
    s.oscillatorFail.pwr = { s.pwr with oscInt := true } ∧ s.oscillatorFail.draws = s.draws + 1 := by
  rw [State.oscillatorFail, if_neg (by simp [ho, State.powered_iff.2 hp])]
  dsimp only
  rw [State.errRec_only _ _ _ _ _ _ _ .pwr (by decide), State.errRec_only _ _ _ _ _ _ _ .draws (by decide),
    State.evTim_only _ _ .pwr (by decide), State.evTim_only _ _ .draws (by decide)]
  exact ⟨rfl, rfl⟩

end

/-- Settles O23: each pin and sensor sets its field and its event while the rails are on; the oscillator's record leaves PWR and the
free values as the switch left them. -/
theorem pinsAndSensors : Obligations.PinsAndSensors := by
  refine fun s hp => ⟨next_congr (State.inputLow_flags hp), next_congr (State.inputHigh_flags hp), rfl, rfl,
    fun i t ht => ⟨next_congr (State.hotReached_stack hp ⟨i, .inl rfl⟩ ht), next_congr (State.hotReached_stack hp ⟨i, .inr rfl⟩ ht)⟩,
    fun i t ht => next_congr (State.hotReached_package hp i ht), fun ho => ⟨s.oscillatorFail, rfl, ?_⟩⟩
  obtain ⟨hpwr, hdraws⟩ := State.oscillatorFail_switches hp ho
  exact ⟨hpwr, hdraws, State.oscillatorFail_only s⟩

end Sys2Proof.Machine
end

section
/-!
D3hot and self-refresh (R404 to R407).
-/
namespace Sys2Proof.Machine

section
variable {s : State}

/-- Whether no command is dispatched, the queues say. -/
theorem State.quiet_congr {t : State} (h : t.cqf.queues = s.cqf.queues) : t.quiet = s.quiet := by
  rw [State.quiet, State.quiet, h]

theorem State.d3Settle_waits (h : s.quiet = false) : s.d3Settle = s := if_neg (by simp [h])

section
variable (hp : s.pwr.off = 0)
include hp

section
variable (hd3 : s.cqf.heldD3 = false)
include hd3

theorem State.d3hotEntry_enters (hrun : s.pwr.state = 0) (hnone : s.slackRefuse = none) : s.d3hotEntry = s.slackEnter 2 := by
  rw [State.d3hotEntry, if_neg (by simp [State.powered_iff.2 hp, hrun, hd3]), if_neg (by simp [hrun]), hnone]

theorem State.d3hotEntry_from_slack (hslack : s.pwr.state = 1) :
    s.d3hotEntry = { s with pwr := { s.pwr with state := 2 } } := by
  rw [State.d3hotEntry, if_neg (by simp [State.powered_iff.2 hp, hslack, hd3]), if_pos hslack]

theorem State.d3hotEntry_waits {d : Nat} (hrun : s.pwr.state = 0) (hd : s.slackRefuse = some d) (hq : s.quiet = false) :
    s.d3hotEntry = ({ s with cqf := { s.cqf with heldD3 := true } } : State).evPwr 6 := by
  have hcqf : (({ s with cqf := { s.cqf with heldD3 := true } } : State).evPwr 6).cqf = { s.cqf with heldD3 := true } :=
    State.evPwr_only _ _ .cqf (by decide)
  rw [State.d3hotEntry, if_neg (by simp [State.powered_iff.2 hp, hrun, hd3]), if_neg (by simp [hrun]), hd]
  exact State.d3Settle_waits ((State.quiet_congr (by rw [hcqf])).trans hq)

end

theorem State.d3hotExit_runs (h : s.pwr.state = 2) : s.d3hotExit = s.slackExit := by
  rw [State.d3hotExit, if_neg (by simp [State.powered_iff.2 hp]), if_pos h]

theorem State.d3hotExit_gives_up (h : s.pwr.state ≠ 2) : s.d3hotExit = { s with cqf := { s.cqf with heldD3 := false } } := by
  rw [State.d3hotExit, if_neg (by simp [State.powered_iff.2 hp]), if_neg h]

end

section
variable (hslack : s.pwr.state = 1)
include hslack

theorem State.tierReturn_capacity (h : s.mem.wokeCap + 1000000 ≤ s.pwr.time) :
    s.tierReturn true = { s with mem := { s.mem with refreshCap := true } } := by
  rw [State.tierReturn, if_neg (not_not_intro hslack), if_pos rfl, if_pos h]

theorem State.tierReturn_fast (h : s.mem.wokeFast + 1000000 ≤ s.pwr.time) :
    s.tierReturn false = { s with mem := { s.mem with refreshFast := true } } := by
  rw [State.tierReturn, if_neg (not_not_intro hslack), if_neg (by decide), if_pos h]

end
end

/-- Settles O24: D3hot by the state the module is in and what refuses the entry, self-refresh by the time since the last access. -/
theorem powerStatesChange : Obligations.PowerStatesChange :=
  fun _ hp => ⟨fun hrun hd3 hnone => ⟨next_congr (State.d3hotEntry_enters hp hd3 hrun hnone), rfl, rfl, rfl, rfl⟩,
    fun hslack hd3 => next_congr (State.d3hotEntry_from_slack hp hd3 hslack),
    fun _ hrun hd3 hd hq => next_congr (State.d3hotEntry_waits hp hd3 hrun hd hq),
    fun h => next_congr (State.d3hotExit_runs hp h), fun h => next_congr (State.d3hotExit_gives_up hp h),
    fun hslack h => next_congr (State.tierReturn_capacity hslack h), fun hslack h => next_congr (State.tierReturn_fast hslack h)⟩

end Sys2Proof.Machine
end

section
/-!
The end of an arbiter window (R399, R400).
-/
namespace Sys2Proof.Machine

/-- What the arbiter decides on: the measurement taken, the window begun. -/
def State.windowEnd (s : State) (m : PowerSample) : State :=
  let t := s.measure m
  { t with pwr := { t.pwr with windowAt := s.pwr.time / 10000 } }

section
variable {s : State} {m : PowerSample} (hp : s.pwr.off = 0) (hw : s.pwr.windowAt < s.pwr.time / 10000)
  {u : State} (hu : u = s.windowEnd m)
include hp hw hu

theorem State.arbiterWindow_decides : s.arbiterWindow m =
    if (decide (u.limitW * 1000 < m.mw) || u.tooHot) = true then u.reduce (decide (u.limitW * 1000 < m.mw)) u.tooHot
    else if m.mw < u.limitW * 1000 - u.rf 0x200018 7 0 * 1000 then
      if u.pwr.calm + 1 < 10 then { u with pwr := { u.pwr with calm := u.pwr.calm + 1 } }
      else ({ u with pwr := { u.pwr with calm := 0 } } : State).relax
    else { u with pwr := { u.pwr with calm := 0 } } := by
  rw [State.arbiterWindow, if_neg (by omega), hu]
  rfl

theorem State.arbiterWindow_reduces (h : u.limitW * 1000 < m.mw ∨ u.tooHot = true) :
    s.arbiterWindow m = u.reduce (decide (u.limitW * 1000 < m.mw)) u.tooHot := by
  rw [State.arbiterWindow_decides hp hw hu, if_pos (by simpa using h)]

section
variable (hcool : u.tooHot = false)
include hcool

theorem State.arbiterWindow_restarts (hlim : m.mw ≤ u.limitW * 1000)
    (hnear : u.limitW * 1000 - u.rf 0x200018 7 0 * 1000 ≤ m.mw) :
    s.arbiterWindow m = { u with pwr := { u.pwr with calm := 0 } } := by
  rw [State.arbiterWindow_decides hp hw hu, if_neg (by simp [hcool, hlim]), if_neg (Nat.not_lt.2 hnear)]

section
variable (hcalm : m.mw < u.limitW * 1000 - u.rf 0x200018 7 0 * 1000)
include hcalm

theorem State.arbiterWindow_calm : s.arbiterWindow m =
    if u.pwr.calm + 1 < 10 then { u with pwr := { u.pwr with calm := u.pwr.calm + 1 } }
    else ({ u with pwr := { u.pwr with calm := 0 } } : State).relax := by
  have hlim : m.mw ≤ u.limitW * 1000 := by omega
  rw [State.arbiterWindow_decides hp hw hu, if_neg (by simp [hcool, hlim]), if_pos hcalm]

theorem State.arbiterWindow_counts (h : u.pwr.calm < 9) :
    s.arbiterWindow m = { u with pwr := { u.pwr with calm := u.pwr.calm + 1 } } := by
  rw [State.arbiterWindow_calm hp hw hu hcool hcalm, if_pos (by omega)]

theorem State.arbiterWindow_relaxes (h : 9 ≤ u.pwr.calm) :
    s.arbiterWindow m = ({ u with pwr := { u.pwr with calm := 0 } } : State).relax := by
  rw [State.arbiterWindow_calm hp hw hu hcool hcalm, if_neg (by omega)]

end
end
end

/-- Settles O26: the window's end by what it measured against the limit, its slack and the thresholds. -/
theorem arbiterWindowActs : Obligations.ArbiterWindowActs :=
  fun _ _ _ hp hw hu => ⟨fun h => next_congr (State.arbiterWindow_reduces hp hw hu h),
    fun hlim hcool hnear => next_congr (State.arbiterWindow_restarts hp hw hu hcool hlim hnear),
    fun hcool hcalm h => next_congr (State.arbiterWindow_counts hp hw hu hcool hcalm h),
    fun hcool hcalm h => next_congr (State.arbiterWindow_relaxes hp hw hu hcool hcalm h)⟩

end Sys2Proof.Machine
end

section
/-!
Scrubbing, the scan of the configuration CRC, adoption and the vote (R374, R375, R423, R426 to R429).
-/
namespace Sys2Proof.Machine

section
variable {s t : State}

/-! One read of the scrubber. -/

section
variable {cap : Bool} {upset : List (Nat × Byte)}

theorem State.scrubRead_refreshing (h : (if cap then s.mem.refreshCap else s.mem.refreshFast) = true) : s.scrubRead cap upset = s :=
  if_pos h

section
variable (h : (if cap then s.mem.refreshCap else s.mem.refreshFast) = false)
include h

theorem State.scrubRead_retired (hnone : s.scrubAt cap (s.scrubber cap).pos = none) : s.scrubRead cap upset = s.scrubNext cap := by
  rw [State.scrubRead, if_neg (by simp [h]), hnone]

section
variable {w : Nat} (hw : s.scrubAt cap (s.scrubber cap).pos = some w)
  (ht : t = { s with mem := { s.mem with
    errs := tput noPat s.mem.errs (w / 32) (addUpset (tierWord cap) (tget noPat s.mem.errs (w / 32)) upset) } })
include hw ht

theorem State.scrubRead_word : s.scrubRead cap upset = if t.pcFailed (t.mem.loc w) = true then t.scrubNext cap
    else if t.writeWaits w (tierWord cap) = true then t else (t.scrubWord cap w).scrubNext cap := by
  rw [State.scrubRead, if_neg (by simp [h]), hw, ht]

theorem State.scrubRead_failed (hf : t.pcFailed (t.mem.loc w) = true) : s.scrubRead cap upset = t.scrubNext cap := by
  rw [State.scrubRead_word h hw ht, if_pos hf]

theorem State.scrubRead_reads (hf : t.pcFailed (t.mem.loc w) = false) (hwait : t.writeWaits w (tierWord cap) = false) :
    s.scrubRead cap upset = (t.scrubWord cap w).scrubNext cap := by
  rw [State.scrubRead_word h hw ht, if_neg (by simp [hf]), if_neg (by simp [hwait])]

end
end
end

/-! The scan, and what its end leads to (R426, R428). -/

section
variable (hp : s.pwr.off = 0) (hdue : s.cfg.scanMs < s.pwr.time / 1000000)
include hp hdue

theorem State.crcScan_mismatch {u : State} (hscan : s.voteAll.scan = (.mismatched, t)) (hu : u = t.crcReact) :
    s.crcScan = if fld (u.rdT 0x10000C) 1 0 = 3 then u.selfReset 4 else u := by
  rw [State.crcScan, if_neg (by simp [State.powered_iff.2 hp]; omega)]
  simp only [hscan, hu]

theorem State.crcScan_other {r : ScanEnd} (hr : r ≠ .mismatched) (hscan : s.voteAll.scan = (r, t)) : s.crcScan = t := by
  rw [State.crcScan, if_neg (by simp [State.powered_iff.2 hp]; omega)]
  cases r with
  | nothing => simp only [hscan]
  | matched => simp only [hscan]
  | mismatched => exact absurd rfl hr

end

/-! Adoption, and the vote of every millisecond (R423, R427). -/

theorem State.barDo_adopt (hb : s.barOpen = true) : s.barDo State.adopt = { s with cfg := { s.cfg with adopting := true } } :=
  State.barDo_eq hb rfl ⟨rfl, rfl, rfl⟩

theorem State.voteScan_due (h : s.cfg.voteMs < s.pwr.time / 1000000) :
    s.voteScan = ({ s with cfg := { s.cfg with voteMs := s.pwr.time / 1000000 } } : State).voteAll := if_neg (by omega)

theorem State.voteScan_early (h : s.pwr.time / 1000000 ≤ s.cfg.voteMs) : s.voteScan = s := if_pos h

end

/-- Settles O55: the scrubber by whether its tier is awake and its word can be read, the scan by its end, the vote by the time. -/
theorem integrityScans : Obligations.IntegrityScans := by
  refine ⟨?scrub, fun s t u hp hdue => ⟨fun hscan hu => next_congr (State.crcScan_mismatch hp hdue hscan hu),
      fun r hr hscan => next_congr (State.crcScan_other hp hdue hr hscan)⟩,
    fun s hb => next_congr (State.barDo_adopt hb), ?vote, fun upset s h => next_congr (State.voteScan_early h)⟩
  case scrub =>
    rintro cap upset elsewhere o s t rfl
    exact ⟨fun h => next_congr (State.scrubRead_refreshing h), fun h => ⟨fun hnone => next_congr (State.scrubRead_retired h hnone),
      fun w hw ht => ⟨fun hf => next_congr (State.scrubRead_failed h hw ht hf),
        fun hf hwait => next_congr (State.scrubRead_reads h hw ht hf hwait)⟩⟩⟩
  case vote =>
    rintro upset o s rfl h
    exact next_congr (State.voteScan_due h)

end Sys2Proof.Machine
end

section
/-!
Units in and out of service, qualification mode and lost lock (R379, R385, R387 to R390).
-/
namespace Sys2Proof.Machine

section
variable {s t : State} {u : Nat}

/-! OUT, REQUALIFY and ADMIT, by the unit's service state. -/

section
variable (hk : svcKnown u = false)
include hk

theorem State.svcOut_unknown : s.svcOut u = s.evErr 3 := if_pos (by simp [hk])
theorem State.requalify_unknown : s.requalify u = s.evErr 3 := if_neg (by simp [hk])
theorem State.admitSvc_unknown : s.admitSvc u = s.evErr 3 := if_neg (by simp [hk])

end

section
variable (hk : svcKnown u = true)
include hk

theorem State.svcOut_in_service (h : (s.unitSvc u).st = 0) : s.svcOut u = s.unitLeave u := by simp [State.svcOut, hk, h]
theorem State.svcOut_probation (h : (s.unitSvc u).st = 3) : s.svcOut u = s.unitSet u 1 0 (s.unitSvc u).failed := by
  simp [State.svcOut, hk, h]
theorem State.svcOut_already (h : (s.unitSvc u).st = 1 ∨ (s.unitSvc u).st = 2) : s.svcOut u = s.evErr 3 := by
  obtain h | h := h <;> simp [State.svcOut, hk, h]

theorem State.requalify_begins (h : (s.unitSvc u).st = 1) : s.requalify u = s.unitSet u 2 0 (s.unitSvc u).failed :=
  if_pos (by simp [hk, h])

theorem State.admitSvc_other (h : (s.unitSvc u).st = 3) (hkind : svcKind u ≠ 0) :
    s.admitSvc u = s.unitSet u 0 0 (s.unitSvc u).failed := by
  rw [State.admitSvc, if_pos (by simp [hk, h])]
  exact if_neg hkind

/-- A cluster takes work of the commands dispatched from now on (R109). -/
theorem State.admitSvc_cluster (h : (s.unitSvc u).st = 3) (hkind : svcKind u = 0)
    (ht : t = s.unitSet u 0 0 (s.unitSvc u).failed) :
    s.admitSvc u = { t with mat := { t.mat with joined := tput zeroN t.mat.joined (svcIdx u) t.mat.serial } } := by
  rw [State.admitSvc, if_pos (by simp [hk, h]), ht]
  exact if_pos hkind

end

theorem State.requalify_refused (h : (s.unitSvc u).st ≠ 1) : s.requalify u = s.evErr 3 := if_neg (by simp [h])
theorem State.admitSvc_refused (h : (s.unitSvc u).st ≠ 3) : s.admitSvc u = s.evErr 3 := if_neg (by simp [h])

/-! None of the three is a register write, so through BAR0 each does what it does. -/

section
variable (hb : s.barOpen = true)
include hb

theorem State.barDo_svcOut (h : s.svcOut u = t) : s.barDo (fun v => v.svcOut u) = t :=
  State.barDo_eq hb h (h ▸ State.svcOut_only s u .regs (by decide))
theorem State.barDo_requalify (h : s.requalify u = t) : s.barDo (fun v => v.requalify u) = t :=
  State.barDo_eq hb h (h ▸ State.requalify_only s u .regs (by decide))
theorem State.barDo_admitSvc (h : s.admitSvc u = t) : s.barDo (fun v => v.admitSvc u) = t :=
  State.barDo_eq hb h (h ▸ State.admitSvc_only s u .regs (by decide))

end

/-! The end of requalification (R385, R387). -/

section
variable {r : QualResult} (hk : svcKnown u = true) (h2 : (s.unitSvc u).st = 2)
  (ht : t = if svcKind u = 2 then s.pcTrained (svcIdx u) r.spared else s)
include hk h2 ht

theorem State.requalEnd_decides : s.requalEnd u r = if r.pass = true then t.unitSet u 3 2 false else
    if svcKind u = 2 ∧ r.spared = none then (t.unitSet u 1 3 true).trainingRecord 9 (svcIdx u) 1 true else t.unitSet u 1 3 true := by
  rw [State.requalEnd, if_neg (by simp [hk, h2]), ht]

theorem State.requalEnd_passes (hpass : r.pass = true) : s.requalEnd u r = t.unitSet u 3 2 false := by
  rw [State.requalEnd_decides hk h2 ht, if_pos hpass]

theorem State.requalEnd_fails (hpass : r.pass = false) : s.requalEnd u r = if svcKind u = 2 ∧ r.spared = none
    then (t.unitSet u 1 3 true).trainingRecord 9 (svcIdx u) 1 true else t.unitSet u 1 3 true := by
  rw [State.requalEnd_decides hk h2 ht, if_neg (by simp [hpass])]

end

/-! Qualification mode (R379). -/

/-- It is set only while every queue bound to a channel other than 0 is DISABLED. -/
theorem State.qualWrite_true : s.qualWrite true =
    if ∀ q < 384, s.chan q = 0 ∨ (s.q q).state = .disabled then s.setReg 0x1100000 ((s.rd 0x1100000 &&& 0xFFFD) + 2)
    else s.evErr 2 := by
  simp only [State.qualWrite, if_true, List.all_eq_true, List.mem_range, Bool.or_eq_true, beq_iff_eq]

theorem State.qualWrite_sets (h : ∀ q < 384, s.chan q = 0 ∨ (s.q q).state = .disabled) :
    s.qualWrite true = s.setReg 0x1100000 ((s.rd 0x1100000 &&& 0xFFFD) + 2) := by rw [State.qualWrite_true, if_pos h]

theorem State.qualWrite_refused {q : Nat} (hq : q < 384) (hc : s.chan q ≠ 0) (hon : (s.q q).state ≠ .disabled) :
    s.qualWrite true = s.evErr 2 := by
  rw [State.qualWrite_true, if_neg fun h => (h q hq).elim hc hon]

/-! A pseudo-channel that loses lock (R388). An error record leaves the pseudo-channels' states alone. -/

theorem State.recHist_pcs (c n i l : Nat) (s : State) : (State.recHist c n i l s).err.pcs = s.err.pcs := by
  unfold State.recHist State.histAdd
  (repeat' split) <;> rfl

theorem State.errRec_pcs (c v b n i l : Nat) : (s.errRec c v b n i l).err.pcs = s.err.pcs := by
  unfold State.errRec
  split
  · rfl
  · rw [State.recWrite, State.recHist_pcs]
    split
    · rw [State.irq_only _ _ .err (by decide)]; rfl
    · rfl

theorem State.pc_pcSet {n new cause : Nat} {failed : Bool} (h : new ≠ 0) :
    ((s.pcSet n new cause failed).pc n).svc = ⟨new, failed⟩ := by
  rw [State.pcSet, State.pc, State.svcRecord, State.errRec_pcs]
  dsimp only
  rw [tget_tput_of_ne _ fun e => h (congrArg (fun p : Pc => p.svc.st) e)]

theorem State.pcLockLoss_out {n : Nat} (h : (s.pc n).svc.st ≠ 0) : s.pcLockLoss n = s := if_pos h

theorem State.pcLockLoss_in_service {n : Nat} (h : (s.pc n).svc.st = 0) (ht : t = s.trainingRecord 9 n 0 false) :
    s.pcLockLoss n = if t.autoOos then (t.pcSet n 1 1 (t.pc n).svc.failed).pcSet n 2 1
      ((t.pcSet n 1 1 (t.pc n).svc.failed).pc n).svc.failed else t := by
  rw [State.pcLockLoss, if_neg (not_not_intro h), ← ht, State.pc_pcSet (by decide)]

end

/-- Settles O56: the actions by the unit's service state, requalification by its result, QUAL by the queues, and lost lock by whether
the pseudo-channel is in service. -/
theorem serviceActions : Obligations.ServiceActions := by
  refine ⟨fun u s hb => ⟨fun hk => ⟨?_, ?_, ?_⟩, fun hk => ⟨?_, ?_, ?_, ?_, ?_, ?_, ?_, ?_, ?_⟩⟩, fun u r s t hk h2 ht => ⟨?_, ?_⟩,
    ?qualification, fun n s t h ht => next_congr (State.pcLockLoss_in_service h ht), fun n s h => next_congr (State.pcLockLoss_out h)⟩
  case qualification =>
    rintro s v hb rfl
    exact ⟨next_congr (State.barDo_byWrite hb rfl), fun h => next_congr (State.barDo_byWrite hb (State.qualWrite_sets h)),
      fun q hq hc hon => next_congr (State.barDo_eq hb (State.qualWrite_refused hq hc hon) ⟨rfl, rfl, rfl⟩)⟩
  · exact next_congr (State.barDo_svcOut hb (State.svcOut_unknown hk))
  · exact next_congr (State.barDo_requalify hb (State.requalify_unknown hk))
  · exact next_congr (State.barDo_admitSvc hb (State.admitSvc_unknown hk))
  · exact fun h => next_congr (State.barDo_svcOut hb (State.svcOut_in_service hk h))
  · exact fun h => next_congr (State.barDo_svcOut hb (State.svcOut_probation hk h))
  · exact fun h => next_congr (State.barDo_svcOut hb (State.svcOut_already hk (.inl h)))
  · exact fun h => next_congr (State.barDo_svcOut hb (State.svcOut_already hk (.inr h)))
  · exact fun h => next_congr (State.barDo_requalify hb (State.requalify_begins hk h))
  · exact fun h => next_congr (State.barDo_requalify hb (State.requalify_refused h))
  · exact fun h hkind => next_congr (State.barDo_admitSvc hb (State.admitSvc_other hk h hkind))
  · exact fun t h hkind ht => next_congr (State.barDo_admitSvc hb (State.admitSvc_cluster hk h hkind ht))
  · exact fun h => next_congr (State.barDo_admitSvc hb (State.admitSvc_refused h))
  · exact fun hpass => next_congr (State.requalEnd_passes hk h2 ht hpass)
  · exact fun hpass => next_congr (State.requalEnd_fails hk h2 ht hpass)

end Sys2Proof.Machine
end

section
/-!
Engine resets (R412, R414, R429).
-/
namespace Sys2Proof.Machine

section
variable {s : State} {mask : BitVec 6}

theorem State.engineReset_none : s.engineReset 0 = s := if_pos rfl

section
variable (hm : mask ≠ 0)
include hm

theorem toNat_mask_ne : mask.toNat ≠ 0 := fun h => hm (BitVec.eq_of_toNat_eq h)

theorem State.engineReset_ignored (hstate : s.pwr.state ≠ 0) : s.engineReset mask.toNat = s.evPwr 5 := by
  rw [State.engineReset, if_neg (toNat_mask_ne hm), if_pos hstate]

theorem State.engineReset_begins (hstate : s.pwr.state = 0) : s.engineReset mask.toNat = (List.range 6).foldl
    (fun t e => if bitAt mask.toNat e && !tget noFlag t.pwr.rstBusy e then t.resetEngine e else t) s := by
  rw [State.engineReset, if_neg (toNat_mask_ne hm), if_neg (not_not_intro hstate)]

end

section
variable {e : Nat}

theorem State.engineResetDone_ends {t : State} (hbusy : tget noFlag s.pwr.rstBusy e = true)
    (hq : ∀ i < 64, (s.q (64 * e + i)).state = .disabled)
    (ht : t = { s with pwr := { s.pwr with rstBusy := tput noFlag s.pwr.rstBusy e false } }) :
    s.engineResetDone e = ((t.resetRegs (.er e)).adoptSelf).flrDue := by
  have hall : ((List.range 64).all fun i => (s.q (64 * e + i)).state == .disabled) = true := by
    simpa only [List.all_eq_true, List.mem_range, beq_iff_eq] using hq
  rw [State.engineResetDone, hbusy, hall, ht]
  rfl

theorem State.engineResetDone_not_busy (h : tget noFlag s.pwr.rstBusy e = false) : s.engineResetDone e = s :=
  if_neg (by simp [h])

end
end

/-- Settles O57: the beginning by the mask and the power state, the end by whether the engine's queues are DISABLED. -/
theorem engineResets : Obligations.EngineResets := by
  refine ⟨fun s hb => ⟨next_congr (State.barDo_unchanged hb State.engineReset_none), fun m hm hstate => ?_,
      fun m hm hstate => next_congr (State.barDo_byWrite hb (State.engineReset_begins hm hstate))⟩,
    fun e s t hbusy hq ht => next_congr (State.engineResetDone_ends hbusy hq ht),
    fun e s h => next_congr (State.engineResetDone_not_busy h)⟩
  exact next_congr (State.barDo_eq hb (State.engineReset_ignored hm hstate) (State.evPwr_only s 5 .regs (by decide)))

end Sys2Proof.Machine
end

section
/-!
The device key across the commands (R358, R359): what a command changes of the security block, if anything, is a measurement.
-/
namespace Sys2Proof.Machine

/-- The key seed, the state of the identity and the device key's ID are the same in two states. -/
def SameKey (s t : State) : Prop := t.sec.xi = s.sec.xi ∧ t.sec.id = s.sec.id ∧ t.sec.dkid = s.sec.dkid

section
variable {s t u : State}

theorem SameKey.refl (s : State) : SameKey s s := ⟨rfl, rfl, rfl⟩

theorem SameKey.trans (h : SameKey s t) (k : SameKey t u) : SameKey s u := by
  obtain ⟨hxi, hid, hdkid⟩ := h
  obtain ⟨kxi, kid, kdkid⟩ := k
  exact ⟨kxi.trans hxi, kid.trans hid, kdkid.trans hdkid⟩

/-- What leaves the security block alone keeps the key. -/
theorem OnlyChanges.sameKey {ps : List Piece} (h : OnlyChanges ps s t) (hsec : Piece.sec ∉ ps) : SameKey s t := by
  have hs : t.sec = s.sec := h .sec hsec
  simp only [SameKey, hs, and_self]

/-! The resets clear measurements only. -/

theorem State.selfReset_sameKey (s : State) (cause : Nat) : SameKey s (s.selfReset cause) := by
  by_cases hp : s.pwr.off = 0
  · obtain ⟨-, -, -, hsec, -⟩ := State.selfReset_leaves (cause := cause) hp rfl
    simp only [SameKey, hsec, and_self]
  · rw [State.selfReset, if_pos hp]
    exact SameKey.refl s

theorem State.perstAssert_sameKey (s : State) : SameKey s s.perstAssert :=
  SameKey.trans (t := { s with hif := { s.hif with perst := true } }) ⟨rfl, rfl, rfl⟩ (State.selfReset_sameKey _ 5)

theorem State.flrEmptied_sec (s : State) : s.flrEmptied.sec = s.sec := by
  rw [s.flrEmptied_after_stop .sec (by decide), State.leaveNow_only _ .sec (by decide), State.stopEngines_only _ .sec (by decide)]

theorem State.flrApply_sec (s : State) : s.flrApply.sec = { s.sec with mProg := [] } := by
  rw [← s.flrEmptied_sec]
  unfold State.flrApply State.flrEmptied State.flrReleased
  rw [State.adoptSelf_only _ .sec (by decide)]

theorem State.flrApply_sameKey (s : State) : SameKey s s.flrApply := by
  simp only [SameKey, s.flrApply_sec, and_self]

theorem State.functionReset_sameKey (s : State) : SameKey s s.functionReset := by
  unfold State.functionReset
  split
  · exact SameKey.refl s
  · split
    · exact OnlyChanges.sameKey (ps := [.pwr]) (by simp) (by decide)
    · exact s.flrApply_sameKey

theorem State.flrDue_sameKey (s : State) : SameKey s s.flrDue := by
  unfold State.flrDue
  split
  · exact s.flrApply_sameKey
  · exact SameKey.refl s

theorem State.engineResetDone_sameKey (s : State) (e : Nat) : SameKey s (s.engineResetDone e) := by
  unfold State.engineResetDone
  split
  · exact (OnlyChanges.sameKey (ps := [.regs, .stats, .ctrs, .cfg, .pwr]) (by simp) (by decide)).trans (State.flrDue_sameKey _)
  · exact SameKey.refl s

theorem State.linkLoss_sameKey (s : State) : SameKey s s.linkLoss := by
  unfold State.linkLoss
  split
  · have hused := (State.useT_only s 0x400014).sameKey (by decide)
    dsimp only
    split
    · exact hused.trans (State.selfReset_sameKey _ 4)
    · exact hused
  · exact SameKey.refl s

theorem State.crcScan_sameKey (s : State) : SameKey s s.crcScan := by
  have hscan : SameKey s s.voteAll.scan.2 :=
    OnlyChanges.sameKey (ps := [.regs, .stats, .ctrs, .cqf, .hif, .err, .cfg]) (by simp) (by decide)
  have hreact : SameKey s s.voteAll.scan.2.crcReact := hscan.trans ((State.crcReact_only _).sameKey (by decide))
  unfold State.crcScan
  split
  · exact SameKey.refl s
  · dsimp only
    split
    · split
      · exact hreact.trans (State.selfReset_sameKey _ 4)
      · exact hreact
    · exact hscan

/-! The firmware: the supplement's measurement and the program's. -/

theorem State.suppCommit_sec (s : State) (x : Supp) : (s.suppCommit x).sec = { s.sec with mSupp := x.measurement } := by
  rw [State.suppCommit, State.becomeReady_only _ .sec (by decide), State.logWrite_only _ _ _ _ .sec (by decide),
    State.evMgt_only _ _ .sec (by decide)]

theorem State.msgSuppLoad_sameKey (s : State) : SameKey s s.msgSuppLoad := by
  unfold State.msgSuppLoad
  split
  · next m _ =>
    have htry : SameKey s (s.suppLoadTry (numAt m.payload 0 8) (numAt m.payload 8 4)).2 :=
      (State.suppLoadTry_only s _ _).sameKey (by decide)
    dsimp only
    split
    · exact SameKey.refl s
    · refine htry.trans (OnlyChanges.sameKey (ps := [.stats, .ctrs, .hif, .mgt]) ?_ (by decide))
      split <;> simp
    · refine htry.trans (SameKey.trans ?_ ((State.finish_only _ _ _ _ _).sameKey (by decide)))
      simp only [SameKey, State.suppCommit_sec, and_self]
  · exact SameKey.refl s

theorem State.extendProg_sameKey (s : State) (bs : List Byte) : SameKey s (s.extendProg bs) := by
  simp only [SameKey, State.extendProg, State.bump_sec, and_self]

theorem State.msgExtend_sameKey (s : State) : SameKey s s.msgExtend := by
  have hfinish (t : State) (m : Msg) (pl : List Byte) : SameKey t (t.finish m stOK 0 pl) :=
    (State.finish_only t _ _ _ _).sameKey (by decide)
  unfold State.msgExtend
  split
  · next m _ =>
    have hread (a n : Nat) : SameKey s (s.fwRead a a n).2 := (State.fwRead_only s a a n).sameKey (by decide)
    dsimp only
    split
    · exact hfinish s m _
    · split
      · exact SameKey.refl s
      · exact (hread _ _).trans ((State.finishFail_only _ _ _).sameKey (by decide))
      · exact ((hread _ _).trans (State.extendProg_sameKey _ _)).trans (hfinish _ m _)
  · exact SameKey.refl s

theorem State.msgClear_sameKey (s : State) : SameKey s s.msgClear := by
  unfold State.msgClear
  split
  · exact SameKey.trans (t := s.clearProg) ⟨rfl, rfl, rfl⟩ ((State.finish_only _ _ _ _ _).sameKey (by decide))
  · exact SameKey.refl s

/-- What a restart leaves of the supplement (R346, R347). -/
def State.restartSupp (s : State) : State :=
  if s.suppIntact.2.mgt.discard then s.suppIntact.2.suppDiscard
  else if s.suppIntact.1 then s.suppIntact.2 else s.suppIntact.2.suppDiscard.evMgt 4

theorem State.restartSupp_sameKey (s : State) : SameKey s s.restartSupp := by
  have hintact : SameKey s s.suppIntact.2 := (State.suppIntact_only s).sameKey (by decide)
  have hdiscard (t : State) : SameKey t t.suppDiscard := ⟨rfl, rfl, rfl⟩
  unfold State.restartSupp
  split
  · exact hintact.trans (hdiscard _)
  · split
    · exact hintact
    · exact (hintact.trans (hdiscard _)).trans ((State.evMgt_only _ _).sameKey (by decide))

theorem State.restartDone_after_supp (h : s.mgt.core = 2) :
    OnlyChanges [.regs, .stats, .ctrs, .hif, .mgt, .err, .fab] s.restartSupp s.restartDone := by
  rw [State.restartDone, if_neg (not_not_intro h)]
  dsimp only
  rw [← State.restartSupp]
  split <;> simp [only_upd]

theorem State.restartDone_sameKey (s : State) : SameKey s s.restartDone := by
  by_cases h : s.mgt.core = 2
  · exact s.restartSupp_sameKey.trans ((State.restartDone_after_supp h).sameKey (by decide))
  · rw [State.restartDone_not_restarting h]
    exact SameKey.refl s

end

/-- Settles O58: only the resets and the firmware's measurements come near the key, and each of them keeps it. -/
theorem deviceKeyKept : Obligations.DeviceKeyKept := by
  intro c s t hexec hon hend hbrown hover htrip hdeep
  by_cases hsec : Piece.sec ∈ touches c
  · cases c with
    | linkLossTimeout => cases hexec; exact s.linkLoss_sameKey
    | perstAssert => cases hexec; exact s.perstAssert_sameKey
    | hotReset => cases hexec; exact s.selfReset_sameKey 5
    | linkDisable => cases hexec; exact s.selfReset_sameKey 5
    | functionLevelReset => cases hexec; exact s.functionReset_sameKey
    | crcScan => cases hexec; exact s.crcScan_sameKey
    | engineResetDone e => cases hexec; exact s.engineResetDone_sameKey e.val
    | supplementLoad => cases hexec; exact s.msgSuppLoad_sameKey
    | attestExtend => cases hexec; exact s.msgExtend_sameKey
    | attestClear => cases hexec; exact s.msgClear_sameKey
    | firmwareRestartDone => cases hexec; exact s.restartDone_sameKey
    | powerOn puf => exact absurd rfl (hon puf)
    | startUpEnd r => exact absurd rfl (hend r)
    | brownOut => exact absurd rfl hbrown
    | overVoltage => exact absurd rfl hover
    | thermalTrip x y => exact absurd rfl (htrip x y)
    | deepOffBegin => exact absurd rfl hdeep
    | _ => exact absurd hsec (by simp [touches])
  · obtain ⟨u, hu, honly⟩ := exec_frame c s
    obtain rfl : u = t := Host.Outcome.next.inj (hu.symm.trans hexec)
    exact honly.sameKey hsec

end Sys2Proof.Machine
end

section
/-!
Start-up (Table 16.7, R357, R392, R410, R411): what its steps keep, and the three of its events.
-/
namespace Sys2Proof.Machine

section
variable {s t u : State}

/-! What a step of start-up keeps: the rails and the cause of the last power-off, the core and its watchdog. -/

/-- The rails, the cause, the core and the watchdog are the same in two states. -/
def SameStart (s t : State) : Prop :=
  (t.pwr.off = s.pwr.off ∧ t.pwr.cause = s.pwr.cause) ∧ t.mgt.core = s.mgt.core ∧ t.mgt.wdtOn = s.mgt.wdtOn

theorem SameStart.refl (s : State) : SameStart s s := ⟨⟨rfl, rfl⟩, rfl, rfl⟩

theorem SameStart.trans (h : SameStart s t) (k : SameStart t u) : SameStart s u := by
  obtain ⟨⟨hoff, hcause⟩, hcore, hwdt⟩ := h
  obtain ⟨⟨koff, kcause⟩, kcore, kwdt⟩ := k
  exact ⟨⟨koff.trans hoff, kcause.trans hcause⟩, kcore.trans hcore, kwdt.trans hwdt⟩

theorem OnlyChanges.sameStart {ps : List Piece} (h : OnlyChanges ps s t) (hpwr : Piece.pwr ∉ ps) (hmgt : Piece.mgt ∉ ps) :
    SameStart s t := by
  have hp : t.pwr = s.pwr := h .pwr hpwr
  have hm : t.mgt = s.mgt := h .mgt hmgt
  simp only [SameStart, hp, hm, and_self]

theorem State.logWrite_sameStart (e v : Nat) (a : List Nat) (s : State) : SameStart s (s.logWrite e v a) := by
  obtain ⟨l, hl⟩ := State.logPut_mgt e v 0 (a.map fun a => BitVec.ofNat 32 a) s
  have hp : (s.logWrite e v a).pwr = s.pwr := State.logWrite_only e v a s .pwr (by decide)
  have hm : (s.logWrite e v a).mgt = { s.mgt with log := l } := hl
  simp only [SameStart, hp, hm, and_self]

theorem State.stepReached_pwr (s : State) (n : Nat) : (s.stepReached n).pwr = { s.pwr with step := n } := by
  rw [State.stepReached, State.trace_only _ _ _ .pwr (by decide), State.logWrite_only _ _ _ _ .pwr (by decide)]

theorem State.stepReached_sameStart (s : State) (n : Nat) : SameStart s (s.stepReached n) := by
  obtain ⟨-, hcore, hwdt⟩ := State.logWrite_sameStart 0x0001 0 [n] { s with pwr := { s.pwr with step := n } }
  obtain ⟨l, a, hm⟩ := State.trace_mgt 0 2 (({ s with pwr := { s.pwr with step := n } } : State).logWrite 0x0001 0 [n])
  have hmgt : (s.stepReached n).mgt = _ := hm
  simp only [SameStart, State.stepReached_pwr, hmgt, hcore, hwdt, and_self]

theorem State.wdtArm_runs (s : State) : s.wdtArm.mgt.core = s.mgt.core ∧ s.wdtArm.mgt.wdtOn = true := by
  have hmgt : (s.useT 0x300010).mgt = s.mgt := s.useT_only _ .mgt (by decide)
  simp only [State.wdtArm, hmgt, and_self]

/-! Step 4: the record is applied, or the module starts in recovery. -/

theorem State.recover_sameStart (s : State) : SameStart s s.recover := ⟨⟨rfl, rfl⟩, rfl, rfl⟩

/-- No record that verifies: the identity falls back too. -/
theorem State.recovered_sameStart (s : State) (seed : List Byte) : SameStart s (s.recover.identify seed none) :=
  s.recover_sameStart.trans ((State.identify_only _ _ _).sameStart (by decide) (by decide))

theorem State.bootEnd_sameStart (h : SameStart s t) : SameStart s (t.checkDevCert.stepReached 4) :=
  (h.trans ((State.checkDevCert_only t).sameStart (by decide) (by decide))).trans (State.stepReached_sameStart _ 4)

theorem State.bootRecord_sameStart (s : State) (bs : List Byte) : SameStart s (s.bootRecord bs) := by
  have hev : SameStart s (s.evSec 2) := (State.evSec_only s 2).sameStart (by decide) (by decide)
  unfold State.bootRecord
  refine State.bootEnd_sameStart ?_
  split
  · exact hev.trans (State.recovered_sameStart _ _)
  · next r _ =>
    have hverify : SameStart s (s.verifyRecord r bs).2 := (State.verifyRecord_only s r bs).sameStart (by decide) (by decide)
    dsimp only
    split
    · refine (hverify.trans ?_).trans (State.logWrite_sameStart _ _ _ _)
      exact OnlyChanges.sameStart (ps := [.regs, .stats, .hif, .sec, .cfg, .nbu, .fab]) (by simp) (by decide) (by decide)
    · exact hverify.trans (State.recovered_sameStart _ _)

theorem State.bootFactory_sameStart (s : State) (r : Option FactoryRecord) : SameStart s (s.bootFactory r) := by
  unfold State.bootFactory
  refine State.bootEnd_sameStart ?_
  split
  · exact ((State.evSec_only s 2).sameStart (by decide) (by decide)).trans (State.recovered_sameStart _ _)
  · refine SameStart.trans ?_ (State.logWrite_sameStart _ _ _ _)
    exact OnlyChanges.sameStart (ps := [.regs, .stats, .hif, .sec, .cfg, .nbu, .fab]) (by simp) (by decide) (by decide)

theorem State.bootRecord_step (s : State) (bs : List Byte) : (s.bootRecord bs).pwr.step = 4 := by
  unfold State.bootRecord; rw [State.stepReached_pwr]

theorem State.bootFactory_step (s : State) (r : Option FactoryRecord) : (s.bootFactory r).pwr.step = 4 := by
  unfold State.bootFactory; rw [State.stepReached_pwr]

/-- The record of the active slot. -/
def State.activeRecord (s : State) : Option (List Byte) := if s.flash.active then s.flash.slot1 else s.flash.slot0

theorem State.powerBoot_sameStart (s : State) : SameStart s s.powerBoot := by
  unfold State.powerBoot
  split
  · exact s.bootRecord_sameStart _
  · split
    · exact s.bootFactory_sameStart _
    · exact SameStart.refl s

theorem State.powerBoot_step (h : s.activeRecord ≠ none ∨ s.flash.factory ≠ none) : s.powerBoot.pwr.step = 4 := by
  unfold State.activeRecord at h
  unfold State.powerBoot
  split
  · exact s.bootRecord_step _
  · next hslot =>
    split
    · exact s.bootFactory_step _
    · next hfactory => exact absurd h (by simp [hslot, hfactory])

theorem State.powerBoot_none (hslot : s.activeRecord = none) (hfactory : s.flash.factory = none) : s.powerBoot = s := by
  rw [State.activeRecord] at hslot
  simp only [State.powerBoot, hslot, hfactory]

/-! POWER_ON. -/

/-- Where the three copies of a register agree, a use of it repairs nothing (R423). -/
theorem State.useT_of_copies_agree {off : Nat} (h1 : tget regReset s.regs1 off = tget regReset s.regs off)
    (h2 : tget regReset s.regs2 off = tget regReset s.regs off) : s.useT off = s := by
  have hvote (x : W16) : vote3 x x x = x := by simp [vote3]
  have hvoted (mask : Nat) : s.voteReg off mask = s := by
    simp [State.voteReg, State.rdT, h1, h2, hvote, show List.range 3 = [0, 1, 2] from rfl]
  unfold State.useT
  split
  · split
    · rfl
    · exact hvoted _
  · rfl

/-- The state a power-on begins from: all but flash and what is outside is at reset, the start is counted and the seed taken. -/
def State.powerFresh (s : State) (puf : List Byte) : State :=
  { s.afresh with flash := { s.flash with starts := (s.flash.starts + 1) % 4294967296 },
                  pwr := { Pwr.reset with cause := s.pwr.off }, sec := { Sec.reset with xi := puf },
                  cfg := { Cfg.reset with slot := s.flash.active } }

/-- Start-up steps 2 and 3, and the watchdog. -/
def State.powerSteps (s : State) (puf : List Byte) : State := ((s.powerAfresh puf).stepReached 3).wdtArm

theorem State.powerAfresh_eq (s : State) (puf : List Byte) : s.powerAfresh puf =
    { (s.powerFresh puf).stepReached 2 with mgt := { ((s.powerFresh puf).stepReached 2).mgt with core := 1 } } := rfl

theorem State.powerAfresh_only_steps (s : State) (puf : List Byte) :
    OnlyChanges [.ctrs, .mgt, .pwr] (s.powerFresh puf) (s.powerAfresh puf) :=
  (only_mgt _ _ (by decide)).2 (State.stepReached_only _ 2)

theorem State.wdtArm_of_no_registers (h : s.regs = []) (h1 : s.regs1 = []) (h2 : s.regs2 = []) :
    OnlyChanges [.mgt] s s.wdtArm := by
  rw [State.wdtArm, State.useT_of_copies_agree (by rw [h, h1]) (by rw [h, h2])]
  simp

/-- No register is written before the record is read, so every copy is at reset and nothing is repaired. -/
theorem State.powerSteps_only (s : State) (puf : List Byte) : OnlyChanges [.ctrs, .mgt, .pwr] (s.powerFresh puf) (s.powerSteps puf) := by
  have hfresh := s.powerAfresh_only_steps puf
  have hsteps : OnlyChanges [.ctrs, .mgt, .pwr] (s.powerFresh puf) ((s.powerAfresh puf).stepReached 3) := by simp [hfresh]
  obtain ⟨h, h1, h2⟩ := hsteps .regs (by decide)
  exact (onlyChanges_iff (State.wdtArm_of_no_registers h h1 h2) (by decide)).2 hsteps

theorem State.powerSteps_pwr (s : State) (puf : List Byte) :
    (s.powerSteps puf).pwr = { Pwr.reset with cause := s.pwr.off, step := 3 } := by
  rw [State.powerSteps, State.wdtArm_only _ .pwr (by decide), State.stepReached_pwr, State.powerAfresh_eq]
  dsimp only
  rw [State.stepReached_pwr]
  rfl

theorem State.powerSteps_runs (s : State) (puf : List Byte) : (s.powerSteps puf).mgt.core = 1 ∧ (s.powerSteps puf).mgt.wdtOn = true := by
  obtain ⟨hcore, hwdt⟩ := State.wdtArm_runs ((s.powerAfresh puf).stepReached 3)
  obtain ⟨-, hkept, -⟩ := State.stepReached_sameStart (s.powerAfresh puf) 3
  exact ⟨hcore.trans (hkept.trans rfl), hwdt⟩

theorem State.powerOn_boots {puf : List Byte} (h : s.pwr.off ≠ 0 ∨ s.pwr.step < 2) : s.powerOn puf = (s.powerSteps puf).powerBoot :=
  if_neg fun ⟨hp, h2⟩ => h.elim (fun hoff => hoff (State.powered_iff.1 hp)) fun hlt => absurd h2 (Nat.not_le.2 hlt)

theorem State.powerOn_unchanged {puf : List Byte} (hp : s.pwr.off = 0) (h2 : 2 ≤ s.pwr.step) : s.powerOn puf = s :=
  if_pos ⟨State.powered_iff.2 hp, h2⟩

theorem State.powerSteps_flash (s : State) (puf : List Byte) :
    (s.powerSteps puf).flash = { s.flash with starts := (s.flash.starts + 1) % 4294967296 } := s.powerSteps_only puf .flash (by decide)

theorem State.powerSteps_activeRecord (s : State) (puf : List Byte) : (s.powerSteps puf).activeRecord = s.activeRecord := by
  rw [State.activeRecord, State.powerSteps_flash, State.activeRecord]

/-- What a power-on leaves, whether or not flash holds a record. -/
theorem State.powerOn_leaves {puf : List Byte} (ht : t = (s.powerSteps puf).powerBoot) :
    (t.pwr.off = 0 ∧ t.pwr.cause = s.pwr.off) ∧ (t.mgt.core = 1 ∧ t.mgt.wdtOn = true) ∧
    t.flash = { s.flash with starts := (s.flash.starts + 1) % 4294967296 } ∧ t.cqf = Cqf.reset ∧ t.mem = Mem.reset ∧
    t.pending = s.pending := by
  subst ht
  obtain ⟨⟨hoff, hcause⟩, hcore, hwdt⟩ := (s.powerSteps puf).powerBoot_sameStart
  obtain ⟨hrun, hon⟩ := s.powerSteps_runs puf
  have hboot := (s.powerSteps puf).powerBoot_only
  have hsteps := s.powerSteps_only puf
  rw [hoff, hcause, hcore, hwdt, hrun, hon, s.powerSteps_pwr, hboot .flash (by decide), hboot .cqf (by decide), hboot .mem (by decide),
    hboot .pending (by decide), s.powerSteps_flash, hsteps .cqf (by decide), hsteps .mem (by decide), hsteps .pending (by decide)]
  exact ⟨⟨rfl, rfl⟩, ⟨rfl, rfl⟩, rfl, rfl, rfl, rfl⟩

theorem State.powerOn_leaves_no_record {puf : List Byte} (hslot : s.activeRecord = none) (hfactory : s.flash.factory = none)
    (ht : t = (s.powerSteps puf).powerBoot) : t.pwr.step = 3 ∧ t.sec.xi = puf ∧ t.regs = [] ∧ t.hif.ext = s.hif.ext := by
  rw [State.powerBoot_none (by rw [State.powerSteps_activeRecord, hslot]) (by rw [State.powerSteps_flash, hfactory])] at ht
  subst ht
  have hsteps := s.powerSteps_only puf
  obtain ⟨hregs, -, -⟩ := hsteps .regs (by decide)
  rw [s.powerSteps_pwr, hregs, hsteps .sec (by decide), hsteps .hif (by decide)]
  exact ⟨rfl, rfl, rfl, rfl⟩

/-! Configuration requests (R410): events and interrupts do not close them again. -/

theorem State.hostSend_rrs (own : HostOwner) (a : Nat) (bs : List Byte) (s : State) : (s.hostSend own a bs).hif.rrs = s.hif.rrs :=
  List.foldlRecOn (motive := fun t : State => t.hif.rrs = s.hif.rrs) _ _ rfl fun _ ht _ _ => ht

theorem State.sendMsix_rrs (s : State) (v : Nat) : (s.sendMsix v).hif.rrs = s.hif.rrs := by
  unfold State.sendMsix
  dsimp only
  split
  · exact State.hostSend_rrs _ _ _ _
  · split <;> rfl

theorem State.irq_rrs (s : State) (src : Nat) : (s.irq src).hif.rrs = s.hif.rrs := by
  unfold State.irq State.raiseVector
  split
  · split
    · exact State.sendMsix_rrs _ _
    · rfl
  · rfl

theorem State.raiseIf_rrs (s : State) (off bit src : Nat) (en : Bool) : (s.raiseIf off bit src en).hif.rrs = s.hif.rrs := by
  unfold State.raiseIf
  split
  · rfl
  · split
    · exact State.irq_rrs _ _
    · rfl

theorem State.errRec_rrs (c v b n i l : Nat) (s : State) : (s.errRec c v b n i l).hif.rrs = s.hif.rrs := by
  unfold State.errRec
  split
  · rfl
  · rw [State.recWrite, State.recHist_only _ _ _ _ _ .hif (by decide)]
    split
    · exact State.irq_rrs _ _
    · rfl

theorem State.voteReg_rrs (s : State) (off mask : Nat) : (s.voteReg off mask).hif.rrs = s.hif.rrs := by
  unfold State.voteReg
  dsimp only
  split
  · rfl
  · have hcounted (l : List Nat) (v : State) :
        (l.foldl (fun v _ => { v with stats := tput statReset v.stats 0x38 (countUp (v.stat 0x38)) }) v).hif = v.hif :=
      foldl_only' (ps := [.stats]) (fun v _ => by simp) l v .hif (by decide)
    split <;> simp only [State.errRec_rrs, State.evGlb, State.raiseIf_rrs, hcounted, State.setReg_hif]

theorem State.useT_rrs (s : State) (off : Nat) : (s.useT off).hif.rrs = s.hif.rrs := by
  unfold State.useT
  split
  · split
    · rfl
    · exact State.voteReg_rrs _ _ _
  · rfl

theorem State.wdtArm_rrs (s : State) : s.wdtArm.hif.rrs = s.hif.rrs := s.useT_rrs 0x300010

theorem State.portState_rrs (s : State) (p st : Nat) : (s.portState p st).hif.rrs = s.hif.rrs := by
  unfold State.portState
  dsimp only
  split <;> split <;> simp only [State.errRec_rrs, State.evFab, State.raiseIf_rrs, State.setPort_hif]

theorem State.train_rrs (s : State) (p : Nat) : (s.train p).hif.rrs = s.hif.rrs := s.portState_rrs p 1

theorem State.portsTrain_rrs (s : State) : s.portsTrain.hif.rrs = s.hif.rrs := by
  unfold State.portsTrain
  refine List.foldlRecOn (motive := fun t : State => t.hif.rrs = s.hif.rrs) _ _ rfl fun t ht p _ => ?_
  split
  · exact (t.train_rrs p).trans ht
  · exact ht

/-! START_UP_END. -/

/-- Both tiers leave self-refresh and configuration requests are answered. -/
def State.startAwake (s : State) : State :=
  { s with mem := { s.mem with refreshFast := false, refreshCap := false }, hif := { s.hif with rrs := false } }

/-- The ports train, but in recovery. -/
def State.startPorts (s : State) : State := if s.cfg.recovery then s.startAwake else s.startAwake.portsTrain

theorem State.startOpen_eq (s : State) : s.startOpen = (s.startPorts.wdtArm.qualWrite false).stepReached 6 := rfl

theorem State.startPorts_only (s : State) : OnlyChanges [.stats, .ctrs, .hif, .err, .fab] s.startAwake s.startPorts := by
  unfold State.startPorts; split <;> simp

theorem State.startPorts_rrs (s : State) : s.startPorts.hif.rrs = false := by
  have hawake : s.startAwake.hif.rrs = false := rfl
  unfold State.startPorts
  split
  · exact hawake
  · exact (State.portsTrain_rrs _).trans hawake

/-- Step 6 is reached, open to the host, with the tiers awake, the core as it was and its watchdog armed. -/
theorem State.startOpen_leaves (s : State) : s.startOpen.hif.rrs = false ∧ s.startOpen.pwr.step = 6 ∧
    (s.startOpen.mgt.core = s.mgt.core ∧ s.startOpen.mgt.wdtOn = true) ∧
    s.startOpen.mem.refreshFast = false ∧ s.startOpen.mem.refreshCap = false := by
  have hqual := State.qualWrite_only s.startPorts.wdtArm false
  obtain ⟨-, hcore, hwdt⟩ := State.stepReached_sameStart (s.startPorts.wdtArm.qualWrite false) 6
  obtain ⟨hrun, hon⟩ := State.wdtArm_runs s.startPorts
  rw [State.startOpen_eq, State.stepReached_pwr, hcore, hwdt, State.stepReached_only _ _ .hif (by decide),
    State.stepReached_only _ _ .mem (by decide), hqual .mgt (by decide), hqual .hif (by decide), hqual .mem (by decide), hrun, hon,
    State.wdtArm_rrs, State.wdtArm_only _ .mem (by decide), s.startPorts_rrs, s.startPorts_only .mgt (by decide),
    s.startPorts_only .mem (by decide)]
  exact ⟨rfl, rfl, ⟨rfl, rfl⟩, rfl, rfl⟩

theorem State.startLog_sameStart (s : State) : SameStart s s.startLog := by
  unfold State.startLog
  split
  · exact State.logWrite_sameStart _ _ _ _
  · exact SameStart.refl s

section
variable {r : StartResult}

theorem State.startUpEnd_opens (hp : s.pwr.off = 0) (hr : s.hif.rrs = true) :
    s.startUpEnd r = ((((s.startRecord r).coreRuns).startTrain r).startOpen).startLog.adoptSelf :=
  if_neg (by simp [State.powered_iff.2 hp, hr])

theorem State.startUpEnd_over (hr : s.hif.rrs = false) : s.startUpEnd r = s := if_pos (by simp [hr])

theorem State.startUpEnd_leaves (ht : t = ((((s.startRecord r).coreRuns).startTrain r).startOpen).startLog.adoptSelf) :
    t.hif.rrs = false ∧ t.pwr.step = 6 ∧ t.mgt.core = 1 ∧ t.mgt.wdtOn = true ∧ t.mem.refreshFast = false ∧
    t.mem.refreshCap = false ∧ t.cfg.adopting = true := by
  have hadopt (v : State) : v.adoptSelf.cfg.adopting = true := rfl
  have hrun : (((s.startRecord r).coreRuns).startTrain r).mgt.core = 1 := by
    rw [State.startTrain_only _ _ .mgt (by decide)]; rfl
  obtain ⟨hrrs, hstep, ⟨hcore, hwdt⟩, hfast, hcap⟩ := State.startOpen_leaves (((s.startRecord r).coreRuns).startTrain r)
  generalize ((s.startRecord r).coreRuns).startTrain r = u at *
  obtain ⟨-, hlcore, hlwdt⟩ := u.startOpen.startLog_sameStart
  have hlog := u.startOpen.startLog_only
  have hself := u.startOpen.startLog.adoptSelf_only
  subst ht
  rw [hadopt, hself .hif (by decide), hself .pwr (by decide), hself .mgt (by decide), hself .mem (by decide), hlog .hif (by decide),
    hlog .pwr (by decide), hlog .mem (by decide), hlcore, hlwdt, hcore]
  exact ⟨hrrs, hstep, hrun, hwdt, hfast, hcap, rfl⟩

end

/-! READY. -/

theorem State.becomeReady_pwr (hp : s.pwr.off = 0) (hready : s.pwr.ready = false) (hrec : s.cfg.recovery = false)
    (hr : s.hif.rrs = false) : s.becomeReady.pwr = { s.pwr with ready := true, step := 8 } := by
  have hports (v : State) : OnlyChanges [.stats, .ctrs, .hif, .err, .fab] v (v.portsChange (·.fabReady)) := by simp
  rw [State.becomeReady, if_neg (by simp [hready, hrec, hr, State.powered_iff.2 hp]), hports _ .pwr (by decide),
    State.stepReached_pwr]

theorem State.byWrite_pwr (s : State) (f : State → State) : (s.byWrite f).pwr = (f s).pwr := by
  unfold State.byWrite
  dsimp only
  split <;> rfl

end

/-- Settles O25: POWER_ON by its fresh state and what step 4 finds in flash, START_UP_END and READY by what each stage leaves. -/
theorem startUpProceeds : Obligations.StartUpProceeds := by
  refine ⟨fun puf s h => ?powerOn, fun puf s hp h2 => next_congr (State.powerOn_unchanged hp h2), fun r s hp hr => ?startUpEnd,
    fun r s hr => next_congr (State.startUpEnd_over hr), fun s hb hready hrec hr => ?ready⟩
  case powerOn =>
    obtain ⟨⟨hoff, hcause⟩, ⟨hcore, hwdt⟩, hflash, hcqf, hmem, hpending⟩ := State.powerOn_leaves (s := s) (puf := puf) rfl
    refine ⟨_, next_congr (State.powerOn_boots h), hoff, hcause, hflash, hcore, hwdt, hcqf, hmem, hpending,
      fun hslot hfactory => State.powerOn_leaves_no_record hslot hfactory rfl, fun hrecord => State.powerBoot_step ?_⟩
    rwa [State.powerSteps_activeRecord, State.powerSteps_flash]
  case startUpEnd => exact ⟨_, next_congr (State.startUpEnd_opens hp hr), State.startUpEnd_leaves rfl⟩
  case ready =>
    refine ⟨s.barDo State.becomeReady, rfl, ?_⟩
    rw [State.barDo_open hb, State.byWrite_pwr, State.becomeReady_pwr (State.off_of_barOpen hb) hready hrec hr]
    exact ⟨rfl, rfl⟩

end Sys2Proof.Machine
end
